-- ==== Sys2Proof/Word.lean ====
section
/-! DEFINITION. Word.lean: the word types of the model and the one shape of its sparse tables. -/

namespace Sys2Proof

/-- One byte of memory or of a frame. -/
abbrev Byte := BitVec 8
/-- A 16-bit word. -/
abbrev W16 := BitVec 16
/-- A register of BAR0 and a program-store instruction word (R8, R156). -/
abbrev W32 := BitVec 32
/-- A scalar register, a time-base value and a 64-bit register pair (R8, R11, R153). -/
abbrev W64 := BitVec 64

/-- A sparse table: (key, value) pairs with strictly rising keys. -/
abbrev SMap (α : Type) := List (Nat × α)

end Sys2Proof
end

