-- ==== Sys2Proof/Types.lean ====
section
/-! DEFINITION. Types.lean: the fixed sets of names and the small records that commands and the state share: status codes
(R14), element formats (R40), requester classes (R34), fault classes and dispositions (R470, R477). -/

namespace Sys2Proof

/-- The status codes of R14. -/
inductive Status where
  | ok | okConcealed | empty
  | translationFault | protectionFault | descriptorInvalid | alignment
  | damagedBlock | tableStale | tableInvalid
  | memUncorrectable | memDetected | clkTimeout
  | peerTimeout | planAborted | programFault | watchdog | rejectedLimit | internal
deriving DecidableEq, Repr

/-- The 8-bit code of a status, by the table of R14. -/
def Status.code : Status → Nat
  | .ok => 0x00 | .okConcealed => 0x01 | .empty => 0x02
  | .translationFault => 0x10 | .protectionFault => 0x11 | .descriptorInvalid => 0x12 | .alignment => 0x13
  | .damagedBlock => 0x20 | .tableStale => 0x21 | .tableInvalid => 0x22
  | .memUncorrectable => 0x30 | .memDetected => 0x31 | .clkTimeout => 0x32
  | .peerTimeout => 0x40 | .planAborted => 0x41 | .programFault => 0x50 | .watchdog => 0x51
  | .rejectedLimit => 0x60 | .internal => 0xFF

/-- R15: a code from 0x00 to 0x02 reports completion. -/
def Status.completes (s : Status) : Bool := decide (s.code ≤ 0x02)

/-- The element formats of R40. -/
inductive Fmt where
  | e4m3 | e5m2 | bf16 | fp32 | i8s | i8u | i4s | i4u | i32
deriving DecidableEq, Repr

/-- The requester classes of a pseudo-channel, in the order of the table of R34. -/
inductive ReqClass where
  | link | array | media | ckpt | host
deriving DecidableEq, Repr

/-- The origin ports of register accesses (R8, R437). -/
inductive Port where
  | pcie | mgmt
deriving DecidableEq, Repr

/-- Who made a journaled change (R482). -/
inductive Origin where
  | pcie | mgmt | device
deriving DecidableEq, Repr

/-- Dispositions of a fault record (R477). -/
inductive Disp where
  | masked | reported | notice
deriving DecidableEq, Repr

/-- The classes of R470 that write a fault record. -/
inductive FaultClass where
  | arrCheck | arrRemap | arrRetired | sramUe | poolUe | hbmUe | hbmPcFailed | hbmThermal | scrubUe | t2Ue
  | damagedBlock | table | thread | clkTimeout | pllFailed | refLost | imageLoad
  | laneDrop | portDown | planEnd | meshRefused | intakeWrite | mediaWrite | host | internal | peatMem | journal
  | start | shortfall
deriving DecidableEq, Repr

/-- The class codes of R470. -/
def FaultClass.code : FaultClass → Nat
  | .arrCheck => 0x01 | .arrRemap => 0x02 | .arrRetired => 0x03 | .sramUe => 0x04 | .poolUe => 0x05
  | .hbmUe => 0x10 | .hbmPcFailed => 0x11 | .hbmThermal => 0x12 | .scrubUe => 0x13 | .t2Ue => 0x14
  | .damagedBlock => 0x20 | .table => 0x21 | .thread => 0x30 | .clkTimeout => 0x31 | .pllFailed => 0x32
  | .refLost => 0x33 | .imageLoad => 0x34 | .laneDrop => 0x40 | .portDown => 0x41 | .planEnd => 0x42
  | .meshRefused => 0x43 | .intakeWrite => 0x50 | .mediaWrite => 0x51 | .host => 0x60 | .internal => 0x70
  | .peatMem => 0x71 | .journal => 0x72 | .start => 0x78 | .shortfall => 0x79

/-- The clock domains that a CLK_TIMEOUT, PLL or reference record names (R478, CLK_LAST_TO_DOMAIN). -/
inductive ClkDomain where
  | aclk | mclk | fclk | phy
deriving DecidableEq, Repr

end Sys2Proof
end

