-- ==== Sys2Proof/Syntax.lean ====
section
/-! DEFINITION. Syntax.lean: the commands of the block, one constructor per row of the operation table, with the data types
their operands use. -/

namespace Sys2Proof

/-- The transports of the SPDM responder (R498). -/
inductive SpdmPort where
  | mctp | doe
deriving DecidableEq, Repr

/-- Answers of the SPDM responder (R497 to R499), as contents; their message formats are those of SPDM 1.2. -/
inductive SpdmResp where
  /-- Versions supported, as major × 16 + minor. -/
  | version (l : List Nat)
  /-- CERT_CAP, CHAL_CAP, MEAS_CAP with signature, MEAS_FRESH_CAP, and CTExponent. -/
  | capabilities (cert chal measSig measFresh : Bool) (ctExponent : Nat)
  /-- BaseAsymAlgo SM2 P256, BaseHashAlgo SM3-256, MeasurementHashAlgo SM3-256, DMTF measurement specification: chosen or not. -/
  | algorithms (sm2 sm3 measSm3 dmtf : Bool)
  /-- Digest of the chain of slot 0. -/
  | digests (d : List Byte)
  /-- A part of the chain of slot 0 and the bytes that remain after it. -/
  | certificate (part : List Byte) (rest : Nat)
  /-- CHALLENGE_AUTH of slot 0: the chain's digest, the requester's nonce, and the signature by the Alias key. -/
  | challengeAuth (digest nonce sig : List Byte)
  /-- The measurements asked for, as index and value, with the nonce and the signature where one was asked for. -/
  | measurements (l : List (Nat × List Byte)) (nonce sig : List Byte)
  /-- ERROR with an error code of SPDM 1.2: 0x01 InvalidRequest, 0x03 Busy, 0x04 UnexpectedRequest, 0x07 UnsupportedRequest. -/
  | error (code : Nat)
deriving DecidableEq, Repr

/-- What a JTAG access answers (R503). -/
inductive JtagOut where
  | idcode
  | bypass
  | scan (level : Nat)
  | reg (off : Nat) (val : BitVec 32)
deriving DecidableEq, Repr


/-- What the module sends or shows to the outside. -/
inductive Out where
  /-- An MSI-X message on a vector (R449, R450). -/
  | msix (vec : Nat)
  /-- The data of a register read on a port (R8). -/
  | regData (port : Port) (off : Nat) (val : W32)
  /-- An upstream write to host memory (R445 to R447, R486). -/
  | hostWrite (addr : Nat) (data : List Byte)
  /-- Completion of a BAR2 read: data, or Completer Abort where none (R433). -/
  | bar2Data (data : Option (List Byte))
  /-- Completion of a request served by a memory: requester, status, data (R78, R80). -/
  | memReply (rid : Nat) (st : Status) (data : List Byte)
  /-- A PFC frame of an Intake port: the priority it is for, and its quanta; 0 is XON (R279, R280). -/
  | pfc (port prio quanta : Nat)
  /-- A flit sent on a Causeway port, as its 64-bit header and its payload (R338, R343). -/
  | flit (port header : Nat) (payload : List Byte)
  /-- The INIT flit of a Causeway port: its MODULE_NUM, its number and its credits by channel (R353). -/
  | initFlit (port module : Nat) (creds : List Nat)
  /-- What a Causeway port tells its peer of receive lanes that have failed, a bit for each (R350). -/
  | laneDown (port mask : Nat)
  /-- Answer to a Nolivo command: completion code and data (R500, R501). -/
  | nolivo (code : Nat) (data : List Byte)
  /-- Answer to an SPDM request on a transport (R498). -/
  | spdm (tr : SpdmPort) (r : SpdmResp)
  /-- Answer to a configuration request: data, or Request Retry Status where none (R456). -/
  | config (data : Option W32)
  /-- Answer on the JTAG TDO (R503). -/
  | jtag (r : JtagOut)
  /-- An AER report (R431). -/
  | aer
deriving DecidableEq, Repr

/-- What an access of the HBM interface meets (R73, R77): nothing, one wrong symbol, two or more wrong symbols the code
finds, wrong symbols beyond the guaranteed cases that the code accepts or miscorrects, or a parity error of the command, address or write
data. -/
inductive HbmEvent where
  | clean | oneSymbol | manySymbols | silent | parity
deriving DecidableEq, Repr

/-- What a read of an SRAM, Pool or Peat-domain word meets: nothing, one wrong bit, two wrong bits (R88, R470). -/
inductive BitErr where
  | none | one | two
deriving DecidableEq, Repr

/-- The permission an access needs (R30). -/
inductive Perm where
  | r | w | x | rw
deriving DecidableEq, Repr

/-- A request at a pseudo-channel, a tier-2 package or an SRAM window: requester number, which gives its class (R34, R37), address, length, and
the data of a write. -/
structure MemReq where
  rid   : Nat
  pa    : Nat
  len   : Nat
  wdata : Option (List Byte)
deriving DecidableEq, Repr

/-- A register access of a port: BAR0 offset, value, and the requester ID or endpoint ID that R482 journals. -/
structure RegAcc where
  port : Port
  off  : Nat
  val  : W32
  rid  : Nat
deriving DecidableEq, Repr

/-- The kinds of operation a Pool bank serves (R89, R90). -/
inductive PoolOp where
  | read (len : Nat)
  | write (data : List Byte)
  | add (f : Fmt) (v : Nat)
  | max (f : Fmt) (v : Nat)
  | min (f : Fmt) (v : Nat)
  | swap (w : Nat) (v : Nat)
  | cas (cmp new : Nat)
  | semP
  | semV
  | redAdd (f : Fmt) (data : List Byte)
  | redMax (f : Fmt) (data : List Byte)
  | redMin (f : Fmt) (data : List Byte)
  | redPair (data : List Byte)
deriving DecidableEq, Repr

/-- A request at a Pool bank; `va` is the virtual address it was translated from, 0 for a physical access; `tok` is the token of an
asynchronous reduction plus 1, else 0; `cyc` the cycle it arrived in; `parked` marks a sem.p that found 0 and waits for its retry (R174). -/
structure PoolReq where
  rid : Nat
  va  : Nat
  pa  : Nat
  op  : PoolOp
  tok : Nat
  cyc : Nat
  parked : Bool
deriving DecidableEq, Repr


/-- Damage that only entropy decoding finds (R301): in a JPEG scan, at a byte, the unit (MCU, or block of a lone component) where no code
matches or an index passes 63; in an HEVC picture, at a byte, a run of CTUs with the POC of entry 0 of RefPicList0, none for an I slice. -/
inductive Damage where
  | jpeg (byte unit : Nat)
  | hevc (byte first last : Nat) (ref : Option Int)
deriving DecidableEq, Repr

/-- What entropy decoding of a JPEG or HEVC sample by its standard gives: the values of each plane at its coded size, row by row, before
concealment, and the damage in the order found (R287, R301). -/
structure DecodeIn where
  planes : List (List Nat)
  damage : List Damage
deriving DecidableEq, Repr


/-- What arrives on a Causeway port in one flit time: 256 bytes, a flit that the FEC lost, or the peer's DOWN signal (R338, R340, R352). -/
inductive FlitIn where
  | flit (raw : List Byte)
  | fecLost
  | peerDown
deriving DecidableEq, Repr



/-- What is seen of a Causeway lane (R350): it lost signal, block lock or alignment-marker lock; or the symbols that the FEC corrected on it
in a window of 10 µs. -/
inductive LaneCause where
  | lost
  | symbols (n : Nat)
deriving DecidableEq, Repr

/-- What is seen of one lane of a port (R350). -/
structure LaneEvent where
  lane  : Fin 4
  cause : LaneCause
deriving DecidableEq, Repr

/-- A temperature sensor with a trip comparator (R515, R516): a die, an HBM stack, a tier-2 package. -/
inductive Sensor where
  | die (n : Fin 4)
  | stack (n : Fin 32)
  | pkg (n : Fin 32)
deriving DecidableEq, Repr

/-- What a warm start finds when it checks its saved state (R460): valid, a digest that does not match, or a fuse image that no longer
matches the fuses. -/
inductive WarmCheck where
  | valid | digest | fuses
deriving DecidableEq, Repr

/-- The units whose control state has parity (R470). -/
inductive ParityUnit where
  | dispatcher | collective | lode | host | fabric
deriving DecidableEq, Repr

/-- What arrives on the JTAG port (R503): IDCODE, BYPASS, boundary scan, full scan, or a register read. -/
inductive JtagIns where
  | idcode
  | bypass
  | boundary
  | full
  | regRead (off : Nat)
deriving DecidableEq, Repr

/-- The commands: one constructor per row of the operation table. Thread rows carry the logical array and the thread; the
instruction word is fetched from the program store (R157, R175). -/
inductive Instr where
  /-- REGISTER_WRITE (R520) A host or management write to a 32-bit register that has no row of its own is checked against port rights and locks, then applied field by field. -/
  | registerWrite (a : RegAcc) (whole poison : Bool)
  /-- LO_HALF_WRITE (R8) A write to the _LO half of a 64-bit pair is held as the port's pending low half and changes nothing yet. -/
  | loHalfWrite (a : RegAcc)
  /-- HI_HALF_WRITE (R8) A write to the _HI half joins the port's pending low half and the whole 64-bit value takes effect at once, with one journal entry. -/
  | hiHalfWrite (a : RegAcc)
  /-- LO_HALF_READ (R8) A read of _LO returns the held value, captures the matching high half for the port, and clears the whole value in an RC pair. -/
  | loHalfRead (port : Port) (off : Nat)
  /-- RC_REGISTER_READ (R424) A read of an RC register returns its snapshot and clears it in its own domain. -/
  | rcRegisterRead (port : Port) (off : Nat)
  /-- TB_SET_WRITE (R427) A write to CLK_TB_SET_HI is accepted only while the dispatcher is disabled and schedules a time-base jump. -/
  | tbSetWrite (port : Port) (val : W32) (rid : W16)
  /-- TIME_BASE_JUMP (R427) At the next tick after an accepted CLK_TB_SET write, the time base takes the written value in place of its increment. -/
  | timeBaseJump
  /-- FCLASS_DATA_WRITE (R74) A write to MEM_FCLASS_DATA changes frame classes and starts conversion of the changed frames, setting FCLASS_BUSY. -/
  | fclassDataWrite (port : Port) (val : W32) (rid : W16)
  /-- FCLASS_CONVERSION_DONE (R74) A frame conversion finishes, releasing accesses that waited on it, and FCLASS_BUSY clears when the last one ends. -/
  | fclassConversionDone (frame : Fin 393216)
  /-- MMU_INV_GO (R33) MMU_INV_CTRL.GO starts an invalidation of the selected range, or is ignored with REJECTED while one is busy. -/
  | mmuInvGo (port : Port) (val : W32) (rid : W16)
  /-- MMU_INVALIDATION_DONE (R33) The invalidation finishes: cached translations of the range are gone, BUSY clears and DONE sets. -/
  | mmuInvalidationDone
  /-- TABLE_WALK (R92) The MMU walks the three-level tables for an access that missed its translation cache and returns a translation or a fault. -/
  | tableWalk (va : Fin 281474976710656) (need : Perm) (rid : W16)
  /-- HBM_ACCESS (R80) A pseudo-channel admits a request by class shares and serves it from its reorder queue, checking the frame's code on reads. -/
  | hbmAccess (pc : Fin 1024) (arrive : List MemReq) (pick : Nat) (ev : HbmEvent)
  /-- INTERFACE_RETRY (R77) A parity error on the HBM interface is retried within 1 µs, ahead of later requests to the same slot. -/
  | interfaceRetry (pc : Fin 1024) (fails : Bool)
  /-- SCRUB_READ (R79) The patrol scrubber reads the next class W word or tier-2 word, writing back correctable errors and recording uncorrectable ones. -/
  | scrubRead (tier2 : Bool) (ev : HbmEvent)
  /-- THERMAL_POLL (R81) Every 32 µs each HBM stack's temperature is polled and its thermal state updated. -/
  | thermalPoll (temps : List Nat)
  /-- TIER2_ACCESS (R84) An access to tier 2 is served by its package, waiting for fill or self-refresh exit where needed. -/
  | tier2Access (q : MemReq) (ev : HbmEvent)
  /-- SELF_REFRESH_ENTRY (R86) A tier-2 package without an access for 100 µs enters self-refresh. -/
  | selfRefreshEntry (pkg : Fin 32)
  /-- SELF_REFRESH_EXIT (R86) A tier-2 package completes its exit from self-refresh and serves the waiting access. -/
  | selfRefreshExit (pkg : Fin 32)
  /-- TIER2_FILL_DONE (R87) The initial tier-2 zero fill ends and T2_STATUS.READY is set. -/
  | tier2FillDone
  /-- SRAM_ACCESS (R18) An access to an array SRAM window is served by the array that carries it, waking the array if needed, or fails if the array is OFF. -/
  | sramAccess (q : MemReq) (ev : BitErr)
  /-- POOL_ACCESS (R91) A Pool bank picks one request per FCLK cycle by round robin and serves it. -/
  | poolAccess (bank : Fin 64) (arrive : List PoolReq) (ev : BitErr)
  /-- POOL_ATOMIC (R89) A Pool atomic reads, modifies and writes one element in one bank cycle, with same-element atomics merged in ascending requester number. -/
  | poolAtomic (bank : Fin 64) (arrive : List PoolReq) (ev : BitErr)
  /-- POOL_VECTOR_REDUCTION (R90) A Pool vector reduction combines 256 B into its aligned target in one bank cycle, merging same-target reductions. -/
  | poolVectorReduction (bank : Fin 64) (arrive : List PoolReq) (ev : BitErr)
  /-- CKP_ARM (R97) CKP_CTRL.ARM arms the checkpoint list to start at the next step boundary, or is refused with REJECTED. -/
  | ckpArm (port : Port) (val : W32) (rid : W16)
  /-- CKP_START (R97) CKP_CTRL.START starts the checkpoint list at once, or is refused with REJECTED. -/
  | ckpStart (port : Port) (val : W32) (rid : W16)
  /-- CHECKPOINT_FRAME_COPY (R96) The checkpoint engine finishes copying one 2 MiB frame and releases the Lode hold on it. -/
  | checkpointFrameCopy
  /-- WEIGHT_ROW_ENTRY (R106) A ready weight row enters the grid or Rush path for a stream. -/
  | weightRowEntry (a : Fin 96) (part : Fin 17)
  /-- OUTPUT_ROW_WRITE (R102) An output row leaves the grid and is written or added into accumulator memory. -/
  | outputRowWrite (a : Fin 96) (part : Fin 17) (flt : Option (Fin 256 × W32))
  /-- ROW_CHECK (R118) An output row's sum of partials is compared with its row reference. -/
  | rowCheck (a : Fin 96) (part : Fin 17) (bad : Bool)
  /-- COLUMN_CHECK (R118) After a group's last row, each lane's column sum is compared with its column reference and the block is corrected, recomputed or passed. -/
  | columnCheck (a : Fin 96) (part : Fin 17) (bad : Option (Fin 256))
  /-- RECOMPUTE_DONE (R120) A recomputed block is checked again and, when it passes, its partition resumes. -/
  | recomputeDone (a : Fin 96) (part : Fin 17) (again : Bool)
  /-- STREAM_BEGIN (R105) A stream that waited for an overlapping stream or a loading buffer starts. -/
  | streamBegin (a : Fin 96) (part : Fin 17)
  /-- TILE_LOAD_BEGIN (R99) A tile load that waited for the stream reading its buffer starts. -/
  | tileLoadBegin (a : Fin 96) (part : Fin 17)
  /-- TILE_LOAD_DONE (R101) A tile load completes when its last K-row and checksum column are in place. -/
  | tileLoadDone (a : Fin 96) (part : Fin 17) (buf : Fin 2)
  /-- PART_MODE_CHANGE (R115) An accepted partition-mode change takes effect after the issuer's operations complete, leaving partitions unowned and buffers never-loaded. -/
  | partModeChange (a : Fin 96)
  /-- INJECT_ELEM (R122) ARR_INJECT.ELEM arms one wrong output element in the next block of the chosen partition. -/
  | injectElem (port : Port) (val : W32) (rid : W16)
  /-- INJECT_CKCOL (R122) ARR_INJECT.CKCOL arms one wrong checksum-column entry in the next block of the chosen partition. -/
  | injectCkcol (port : Port) (val : W32) (rid : W16)
  /-- ARRAY_FENCE (R124) A failing array's weight stream and X port stop, its threads halt and no further writes issue. -/
  | arrayFence (phys : Fin 100)
  /-- ARRAY_REMAP (R123) The failing array's logical number moves to the lowest free spare, redirection takes effect and the old array is retired to OFF. -/
  | arrayRemap (phys : Fin 100)
  /-- SPARE_IN_RUN (R124) The spare wakes from RET into RUN ready to take the interrupted work. -/
  | spareInRun (phys : Fin 100)
  /-- EXPANDER_FETCH (R144) Block data fetched ahead by the expander arrives from memory. -/
  | expanderFetch (a : Fin 96) (part : Fin 17)
  /-- BLOCK_DECODE (R145) An expander lane finishes decoding a CMPR block and passes it to the look-ahead buffer in stream order. -/
  | blockDecode (a : Fin 96) (lane : Fin 32)
  /-- TABLE_BIND_DONE (R141) Binding reads return, tables are validated and cached, or the item fails with the first table status. -/
  | tableBindDone (item : W64)
  /-- EXP_FLUSH (R142) EXP_CTRL.FLUSH empties every unpinned table-cache entry on every array. -/
  | expFlush (port : Port) (val : W32) (rid : W16)
  /-- ADD (R161) Scalar add of two registers. -/
  | add (a : Fin 96) (t : Fin 64)
  /-- SUB (R161) Scalar subtract of two registers. -/
  | sub (a : Fin 96) (t : Fin 64)
  /-- AND (R161) Scalar bitwise AND of two registers. -/
  | andR (a : Fin 96) (t : Fin 64)
  /-- OR (R161) Scalar bitwise OR of two registers. -/
  | orR (a : Fin 96) (t : Fin 64)
  /-- XOR (R161) Scalar bitwise XOR of two registers. -/
  | xorR (a : Fin 96) (t : Fin 64)
  /-- SHL (R161) Scalar shift left by a register amount. -/
  | shl (a : Fin 96) (t : Fin 64)
  /-- SHR (R161) Scalar logical shift right by a register amount. -/
  | shr (a : Fin 96) (t : Fin 64)
  /-- SAR (R161) Scalar arithmetic shift right by a register amount. -/
  | sar (a : Fin 96) (t : Fin 64)
  /-- MUL (R161) Low 64 bits of a scalar product. -/
  | mul (a : Fin 96) (t : Fin 64)
  /-- MULH (R161) High 64 bits of a signed scalar product. -/
  | mulh (a : Fin 96) (t : Fin 64)
  /-- MULHU (R161) High 64 bits of an unsigned scalar product. -/
  | mulhu (a : Fin 96) (t : Fin 64)
  /-- MIN (R161) Signed scalar minimum. -/
  | minR (a : Fin 96) (t : Fin 64)
  /-- MAX (R161) Signed scalar maximum. -/
  | maxR (a : Fin 96) (t : Fin 64)
  /-- MINU (R161) Unsigned scalar minimum. -/
  | minu (a : Fin 96) (t : Fin 64)
  /-- MAXU (R161) Unsigned scalar maximum. -/
  | maxu (a : Fin 96) (t : Fin 64)
  /-- ADDI (R161) Scalar add of a register and an immediate. -/
  | addi (a : Fin 96) (t : Fin 64)
  /-- SUBI (R161) Scalar subtract of an immediate. -/
  | subi (a : Fin 96) (t : Fin 64)
  /-- ANDI (R161) Scalar AND with an immediate. -/
  | andi (a : Fin 96) (t : Fin 64)
  /-- ORI (R161) Scalar OR with an immediate. -/
  | ori (a : Fin 96) (t : Fin 64)
  /-- XORI (R161) Scalar XOR with an immediate. -/
  | xori (a : Fin 96) (t : Fin 64)
  /-- SHLI (R161) Scalar shift left by an immediate. -/
  | shli (a : Fin 96) (t : Fin 64)
  /-- SHRI (R161) Scalar logical shift right by an immediate. -/
  | shri (a : Fin 96) (t : Fin 64)
  /-- SARI (R161) Scalar arithmetic shift right by an immediate. -/
  | sari (a : Fin 96) (t : Fin 64)
  /-- MULI (R161) Low 64 bits of a product with an immediate. -/
  | muli (a : Fin 96) (t : Fin 64)
  /-- MULHI (R161) High 64 bits of a signed product with an immediate. -/
  | mulhi (a : Fin 96) (t : Fin 64)
  /-- MULHUI (R161) High 64 bits of an unsigned product with an immediate. -/
  | mulhui (a : Fin 96) (t : Fin 64)
  /-- MINI (R161) Signed minimum with an immediate. -/
  | mini (a : Fin 96) (t : Fin 64)
  /-- MAXI (R161) Signed maximum with an immediate. -/
  | maxi (a : Fin 96) (t : Fin 64)
  /-- MINUI (R161) Unsigned minimum with an immediate. -/
  | minui (a : Fin 96) (t : Fin 64)
  /-- MAXUI (R161) Unsigned maximum with an immediate. -/
  | maxui (a : Fin 96) (t : Fin 64)
  /-- CMP_EQ (R162) Sets a predicate when two registers are equal. -/
  | cmpEq (a : Fin 96) (t : Fin 64)
  /-- CMP_NE (R162) Sets a predicate when two registers differ. -/
  | cmpNe (a : Fin 96) (t : Fin 64)
  /-- CMP_LT (R162) Sets a predicate on signed less-than. -/
  | cmpLt (a : Fin 96) (t : Fin 64)
  /-- CMP_LTU (R162) Sets a predicate on unsigned less-than. -/
  | cmpLtu (a : Fin 96) (t : Fin 64)
  /-- CMP_GE (R162) Sets a predicate on signed greater-or-equal. -/
  | cmpGe (a : Fin 96) (t : Fin 64)
  /-- CMP_GEU (R162) Sets a predicate on unsigned greater-or-equal. -/
  | cmpGeu (a : Fin 96) (t : Fin 64)
  /-- CMPI_EQ (R162) Sets a predicate when a register equals an immediate. -/
  | cmpiEq (a : Fin 96) (t : Fin 64)
  /-- CMPI_NE (R162) Sets a predicate when a register differs from an immediate. -/
  | cmpiNe (a : Fin 96) (t : Fin 64)
  /-- CMPI_LT (R162) Signed less-than against an immediate. -/
  | cmpiLt (a : Fin 96) (t : Fin 64)
  /-- CMPI_LTU (R162) Unsigned less-than against an immediate. -/
  | cmpiLtu (a : Fin 96) (t : Fin 64)
  /-- CMPI_GE (R162) Signed greater-or-equal against an immediate. -/
  | cmpiGe (a : Fin 96) (t : Fin 64)
  /-- CMPI_GEU (R162) Unsigned greater-or-equal against an immediate. -/
  | cmpiGeu (a : Fin 96) (t : Fin 64)
  /-- PLOG (R162) Computes a predicate from two predicates by a truth table. -/
  | plog (a : Fin 96) (t : Fin 64)
  /-- BR (R163) Branches by a word offset. -/
  | br (a : Fin 96) (t : Fin 64)
  /-- CALL (R163) Writes the return address and branches by an offset. -/
  | call (a : Fin 96) (t : Fin 64)
  /-- JR (R163) Jumps to the address in a register. -/
  | jr (a : Fin 96) (t : Fin 64)
  /-- CALLR (R163) Writes the return address and jumps to a register address. -/
  | callr (a : Fin 96) (t : Fin 64)
  /-- BNZ_DEC (R163) Decrements a register and branches while it is not zero. -/
  | bnzDec (a : Fin 96) (t : Fin 64)
  /-- LD_B (R164) Loads one byte, zero-extended. -/
  | ldB (a : Fin 96) (t : Fin 64)
  /-- LD_H (R164) Loads two bytes, zero-extended. -/
  | ldH (a : Fin 96) (t : Fin 64)
  /-- LD_W (R164) Loads four bytes, zero-extended. -/
  | ldW (a : Fin 96) (t : Fin 64)
  /-- LD_D (R164) Loads eight bytes. -/
  | ldD (a : Fin 96) (t : Fin 64)
  /-- LD_BS (R164) Loads one byte, sign-extended. -/
  | ldBs (a : Fin 96) (t : Fin 64)
  /-- LD_HS (R164) Loads two bytes, sign-extended. -/
  | ldHs (a : Fin 96) (t : Fin 64)
  /-- LD_WS (R164) Loads four bytes, sign-extended. -/
  | ldWs (a : Fin 96) (t : Fin 64)
  /-- ST_B (R164) Posts a store of one byte. -/
  | stB (a : Fin 96) (t : Fin 64)
  /-- ST_H (R164) Posts a store of two bytes. -/
  | stH (a : Fin 96) (t : Fin 64)
  /-- ST_W (R164) Posts a store of four bytes. -/
  | stW (a : Fin 96) (t : Fin 64)
  /-- ST_D (R164) Posts a store of eight bytes. -/
  | stD (a : Fin 96) (t : Fin 64)
  /-- LD_DESC (R164) Loads a 64-byte tensor descriptor into a descriptor register. -/
  | ldDesc (a : Fin 96) (t : Fin 64)
  /-- ST_DESC (R164) Stores a descriptor register as 64 bytes. -/
  | stDesc (a : Fin 96) (t : Fin 64)
  /-- DSET_BASE (R164) Sets the base field of a descriptor register from a scalar. -/
  | dsetBase (a : Fin 96) (t : Fin 64)
  /-- DADD_BASE (R164) Adds a scalar and an immediate to a descriptor's base field. -/
  | daddBase (a : Fin 96) (t : Fin 64)
  /-- LOAD_DATA_RETURN (R165) Data of a scalar load or atomic returns and the waiting thread leaves WAIT, or it halts on a failing status. -/
  | loadDataReturn (a : Fin 96) (t : Fin 64) (ev : BitErr)
  /-- ATOM_ADD_F32 (R167) Issues an FP32 atomic add to the Pool. -/
  | atomAddF32 (a : Fin 96) (t : Fin 64)
  /-- ATOM_ADD_BF16 (R167) Issues a BF16 atomic add to the Pool. -/
  | atomAddBf16 (a : Fin 96) (t : Fin 64)
  /-- ATOM_ADD_I32 (R167) Issues an INT32 atomic add to the Pool. -/
  | atomAddI32 (a : Fin 96) (t : Fin 64)
  /-- ATOM_MAX_F32 (R167) Issues an FP32 atomic max. -/
  | atomMaxF32 (a : Fin 96) (t : Fin 64)
  /-- ATOM_MAX_BF16 (R167) Issues a BF16 atomic max. -/
  | atomMaxBf16 (a : Fin 96) (t : Fin 64)
  /-- ATOM_MAX_I32 (R167) Issues an INT32 atomic max. -/
  | atomMaxI32 (a : Fin 96) (t : Fin 64)
  /-- ATOM_MIN_F32 (R167) Issues an FP32 atomic min. -/
  | atomMinF32 (a : Fin 96) (t : Fin 64)
  /-- ATOM_MIN_BF16 (R167) Issues a BF16 atomic min. -/
  | atomMinBf16 (a : Fin 96) (t : Fin 64)
  /-- ATOM_MIN_I32 (R167) Issues an INT32 atomic min. -/
  | atomMinI32 (a : Fin 96) (t : Fin 64)
  /-- ATOM_SWAP_W (R167) Issues a 32-bit atomic swap. -/
  | atomSwapW (a : Fin 96) (t : Fin 64)
  /-- ATOM_SWAP_D (R167) Issues a 64-bit atomic swap. -/
  | atomSwapD (a : Fin 96) (t : Fin 64)
  /-- ATOM_CAS_D (R167) Issues a 64-bit compare-and-swap. -/
  | atomCasD (a : Fin 96) (t : Fin 64)
  /-- RED (R168) Issues an asynchronous 256 B vector reduction from local memory into a Pool target. -/
  | red (a : Fin 96) (t : Fin 64)
  /-- SYNC_WAIT (R171) Waits for a named asynchronous operation and returns its status. -/
  | syncWait (a : Fin 96) (t : Fin 64)
  /-- SYNC_TEST (R171) Sets a predicate when a named operation has completed, without waiting. -/
  | syncTest (a : Fin 96) (t : Fin 64)
  /-- SYNC_WAITALL (R171) Waits for every issued operation of the thread and returns FAIL. -/
  | syncWaitall (a : Fin 96) (t : Fin 64)
  /-- SYNC_FENCE (R171) Waits for earlier operations of the selected units. -/
  | syncFence (a : Fin 96) (t : Fin 64)
  /-- SYNC_BAR (R173) Arrives at a barrier, waiting until the count is reached, when all arrivals are released. -/
  | syncBar (a : Fin 96) (t : Fin 64)
  /-- SYNC_SEM_P (R174) Decrements a Pool semaphore word when positive, otherwise waits. -/
  | syncSemP (a : Fin 96) (t : Fin 64)
  /-- SEM_RETRY (R174) A waiting sem.p is retried when its word is written or at least every 1 µs. -/
  | semRetry (a : Fin 96) (t : Fin 64)
  /-- SYNC_SEM_V (R174) Increments a Pool semaphore word, saturating. -/
  | syncSemV (a : Fin 96) (t : Fin 64)
  /-- SGET (R155) Copies one item of thread identity or state into a scalar register. -/
  | sget (a : Fin 96) (t : Fin 64)
  /-- TRAP (R177) Halts the thread with PROGRAM_FAULT and a trap code. -/
  | trap (a : Fin 96) (t : Fin 64)
  /-- HALT (R177) Ends the thread normally and moves it to DRAIN. -/
  | halt (a : Fin 96) (t : Fin 64)
  /-- NOP (R177) Has no effect. -/
  | nop (a : Fin 96) (t : Fin 64)
  /-- ILLEGAL_INSTRUCTION (R160) An illegal encoding halts its thread with PROGRAM_FAULT when it issues, whatever its guard. -/
  | illegalInstruction (a : Fin 96) (t : Fin 64)
  /-- ASYNC_OP_COMPLETE (R170) An asynchronous operation's token completes in issue order within its unit, with its status in the token window. -/
  | asyncOpComplete (a : Fin 96) (t : Fin 64) (unit : Fin 11)
  /-- ITEM_THREADS_HALT (R179) Within 1 µs of a thread fault the dispatcher halts every other thread of the item. -/
  | itemThreadsHalt (item : BitVec 64)
  /-- WAIT_LIMIT_EXPIRY (R180) A thread whose continuous WAIT exceeds its wait limit halts with WATCHDOG. -/
  | waitLimitExpiry (a : Fin 96) (t : Fin 64)
  /-- RUN_LIMIT_EXPIRY (R180) A thread running longer than its run limit halts with WATCHDOG. -/
  | runLimitExpiry (a : Fin 96) (t : Fin 64)
  /-- DMA_COPY (R207) Queues a descriptor-to-descriptor copy with optional format change. -/
  | dmaCopy (a : Fin 96) (t : Fin 64)
  /-- DMA_GATHER (R209) Queues a copy whose outer source index comes from an index list. -/
  | dmaGather (a : Fin 96) (t : Fin 64)
  /-- DMA_SCATTER (R210) Queues a copy whose outer destination index comes from an index list. -/
  | dmaScatter (a : Fin 96) (t : Fin 64)
  /-- DMA_FILL (R211) Queues a fill of a destination with its PADVAL. -/
  | dmaFill (a : Fin 96) (t : Fin 64)
  /-- DMA_PROG (R212) Queues a copy of a program image into the array's program store. -/
  | dmaProg (a : Fin 96) (t : Fin 64)
  /-- DMA_TRANSFER_START (R213) The descriptor engine takes a queued transfer, checks its descriptors and starts its accesses. -/
  | dmaTransferStart (a : Fin 96)
  /-- MXM_LOAD (R227) Loads a tile into a buffer of a grid partition, taking ownership of the partition. -/
  | mxmLoad (a : Fin 96) (t : Fin 64)
  /-- MXM_STREAM (R228) Streams weight rows against a grid tile into accumulator rows. -/
  | mxmStream (a : Fin 96) (t : Fin 64)
  /-- MXM_PART (R230) Requests a change of the grid's partition mode. -/
  | mxmPart (a : Fin 96) (t : Fin 64)
  /-- MV_LOAD (R231) Loads the Rush path tile register after earlier Rush streams complete. -/
  | mvLoad (a : Fin 96) (t : Fin 64)
  /-- MV_STREAM (R231) Streams weight rows through the Rush path into accumulator lanes. -/
  | mvStream (a : Fin 96) (t : Fin 64)
  /-- VEC_ALU (R233) Element-wise vector arithmetic selected by SUB, with conversion to the destination. -/
  | vecAlu (a : Fin 96) (t : Fin 64)
  /-- VEC_MATH (R232) Element-wise reciprocal, square root or reciprocal square root. -/
  | vecMath (a : Fin 96) (t : Fin 64)
  /-- VEC_ACT (R237) Applies an activation function element-wise. -/
  | vecAct (a : Fin 96) (t : Fin 64)
  /-- VEC_DACT_OUT (R237) Multiplies a gradient by the activation derivative computed from the saved output. -/
  | vecDactOut (a : Fin 96) (t : Fin 64)
  /-- VEC_DACT_IN (R237) Multiplies a gradient by the activation derivative computed from the saved input. -/
  | vecDactIn (a : Fin 96) (t : Fin 64)
  /-- VEC_RED (R235) Reduces dimension 0 by sum, max, min, sum of squares or non-finite count in a fixed tree order. -/
  | vecRed (a : Fin 96) (t : Fin 64)
  /-- ROW_NORM (R241) Normalises rows by LayerNorm or RMS and writes their statistics. -/
  | rowNorm (a : Fin 96) (t : Fin 64)
  /-- ROW_DNORM (R241) Computes the normalisation gradient from saved output and statistics. -/
  | rowDnorm (a : Fin 96) (t : Fin 64)
  /-- ROW_SOFTMAX (R241) Computes row softmax and writes its statistics. -/
  | rowSoftmax (a : Fin 96) (t : Fin 64)
  /-- ROW_DSOFTMAX (R241) Computes the softmax gradient from saved output or saved input and statistics. -/
  | rowDsoftmax (a : Fin 96) (t : Fin 64)
  /-- ROW_TOPK (R242) Selects the K largest elements of each row with their indices, optionally as gate weights. -/
  | rowTopk (a : Fin 96) (t : Fin 64)
  /-- ROW_TAG (R244) Allocates statistics slots to a tag from the side memory or the spill region. -/
  | rowTag (a : Fin 96) (t : Fin 64)
  /-- ROW_TRESET (R246) After earlier row operations complete, frees every tag and resets both pointers. -/
  | rowTreset (a : Fin 96) (t : Fin 64)
  /-- ROW_SPILL (R245) Sets or removes the statistics spill region. -/
  | rowSpill (a : Fin 96) (t : Fin 64)
  /-- COLL_PLAN (R358) Submits a collective plan to be read, checked and run in a plan slot. -/
  | collPlan (a : Fin 96) (t : Fin 64)
  /-- COLL_SLOT (R388) Waits until a gather fetch has landed and is visible. -/
  | collSlot (a : Fin 96) (t : Fin 64)
  /-- COLL_DONE (R388) Marks a gather fetch index done, allowing further fetches and queuing any RELEASE. -/
  | collDone (a : Fin 96) (t : Fin 64)
  /-- MED_SUBMIT (R315) Submits a sample from a descriptor to a decode context with source 0. -/
  | medSubmit (a : Fin 96) (t : Fin 64)
  /-- MED_RELEASE (R306) Releases an HEVC frame buffer marked OUT. -/
  | medRelease (a : Fin 96) (t : Fin 64)
  /-- MED_ADVANCE (R315) Advances a context's OUT_RD_PTR from a kernel program. -/
  | medAdvance (a : Fin 96) (t : Fin 64)
  /-- INTAKE_FRAME_RECEIVE (R272) A received Ethernet frame is checked and accepted into Sluice or dropped and counted. -/
  | intakeFrameReceive (port : Fin 2) (frame : List Byte)
  /-- XOFF_REPEAT (R280) Every 40 µs while the fill stays high, or while the port is disabled with link up, XOFF is sent again. -/
  | xoffRepeat (port : Fin 2)
  /-- SLUICE_DRAIN (R275) Reassembly drains the frame at the head of Sluice into its stream's staging ring when the ring has room. -/
  | sluiceDrain (port : Fin 2)
  /-- SAMPLE_RECORD_VISIBLE (R277) WR_PTR moves past a sample once its record and data are visible. -/
  | sampleRecordVisible (port : Fin 2) (stream : Fin 256)
  /-- INTAKE_LINK_UP (R283) An Intake link comes up and flow control starts from the current fill. -/
  | intakeLinkUp (port : Fin 2)
  /-- INTAKE_LINK_DOWN (R285) An Intake link goes down; Sluice drains and open samples end SHORT. -/
  | intakeLinkDown (port : Fin 2)
  /-- INTAKE_ENABLE (R284) A write of EN = 1 is checked, and if accepted the port sends XON and begins accepting frames. -/
  | intakeEnable (port : Port) (val : W32) (rid : W16)
  /-- INTAKE_DISABLE (R285) A write of EN = 0 sends XOFF within 8 ns and begins draining Sluice. -/
  | intakeDisable (port : Port) (val : W32) (rid : W16)
  /-- ITK_RD_PTR_WRITE (R277) A host write advances a staging ring's RD_PTR to free space, or is ignored if misaligned or bound to a context. -/
  | itkRdPtrWrite (port : Port) (val : W32) (rid : W16)
  /-- CONTEXT_ENABLE (R290) A write of EN = 1 to a decode context is checked and, if accepted, reserves frame buffers and starts admission. -/
  | contextEnable (port : Port) (val : W32) (rid : W16)
  /-- CONTEXT_DISABLE (R291) A write of EN = 0 stops admission while admitted samples finish. -/
  | contextDisable (port : Port) (val : W32) (rid : W16)
  /-- IN_WR_PTR_WRITE (R289) Host software advances a context's input ring write pointer, making samples available. -/
  | inWrPtrWrite (port : Port) (val : W32) (rid : W16)
  /-- OUT_RD_PTR_WRITE (R295) Host software advances a context's OUT_RD_PTR, or is refused when BSTREAM is set. -/
  | outRdPtrWrite (port : Port) (val : W32) (rid : W16)
  /-- SAMPLE_ADMIT (R292) A waiting sample is admitted to its context, taking ADMIT_TICK and a batch slot. -/
  | sampleAdmit (ctx : Fin 1024)
  /-- DECODE_START (R293) The lowest idle core of the matching engine takes the oldest eligible admitted sample. -/
  | decodeStart (eng : Fin 5)
  /-- SAMPLE_HEADER_READ (R298) A core has read the sample header and runs the early-rejection checks in order; where it cannot read the whole
  sample, it has read the first `head` bytes. -/
  | sampleHeaderRead (core : Fin 72) (head : Nat)
  /-- AREA_RESERVE (R295) The core reserves the sample's output area in admission order once space exists. -/
  | areaReserve (core : Fin 72)
  /-- FRAME_BUFFER_ACQUIRE (R306) An HEVC picture takes the lowest unmarked buffer of its reservation, switching context while none is free;
  `refs` are the POCs of the pictures that it predicts from. -/
  | frameBufferAcquire (core : Fin 72) (refs : List Int)
  /-- SOURCE_READ_DONE (R294) Once a core has read a sample's last byte the source read pointer advances past it. -/
  | sourceReadDone (core : Fin 72)
  /-- DECODE_DONE (R296) A sample's decode ends and its record is written with status, geometry and extents. -/
  | decodeDone (core : Fin 72) (d : DecodeIn)
  /-- OUTPUT_RECORD_VISIBLE (R295) OUT_WR_PTR moves past an area once it and all earlier areas are visible. -/
  | outputRecordVisible (ctx : Fin 1024)
  /-- MED_FB_RELEASE (R306) A host write releases an HEVC frame buffer marked OUT, or sets RELEASE_ERR. -/
  | medFbRelease (port : Port) (val : W32) (rid : W16)
  /-- TOK_LOAD (R312) TOK_LOAD starts loading and validating a tokeniser set once no text sample of it is decoding. -/
  | tokLoad (port : Port) (set : Fin 2) (val : W32) (rid : W16)
  /-- TOK_LOAD_DONE (R312) The tokeniser load ends, installing the tables or reporting failure with TOK_ERR. -/
  | tokLoadDone (set : Fin 2)
  /-- POSITION_ASSIGN (R320) A classified sample takes the next position of its bucket's open batch, opening a batch in a free buffer if needed. -/
  | positionAssign (stream : Fin 64)
  /-- SAMPLE_COMPOSE_DONE (R322) A sample's data and mask are written into its batch buffer, freeing its slot and advancing the ring. -/
  | sampleComposeDone (stream : Fin 64) (bucket : Fin 16)
  /-- BATCH_OFFER (R321) A closed batch is offered to the dispatcher once its data, masks and header are visible. -/
  | batchOffer (stream : Fin 64)
  /-- FLUSH_WINDOW_END (R323) An open batch's flush window ends and its remaining positions are filled as fillers. -/
  | flushWindowEnd (stream : Fin 64) (bucket : Fin 16)
  /-- FLUSH (R323) The stream's FLUSH bit flushes every open batch of the stream at once. -/
  | flush (port : Port) (val : W32) (rid : W16)
  /-- STREAM_ENABLE (R335) A write of EN = 1 to a batch stream is checked and, if accepted, starts its buckets empty. -/
  | streamEnable (port : Port) (val : W32) (rid : W16)
  /-- STREAM_DISABLE (R324) A write of EN = 0 stops admission, places admitted samples, flushes open batches and sets DRAINED. -/
  | streamDisable (port : Port) (val : W32) (rid : W16)
  /-- BAT_RELEASE (R325) A host write releases a closed batch buffer, or sets CFG_ERR if it is free or open. -/
  | batRelease (port : Port) (val : W32) (rid : W16)
  /-- FLIT_RECEIVE (R339) A flit arrives and is checked for CRC and sequence, then delivered, forwarded or discarded. -/
  | flitReceive (p : Fin 12) (f : FlitIn)
  /-- NAK_REPEAT (R340) Every 2 µs while the receiver keeps discarding, a further NAK is sent. -/
  | nakRepeat (p : Fin 12)
  /-- FLIT_TRANSMIT (R343) Each transfer cycle the port sends a CTRL flit, another VC's flit, or an IDLE, carrying ACK and credits. -/
  | flitTransmit (p : Fin 12)
  /-- LANE_FAILURE (R350) A lane loses signal or lock, or exceeds its symbol error limit in a 10 µs window. -/
  | laneFailure (p : Fin 12) (tx : Bool) (ev : LaneEvent)
  /-- LANE_DROP (R351) A detected lane failure holds transmission and drops the lane, keeping the retry buffer. -/
  | laneDrop (p : Fin 12)
  /-- PORT_DEGRADED (R351) Remaining lanes finish retraining and unacknowledged flits are resent. -/
  | portDegraded (p : Fin 12)
  /-- LINK_SILENCE_TIMEOUT (R352) No flit arrives for 10 µs on an active port. -/
  | linkSilenceTimeout (p : Fin 12)
  /-- PORT_ENABLE (R353) A write of EN = 1 to a Causeway port, checked for credits, starts training. -/
  | portEnable (port : Port) (val : W32) (rid : W16)
  /-- PORT_TRAINED (R353) A port finishes training and exchanges INIT flits. -/
  | portTrained (p : Fin 12) (peerModule : BitVec 12) (peerPort : BitVec 4) (creds : List Nat) (rtt : W16)
  /-- PORT_DISABLE (R354) A write of EN = 0 stops new messages while resends continue. -/
  | portDisable (port : Port) (val : W32) (rid : W16)
  /-- PORT_OFF (R354) 20 µs after disable the port becomes OFF and unacknowledged flits are lost. -/
  | portOff (p : Fin 12)
  /-- WINDOW_ENABLE (R349) A write of WIN_EN enables a mesh window, or is refused for a bad range or size. -/
  | windowEnable (port : Port) (val : W32) (rid : W16)
  /-- PLAN_START (R358) A checked plan takes a free plan slot and begins, or completes at once with a check failure or abort-list hit. -/
  | planStart
  /-- PLAN_STEP_START (R359) A plan step whose dependency has completed begins its sends, receives or update. -/
  | planStepStart (slot : Fin 64)
  /-- CHUNK_ARRIVE (R361) An arriving chunk is matched to a receiving step, stored early, or discarded, and reduced or forwarded. -/
  | chunkArrive (p : Fin 12)
  /-- PLAN_STEP_COMPLETE (R359) A step completes when its writes are visible and its sends acknowledged, completing the plan with its last step. -/
  | planStepComplete (slot : Fin 64)
  /-- FETCH_REQUEST_RECEIVE (R369) An owner serves a FETCH from its group table and sends a reply or FETCH_FAIL. -/
  | fetchRequestReceive (p : Fin 12)
  /-- FETCH_REPLY_ARRIVE (R368) A fetch reply lands in its slot of the gather ring. -/
  | fetchReplyArrive (p : Fin 12)
  /-- FETCH_FAIL_RECEIVE (R368) A FETCH_FAIL fails the fetch and ends the local gather plan. -/
  | fetchFailReceive (p : Fin 12)
  /-- RELEASE_RECEIVE (R378) A RELEASE lowers a reader count, letting held update steps run when it reaches zero. -/
  | releaseReceive (p : Fin 12)
  /-- SLOW_RECEIVE (R382) A SLOW message records the sender's factor F, lengthening running waits when it rises. -/
  | slowReceive (p : Fin 12)
  /-- SLOW_SEND (R382) Within 10 µs of a thermal change the engine sends SLOW with its new F to its plan participants. -/
  | slowSend
  /-- PEER_TIMEOUT_EXPIRY (R383) A waiting step's timeout window ends without a flit, ending the plan with PEER_TIMEOUT. -/
  | peerTimeoutExpiry (slot : Fin 64) (step : Fin 4096)
  /-- ABORT_RECEIVE (R384) An ABORT ends the running plan with PLAN_ABORTED or enters the abort list. -/
  | abortReceive (p : Fin 12)
  /-- LODE_UPDATE_START (R376) A runnable update step starts running its Lode program over its elements. -/
  | lodeUpdateStart
  /-- LODE_UPDATE_WRITTEN (R381) An update step finishes writing, advancing VER when it is the group's last. -/
  | lodeUpdateWritten
  /-- VER_WRITE (R378) A host write sets a group's version, or is ignored with CFG_ERR while a step is held or running. -/
  | verWrite (port : Port) (val : W32) (rid : W16)
  /-- NOP_ENTRY (R444) A NOP submission entry completes with OK. -/
  | nopEntry (q : Fin 256)
  /-- WORK_ENTRY (R391) A WORK submission entry is checked and joins its step graph, or completes with DESCRIPTOR_INVALID. -/
  | workEntry (q : Fin 256)
  /-- COPY_ENTRY (R445) A COPY submission entry starts moving data between host and device memory. -/
  | copyEntry (q : Fin 256)
  /-- COPY_COMPLETE (R445) A copy ends with OK or a failure status. -/
  | copyComplete (q : Fin 256) (data : List Byte) (good : Bool)
  /-- BARRIER_ENTRY (R444) A BARRIER entry holds later entries of its queue until earlier ones complete, then completes. -/
  | barrierEntry (q : Fin 256)
  /-- SUBMISSION_TAKE (R443) The host interface takes an available entry once a completion slot can be reserved. -/
  | submissionTake (entry : Option (List Byte))
  /-- ITEM_START (R400) A ready item is placed on an eligible array, which is woken, and its image load begins. -/
  | itemStart (item : W64)
  /-- IMAGE_LOAD_DONE (R394) The program image is in place and the item's threads start, or the load fails with IMAGE_LOAD. -/
  | imageLoadDone (item : W64)
  /-- WORK_ITEM_COMPLETE (R177) When all threads are DONE and writes visible the item completes, or is replayed. -/
  | workItemComplete (item : W64)
  /-- REPLAY_START (R473) A REPLAYABLE item's replay starts on the same logical array after its failed attempt's operations end. -/
  | replayStart (item : W64)
  /-- STEP_BOUNDARY (R398) The step boundary is recorded, shares change, an armed checkpoint starts and the next step opens. -/
  | stepBoundary
  /-- MEASUREMENT_WINDOW_END (R404) A branch-cost measurement window completes and its charges count toward M_b. -/
  | measurementWindowEnd
  /-- DISPATCHER_ENABLE (R409) A write of DSP_CTRL.EN = 1 resumes the dispatcher or, when idle, enables it with the PIN_COUNT shares. -/
  | dispatcherEnable (port : Port) (val : W32) (rid : W16)
  /-- DISPATCHER_DISABLE (R522) A write of DSP_CTRL.EN = 0 stops taking entries and starting items. -/
  | dispatcherDisable (port : Port) (val : W32) (rid : W16)
  /-- ARRAY_IDLE_ENTRY (R411) An array without threads or accesses for IDLE_CYC cycles enters IDLE. -/
  | arrayIdleEntry (phys : Fin 100)
  /-- ARRAY_RET_ENTRY (R411) An array IDLE for RET_TICKS enters RET. -/
  | arrayRetEntry (phys : Fin 100)
  /-- ACLK_PLL_STOP (R411) After every array has been IDLE or lower for PLL_OFF_TICKS the ACLK PLL stops. -/
  | aclkPllStop
  /-- ARRAY_WAKE_DONE (R410) An array reaches RUN after its wake time. -/
  | arrayWakeDone (phys : Fin 100)
  /-- PWR_OFF (R412) PWR_OFF_CTRL.OFF power-gates an array that holds no item, or is refused. -/
  | pwrOff (port : Port) (val : W32) (rid : W16)
  /-- PWR_ON (R412) PWR_OFF_CTRL.ON wakes an OFF array into IDLE with zeroed SRAM. -/
  | pwrOn (port : Port) (val : W32) (rid : W16)
  /-- POWER_CONTROL_PERIOD (R413) At the end of each 100 µs period the controller chooses a new ACLK code from measured power. -/
  | powerControlPeriod (watts : Nat)
  /-- ACLK_CHANGE (R413) The chosen ACLK frequency comes into force. -/
  | aclkChange
  /-- PWR_LIMIT_WRITE (R414) A write of the power limit fields is range-checked and applied or ignored with CFG_ERR. -/
  | pwrLimitWrite (port : Port) (field : Fin 3) (val : W32) (rid : W16)
  /-- UNIT_CLOCK_STOP (R22) An idle gated unit stops its clock. -/
  | unitClockStop (unit : Fin 256)
  /-- MCLK_PLL_STOP (R415) When media engines and composer are idle for CLK_MCLK_PLL_OFF_TICKS the MCLK PLL stops. -/
  | mclkPllStop
  /-- PLL_LOCK (R418) A started PLL locks and the unit's gate opens, releasing waiting requests. -/
  | pllLock (d : ClkDomain)
  /-- CLK_START_TIMEOUT (R419) A clock not started within its 500-tick window fails the request with CLK_TIMEOUT. -/
  | clkStartTimeout (d : ClkDomain)
  /-- REFCLK_LOSS (R417) A PCIe or Causeway reference clock absent for 10 µs clears its REF_OK bit and writes a fault record. -/
  | refclkLoss (cwy : Bool)
  /-- BAR2_READ (R433) A host read through the device window reaches device physical memory. -/
  | bar2Read (off : Fin 68719476736) (len : Fin 4097)
  /-- BAR2_WRITE (R433) A host write through the device window reaches device physical memory, or is dropped if poisoned. -/
  | bar2Write (off : Fin 68719476736) (data : List Byte) (poison : Bool)
  /-- SQ_TAIL_DOORBELL (R442) A submission tail doorbell makes entries available, or is ignored with DB_ERR. -/
  | sqTailDoorbell (q : Fin 256) (val : W32) (whole poison : Bool)
  /-- CQ_HEAD_DOORBELL (R442) A completion head doorbell frees completion slots, or is ignored with DB_ERR. -/
  | cqHeadDoorbell (q : Fin 256) (val : W32) (whole poison : Bool)
  /-- SQ_ENABLE (R441) A write of SQ EN = 1 is checked and resets head, tail and submission index. -/
  | sqEnable (val : W32) (rid : W16)
  /-- SQ_DISABLE (R448) A write of SQ EN = 0 stops taking entries; IDLE sets when taken ones complete. -/
  | sqDisable (val : W32) (rid : W16)
  /-- CQ_ENABLE (R441) A write of CQ EN = 1 is checked and resets head, tail and phase, discarding held completions. -/
  | cqEnable (val : W32) (rid : W16)
  /-- CQ_DISABLE (R441) A write of CQ EN = 0 is refused while an enabled submission queue names it. -/
  | cqDisable (val : W32) (rid : W16)
  /-- COMPLETION_WRITE (R447) A completion entry is written in submission order once its results are visible. -/
  | completionWrite (q : Fin 256) (good : Bool)
  /-- COALESCE_WINDOW_END (R449) A completion queue's coalescing window ends and an MSI-X message is sent. -/
  | coalesceWindowEnd (q : Fin 256)
  /-- EVT_MASK_WRITE (R450) An unmasking write to HST_EVT_MASK that exposes a set cause sends one message. -/
  | evtMaskWrite (val : W32) (rid : W16)
  /-- BUS_MASTER_ENABLE_CHANGE (R432) Bus Master Enable is set or cleared, stopping or resuming upstream requests. -/
  | busMasterEnableChange (on : Bool)
  /-- D3HOT_ENTRY (R432) The function enters D3hot and holds completions and interrupts for host memory. -/
  | d3hotEntry
  /-- D0_RETURN (R432) The function returns to D0 with every register kept. -/
  | d0Return
  /-- CONFIG_REQUEST (R456) A PCIe configuration request is answered, with Request Retry Status before configuration ready. -/
  | configRequest (off : Fin 4096)
  /-- PCIE_LINK_UP (R456) The PCIe link trains while PERST# is deasserted and REFCLK present. -/
  | pcieLinkUp (rate : Fin 8) (width : Fin 32) (flit : Bool)
  /-- HST_RESET_WARM (R451) A write of 1 to HST_RESET.WARM triggers a warm start. -/
  | hstResetWarm (val : W32) (rid : W16) (chk : WarmCheck)
  /-- PWR_EN_ASSERT (R451) PWR_EN is asserted, beginning a cold start from power-up once input is good. -/
  | pwrEnAssert (temps : List (Sensor × Nat))
  /-- PWR_EN_DEASSERT (R451) PWR_EN is deasserted and the module powers down, losing all state. -/
  | pwrEnDeassert
  /-- INPUT_APPLY (R506) Input is applied and the inrush limiter charges the bulk capacitance. -/
  | inputApply (mv : Int) (held : Nat)
  /-- INPUT_GOOD (R505) Input rises to 59 V with the bulk charged, allowing a start from power-up. -/
  | inputGood
  /-- INPUT_LOSS (R507) Input stays below 57 V for a whole 200 µs window or the bulk falls below 50 V, powering down. -/
  | inputLoss
  /-- OVERVOLTAGE_TRIP (R508) Input above 84 V for 10 µs powers the module down. -/
  | overvoltageTrip
  /-- OVERCURRENT_TRIP (R508) Input current above 75 A for 50 µs powers the module down. -/
  | overcurrentTrip
  /-- REVERSE_POLARITY (R508) Reverse input polarity draws no current and the module stays unpowered. -/
  | reversePolarity
  /-- REFCLK_AO_TRIP (R508) REFCLK_AO absent for 10 µs while PWR_EN is asserted powers the module down. -/
  | refclkAoTrip
  /-- THERMAL_TRIP (R517) A temperature reaching its trip level drives THERM_TRIP# low, powers down and latches. -/
  | thermalTrip (sensor : Sensor) (temp : Nat)
  /-- POWER_DOWN_RESTART (R509) At least 100 ms after a power-down with input good and PWR_EN asserted, a cold start begins. -/
  | powerDownRestart
  /-- PERST_ASSERT (R451) PERST# asserted after configuration ready triggers a warm start; before it, it holds only the link. -/
  | perstAssert (chk : WarmCheck)
  /-- PERST_DEASSERT (R456) PERST# is deasserted and the PCIe link may train. -/
  | perstDeassert
  /-- PEAT_DOMAIN_UP (R454) The Peat domain comes up, the time base starts and MOD_ID is sampled. -/
  | peatDomainUp (strap : Fin 64)
  /-- FUSE_LOAD_DONE (R454) Fuses are loaded and the logical map is built, remapping defective arrays. -/
  | fuseLoadDone (good : Bool)
  /-- FIRST_STAGE_VERIFIED (R492) The boot ROM finishes verifying the first stage, selecting copy A or B. -/
  | firstStageVerified
  /-- MANAGEMENT_PORT_READY (R455) The management port begins serving Nolivo commands and Peat-domain registers. -/
  | managementPortReady
  /-- CONFIGURATION_READY (R454) The function answers normally, all blocks open, Intake PHYs train and autostart ports leave OFF. -/
  | configurationReady (pkgs : W32) (ports : Fin 4)
  /-- HBM_TRAINING_DONE (R454) HBM training or restore completes and MEM_STATUS.TRAINED is set. -/
  | hbmTrainingDone (temps : List Nat) (failed : List (Fin 1024)) (dead : Bool)
  /-- MEMORY_TEST_DONE (R454) The selected memory test ends, marking failing pseudo-channels. -/
  | memoryTestDone (failed : List (Fin 1024))
  /-- HBM_ZERO_FILL_DONE (R454) Every HBM frame is zero-filled as class W and MEM_STATUS.READY is set. -/
  | hbmZeroFillDone (lost : Bool)
  /-- START_TIMEOUT (R462) Configuration ready is not reached within 1 s of the trigger and the start fails. -/
  | startTimeout
  /-- START_RETRY (R463) Within 10 ms of a failed start a cold start begins with CAUSE 2. -/
  | startRetry
  /-- FABRIC_PACKET_RESEND (R470) A fabric packet failing its CRC is resent. -/
  | fabricPacketResend
  /-- INTERNAL_PARITY_ERROR (R470) Parity on a unit's control state ends its current operations with INTERNAL. -/
  | internalParityError (unit : ParityUnit)
  /-- FLT_HEAD_SEQ_WRITE (R480) A host write to FLT_HEAD_SEQ frees fault records up to the written value, or is ignored. -/
  | fltHeadSeqWrite (val : W32) (rid : W16)
  /-- JRN_RD_WRITE (R485) A write to JRN_RD selects a journal entry and sets its read status. -/
  | jrnRdWrite (val : W32) (rid : W16) (ev : BitErr)
  /-- SPILL_ENABLE (R486) A write changing SPILL_EN to 1 resets the spill pointers, or is refused when SIZE is 0. -/
  | spillEnable (val : W32) (rid : W16)
  /-- JRN_SPILL_RD_WRITE (R486) Host software advances JRN_SPILL_RD, freeing spill ring room. -/
  | jrnSpillRdWrite (val : W32) (rid : W16)
  /-- JOURNAL_SPILL_WRITE (R486) The next unspilled entry is copied into the spill ring when it has room. -/
  | journalSpillWrite (good : Bool)
  /-- GET_INFO (R501) Nolivo command returning serial, ordering number, stepping, image versions and state. -/
  | getInfo
  /-- TELEMETRY (R501) Nolivo command returning power, clock, temperatures, port states and counts. -/
  | telemetry
  /-- SET_POWER (R501) Nolivo command writing PWR_LIMIT and PWR_ACLK_MAX. -/
  | setPower (limit aclk : W32) (eid : Byte)
  /-- RESET (R501) Nolivo command triggering a warm or cold start. -/
  | resetCmd (cold : Byte) (chk : WarmCheck)
  /-- BOOT_OPTIONS (R501) Nolivo command rewriting the boot options record. -/
  | bootOptions (opts : Byte) (eid : Byte)
  /-- FW_BEGIN (R494) Nolivo command opening an update session and erasing copy B of the type. -/
  | fwBegin (ty : Byte)
  /-- FW_DATA (R494) Nolivo command writing a payload into copy B at the next offset. -/
  | fwData (off : W32) (data : List Byte)
  /-- FW_COMMIT (R494) Nolivo command verifying copy B and starting the rewrite of copy A. -/
  | fwCommit (eid : Byte)
  /-- FW_COMMIT_DONE (R494) Copy A is written from B and checked, and the commit answers. -/
  | fwCommitDone
  /-- FLASH_REPAIR_DONE (R495) The repaired copy is written and SEC_UPDATE.STATE returns to IDLE. -/
  | flashRepairDone
  /-- SVN_COMMIT (R493) Nolivo command raising the minimum SVN thermometer of an image type. -/
  | svnCommit (ty v : Byte) (eid : Byte)
  /-- KEY_REVOKE (R493) Nolivo command blowing the revoke bit of a boot key slot. -/
  | keyRevoke (slot : Byte) (eid : Byte)
  /-- FAULT_READ (R501) Nolivo command returning up to four fault records by FSEQ without freeing them. -/
  | faultRead (fseq : W32) (count : Byte) (bad : List BitErr)
  /-- FAULT_ACK (R469) Nolivo command clearing FLT_STATUS.REPORTED. -/
  | faultAck
  /-- JOURNAL_READ (R501) Nolivo command returning up to eight journal entries with their status. -/
  | journalRead (seq : W32) (count : Byte) (bad : List BitErr)
  /-- LOCK (R501) Nolivo command setting and clearing bits of HST_MLOCK. -/
  | lockCmd (set clear : W32) (eid : Byte)
  /-- REG_READ (R501) Nolivo command reading one register through the management bank. -/
  | regRead (off : W32)
  /-- REG_WRITE (R438) Nolivo command writing one register within the management port's rights. -/
  | regWrite (off val : W32) (eid : Byte)
  /-- DEBUG_CHALLENGE (R501) Nolivo command returning a fresh debug nonce. -/
  | debugChallenge
  /-- DEBUG_UNLOCK (R503) Nolivo command verifying a debug token and setting the debug level. -/
  | debugUnlock (token : List Byte)
  /-- DEBUG_LOCK (R501) Nolivo command setting debug level 0 at once. -/
  | debugLock
  /-- GET_VERSION (R498) SPDM request returning supported versions. -/
  | getVersion (tr : SpdmPort)
  /-- GET_CAPABILITIES (R498) SPDM request returning responder capabilities. -/
  | getCapabilities (tr : SpdmPort)
  /-- NEGOTIATE_ALGORITHMS (R498) SPDM request negotiating SM2 and SM3 algorithms. -/
  | negotiateAlgorithms (tr : SpdmPort) (sm2 sm3 measSm3 dmtf : Bool)
  /-- GET_DIGESTS (R498) SPDM request returning the certificate chain digest of slot 0. -/
  | getDigests (tr : SpdmPort)
  /-- GET_CERTIFICATE (R497) SPDM request returning the certificate chain of slot 0. -/
  | getCertificate (tr : SpdmPort) (slot : Fin 8) (off len : W16)
  /-- CHALLENGE (R498) SPDM request answered with a response signed by the Alias key. -/
  | challenge (tr : SpdmPort) (slot : Fin 8) (nonce : List Byte)
  /-- GET_MEASUREMENTS (R499) SPDM request returning the signed measurement list. -/
  | getMeasurements (tr : SpdmPort) (index : Byte) (sign : Bool) (nonce : List Byte)
  /-- REFCLK_RETURN (R417) A PCIe REFCLK or CWY_REFCLK that was lost becomes present again, and CLK_STATUS sets its REF_OK bit so ports can train once more. -/
  | refclkReturn (cwy : Bool)
  /-- MSIX_UNMASK (R449) Host software unmasks an MSI-X vector through BAR4, and a message pending in its PBA bit is delivered. -/
  | msixUnmask (vec : Fin 2048)
  /-- JTAG_ACCESS (R503) A JTAG instruction arrives on the TAP and is answered as IDCODE or BYPASS only, or with scan or register read access at the unlocked debug level. -/
  | jtagAccess (ins : JtagIns)
deriving DecidableEq, Repr

end Sys2Proof
end

