-- ==== Sys2Proof/Decode.lean ====
section
/-! DEFINITION. Decode.lean: the block takes commands and not encoded words: no row of the operation table gives bits, so no word spells a
command. The instruction words of Worot threads (R156, R157) are read where they are fetched, in Machine/Operands.lean. -/

namespace Sys2Proof

/-- The command that a word of the operation table spells: the table gives no row any bits, so none. [DESIGN CHOICE 1] -/
def decodeTableWord (_nbits _w : Nat) : Option Instr := none

end Sys2Proof
end

