-- ==== Sys2Proof/Machine/Bits.lean ====
section
/-! DEFINITION. Machine/Bits.lean: bit fields, little-endian byte lists, sparse tables, the round-robin pointer of R39
and saturating counters: the helpers every unit shares. -/

namespace Sys2Proof.Machine

/-- Bits [hi:lo] of a number. -/
def bits (v hi lo : Nat) : Nat := (v >>> lo) % 2 ^ (hi + 1 - lo)

/-- Bit i of a number. -/
def bit (v i : Nat) : Bool := v.testBit i

/-- `v` with bits [hi:lo] replaced by the low bits of `x`. -/
def putBits (v hi lo x : Nat) : Nat :=
  (v >>> (hi + 1)) <<< (hi + 1) ||| ((x % 2 ^ (hi + 1 - lo)) <<< lo) ||| v % 2 ^ lo

/-- 1 for true, 0 for false. -/
def b2n (b : Bool) : Nat := if b then 1 else 0

/-- Field [hi:lo] of a register. -/
def fld (v : W32) (hi lo : Nat) : Nat := bits v.toNat hi lo

/-- A register with field [hi:lo] set to `x`. -/
def setFld (v : W32) (hi lo x : Nat) : W32 := BitVec.ofNat 32 (putBits v.toNat hi lo x)

/-- `n` as a signed value of `w` bits. -/
def toSigned (w n : Nat) : Int :=
  if n % 2 ^ w < 2 ^ (w - 1) then (n % 2 ^ w : Int) else (n % 2 ^ w : Int) - (2 ^ w : Int)

/-- A signed value in `w` bits of two's complement. -/
def ofSigned (w : Nat) (i : Int) : Nat := (i % (2 ^ w : Int)).toNat

/-- Counter increment that stops at the largest 32-bit value ("saturating" in the register tables). -/
def satAdd32 (v : W32) (n : Nat) : W32 := BitVec.ofNat 32 (min (2 ^ 32 - 1) (v.toNat + n))

/-- Integer division rounding up. -/
def ceilDiv (a b : Nat) : Nat := (a + b - 1) / b

/-- `n` rounded up to a multiple of `k`. -/
def roundUp (n k : Nat) : Nat := ceilDiv n k * k

/-- Little-endian value of a byte list (R43). -/
def leNat : List Byte → Nat
  | [] => 0
  | b :: r => b.toNat + 256 * leNat r

/-- The `k` little-endian bytes of `n` (R43). -/
def leBytes : Nat → Nat → List Byte
  | 0, _ => []
  | k + 1, n => BitVec.ofNat 8 n :: leBytes k (n / 256)

/-- Big-endian value of a byte list. -/
def beNat (l : List Byte) : Nat := leNat l.reverse

/-- `k` bytes of a list from offset `o`, zeros beyond its end. -/
def slice (l : List Byte) (o k : Nat) : List Byte :=
  let t := (l.drop o).take k
  t ++ List.replicate (k - t.length) 0

/-- Little-endian field of `k` bytes at offset `o`. -/
def leAt (l : List Byte) (o k : Nat) : Nat := leNat (slice l o k)

/-- Value at a key of a sparse table. -/
def SMap.get? {α : Type} : SMap α → Nat → Option α
  | [], _ => none
  | (a, v) :: r, k => if a = k then some v else SMap.get? r k

/-- Value at a key, the given default where the key is not listed. -/
def SMap.getD {α : Type} (m : SMap α) (k : Nat) (d : α) : α := (SMap.get? m k).getD d

/-- Insert or replace the value at a key, keys kept in rising order. -/
def SMap.put {α : Type} : SMap α → Nat → α → SMap α
  | [], k, v => [(k, v)]
  | (a, w) :: r, k, v =>
    if k < a then (k, v) :: (a, w) :: r
    else if k = a then (k, v) :: r
    else (a, w) :: SMap.put r k v

/-- Remove a key. -/
def SMap.del {α : Type} (m : SMap α) (k : Nat) : SMap α := m.filter (fun e => e.1 ≠ k)

/-- Write a value where listing the default would break the canonical form: the default removes the entry. -/
def SMap.set {α : Type} [DecidableEq α] (d : α) (m : SMap α) (k : Nat) (v : α) : SMap α :=
  if v = d then SMap.del m k else SMap.put m k v

/-- Every key at least `k`, rising from there. -/
def SMap.risingFrom {α : Type} : Nat → SMap α → Bool
  | _, [] => true
  | k, (a, _) :: r => decide (k ≤ a) && SMap.risingFrom (a + 1) r

/-- The canonical form of a sparse table with default `d`: keys strictly rising, no entry equal to the default. -/
def SMap.canon {α : Type} [DecidableEq α] (d : α) (m : SMap α) : Bool :=
  SMap.risingFrom 0 m && m.all (fun e => decide (e.2 ≠ d))

/-- A set of numbers kept sorted: insert. -/
def setIns (l : List Nat) (k : Nat) : List Nat :=
  if l.contains k then l else (l.takeWhile (· < k)) ++ k :: l.dropWhile (· < k)

/-- A set of numbers kept sorted: remove. -/
def setDel (l : List Nat) (k : Nat) : List Nat := l.filter (· ≠ k)

/-- The winner of R39: the lowest contender at or above the pointer, else the lowest contender. -/
def rrWinner (ptr : Nat) (cs : List Nat) : Option Nat :=
  match (cs.filter (ptr ≤ ·)).min? with
  | some w => some w
  | none => cs.min?

/-- Put an element in its place in a list that is in order. -/
def insertBy {α : Type} (le : α → α → Bool) (x : α) : List α → List α
  | [] => [x]
  | y :: r => if le x y then x :: y :: r else y :: insertBy le x r

/-- A list in order; elements that the order does not part keep theirs. -/
def sortBy {α : Type} (le : α → α → Bool) (l : List α) : List α := l.foldr (insertBy le) []

/-- Replace element `i` of a list. -/
def setAt {α : Type} (l : List α) (i : Nat) (x : α) : List α := l.set i x

/-- Update element `i` of a list, if there is one. -/
def modAt {α : Type} (l : List α) (i : Nat) (f : α → α) : List α :=
  match l[i]? with
  | some x => l.set i (f x)
  | none => l

/-- Number of leading list elements that satisfy a test, as an index search: the first index that satisfies it. -/
def firstIdx {α : Type} (p : α → Bool) (l : List α) : Option Nat := l.findIdx? p

/-- CRC over bits, reflected polynomial `poly` of 32 bits: one byte. -/
def crcByte (poly : Nat) (crc : Nat) (b : Byte) : Nat :=
  (List.range 8).foldl (fun c _ => if c % 2 = 1 then (c >>> 1) ^^^ poly else c >>> 1) (crc ^^^ b.toNat)

/-- Reflected CRC-32 with initial value and final inversion of all ones. -/
def crcReflected (poly : Nat) (l : List Byte) : Nat :=
  (l.foldl (crcByte poly) 0xFFFFFFFF) ^^^ 0xFFFFFFFF

end Sys2Proof.Machine
end

