-- ==== Sys2Proof/Machine/Flags.lean ====
section
/-! DEFINITION. Machine/Flags.lean: the predicates of a thread: comparisons and predicate logic (R162) and the guard (R157). The
scalar pipeline has no other flags (R161). -/

namespace Sys2Proof.Machine

/-- The comparison of index k in the order eq, ne, lt, ltu, ge, geu (R162). -/
def cmpTest (k : Nat) (a b : W64) : Bool :=
  match k with
  | 0 => a == b
  | 1 => a != b
  | 2 => a.slt b
  | 3 => a.ult b
  | 4 => !a.slt b
  | _ => !a.ult b

/-- A predicate; p0 reads true (R154). -/
def predRead (p : BitVec 8) (i : Nat) : Bool := i == 0 || p.getLsbD i

/-- A predicate write; a write to p0 is discarded (R154). -/
def predWrite (p : BitVec 8) (i : Nat) (v : Bool) : BitVec 8 :=
  if i = 0 then p else if v then p ||| (1#8 <<< i) else p &&& ~~~(1#8 <<< i)

/-- plog: bit 2 × pa + pb of the truth table (R162). -/
def plogTest (tt : Nat) (pa pb : Bool) : Bool := tt.testBit (2 * b2n pa + b2n pb)

/-- The guard: p[PG] XOR PN (R157). -/
def guardHolds (p : BitVec 8) (pg : Nat) (pn : Bool) : Bool := xor (predRead p pg) pn

end Sys2Proof.Machine
end

