-- ==== Sys2Proof/Config.lean ====
section
/-! DEFINITION. Config.lean: the values the manual leaves open, as constants without a body: nothing can be proved of their value. -/

namespace Sys2Proof.Config

/-- Which translation an access uses while its cached entry differs from the table, before an invalidation completes: true for
the cached one (R33). Applied to a fresh index of State.free. -/
opaque useCached : Nat → Bool

/-- A free 64-bit value for a fresh index of State.free: the data of a result the manual leaves undefined. -/
opaque freeWord : Nat → BitVec 64

/-- Does the clock of a domain start within its window when an access of a unit needs it (R419): for a fresh index of State.free. [DEDUCED 164] -/
opaque clockStarts : Nat → Bool

/-- Is a tier-2 address already filled when an access meets it before T2_STATUS.READY (R87): for a fresh index of State.free. [DESIGN CHOICE 171] -/
opaque t2Filled : Nat → Bool

/-- The output format of images and sound under the reserved OUT_FMT 3, as its remainder by 3 (R329, log 67). [DESIGN CHOICE 67] -/
opaque reservedOutFmt : Nat

/-- Which writes of a failed transfer have landed: for a fresh index of State.free and the number of a write (R214). -/
opaque landed : Nat → Nat → Bool

/-- After how many writes of a transfer whose source and destination overlap an element is read, modulo those made: for a fresh index of
State.free and the number of the element (R204). [DESIGN CHOICE 38] -/
opaque seenWrites : Nat → Nat → Nat

/-- The place of an element in the order in which such a transfer takes its elements up: for a fresh index of State.free and the number of
the element (R204). [DESIGN CHOICE 38] -/
opaque turn : Nat → Nat → Nat

/-- Where inside the error bound of R238 a function of the vector unit or row engine answers: for a function number and its FP32
operand, a number whose residue modulo 5 is the offset in units of the last place, plus 2. [DESIGN CHOICE 12] -/
opaque actUlp : Nat → BitVec 32 → Nat

/-- The PCI vendor identifier assigned to Gotamir, whose value the manual does not give (R429). [PRESUMED 159] -/
opaque vendorId : BitVec 16

/-- SM3 of GB/T 32905 (R491). [PRESUMED 154] -/
opaque sm3 : List (BitVec 8) → BitVec 256

/-- Verification of an SM2 signature of GB/T 32918.2: public key, signature, message (R491, R503). [PRESUMED 154] -/
opaque sm2Verify : List (BitVec 8) → List (BitVec 8) → List (BitVec 8) → Bool

/-- The boot key hash fused in a slot (R493). [PRESUMED 154] -/
opaque bootKeyHash : Nat → BitVec 256

/-- The debug key hash fused in a slot (R503). [PRESUMED 154] -/
opaque debugKeyHash : Nat → BitVec 256

/-- Measurement of the boot ROM (R499). [PRESUMED 154] -/
opaque romDigest : BitVec 256

/-- Measurement of the image a module was shipped with: type, SVN, VERSION (R492). [PRESUMED 154] -/
opaque shippedDigest : Nat → Nat → Nat → BitVec 256

/-- The certificate chain of slot 0, whose Alias certificate carries the first-stage measurement and the SVN minimums (R497). [PRESUMED 154] -/
opaque certChain : BitVec 256 → Nat → List (BitVec 8)

/-- A signature by the Alias key, which follows from the first-stage measurement (R496, R498). [PRESUMED 154] -/
opaque aliasSign : BitVec 256 → List (BitVec 8) → List (BitVec 8)

/-- Digest over the fuse state: ordering number, SVN minimums, revoke bits and key slots used (R499). [PRESUMED 154] -/
opaque fuseDigest : Nat → Nat → BitVec 256

/-- Digest of the 4 KiB boot options record for a value of MEMTEST (R499). [PRESUMED 154] -/
opaque optDigest : Bool → BitVec 256

end Sys2Proof.Config
end

