-- ==== Sys2Proof/Machine/Num.lean ====
section
/-! DEFINITION. Machine/Num.lean: the number formats, conversions, block scales, products and rounding of chapter 02
(R40 to R68). A value is an exact dyadic number; every rounding step of the spec is one call of `encode`. -/

namespace Sys2Proof.Machine

/-- A value of the formats of R40: NaN, an infinity, or (-1)^neg × m × 2^e exactly. -/
inductive Fp where
  | nan
  | inf (neg : Bool)
  | fin (neg : Bool) (m : Nat) (e : Int)
deriving DecidableEq, Repr

/-- Positive zero. -/
def Fp.zero : Fp := .fin false 0 0

/-- Width of an element in bits (R40). -/
def fmtBits : Fmt → Nat
  | .e4m3 | .e5m2 | .i8s | .i8u => 8
  | .bf16 => 16
  | .fp32 | .i32 => 32
  | .i4s | .i4u => 4

/-- Floating-point formats of R40. -/
def fmtIsFloat : Fmt → Bool
  | .e4m3 | .e5m2 | .bf16 | .fp32 => true
  | _ => false

/-- Formats that carry a block scale (R44). -/
def fmtScaled : Fmt → Bool
  | .bf16 | .fp32 | .i32 => false
  | _ => true

/-- Mantissa bits of a floating-point format (R40). -/
def fmtMant : Fmt → Nat
  | .e4m3 => 3 | .e5m2 => 2 | .bf16 => 7 | .fp32 => 23 | _ => 0

/-- Exponent of the smallest subnormal (R40). -/
def fmtMinSub : Fmt → Int
  | .e4m3 => -9 | .e5m2 => -16 | .bf16 => -133 | .fp32 => -149 | _ => 0

/-- Code of the largest finite magnitude (R40). -/
def fmtMaxCode : Fmt → Nat
  | .e4m3 => 0x7E | .e5m2 => 0x7B | .bf16 => 0x7F7F | .fp32 => 0x7F7FFFFF
  | .i8s => 127 | .i8u => 255 | .i4s => 7 | .i4u => 15 | .i32 => 2 ^ 31 - 1

/-- The canonical NaN of R58; integer formats have none and take 0 (R48, R56). -/
def fmtNan : Fmt → Nat
  | .e4m3 => 0x7F | .e5m2 => 0x7E | .bf16 => 0x7FC0 | .fp32 => 0x7FC00000 | _ => 0

/-- Code of +infinity; E4M3 has none (R41). -/
def fmtInf : Fmt → Nat
  | .e5m2 => 0x7C | .bf16 => 0x7F80 | .fp32 => 0x7F800000 | _ => 0

/-- Range of an integer format (R40). -/
def fmtIntRange : Fmt → Int × Int
  | .i8s => (-128, 127) | .i8u => (0, 255) | .i4s => (-8, 7) | .i4u => (0, 15)
  | _ => (-(2 ^ 31), 2 ^ 31 - 1)

/-- A signed integer as a value. -/
def Fp.ofInt (i : Int) : Fp := .fin (decide (i < 0)) i.natAbs 0

/-- The value of a floating-point code (R40, R41, R42). -/
def decodeFloat (f : Fmt) (code : Nat) : Fp :=
  let p := fmtMant f
  let w := fmtBits f
  let neg := bit code (w - 1)
  let mag := code % 2 ^ (w - 1)
  let ex := mag >>> p
  let mn := mag % 2 ^ p
  if f = .e4m3 ∧ mag = 0x7F then .nan
  else if f ≠ .e4m3 ∧ mag = fmtInf f then .inf neg
  else if f ≠ .e4m3 ∧ mag > fmtInf f then .nan
  else if ex = 0 then .fin neg mn (fmtMinSub f)
  else .fin neg (2 ^ p + mn) (fmtMinSub f + (ex : Int) - 1)

/-- The integer value of an integer code (R40). -/
def decodeInt (f : Fmt) (code : Nat) : Int :=
  match f with
  | .i8s => toSigned 8 code
  | .i4s => toSigned 4 code
  | .i8u => (code % 256 : Nat)
  | .i4u => (code % 16 : Nat)
  | _ => toSigned 32 code

/-- The value of an element code, without its scale. -/
def decode (f : Fmt) (code : Nat) : Fp :=
  if fmtIsFloat f then decodeFloat f code else Fp.ofInt (decodeInt f code)

/-- Multiply by 2^k. -/
def Fp.scale (k : Int) : Fp → Fp
  | .fin n m e => .fin n m (e + k)
  | x => x

/-- The value of an element under its E8 block scale (R44, R45). -/
def decodeScaled (f : Fmt) (code scale : Nat) : Fp :=
  if fmtScaled f then (if scale = 255 then .nan else (decode f code).scale ((scale : Int) - 127))
  else decode f code

/-- Negation. -/
def Fp.neg : Fp → Fp
  | .nan => .nan
  | .inf n => .inf !n
  | .fin n m e => .fin (!n) m e

/-- Absolute value; NaN stays NaN (R59). -/
def Fp.abs : Fp → Fp
  | .nan => .nan
  | .inf _ => .inf false
  | .fin _ m e => .fin false m e

/-- Is the value NaN. -/
def Fp.isNan : Fp → Bool
  | .nan => true | _ => false

/-- Is the value finite. -/
def Fp.isFin : Fp → Bool
  | .fin _ _ _ => true | _ => false

/-- Is the value a zero of either sign. -/
def Fp.isZero : Fp → Bool
  | .fin _ m _ => m == 0 | _ => false

/-- Sign bit of a value. -/
def Fp.sign : Fp → Bool
  | .nan => false | .inf n => n | .fin n _ _ => n

/-- Signed magnitude at exponent `e0 ≤ e`. -/
def alignTo (e0 : Int) (n : Bool) (m : Nat) (e : Int) : Int :=
  let v : Int := (m * 2 ^ (e - e0).toNat : Nat)
  if n then -v else v

/-- Exact sum; an exact zero from operands of both signs is +0 (IEEE 754, R57); inf - inf is NaN (R59). -/
def Fp.add : Fp → Fp → Fp
  | .nan, _ => .nan
  | _, .nan => .nan
  | .inf a, .inf b => if a = b then .inf a else .nan
  | .inf a, _ => .inf a
  | _, .inf b => .inf b
  | .fin n1 m1 e1, .fin n2 m2 e2 =>
    if m1 = 0 ∧ m2 = 0 then .fin (n1 && n2) 0 0
    else
      let e0 := min e1 e2
      let v := alignTo e0 n1 m1 e1 + alignTo e0 n2 m2 e2
      if v = 0 then .fin false 0 0 else .fin (decide (v < 0)) v.natAbs e0

/-- Exact product; 0 × infinity is NaN (R59). -/
def Fp.mul : Fp → Fp → Fp
  | .nan, _ => .nan
  | _, .nan => .nan
  | .inf a, .inf b => .inf (xor a b)
  | .inf a, .fin b m _ => if m = 0 then .nan else .inf (xor a b)
  | .fin a m _, .inf b => if m = 0 then .nan else .inf (xor a b)
  | .fin n1 m1 e1, .fin n2 m2 e2 => .fin (xor n1 n2) (m1 * m2) (e1 + e2)

/-- Exact order of two values that are not NaN (infinities at the ends, the two zeros equal). -/
def Fp.lt : Fp → Fp → Bool
  | .inf true, .inf true => false
  | .inf true, .nan => false
  | .inf true, _ => true
  | .fin n1 m1 e1, .fin n2 m2 e2 =>
    decide (alignTo (min e1 e2) n1 m1 e1 < alignTo (min e1 e2) n2 m2 e2)
  | .fin _ _ _, .inf n => !n
  | _, _ => false

/-- Equality of values; NaN equals nothing. -/
def Fp.eqv (a b : Fp) : Bool := !a.isNan && !b.isNan && !(Fp.lt a b) && !(Fp.lt b a)

/-- max of R59: NaN wins, max(+0, -0) is +0. -/
def Fp.max (a b : Fp) : Fp :=
  if a.isNan || b.isNan then .nan
  else if Fp.lt a b then b
  else if Fp.lt b a then a
  else if a.sign then b else a

/-- min of R59: NaN wins, min(+0, -0) is -0. -/
def Fp.min (a b : Fp) : Fp :=
  if a.isNan || b.isNan then .nan
  else if Fp.lt a b then a
  else if Fp.lt b a then b
  else if a.sign then a else b

/-- How a conversion rounds (R54, R64): to nearest with ties to even, or stochastically with one 16-bit draw. -/
inductive Rounding where
  | nearest
  | draw (r : Nat)
deriving DecidableEq, Repr

/-- m × 2^e in units of 2^q, rounded (R54; R64 with a draw). -/
def roundUnits (r : Rounding) (m : Nat) (e q : Int) : Nat :=
  if q ≤ e then m * 2 ^ (e - q).toNat
  else
    let d := 2 ^ (q - e).toNat
    let k := m / d
    let rem := m % d
    match r with
    | .nearest => if 2 * rem > d ∨ (2 * rem = d ∧ k % 2 = 1) then k + 1 else k
    | .draw x => if rem * 65536 / d + x ≥ 65536 then k + 1 else k

/-- Exponent of the kept unit for a non-zero magnitude m × 2^e in format `f` (R54, R64). -/
def unitExp (f : Fmt) (m : Nat) (e : Int) : Int :=
  max ((Nat.log2 m : Int) + e - (fmtMant f : Int)) (fmtMinSub f)

/-- Sign bit of a code. -/
def signCode (f : Fmt) (neg : Bool) (mag : Nat) : Nat := if neg then 2 ^ (fmtBits f - 1) + mag else mag

/-- What an overflow writes: R59 in propagating mode, R61 in saturating mode. -/
def overflowCode (f : Fmt) (sat neg : Bool) : Nat :=
  if sat then signCode f neg (fmtMaxCode f)
  else if f = .e4m3 then fmtNan f
  else signCode f neg (fmtInf f)

/-- Round to an integer, then clamp to the range of an integer format (R56). -/
def encodeInt (r : Rounding) (f : Fmt) : Fp → Nat
  | .nan => 0
  | .inf n => ofSigned (fmtBits f) (if n then (fmtIntRange f).1 else (fmtIntRange f).2)
  | .fin n m e =>
    let k : Int := roundUnits r m e 0
    let v := if n then -k else k
    ofSigned (fmtBits f) (max (fmtIntRange f).1 (min (fmtIntRange f).2 v))

/-- Convert a value to the code of a format: one rounding, overflow decided after it (R54 to R61). -/
def encode (r : Rounding) (sat : Bool) (f : Fmt) (v : Fp) : Nat :=
  if fmtIsFloat f then
    match v with
    | .nan => fmtNan f
    | .inf n => overflowCode f sat n
    | .fin n m e =>
      if m = 0 then signCode f n 0
      else
        let q := unitExp f m e
        let k := roundUnits r m e q
        let p := fmtMant f
        let mag := if k < 2 ^ p then k else ((q - fmtMinSub f + 1).toNat <<< p) + (k - 2 ^ p)
        if mag > fmtMaxCode f then overflowCode f sat n else signCode f n mag
  else encodeInt r f v

/-- One rounding to nearest into a format, propagating mode. -/
def enc (f : Fmt) (v : Fp) : Nat := encode .nearest false f v

/-- One FP32 rounding of an exact value. -/
def rnd32 (v : Fp) : Fp := decodeFloat .fp32 (enc .fp32 v)

/-- FP32 value of a 32-bit code. -/
def f32 (c : Nat) : Fp := decodeFloat .fp32 (c % 2 ^ 32)

/-- FP32 code of a value. -/
def c32 (v : Fp) : Nat := enc .fp32 v

/-- Correctly rounded FP32 sum, difference, product and fused product (R57). -/
def add32 (a b : Fp) : Fp := rnd32 (a.add b)
/-- See `add32`. -/
def sub32 (a b : Fp) : Fp := rnd32 (a.add b.neg)
/-- See `add32`. -/
def mul32 (a b : Fp) : Fp := rnd32 (a.mul b)
/-- See `add32`. -/
def fma32 (a b c : Fp) : Fp := rnd32 ((a.mul b).add c)

/-- Integer square root: bit by bit from 2^k down. -/
def isqrtAux (n : Nat) : Nat → Nat → Nat
  | 0, r => if (r + 1) * (r + 1) ≤ n then r + 1 else r
  | k + 1, r => isqrtAux n k (if (r + 2 ^ (k + 1)) * (r + 2 ^ (k + 1)) ≤ n then r + 2 ^ (k + 1) else r)

/-- Floor of the square root. -/
def isqrt (n : Nat) : Nat := isqrtAux n (Nat.log2 n / 2 + 1) 0

/-- An inexact positive quotient n/d × 2^e kept to more than 70 significant bits, its lowest bit marking a remainder, so
that one rounding of it is the correct rounding of the quotient. -/
def quotient (neg : Bool) (n d : Nat) (e : Int) : Fp :=
  let s := (72 + Nat.log2 d) - Nat.log2 n
  let q := (n * 2 ^ s) / d
  let r := (n * 2 ^ s) % d
  .fin neg (2 * q + (if r = 0 then 0 else 1)) (e - s - 1)

/-- Exact-enough quotient of two values (before its one rounding): IEEE 754 division. -/
def Fp.div : Fp → Fp → Fp
  | .nan, _ => .nan
  | _, .nan => .nan
  | .inf _, .inf _ => .nan
  | .inf a, .fin b _ _ => .inf (xor a b)
  | .fin a _ _, .inf b => .fin (xor a b) 0 0
  | .fin n1 m1 e1, .fin n2 m2 e2 =>
    if m2 = 0 then (if m1 = 0 then .nan else .inf (xor n1 n2))
    else if m1 = 0 then .fin (xor n1 n2) 0 0
    else quotient (xor n1 n2) m1 m2 (e1 - e2)

/-- rcp of R57 before its rounding. -/
def Fp.rcp (x : Fp) : Fp := Fp.div (.fin false 1 0) x

/-- sqrt of R57 before its rounding. -/
def Fp.sqrt : Fp → Fp
  | .nan => .nan
  | .inf n => if n then .nan else .inf false
  | .fin n m e =>
    if m = 0 then .fin n 0 0
    else if n then .nan
    else
      let e2 := if e % 2 = 0 then e else e - 1
      let m2 := if e % 2 = 0 then m else 2 * m
      let s : Nat := 80
      let r := isqrt (m2 * 2 ^ (2 * s))
      .fin false (2 * r + (if r * r = m2 * 2 ^ (2 * s) then 0 else 1)) (e2 / 2 - s - 1)

/-- rsqrt of R57 before its rounding. -/
def Fp.rsqrt : Fp → Fp
  | .nan => .nan
  | .inf n => if n then .nan else .fin false 0 0
  | .fin n m e =>
    if m = 0 then .inf n
    else if n then .nan
    else
      let e2 := if e % 2 = 0 then e else e - 1
      let m2 := if e % 2 = 0 then m else 2 * m
      let s : Nat := 80 + Nat.log2 m2
      let r := isqrt (2 ^ (2 * s) / m2)
      .fin false (2 * r + (if r * r * m2 = 2 ^ (2 * s) then 0 else 1)) (-(e2 / 2) - s - 1)

/-- The larger of two finite magnitudes, as (m, e). -/
def magMax (a b : Nat × Int) : Nat × Int :=
  if Fp.lt (.fin false a.1 a.2) (.fin false b.1 b.2) then b else a

/-- amax of R47: the largest finite magnitude of a block. -/
def blockAmax (vs : List Fp) : Nat × Int :=
  vs.foldl (fun a v => match v with | .fin _ m e => magMax a (m, e) | _ => a) (0, 0)

/-- Vmax of R47 as a value. -/
def fmtVmax (f : Fmt) : Fp := decode f (fmtMaxCode f)

/-- The smallest e with amax × 2^-e ≤ Vmax, for amax > 0 (R47). -/
def scaleExp (f : Fmt) (m : Nat) (e : Int) : Int :=
  match fmtVmax f with
  | .fin _ vm ve =>
    let e0 := ((Nat.log2 m : Int) + e) - ((Nat.log2 vm : Int) + ve)
    if Fp.lt (.fin false vm ve) (.fin false m (e - e0)) then e0 + 1 else e0
  | _ => 0

/-- The scale code of R47 and R48. -/
def blockScale (f : Fmt) (vs : List Fp) : Nat :=
  if vs.any Fp.isNan then 255
  else
    let a := blockAmax vs
    if a.1 = 0 then 0
    else
      let c := scaleExp f a.1 a.2 + 127
      (max 0 (min 254 c)).toNat

/-- One xorshift draw of R65: 16 bits and the next state. -/
def next16 (x0 : W64) : Nat × W64 :=
  let x1 := x0 ^^^ (x0 <<< 13)
  let x2 := x1 ^^^ (x1 >>> 7)
  let x3 := x2 ^^^ (x2 <<< 17)
  ((x3.toNat >>> 32) % 65536, x3)

/-- The start value of lane i (R66). -/
def laneSeed (seed : W64) (i : Nat) : W64 :=
  let x := seed ^^^ (BitVec.ofNat 64 (i * 0x9E3779B97F4A7C15))
  if x = 0 then 0x9E3779B97F4A7C15#64 else x

/-- Does a value take a draw in stochastic rounding: zero, infinity and NaN pass unchanged (R64). -/
def Fp.draws : Fp → Bool
  | .fin _ m _ => m != 0 | _ => false

/-- Convert with an optional lane generator: the code and the generator afterwards (R64, R65). -/
def encodeGen (sat : Bool) (f : Fmt) (gen : Option W64) (v : Fp) : Nat × Option W64 :=
  match gen with
  | none => (encode .nearest sat f v, none)
  | some g =>
    if v.draws && fmtIsFloat f then
      let (r, g') := next16 g
      (encode (.draw r) sat f v, some g')
    else (encode .nearest sat f v, some g)

/-- The elements of a quantised block under its scale code (R47, R48). -/
def blockElem (f : Fmt) (scale : Nat) (v : Fp) : Fp :=
  if scale = 255 then .nan
  else match v with
    | .inf n => if fmtIsFloat f then .inf n else v
    | w => w.scale (127 - (scale : Int))

/-- Code of one element of a block: R48's entries for NaN blocks and for infinities in integer formats. -/
def blockCode (sat : Bool) (f : Fmt) (scale : Nat) (gen : Option W64) (v : Fp) : Nat × Option W64 :=
  match v with
  | .inf n =>
    if scale = 255 then (fmtNan f, gen)
    else if fmtIsFloat f then (overflowCode f sat n, gen)
    else if sat then (encodeInt .nearest f (.inf n), gen) else (0, gen)
  | _ => if scale = 255 then (fmtNan f, gen) else encodeGen sat f gen (blockElem f scale v)

/-- Quantise a block without stochastic rounding: scale code and element codes (R47, R48). -/
def quantBlock (sat : Bool) (f : Fmt) (vs : List Fp) : Nat × List Nat :=
  let sc := blockScale f vs
  (sc, vs.map (fun v => (blockCode sat f sc none v).1))

/-- The pairs of element formats a product takes (R49). -/
def pairOk (a b : Fmt) : Bool :=
  let fl := fun f => f = Fmt.e4m3 || f = Fmt.e5m2
  let it := fun f => f = Fmt.i8s || f = Fmt.i8u || f = Fmt.i4s || f = Fmt.i4u
  (fl a && fl b) || (it a && it b)

/-- Special operands of a block (R51): NaN, or the signs of the infinite products met, folded over the elements. -/
inductive BlockSpecial where
  | none
  | nan
  | inf (neg : Bool)
deriving DecidableEq, Repr

/-- Join the special state of a block with one product. -/
def BlockSpecial.join (s : BlockSpecial) (p : Fp) : BlockSpecial :=
  match s, p with
  | .nan, _ => .nan
  | _, .nan => .nan
  | .none, .inf n => .inf n
  | .inf a, .inf b => if a = b then .inf a else .nan
  | x, _ => x

/-- The products of a block. -/
def blockProducts (fa fb : Fmt) (as bs : List Nat) : List Fp :=
  List.zipWith (fun a b => (decode fa a).mul (decode fb b)) as bs

/-- The exact sum S_j of finite products, with R51's sign of an exact zero. -/
def blockSum (float : Bool) (ps : List Fp) : Fp :=
  let allNegZero := ps.all (fun p => p.isZero && p.sign)
  let s := ps.foldl Fp.add Fp.zero
  if s.isZero then .fin (float && allNegZero && !ps.isEmpty) 0 0 else s

/-- The block partial P_j of R50 and R51. -/
def blockPartial (fa fb : Fmt) (as bs : List Nat) (sa sb : Nat) : Fp :=
  if sa = 255 ∨ sb = 255 then .nan
  else
    let ps := blockProducts fa fb as bs
    match ps.foldl BlockSpecial.join .none with
    | .nan => .nan
    | .inf n => .inf n
    | .none => rnd32 ((blockSum (fmtIsFloat fa) ps).scale ((sa : Int) - 127 + ((sb : Int) - 127)))

/-- The exact integer sum of a block (R52). -/
def blockIntSum (fa fb : Fmt) (as bs : List Nat) : Int :=
  (List.zipWith (fun a b => decodeInt fa a * decodeInt fb b) as bs).foldl (· + ·) 0

/-- Clamp to the INT32 range (R53). -/
def clamp32 (i : Int) : Int := max (-(2 ^ 31)) (min (2 ^ 31 - 1) i)

/-- FP32 pair add of R90: (head, tail) of two pairs. -/
def pairAdd (ha ta hb tb : Fp) : Fp × Fp :=
  let s := add32 ha hb
  let z := sub32 s ha
  let e := add32 (sub32 ha (sub32 s z)) (sub32 hb z)
  let t := add32 (add32 ta tb) e
  if s.isFin then
    let h := add32 s t
    (h, sub32 t (sub32 h s))
  else (s, Fp.zero)

end Sys2Proof.Machine
end

