-- ==== Sys2Proof/Machine/RegMap.lean ====
section
/-! DEFINITION. Machine/RegMap.lean: every register of BAR0, one row per register with its fields, access codes (R7) and values after a
cold and a warm start (R10), block by block in the order of R435; the rows are those of the register tables of the chapters. -/

namespace Sys2Proof.Machine

/-- The access codes of R7. -/
inductive Access where
  | rw | ro | w1c | wo | rc | rwl
deriving DecidableEq, Repr

/-- The Warm column of R10: a value, or the value kept (also where a start sets the field itself). -/
inductive Warm where
  | val (n : Nat)
  | kept
deriving DecidableEq, Repr

/-- Which selection picks the instance of a register (R436, R483): none, the CHSEL register itself (one bank per port), an
instance window, or an index register. -/
inductive InstKind where
  | single | chsel | queue | phys | stack | pc | pkg | bank | ctx | core | iport | stream | bstream | bucket | cport | win
  | slot | group | branch | fclassIdx | mapIdx | progIdx | dtIdx | peerIdx | arrIdx
deriving DecidableEq, Repr

/-- The place of a register in a 64-bit pair (R8). -/
inductive PairRole where
  | single | lo | hi
deriving DecidableEq, Repr

/-- One field of a register. -/
structure FieldDef where
  hi   : Nat
  lo   : Nat
  acc  : Access
  cold : Nat
  warm : Warm
deriving DecidableEq, Repr

/-- One register of BAR0. -/
structure RegDef where
  off    : Nat
  inst   : InstKind
  pair   : PairRole
  fields : List FieldDef
deriving DecidableEq, Repr

namespace Reg

/-- BAR0 offset of GLB_MAGIC. -/
abbrev GLB_MAGIC : Nat := 0x0000000
/-- BAR0 offset of GLB_STEPPING. -/
abbrev GLB_STEPPING : Nat := 0x0000004
/-- BAR0 offset of GLB_CONFIG. -/
abbrev GLB_CONFIG : Nat := 0x0000008
/-- BAR0 offset of GLB_SCRATCH. -/
abbrev GLB_SCRATCH : Nat := 0x000000C
/-- BAR0 offset of GLB_START. -/
abbrev GLB_START : Nat := 0x0000010
/-- BAR0 offset of GLB_START_TICK_LO. -/
abbrev GLB_START_TICK_LO : Nat := 0x0000014
/-- BAR0 offset of GLB_START_TICK_HI. -/
abbrev GLB_START_TICK_HI : Nat := 0x0000018
/-- BAR0 offset of GLB_CFG_READY_TICK_LO. -/
abbrev GLB_CFG_READY_TICK_LO : Nat := 0x000001C
/-- BAR0 offset of GLB_CFG_READY_TICK_HI. -/
abbrev GLB_CFG_READY_TICK_HI : Nat := 0x0000020
/-- BAR0 offset of GLB_STARTS. -/
abbrev GLB_STARTS : Nat := 0x0000024
/-- BAR0 offset of GLB_STACK_RETRAIN. -/
abbrev GLB_STACK_RETRAIN : Nat := 0x0000028
/-- BAR0 offset of HST_CHSEL. -/
abbrev HST_CHSEL : Nat := 0x0010000
/-- BAR0 offset of HST_CTRL. -/
abbrev HST_CTRL : Nat := 0x0010004
/-- BAR0 offset of HST_STATUS. -/
abbrev HST_STATUS : Nat := 0x0010008
/-- BAR0 offset of HST_WIN_BASE_LO. -/
abbrev HST_WIN_BASE_LO : Nat := 0x001000C
/-- BAR0 offset of HST_WIN_BASE_HI. -/
abbrev HST_WIN_BASE_HI : Nat := 0x0010010
/-- BAR0 offset of HST_EVT_CAUSE. -/
abbrev HST_EVT_CAUSE : Nat := 0x0010014
/-- BAR0 offset of HST_EVT_MASK. -/
abbrev HST_EVT_MASK : Nat := 0x0010018
/-- BAR0 offset of HST_EVT_VEC. -/
abbrev HST_EVT_VEC : Nat := 0x001001C
/-- BAR0 offset of HST_MLOCK. -/
abbrev HST_MLOCK : Nat := 0x0010020
/-- BAR0 offset of HST_REFUSED. -/
abbrev HST_REFUSED : Nat := 0x0010024
/-- BAR0 offset of HST_LAST_REFUSED. -/
abbrev HST_LAST_REFUSED : Nat := 0x0010028
/-- BAR0 offset of HST_RESET. -/
abbrev HST_RESET : Nat := 0x001002C
/-- BAR0 offset of HST_LINK. -/
abbrev HST_LINK : Nat := 0x0010030
/-- BAR0 offset of HST_DB_ERR_Q. -/
abbrev HST_DB_ERR_Q : Nat := 0x0010034
/-- BAR0 offset of HST_INFLIGHT. -/
abbrev HST_INFLIGHT : Nat := 0x0010038
/-- BAR0 offset of SQ_CTRL. -/
abbrev SQ_CTRL : Nat := 0x0010100
/-- BAR0 offset of SQ_BASE_LO. -/
abbrev SQ_BASE_LO : Nat := 0x0010104
/-- BAR0 offset of SQ_BASE_HI. -/
abbrev SQ_BASE_HI : Nat := 0x0010108
/-- BAR0 offset of SQ_SIZE. -/
abbrev SQ_SIZE : Nat := 0x001010C
/-- BAR0 offset of SQ_HEAD. -/
abbrev SQ_HEAD : Nat := 0x0010110
/-- BAR0 offset of SQ_TAIL. -/
abbrev SQ_TAIL : Nat := 0x0010114
/-- BAR0 offset of SQ_STATUS. -/
abbrev SQ_STATUS : Nat := 0x0010118
/-- BAR0 offset of SQ_TAKEN. -/
abbrev SQ_TAKEN : Nat := 0x001011C
/-- BAR0 offset of CQ_CTRL. -/
abbrev CQ_CTRL : Nat := 0x0010120
/-- BAR0 offset of CQ_BASE_LO. -/
abbrev CQ_BASE_LO : Nat := 0x0010124
/-- BAR0 offset of CQ_BASE_HI. -/
abbrev CQ_BASE_HI : Nat := 0x0010128
/-- BAR0 offset of CQ_SIZE. -/
abbrev CQ_SIZE : Nat := 0x001012C
/-- BAR0 offset of CQ_TAIL. -/
abbrev CQ_TAIL : Nat := 0x0010130
/-- BAR0 offset of CQ_HEAD. -/
abbrev CQ_HEAD : Nat := 0x0010134
/-- BAR0 offset of CQ_COAL. -/
abbrev CQ_COAL : Nat := 0x0010138
/-- BAR0 offset of CQ_STATUS. -/
abbrev CQ_STATUS : Nat := 0x001013C
/-- BAR0 offset of CQ_RESERVED. -/
abbrev CQ_RESERVED : Nat := 0x0010140
/-- BAR0 offset of SEC_SERIAL_LO. -/
abbrev SEC_SERIAL_LO : Nat := 0x0020000
/-- BAR0 offset of SEC_SERIAL_HI. -/
abbrev SEC_SERIAL_HI : Nat := 0x0020004
/-- BAR0 offset of SEC_BOOT. -/
abbrev SEC_BOOT : Nat := 0x0020008
/-- BAR0 offset of SEC_SVN_MIN. -/
abbrev SEC_SVN_MIN : Nat := 0x002000C
/-- BAR0 offset of SEC_SVN_RUN. -/
abbrev SEC_SVN_RUN : Nat := 0x0020010
/-- BAR0 offset of SEC_UPDATE. -/
abbrev SEC_UPDATE : Nat := 0x0020014
/-- BAR0 offset of SEC_MEAS_IDX. -/
abbrev SEC_MEAS_IDX : Nat := 0x0020018
/-- BAR0 offset of SEC_BOOT_OPT. -/
abbrev SEC_BOOT_OPT : Nat := 0x002001C
/-- BAR0 offset of SEC_MEAS_DATA0. -/
abbrev SEC_MEAS_DATA0 : Nat := 0x0020020
/-- BAR0 offset of SEC_MEAS_DATA1. -/
abbrev SEC_MEAS_DATA1 : Nat := 0x0020024
/-- BAR0 offset of SEC_MEAS_DATA2. -/
abbrev SEC_MEAS_DATA2 : Nat := 0x0020028
/-- BAR0 offset of SEC_MEAS_DATA3. -/
abbrev SEC_MEAS_DATA3 : Nat := 0x002002C
/-- BAR0 offset of SEC_MEAS_DATA4. -/
abbrev SEC_MEAS_DATA4 : Nat := 0x0020030
/-- BAR0 offset of SEC_MEAS_DATA5. -/
abbrev SEC_MEAS_DATA5 : Nat := 0x0020034
/-- BAR0 offset of SEC_MEAS_DATA6. -/
abbrev SEC_MEAS_DATA6 : Nat := 0x0020038
/-- BAR0 offset of SEC_MEAS_DATA7. -/
abbrev SEC_MEAS_DATA7 : Nat := 0x002003C
/-- BAR0 offset of SEC_DBG. -/
abbrev SEC_DBG : Nat := 0x0020040
/-- BAR0 offset of PWR_CTRL. -/
abbrev PWR_CTRL : Nat := 0x0030000
/-- BAR0 offset of PWR_LIMIT. -/
abbrev PWR_LIMIT : Nat := 0x0030004
/-- BAR0 offset of PWR_HEADROOM. -/
abbrev PWR_HEADROOM : Nat := 0x0030008
/-- BAR0 offset of PWR_ACLK_MAX. -/
abbrev PWR_ACLK_MAX : Nat := 0x003000C
/-- BAR0 offset of PWR_ACLK. -/
abbrev PWR_ACLK : Nat := 0x0030010
/-- BAR0 offset of PWR_POWER. -/
abbrev PWR_POWER : Nat := 0x0030014
/-- BAR0 offset of PWR_PEAK. -/
abbrev PWR_PEAK : Nat := 0x0030018
/-- BAR0 offset of PWR_IDLE_CYC. -/
abbrev PWR_IDLE_CYC : Nat := 0x003001C
/-- BAR0 offset of PWR_RET_TICKS. -/
abbrev PWR_RET_TICKS : Nat := 0x0030020
/-- BAR0 offset of PWR_PLL_OFF_TICKS. -/
abbrev PWR_PLL_OFF_TICKS : Nat := 0x0030024
/-- BAR0 offset of PWR_OFF_IDX. -/
abbrev PWR_OFF_IDX : Nat := 0x0030028
/-- BAR0 offset of PWR_OFF_CTRL. -/
abbrev PWR_OFF_CTRL : Nat := 0x003002C
/-- BAR0 offset of PWR_STATUS. -/
abbrev PWR_STATUS : Nat := 0x0030030
/-- BAR0 offset of PWR_ENERGY_LO. -/
abbrev PWR_ENERGY_LO : Nat := 0x0030034
/-- BAR0 offset of PWR_ENERGY_HI. -/
abbrev PWR_ENERGY_HI : Nat := 0x0030038
/-- BAR0 offset of PWR_THROTTLE_TICKS. -/
abbrev PWR_THROTTLE_TICKS : Nat := 0x003003C
/-- BAR0 offset of CLK_STATUS. -/
abbrev CLK_STATUS : Nat := 0x0030100
/-- BAR0 offset of CLK_MCLK_PLL_OFF_TICKS. -/
abbrev CLK_MCLK_PLL_OFF_TICKS : Nat := 0x0030104
/-- BAR0 offset of CLK_TB_LO. -/
abbrev CLK_TB_LO : Nat := 0x0030108
/-- BAR0 offset of CLK_TB_HI. -/
abbrev CLK_TB_HI : Nat := 0x003010C
/-- BAR0 offset of CLK_TB_SET_LO. -/
abbrev CLK_TB_SET_LO : Nat := 0x0030110
/-- BAR0 offset of CLK_TB_SET_HI. -/
abbrev CLK_TB_SET_HI : Nat := 0x0030114
/-- BAR0 offset of CLK_XOVR. -/
abbrev CLK_XOVR : Nat := 0x0030118
/-- BAR0 offset of CLK_XOVR_COUNT. -/
abbrev CLK_XOVR_COUNT : Nat := 0x003011C
/-- BAR0 offset of CLK_TIMEOUTS. -/
abbrev CLK_TIMEOUTS : Nat := 0x0030120
/-- BAR0 offset of CLK_LAST_TO_DOMAIN. -/
abbrev CLK_LAST_TO_DOMAIN : Nat := 0x0030124
/-- BAR0 offset of CLK_LAST_TO_TICK_LO. -/
abbrev CLK_LAST_TO_TICK_LO : Nat := 0x0030128
/-- BAR0 offset of CLK_LAST_TO_TICK_HI. -/
abbrev CLK_LAST_TO_TICK_HI : Nat := 0x003012C
/-- BAR0 offset of CLK_PLL_STARTS. -/
abbrev CLK_PLL_STARTS : Nat := 0x0030130
/-- BAR0 offset of FLT_CTRL. -/
abbrev FLT_CTRL : Nat := 0x0040000
/-- BAR0 offset of FLT_STATUS. -/
abbrev FLT_STATUS : Nat := 0x0040004
/-- BAR0 offset of FLT_HEAD_SEQ. -/
abbrev FLT_HEAD_SEQ : Nat := 0x0040008
/-- BAR0 offset of FLT_NEXT_SEQ. -/
abbrev FLT_NEXT_SEQ : Nat := 0x004000C
/-- BAR0 offset of FLT_HELD. -/
abbrev FLT_HELD : Nat := 0x0040010
/-- BAR0 offset of FLT_DROP_MASKED. -/
abbrev FLT_DROP_MASKED : Nat := 0x0040014
/-- BAR0 offset of FLT_DROP_REPORTED. -/
abbrev FLT_DROP_REPORTED : Nat := 0x0040018
/-- BAR0 offset of FLT_REPLAYS. -/
abbrev FLT_REPLAYS : Nat := 0x004001C
/-- BAR0 offset of FLT_SRAM_CE. -/
abbrev FLT_SRAM_CE : Nat := 0x0040020
/-- BAR0 offset of FLT_FABRIC_RETRY. -/
abbrev FLT_FABRIC_RETRY : Nat := 0x0040024
/-- BAR0 offset of FLT_PEAT_CE. -/
abbrev FLT_PEAT_CE : Nat := 0x0040028
/-- BAR0 offset of FLT_REC0. -/
abbrev FLT_REC0 : Nat := 0x0040100
/-- BAR0 offset of FLT_REC1. -/
abbrev FLT_REC1 : Nat := 0x0040104
/-- BAR0 offset of FLT_REC2. -/
abbrev FLT_REC2 : Nat := 0x0040108
/-- BAR0 offset of FLT_REC3. -/
abbrev FLT_REC3 : Nat := 0x004010C
/-- BAR0 offset of FLT_REC4. -/
abbrev FLT_REC4 : Nat := 0x0040110
/-- BAR0 offset of FLT_REC5. -/
abbrev FLT_REC5 : Nat := 0x0040114
/-- BAR0 offset of FLT_REC6. -/
abbrev FLT_REC6 : Nat := 0x0040118
/-- BAR0 offset of FLT_REC7. -/
abbrev FLT_REC7 : Nat := 0x004011C
/-- BAR0 offset of FLT_REC8. -/
abbrev FLT_REC8 : Nat := 0x0040120
/-- BAR0 offset of FLT_REC9. -/
abbrev FLT_REC9 : Nat := 0x0040124
/-- BAR0 offset of FLT_REC10. -/
abbrev FLT_REC10 : Nat := 0x0040128
/-- BAR0 offset of FLT_REC11. -/
abbrev FLT_REC11 : Nat := 0x004012C
/-- BAR0 offset of FLT_REC12. -/
abbrev FLT_REC12 : Nat := 0x0040130
/-- BAR0 offset of FLT_REC13. -/
abbrev FLT_REC13 : Nat := 0x0040134
/-- BAR0 offset of FLT_REC14. -/
abbrev FLT_REC14 : Nat := 0x0040138
/-- BAR0 offset of FLT_REC15. -/
abbrev FLT_REC15 : Nat := 0x004013C
/-- BAR0 offset of JRN_CTRL. -/
abbrev JRN_CTRL : Nat := 0x0040200
/-- BAR0 offset of JRN_SPILL_BASE_LO. -/
abbrev JRN_SPILL_BASE_LO : Nat := 0x0040204
/-- BAR0 offset of JRN_SPILL_BASE_HI. -/
abbrev JRN_SPILL_BASE_HI : Nat := 0x0040208
/-- BAR0 offset of JRN_SPILL_SIZE. -/
abbrev JRN_SPILL_SIZE : Nat := 0x004020C
/-- BAR0 offset of JRN_SPILL_WR. -/
abbrev JRN_SPILL_WR : Nat := 0x0040210
/-- BAR0 offset of JRN_SPILL_RD. -/
abbrev JRN_SPILL_RD : Nat := 0x0040214
/-- BAR0 offset of JRN_SPILL_WM. -/
abbrev JRN_SPILL_WM : Nat := 0x0040218
/-- BAR0 offset of JRN_NEXT_SEQ. -/
abbrev JRN_NEXT_SEQ : Nat := 0x004021C
/-- BAR0 offset of JRN_HELD. -/
abbrev JRN_HELD : Nat := 0x0040220
/-- BAR0 offset of JRN_UNSPILLED. -/
abbrev JRN_UNSPILLED : Nat := 0x0040224
/-- BAR0 offset of JRN_LOST_LO. -/
abbrev JRN_LOST_LO : Nat := 0x0040228
/-- BAR0 offset of JRN_LOST_HI. -/
abbrev JRN_LOST_HI : Nat := 0x004022C
/-- BAR0 offset of JRN_STATUS. -/
abbrev JRN_STATUS : Nat := 0x0040230
/-- BAR0 offset of JRN_RD. -/
abbrev JRN_RD : Nat := 0x0040234
/-- BAR0 offset of JRN_RD_STATUS. -/
abbrev JRN_RD_STATUS : Nat := 0x0040238
/-- BAR0 offset of JRN_ENT0. -/
abbrev JRN_ENT0 : Nat := 0x0040300
/-- BAR0 offset of JRN_ENT1. -/
abbrev JRN_ENT1 : Nat := 0x0040304
/-- BAR0 offset of JRN_ENT2. -/
abbrev JRN_ENT2 : Nat := 0x0040308
/-- BAR0 offset of JRN_ENT3. -/
abbrev JRN_ENT3 : Nat := 0x004030C
/-- BAR0 offset of JRN_ENT4. -/
abbrev JRN_ENT4 : Nat := 0x0040310
/-- BAR0 offset of JRN_ENT5. -/
abbrev JRN_ENT5 : Nat := 0x0040314
/-- BAR0 offset of JRN_ENT6. -/
abbrev JRN_ENT6 : Nat := 0x0040318
/-- BAR0 offset of JRN_ENT7. -/
abbrev JRN_ENT7 : Nat := 0x004031C
/-- BAR0 offset of ARR_CHSEL. -/
abbrev ARR_CHSEL : Nat := 0x0100000
/-- BAR0 offset of ARR_CTRL. -/
abbrev ARR_CTRL : Nat := 0x0100004
/-- BAR0 offset of ARR_STATUS. -/
abbrev ARR_STATUS : Nat := 0x0100008
/-- BAR0 offset of ARR_MAP_IDX. -/
abbrev ARR_MAP_IDX : Nat := 0x010000C
/-- BAR0 offset of ARR_MAP_DATA. -/
abbrev ARR_MAP_DATA : Nat := 0x0100010
/-- BAR0 offset of ARR_EVT_COUNT. -/
abbrev ARR_EVT_COUNT : Nat := 0x0100014
/-- BAR0 offset of ARR_REMAP_TICK_LO. -/
abbrev ARR_REMAP_TICK_LO : Nat := 0x0100018
/-- BAR0 offset of ARR_REMAP_TICK_HI. -/
abbrev ARR_REMAP_TICK_HI : Nat := 0x010001C
/-- BAR0 offset of ARR_REMAP_COUNT. -/
abbrev ARR_REMAP_COUNT : Nat := 0x0100020
/-- BAR0 offset of VEC_SEED_LO. -/
abbrev VEC_SEED_LO : Nat := 0x0100024
/-- BAR0 offset of VEC_SEED_HI. -/
abbrev VEC_SEED_HI : Nat := 0x0100028
/-- BAR0 offset of ARR_LOGICAL. -/
abbrev ARR_LOGICAL : Nat := 0x0100100
/-- BAR0 offset of ARR_ROW_MISMATCH. -/
abbrev ARR_ROW_MISMATCH : Nat := 0x0100104
/-- BAR0 offset of ARR_COL_MISMATCH. -/
abbrev ARR_COL_MISMATCH : Nat := 0x0100108
/-- BAR0 offset of ARR_INT_CORRECTED. -/
abbrev ARR_INT_CORRECTED : Nat := 0x010010C
/-- BAR0 offset of ARR_RECOMPUTES. -/
abbrev ARR_RECOMPUTES : Nat := 0x0100110
/-- BAR0 offset of ARR_LAST_EVT_TICK_LO. -/
abbrev ARR_LAST_EVT_TICK_LO : Nat := 0x0100114
/-- BAR0 offset of ARR_LAST_EVT_TICK_HI. -/
abbrev ARR_LAST_EVT_TICK_HI : Nat := 0x0100118
/-- BAR0 offset of ARR_ROWS_LO. -/
abbrev ARR_ROWS_LO : Nat := 0x010011C
/-- BAR0 offset of ARR_ROWS_HI. -/
abbrev ARR_ROWS_HI : Nat := 0x0100120
/-- BAR0 offset of ARR_BUSY_CYCLES_LO. -/
abbrev ARR_BUSY_CYCLES_LO : Nat := 0x0100124
/-- BAR0 offset of ARR_BUSY_CYCLES_HI. -/
abbrev ARR_BUSY_CYCLES_HI : Nat := 0x0100128
/-- BAR0 offset of ARR_INJECT. -/
abbrev ARR_INJECT : Nat := 0x010012C
/-- BAR0 offset of ROW_SIDE_PTR. -/
abbrev ROW_SIDE_PTR : Nat := 0x0100130
/-- BAR0 offset of ROW_SPILL_PTR. -/
abbrev ROW_SPILL_PTR : Nat := 0x0100134
/-- BAR0 offset of ROW_TAGS. -/
abbrev ROW_TAGS : Nat := 0x0100138
/-- BAR0 offset of VEC_BUSY. -/
abbrev VEC_BUSY : Nat := 0x010013C
/-- BAR0 offset of ROW_BUSY. -/
abbrev ROW_BUSY : Nat := 0x0100140
/-- BAR0 offset of EXP_CHSEL. -/
abbrev EXP_CHSEL : Nat := 0x0110000
/-- BAR0 offset of EXP_CTRL. -/
abbrev EXP_CTRL : Nat := 0x0110004
/-- BAR0 offset of EXP_DAMAGED. -/
abbrev EXP_DAMAGED : Nat := 0x0110008
/-- BAR0 offset of EXP_STALE. -/
abbrev EXP_STALE : Nat := 0x011000C
/-- BAR0 offset of EXP_INVALID. -/
abbrev EXP_INVALID : Nat := 0x0110010
/-- BAR0 offset of EXP_STALL_DECODE_LO. -/
abbrev EXP_STALL_DECODE_LO : Nat := 0x0110100
/-- BAR0 offset of EXP_STALL_DECODE_HI. -/
abbrev EXP_STALL_DECODE_HI : Nat := 0x0110104
/-- BAR0 offset of EXP_STALL_MEM_LO. -/
abbrev EXP_STALL_MEM_LO : Nat := 0x0110108
/-- BAR0 offset of EXP_STALL_MEM_HI. -/
abbrev EXP_STALL_MEM_HI : Nat := 0x011010C
/-- BAR0 offset of EXP_BLOCKS_LO. -/
abbrev EXP_BLOCKS_LO : Nat := 0x0110110
/-- BAR0 offset of EXP_BLOCKS_HI. -/
abbrev EXP_BLOCKS_HI : Nat := 0x0110114
/-- BAR0 offset of EXP_ESCAPES. -/
abbrev EXP_ESCAPES : Nat := 0x0110118
/-- BAR0 offset of EXP_ARR_DAMAGED. -/
abbrev EXP_ARR_DAMAGED : Nat := 0x011011C
/-- BAR0 offset of EXP_DMG_REC_DROPPED. -/
abbrev EXP_DMG_REC_DROPPED : Nat := 0x0110120
/-- BAR0 offset of EXP_CACHE. -/
abbrev EXP_CACHE : Nat := 0x0110124
/-- BAR0 offset of EXP_BINDS. -/
abbrev EXP_BINDS : Nat := 0x0110128
/-- BAR0 offset of EXP_BIND_HITS. -/
abbrev EXP_BIND_HITS : Nat := 0x011012C
/-- BAR0 offset of EXP_LAST_DMG_VA_LO. -/
abbrev EXP_LAST_DMG_VA_LO : Nat := 0x0110130
/-- BAR0 offset of EXP_LAST_DMG_VA_HI. -/
abbrev EXP_LAST_DMG_VA_HI : Nat := 0x0110134
/-- BAR0 offset of MEM_CHSEL. -/
abbrev MEM_CHSEL : Nat := 0x0200000
/-- BAR0 offset of MEM_CTRL. -/
abbrev MEM_CTRL : Nat := 0x0200004
/-- BAR0 offset of MEM_STATUS. -/
abbrev MEM_STATUS : Nat := 0x0200008
/-- BAR0 offset of MEM_SHARE_LO. -/
abbrev MEM_SHARE_LO : Nat := 0x020000C
/-- BAR0 offset of MEM_SHARE_HI. -/
abbrev MEM_SHARE_HI : Nat := 0x0200010
/-- BAR0 offset of MEM_FCLASS_IDX. -/
abbrev MEM_FCLASS_IDX : Nat := 0x0200014
/-- BAR0 offset of MEM_FCLASS_DATA. -/
abbrev MEM_FCLASS_DATA : Nat := 0x0200018
/-- BAR0 offset of MEM_HOT_MAP. -/
abbrev MEM_HOT_MAP : Nat := 0x020001C
/-- BAR0 offset of MEM_FENCED_MAP. -/
abbrev MEM_FENCED_MAP : Nat := 0x0200020
/-- BAR0 offset of MEM_FAILED_PCS. -/
abbrev MEM_FAILED_PCS : Nat := 0x0200024
/-- BAR0 offset of MEM_TEMP. -/
abbrev MEM_TEMP : Nat := 0x0200100
/-- BAR0 offset of MEM_STK_CE. -/
abbrev MEM_STK_CE : Nat := 0x0200104
/-- BAR0 offset of MEM_PC. -/
abbrev MEM_PC : Nat := 0x0200108
/-- BAR0 offset of MEM_PC_RETRY. -/
abbrev MEM_PC_RETRY : Nat := 0x020010C
/-- BAR0 offset of MEM_PC_UE. -/
abbrev MEM_PC_UE : Nat := 0x0200110
/-- BAR0 offset of T2_CHSEL. -/
abbrev T2_CHSEL : Nat := 0x0210000
/-- BAR0 offset of T2_CTRL. -/
abbrev T2_CTRL : Nat := 0x0210004
/-- BAR0 offset of T2_STATUS. -/
abbrev T2_STATUS : Nat := 0x0210008
/-- BAR0 offset of CKP_LIST_LO. -/
abbrev CKP_LIST_LO : Nat := 0x0210010
/-- BAR0 offset of CKP_LIST_HI. -/
abbrev CKP_LIST_HI : Nat := 0x0210014
/-- BAR0 offset of CKP_COUNT. -/
abbrev CKP_COUNT : Nat := 0x0210018
/-- BAR0 offset of CKP_CTRL. -/
abbrev CKP_CTRL : Nat := 0x021001C
/-- BAR0 offset of CKP_STATUS. -/
abbrev CKP_STATUS : Nat := 0x0210020
/-- BAR0 offset of CKP_DONE. -/
abbrev CKP_DONE : Nat := 0x0210024
/-- BAR0 offset of CKP_TICK_LO. -/
abbrev CKP_TICK_LO : Nat := 0x0210028
/-- BAR0 offset of CKP_TICK_HI. -/
abbrev CKP_TICK_HI : Nat := 0x021002C
/-- BAR0 offset of T2_PKG. -/
abbrev T2_PKG : Nat := 0x0210100
/-- BAR0 offset of T2_PKG_CE. -/
abbrev T2_PKG_CE : Nat := 0x0210104
/-- BAR0 offset of T2_PKG_UE. -/
abbrev T2_PKG_UE : Nat := 0x0210108
/-- BAR0 offset of POOL_CHSEL. -/
abbrev POOL_CHSEL : Nat := 0x0220000
/-- BAR0 offset of POOL_BANK_CE. -/
abbrev POOL_BANK_CE : Nat := 0x0220100
/-- BAR0 offset of POOL_BANK_UE. -/
abbrev POOL_BANK_UE : Nat := 0x0220104
/-- BAR0 offset of POOL_BANK_WAIT. -/
abbrev POOL_BANK_WAIT : Nat := 0x0220108
/-- BAR0 offset of POOL_BANK_MERGED. -/
abbrev POOL_BANK_MERGED : Nat := 0x022010C
/-- BAR0 offset of MMU_CTRL. -/
abbrev MMU_CTRL : Nat := 0x0230000
/-- BAR0 offset of MMU_ROOT_LO. -/
abbrev MMU_ROOT_LO : Nat := 0x0230004
/-- BAR0 offset of MMU_ROOT_HI. -/
abbrev MMU_ROOT_HI : Nat := 0x0230008
/-- BAR0 offset of MMU_INV_VA_LO. -/
abbrev MMU_INV_VA_LO : Nat := 0x023000C
/-- BAR0 offset of MMU_INV_VA_HI. -/
abbrev MMU_INV_VA_HI : Nat := 0x0230010
/-- BAR0 offset of MMU_INV_SIZE. -/
abbrev MMU_INV_SIZE : Nat := 0x0230014
/-- BAR0 offset of MMU_INV_CTRL. -/
abbrev MMU_INV_CTRL : Nat := 0x0230018
/-- BAR0 offset of MMU_INV_STATUS. -/
abbrev MMU_INV_STATUS : Nat := 0x023001C
/-- BAR0 offset of MMU_FAULT_COUNT. -/
abbrev MMU_FAULT_COUNT : Nat := 0x0230020
/-- BAR0 offset of DMA_OOB_DISCARD_LO. -/
abbrev DMA_OOB_DISCARD_LO : Nat := 0x0230024
/-- BAR0 offset of DMA_OOB_DISCARD_HI. -/
abbrev DMA_OOB_DISCARD_HI : Nat := 0x0230028
/-- BAR0 offset of MED_CHSEL. -/
abbrev MED_CHSEL : Nat := 0x0300000
/-- BAR0 offset of MED_CTRL. -/
abbrev MED_CTRL : Nat := 0x0300004
/-- BAR0 offset of MED_STATUS. -/
abbrev MED_STATUS : Nat := 0x0300008
/-- BAR0 offset of MED_FB_BASE_LO. -/
abbrev MED_FB_BASE_LO : Nat := 0x030000C
/-- BAR0 offset of MED_FB_BASE_HI. -/
abbrev MED_FB_BASE_HI : Nat := 0x0300010
/-- BAR0 offset of MED_FB_SIZE. -/
abbrev MED_FB_SIZE : Nat := 0x0300014
/-- BAR0 offset of MED_FB_COUNT. -/
abbrev MED_FB_COUNT : Nat := 0x0300018
/-- BAR0 offset of MED_FB_FREE. -/
abbrev MED_FB_FREE : Nat := 0x030001C
/-- BAR0 offset of MED_FB_RELEASE. -/
abbrev MED_FB_RELEASE : Nat := 0x0300020
/-- BAR0 offset of MED_SAMPLES_LO. -/
abbrev MED_SAMPLES_LO : Nat := 0x0300024
/-- BAR0 offset of MED_SAMPLES_HI. -/
abbrev MED_SAMPLES_HI : Nat := 0x0300028
/-- BAR0 offset of MED_REJECTED. -/
abbrev MED_REJECTED : Nat := 0x030002C
/-- BAR0 offset of MED_CONCEALED. -/
abbrev MED_CONCEALED : Nat := 0x0300030
/-- BAR0 offset of MED_EMPTY. -/
abbrev MED_EMPTY : Nat := 0x0300034
/-- BAR0 offset of TOK0_MERGE_LO. -/
abbrev TOK0_MERGE_LO : Nat := 0x0300040
/-- BAR0 offset of TOK0_MERGE_HI. -/
abbrev TOK0_MERGE_HI : Nat := 0x0300044
/-- BAR0 offset of TOK0_NMERGE. -/
abbrev TOK0_NMERGE : Nat := 0x0300048
/-- BAR0 offset of TOK0_VOCAB_LO. -/
abbrev TOK0_VOCAB_LO : Nat := 0x030004C
/-- BAR0 offset of TOK0_VOCAB_HI. -/
abbrev TOK0_VOCAB_HI : Nat := 0x0300050
/-- BAR0 offset of TOK0_REPL_ID. -/
abbrev TOK0_REPL_ID : Nat := 0x0300054
/-- BAR0 offset of TOK0_LOAD. -/
abbrev TOK0_LOAD : Nat := 0x0300058
/-- BAR0 offset of TOK0_STATE. -/
abbrev TOK0_STATE : Nat := 0x030005C
/-- BAR0 offset of TOK1_MERGE_LO. -/
abbrev TOK1_MERGE_LO : Nat := 0x0300060
/-- BAR0 offset of TOK1_MERGE_HI. -/
abbrev TOK1_MERGE_HI : Nat := 0x0300064
/-- BAR0 offset of TOK1_NMERGE. -/
abbrev TOK1_NMERGE : Nat := 0x0300068
/-- BAR0 offset of TOK1_VOCAB_LO. -/
abbrev TOK1_VOCAB_LO : Nat := 0x030006C
/-- BAR0 offset of TOK1_VOCAB_HI. -/
abbrev TOK1_VOCAB_HI : Nat := 0x0300070
/-- BAR0 offset of TOK1_REPL_ID. -/
abbrev TOK1_REPL_ID : Nat := 0x0300074
/-- BAR0 offset of TOK1_LOAD. -/
abbrev TOK1_LOAD : Nat := 0x0300078
/-- BAR0 offset of TOK1_STATE. -/
abbrev TOK1_STATE : Nat := 0x030007C
/-- BAR0 offset of MED_CTX_CTRL. -/
abbrev MED_CTX_CTRL : Nat := 0x0300100
/-- BAR0 offset of MED_IN_RING_VA_LO. -/
abbrev MED_IN_RING_VA_LO : Nat := 0x0300104
/-- BAR0 offset of MED_IN_RING_VA_HI. -/
abbrev MED_IN_RING_VA_HI : Nat := 0x0300108
/-- BAR0 offset of MED_IN_RING_SIZE. -/
abbrev MED_IN_RING_SIZE : Nat := 0x030010C
/-- BAR0 offset of MED_IN_WR_PTR. -/
abbrev MED_IN_WR_PTR : Nat := 0x0300110
/-- BAR0 offset of MED_IN_RD_PTR. -/
abbrev MED_IN_RD_PTR : Nat := 0x0300114
/-- BAR0 offset of MED_OUT_RING_VA_LO. -/
abbrev MED_OUT_RING_VA_LO : Nat := 0x0300118
/-- BAR0 offset of MED_OUT_RING_VA_HI. -/
abbrev MED_OUT_RING_VA_HI : Nat := 0x030011C
/-- BAR0 offset of MED_OUT_RING_SIZE. -/
abbrev MED_OUT_RING_SIZE : Nat := 0x0300120
/-- BAR0 offset of MED_OUT_WR_PTR. -/
abbrev MED_OUT_WR_PTR : Nat := 0x0300124
/-- BAR0 offset of MED_OUT_RD_PTR. -/
abbrev MED_OUT_RD_PTR : Nat := 0x0300128
/-- BAR0 offset of MED_LIM_WH. -/
abbrev MED_LIM_WH : Nat := 0x030012C
/-- BAR0 offset of MED_LIM_PIX. -/
abbrev MED_LIM_PIX : Nat := 0x0300130
/-- BAR0 offset of MED_LIM_DUR_MS. -/
abbrev MED_LIM_DUR_MS : Nat := 0x0300134
/-- BAR0 offset of MED_LIM_TOKENS. -/
abbrev MED_LIM_TOKENS : Nat := 0x0300138
/-- BAR0 offset of MED_RESERVE. -/
abbrev MED_RESERVE : Nat := 0x030013C
/-- BAR0 offset of MED_CTX_STATE. -/
abbrev MED_CTX_STATE : Nat := 0x0300140
/-- BAR0 offset of MED_CTX_SAMPLES. -/
abbrev MED_CTX_SAMPLES : Nat := 0x0300144
/-- BAR0 offset of MED_CTX_CONCEALED. -/
abbrev MED_CTX_CONCEALED : Nat := 0x0300148
/-- BAR0 offset of MED_CTX_REJECTED. -/
abbrev MED_CTX_REJECTED : Nat := 0x030014C
/-- BAR0 offset of MED_CTX_EMPTIES. -/
abbrev MED_CTX_EMPTIES : Nat := 0x0300150
/-- BAR0 offset of MED_CORE_STATE. -/
abbrev MED_CORE_STATE : Nat := 0x0300200
/-- BAR0 offset of MED_BUSY. -/
abbrev MED_BUSY : Nat := 0x0300204
/-- BAR0 offset of MED_UNITS_LO. -/
abbrev MED_UNITS_LO : Nat := 0x0300208
/-- BAR0 offset of MED_UNITS_HI. -/
abbrev MED_UNITS_HI : Nat := 0x030020C
/-- BAR0 offset of MED_SWITCHES. -/
abbrev MED_SWITCHES : Nat := 0x0300210
/-- BAR0 offset of MED_DAMAGE. -/
abbrev MED_DAMAGE : Nat := 0x0300214
/-- BAR0 offset of ITK_CHSEL. -/
abbrev ITK_CHSEL : Nat := 0x0310000
/-- BAR0 offset of ITK_CTRL. -/
abbrev ITK_CTRL : Nat := 0x0310004
/-- BAR0 offset of ITK_PCTRL. -/
abbrev ITK_PCTRL : Nat := 0x0310100
/-- BAR0 offset of ITK_ETYPE. -/
abbrev ITK_ETYPE : Nat := 0x0310104
/-- BAR0 offset of ITK_SKID_US. -/
abbrev ITK_SKID_US : Nat := 0x0310108
/-- BAR0 offset of ITK_XOFF_LEVEL. -/
abbrev ITK_XOFF_LEVEL : Nat := 0x031010C
/-- BAR0 offset of ITK_XON_LEVEL. -/
abbrev ITK_XON_LEVEL : Nat := 0x0310110
/-- BAR0 offset of ITK_MAC_LO. -/
abbrev ITK_MAC_LO : Nat := 0x0310114
/-- BAR0 offset of ITK_MAC_HI. -/
abbrev ITK_MAC_HI : Nat := 0x0310118
/-- BAR0 offset of ITK_PSTATUS. -/
abbrev ITK_PSTATUS : Nat := 0x031011C
/-- BAR0 offset of ITK_FILL. -/
abbrev ITK_FILL : Nat := 0x0310120
/-- BAR0 offset of ITK_FILL_PEAK. -/
abbrev ITK_FILL_PEAK : Nat := 0x0310124
/-- BAR0 offset of ITK_FRAMES_LO. -/
abbrev ITK_FRAMES_LO : Nat := 0x0310128
/-- BAR0 offset of ITK_FRAMES_HI. -/
abbrev ITK_FRAMES_HI : Nat := 0x031012C
/-- BAR0 offset of ITK_DROP_PRE_EN. -/
abbrev ITK_DROP_PRE_EN : Nat := 0x0310130
/-- BAR0 offset of ITK_DROP_OVF. -/
abbrev ITK_DROP_OVF : Nat := 0x0310134
/-- BAR0 offset of ITK_DROP_FCS. -/
abbrev ITK_DROP_FCS : Nat := 0x0310138
/-- BAR0 offset of ITK_DROP_FILTER. -/
abbrev ITK_DROP_FILTER : Nat := 0x031013C
/-- BAR0 offset of ITK_XOFF_SENT. -/
abbrev ITK_XOFF_SENT : Nat := 0x0310140
/-- BAR0 offset of ITK_SAMPLES_SHORT. -/
abbrev ITK_SAMPLES_SHORT : Nat := 0x0310144
/-- BAR0 offset of ITK_RING_VA_LO. -/
abbrev ITK_RING_VA_LO : Nat := 0x0310200
/-- BAR0 offset of ITK_RING_VA_HI. -/
abbrev ITK_RING_VA_HI : Nat := 0x0310204
/-- BAR0 offset of ITK_RING_SIZE. -/
abbrev ITK_RING_SIZE : Nat := 0x0310208
/-- BAR0 offset of ITK_MAX_SAMPLE. -/
abbrev ITK_MAX_SAMPLE : Nat := 0x031020C
/-- BAR0 offset of ITK_WR_PTR. -/
abbrev ITK_WR_PTR : Nat := 0x0310210
/-- BAR0 offset of ITK_RD_PTR. -/
abbrev ITK_RD_PTR : Nat := 0x0310214
/-- BAR0 offset of ITK_SAMPLES. -/
abbrev ITK_SAMPLES : Nat := 0x0310218
/-- BAR0 offset of BAT_CHSEL. -/
abbrev BAT_CHSEL : Nat := 0x0320000
/-- BAR0 offset of BAT_CTRL. -/
abbrev BAT_CTRL : Nat := 0x0320004
/-- BAR0 offset of BAT_STATUS. -/
abbrev BAT_STATUS : Nat := 0x0320008
/-- BAR0 offset of BAT_SEED_LO. -/
abbrev BAT_SEED_LO : Nat := 0x032000C
/-- BAR0 offset of BAT_SEED_HI. -/
abbrev BAT_SEED_HI : Nat := 0x0320010
/-- BAR0 offset of BAT_SLOTS_FREE. -/
abbrev BAT_SLOTS_FREE : Nat := 0x0320014
/-- BAR0 offset of BAT_RELEASE. -/
abbrev BAT_RELEASE : Nat := 0x0320018
/-- BAR0 offset of BAT_SCTRL. -/
abbrev BAT_SCTRL : Nat := 0x0320100
/-- BAR0 offset of BAT_N. -/
abbrev BAT_N : Nat := 0x0320104
/-- BAR0 offset of BAT_SLOT_QUOTA. -/
abbrev BAT_SLOT_QUOTA : Nat := 0x0320108
/-- BAR0 offset of BAT_FLUSH_US. -/
abbrev BAT_FLUSH_US : Nat := 0x032010C
/-- BAR0 offset of BAT_BUF_VA_LO. -/
abbrev BAT_BUF_VA_LO : Nat := 0x0320110
/-- BAR0 offset of BAT_BUF_VA_HI. -/
abbrev BAT_BUF_VA_HI : Nat := 0x0320114
/-- BAR0 offset of BAT_BUF_SIZE. -/
abbrev BAT_BUF_SIZE : Nat := 0x0320118
/-- BAR0 offset of BAT_NBUF. -/
abbrev BAT_NBUF : Nat := 0x032011C
/-- BAR0 offset of BAT_BOX_VA_LO. -/
abbrev BAT_BOX_VA_LO : Nat := 0x0320120
/-- BAR0 offset of BAT_BOX_VA_HI. -/
abbrev BAT_BOX_VA_HI : Nat := 0x0320124
/-- BAR0 offset of BAT_FLUSH. -/
abbrev BAT_FLUSH : Nat := 0x0320128
/-- BAR0 offset of BAT_SSTATE. -/
abbrev BAT_SSTATE : Nat := 0x032012C
/-- BAR0 offset of BAT_SLOTS_USED. -/
abbrev BAT_SLOTS_USED : Nat := 0x0320130
/-- BAR0 offset of BAT_BATCHES_LO. -/
abbrev BAT_BATCHES_LO : Nat := 0x0320134
/-- BAR0 offset of BAT_BATCHES_HI. -/
abbrev BAT_BATCHES_HI : Nat := 0x0320138
/-- BAR0 offset of BAT_FLUSHED. -/
abbrev BAT_FLUSHED : Nat := 0x032013C
/-- BAR0 offset of BAT_EMPTIES. -/
abbrev BAT_EMPTIES : Nat := 0x0320140
/-- BAR0 offset of BAT_HOLD_BUF. -/
abbrev BAT_HOLD_BUF : Nat := 0x0320144
/-- BAR0 offset of BAT_BUCKET. -/
abbrev BAT_BUCKET : Nat := 0x0320200
/-- BAR0 offset of BAT_DIM0. -/
abbrev BAT_DIM0 : Nat := 0x0320204
/-- BAR0 offset of BAT_DIM1. -/
abbrev BAT_DIM1 : Nat := 0x0320208
/-- BAR0 offset of BAT_TOK_PAD. -/
abbrev BAT_TOK_PAD : Nat := 0x032020C
/-- BAR0 offset of BAT_MEAN0. -/
abbrev BAT_MEAN0 : Nat := 0x0320210
/-- BAR0 offset of BAT_MEAN1. -/
abbrev BAT_MEAN1 : Nat := 0x0320214
/-- BAR0 offset of BAT_MEAN2. -/
abbrev BAT_MEAN2 : Nat := 0x0320218
/-- BAR0 offset of BAT_MEAN3. -/
abbrev BAT_MEAN3 : Nat := 0x032021C
/-- BAR0 offset of BAT_MEAN4. -/
abbrev BAT_MEAN4 : Nat := 0x0320220
/-- BAR0 offset of BAT_MEAN5. -/
abbrev BAT_MEAN5 : Nat := 0x0320224
/-- BAR0 offset of BAT_MEAN6. -/
abbrev BAT_MEAN6 : Nat := 0x0320228
/-- BAR0 offset of BAT_MEAN7. -/
abbrev BAT_MEAN7 : Nat := 0x032022C
/-- BAR0 offset of BAT_SCALE0. -/
abbrev BAT_SCALE0 : Nat := 0x0320230
/-- BAR0 offset of BAT_SCALE1. -/
abbrev BAT_SCALE1 : Nat := 0x0320234
/-- BAR0 offset of BAT_SCALE2. -/
abbrev BAT_SCALE2 : Nat := 0x0320238
/-- BAR0 offset of BAT_SCALE3. -/
abbrev BAT_SCALE3 : Nat := 0x032023C
/-- BAR0 offset of BAT_SCALE4. -/
abbrev BAT_SCALE4 : Nat := 0x0320240
/-- BAR0 offset of BAT_SCALE5. -/
abbrev BAT_SCALE5 : Nat := 0x0320244
/-- BAR0 offset of BAT_SCALE6. -/
abbrev BAT_SCALE6 : Nat := 0x0320248
/-- BAR0 offset of BAT_SCALE7. -/
abbrev BAT_SCALE7 : Nat := 0x032024C
/-- BAR0 offset of CWY_CHSEL. -/
abbrev CWY_CHSEL : Nat := 0x0400000
/-- BAR0 offset of CWY_CTRL. -/
abbrev CWY_CTRL : Nat := 0x0400004
/-- BAR0 offset of CWY_MODULE. -/
abbrev CWY_MODULE : Nat := 0x0400008
/-- BAR0 offset of CWY_AUTOSTART. -/
abbrev CWY_AUTOSTART : Nat := 0x040000C
/-- BAR0 offset of CWY_STATUS. -/
abbrev CWY_STATUS : Nat := 0x0400010
/-- BAR0 offset of CWY_DT_IDX. -/
abbrev CWY_DT_IDX : Nat := 0x0400014
/-- BAR0 offset of CWY_DT_DATA. -/
abbrev CWY_DT_DATA : Nat := 0x0400018
/-- BAR0 offset of CWY_PCTRL. -/
abbrev CWY_PCTRL : Nat := 0x0400100
/-- BAR0 offset of CWY_PSTATE. -/
abbrev CWY_PSTATE : Nat := 0x0400104
/-- BAR0 offset of CWY_PEER. -/
abbrev CWY_PEER : Nat := 0x0400108
/-- BAR0 offset of CWY_CRED01. -/
abbrev CWY_CRED01 : Nat := 0x040010C
/-- BAR0 offset of CWY_CRED23. -/
abbrev CWY_CRED23 : Nat := 0x0400110
/-- BAR0 offset of CWY_LANE_SER_MAX. -/
abbrev CWY_LANE_SER_MAX : Nat := 0x0400114
/-- BAR0 offset of CWY_RTT_NS. -/
abbrev CWY_RTT_NS : Nat := 0x0400118
/-- BAR0 offset of CWY_FLITS_TX_LO. -/
abbrev CWY_FLITS_TX_LO : Nat := 0x040011C
/-- BAR0 offset of CWY_FLITS_TX_HI. -/
abbrev CWY_FLITS_TX_HI : Nat := 0x0400120
/-- BAR0 offset of CWY_FLITS_RX_LO. -/
abbrev CWY_FLITS_RX_LO : Nat := 0x0400124
/-- BAR0 offset of CWY_FLITS_RX_HI. -/
abbrev CWY_FLITS_RX_HI : Nat := 0x0400128
/-- BAR0 offset of CWY_CRC_ERR. -/
abbrev CWY_CRC_ERR : Nat := 0x040012C
/-- BAR0 offset of CWY_RETRIES. -/
abbrev CWY_RETRIES : Nat := 0x0400130
/-- BAR0 offset of CWY_FEC_UNCORR. -/
abbrev CWY_FEC_UNCORR : Nat := 0x0400134
/-- BAR0 offset of CWY_NOROUTE_HOP. -/
abbrev CWY_NOROUTE_HOP : Nat := 0x0400138
/-- BAR0 offset of CWY_MESH_CNT. -/
abbrev CWY_MESH_CNT : Nat := 0x040013C
/-- BAR0 offset of CWY_LANE_DROPS. -/
abbrev CWY_LANE_DROPS : Nat := 0x0400140
/-- BAR0 offset of CWY_WIN_EN. -/
abbrev CWY_WIN_EN : Nat := 0x0400200
/-- BAR0 offset of CWY_WIN_BASE_LO. -/
abbrev CWY_WIN_BASE_LO : Nat := 0x0400204
/-- BAR0 offset of CWY_WIN_BASE_HI. -/
abbrev CWY_WIN_BASE_HI : Nat := 0x0400208
/-- BAR0 offset of CWY_WIN_SIZE. -/
abbrev CWY_WIN_SIZE : Nat := 0x040020C
/-- BAR0 offset of COL_CHSEL. -/
abbrev COL_CHSEL : Nat := 0x0410000
/-- BAR0 offset of COL_CTRL. -/
abbrev COL_CTRL : Nat := 0x0410004
/-- BAR0 offset of COL_SEED_LO. -/
abbrev COL_SEED_LO : Nat := 0x0410008
/-- BAR0 offset of COL_SEED_HI. -/
abbrev COL_SEED_HI : Nat := 0x041000C
/-- BAR0 offset of COL_EARLY_VA_LO. -/
abbrev COL_EARLY_VA_LO : Nat := 0x0410010
/-- BAR0 offset of COL_EARLY_VA_HI. -/
abbrev COL_EARLY_VA_HI : Nat := 0x0410014
/-- BAR0 offset of COL_EARLY_SIZE. -/
abbrev COL_EARLY_SIZE : Nat := 0x0410018
/-- BAR0 offset of COL_STATUS. -/
abbrev COL_STATUS : Nat := 0x041001C
/-- BAR0 offset of COL_FACTOR. -/
abbrev COL_FACTOR : Nat := 0x0410020
/-- BAR0 offset of COL_PEER_IDX. -/
abbrev COL_PEER_IDX : Nat := 0x0410024
/-- BAR0 offset of COL_PEER_FACTOR. -/
abbrev COL_PEER_FACTOR : Nat := 0x0410028
/-- BAR0 offset of COL_PLANS. -/
abbrev COL_PLANS : Nat := 0x041002C
/-- BAR0 offset of COL_TIMEOUTS. -/
abbrev COL_TIMEOUTS : Nat := 0x0410030
/-- BAR0 offset of COL_ABORTS. -/
abbrev COL_ABORTS : Nat := 0x0410034
/-- BAR0 offset of COL_ORPHANS. -/
abbrev COL_ORPHANS : Nat := 0x0410038
/-- BAR0 offset of COL_EARLY_USED. -/
abbrev COL_EARLY_USED : Nat := 0x041003C
/-- BAR0 offset of COL_SLOT. -/
abbrev COL_SLOT : Nat := 0x0410100
/-- BAR0 offset of COL_STEPS_DONE. -/
abbrev COL_STEPS_DONE : Nat := 0x0410104
/-- BAR0 offset of COL_CODE. -/
abbrev COL_CODE : Nat := 0x0410108
/-- BAR0 offset of COL_START_TICK_LO. -/
abbrev COL_START_TICK_LO : Nat := 0x041010C
/-- BAR0 offset of COL_START_TICK_HI. -/
abbrev COL_START_TICK_HI : Nat := 0x0410110
/-- BAR0 offset of COL_PROGRESS_TICK_LO. -/
abbrev COL_PROGRESS_TICK_LO : Nat := 0x0410114
/-- BAR0 offset of COL_PROGRESS_TICK_HI. -/
abbrev COL_PROGRESS_TICK_HI : Nat := 0x0410118
/-- BAR0 offset of LOD_CHSEL. -/
abbrev LOD_CHSEL : Nat := 0x0420000
/-- BAR0 offset of LOD_CTRL. -/
abbrev LOD_CTRL : Nat := 0x0420004
/-- BAR0 offset of LOD_GTAB_VA_LO. -/
abbrev LOD_GTAB_VA_LO : Nat := 0x0420008
/-- BAR0 offset of LOD_GTAB_VA_HI. -/
abbrev LOD_GTAB_VA_HI : Nat := 0x042000C
/-- BAR0 offset of LOD_SEED_LO. -/
abbrev LOD_SEED_LO : Nat := 0x0420010
/-- BAR0 offset of LOD_SEED_HI. -/
abbrev LOD_SEED_HI : Nat := 0x0420014
/-- BAR0 offset of LOD_PROG_IDX. -/
abbrev LOD_PROG_IDX : Nat := 0x0420018
/-- BAR0 offset of LOD_PROG_DATA. -/
abbrev LOD_PROG_DATA : Nat := 0x042001C
/-- BAR0 offset of LOD_STATUS. -/
abbrev LOD_STATUS : Nat := 0x0420020
/-- BAR0 offset of LOD_HELD. -/
abbrev LOD_HELD : Nat := 0x0420024
/-- BAR0 offset of LOD_UPDATES_LO. -/
abbrev LOD_UPDATES_LO : Nat := 0x0420028
/-- BAR0 offset of LOD_UPDATES_HI. -/
abbrev LOD_UPDATES_HI : Nat := 0x042002C
/-- BAR0 offset of LOD_REL_UNDERFLOW. -/
abbrev LOD_REL_UNDERFLOW : Nat := 0x0420030
/-- BAR0 offset of LOD_VER. -/
abbrev LOD_VER : Nat := 0x0420100
/-- BAR0 offset of LOD_READERS. -/
abbrev LOD_READERS : Nat := 0x0420104
/-- BAR0 offset of LOD_GSTATE. -/
abbrev LOD_GSTATE : Nat := 0x0420108
/-- BAR0 offset of LOD_VER_TICK_LO. -/
abbrev LOD_VER_TICK_LO : Nat := 0x042010C
/-- BAR0 offset of LOD_VER_TICK_HI. -/
abbrev LOD_VER_TICK_HI : Nat := 0x0420110
/-- BAR0 offset of DSP_CHSEL. -/
abbrev DSP_CHSEL : Nat := 0x0500000
/-- BAR0 offset of DSP_CTRL. -/
abbrev DSP_CTRL : Nat := 0x0500004
/-- BAR0 offset of DSP_WIN_TICKS. -/
abbrev DSP_WIN_TICKS : Nat := 0x0500008
/-- BAR0 offset of DSP_BAL. -/
abbrev DSP_BAL : Nat := 0x050000C
/-- BAR0 offset of DSP_STATUS. -/
abbrev DSP_STATUS : Nat := 0x0500010
/-- BAR0 offset of DSP_STEP. -/
abbrev DSP_STEP : Nat := 0x0500014
/-- BAR0 offset of DSP_BOUNDARY_TICK_LO. -/
abbrev DSP_BOUNDARY_TICK_LO : Nat := 0x0500018
/-- BAR0 offset of DSP_BOUNDARY_TICK_HI. -/
abbrev DSP_BOUNDARY_TICK_HI : Nat := 0x050001C
/-- BAR0 offset of DSP_REBALANCES. -/
abbrev DSP_REBALANCES : Nat := 0x0500020
/-- BAR0 offset of DSP_LAST_IMBAL. -/
abbrev DSP_LAST_IMBAL : Nat := 0x0500024
/-- BAR0 offset of DSP_ARR_IDX. -/
abbrev DSP_ARR_IDX : Nat := 0x0500028
/-- BAR0 offset of DSP_ARR_BRANCH. -/
abbrev DSP_ARR_BRANCH : Nat := 0x050002C
/-- BAR0 offset of DSP_SHARE. -/
abbrev DSP_SHARE : Nat := 0x0500100
/-- BAR0 offset of DSP_COST_LO. -/
abbrev DSP_COST_LO : Nat := 0x0500104
/-- BAR0 offset of DSP_COST_HI. -/
abbrev DSP_COST_HI : Nat := 0x0500108
/-- BAR0 offset of DSP_LASTWIN_LO. -/
abbrev DSP_LASTWIN_LO : Nat := 0x050010C
/-- BAR0 offset of DSP_LASTWIN_HI. -/
abbrev DSP_LASTWIN_HI : Nat := 0x0500110
/-- BAR0 offset of DSP_READY_RUNNING. -/
abbrev DSP_READY_RUNNING : Nat := 0x0500114
/-- BAR0 offset of DSP_ITEMS. -/
abbrev DSP_ITEMS : Nat := 0x0500118
/-- BAR0 offset of DSP_BORROWED. -/
abbrev DSP_BORROWED : Nat := 0x050011C
/-- BAR0 offset of DSP_EST. -/
abbrev DSP_EST : Nat := 0x0500120

end Reg

/-- Registers of the GLB block, part 0. -/
def regsGlb0 : List RegDef := [
  ⟨Reg.GLB_MAGIC, .single, .single, [⟨31, 0, .ro, 1496921600, (.val 1496921600)⟩]⟩,
  ⟨Reg.GLB_STEPPING, .single, .single, [⟨7, 0, .ro, 16, .kept⟩]⟩,
  ⟨Reg.GLB_CONFIG, .single, .single, [⟨1, 0, .ro, 2, .kept⟩, ⟨2, 2, .ro, 1, .kept⟩]⟩,
  ⟨Reg.GLB_SCRATCH, .single, .single, [⟨31, 0, .rw, 0, .kept⟩]⟩,
  ⟨Reg.GLB_START, .single, .single, [⟨1, 0, .ro, 0, .kept⟩, ⟨6, 4, .ro, 0, .kept⟩, ⟨9, 8, .ro, 0, .kept⟩, ⟨10, 10, .ro, 0, .kept⟩, ⟨11, 11, .ro, 0, (.val 0)⟩, ⟨12, 12, .ro, 1, .kept⟩, ⟨19, 16, .ro, 0, (.val 0)⟩]⟩,
  ⟨Reg.GLB_START_TICK_LO, .single, .lo, [⟨31, 0, .ro, 0, .kept⟩]⟩,
  ⟨Reg.GLB_START_TICK_HI, .single, .hi, [⟨31, 0, .ro, 0, .kept⟩]⟩,
  ⟨Reg.GLB_CFG_READY_TICK_LO, .single, .lo, [⟨31, 0, .ro, 0, .kept⟩]⟩,
  ⟨Reg.GLB_CFG_READY_TICK_HI, .single, .hi, [⟨31, 0, .ro, 0, .kept⟩]⟩,
  ⟨Reg.GLB_STARTS, .single, .single, [⟨31, 0, .ro, 1, .kept⟩]⟩,
  ⟨Reg.GLB_STACK_RETRAIN, .single, .single, [⟨31, 0, .ro, 4294967295, .kept⟩]⟩]

/-- Registers of the HST block, part 0. -/
def regsHst0 : List RegDef := [
  ⟨Reg.HST_CHSEL, .chsel, .single, [⟨7, 0, .rw, 0, (.val 0)⟩]⟩,
  ⟨Reg.HST_CTRL, .single, .single, [⟨31, 31, .rwl, 0, (.val 0)⟩]⟩,
  ⟨Reg.HST_STATUS, .single, .single, [⟨0, 0, .w1c, 0, (.val 0)⟩, ⟨1, 1, .w1c, 0, (.val 0)⟩, ⟨2, 2, .w1c, 0, (.val 0)⟩, ⟨3, 3, .w1c, 0, (.val 0)⟩, ⟨4, 4, .w1c, 0, (.val 0)⟩]⟩,
  ⟨Reg.HST_WIN_BASE_LO, .single, .lo, [⟨31, 30, .rwl, 0, .kept⟩]⟩,
  ⟨Reg.HST_WIN_BASE_HI, .single, .hi, [⟨15, 0, .rwl, 0, .kept⟩]⟩,
  ⟨Reg.HST_EVT_CAUSE, .single, .single, [⟨9, 0, .w1c, 0, (.val 0)⟩]⟩,
  ⟨Reg.HST_EVT_MASK, .single, .single, [⟨9, 0, .rw, 0, (.val 0)⟩]⟩,
  ⟨Reg.HST_EVT_VEC, .single, .single, [⟨10, 0, .rw, 0, (.val 0)⟩]⟩,
  ⟨Reg.HST_MLOCK, .single, .single, [⟨17, 0, .ro, 0, .kept⟩]⟩,
  ⟨Reg.HST_REFUSED, .single, .single, [⟨31, 0, .rc, 0, (.val 0)⟩]⟩,
  ⟨Reg.HST_LAST_REFUSED, .single, .single, [⟨25, 0, .ro, 0, (.val 0)⟩, ⟨31, 31, .ro, 0, (.val 0)⟩]⟩,
  ⟨Reg.HST_RESET, .single, .single, [⟨0, 0, .wo, 0, (.val 0)⟩]⟩,
  ⟨Reg.HST_LINK, .single, .single, [⟨2, 0, .ro, 6, .kept⟩, ⟨8, 4, .ro, 16, .kept⟩, ⟨9, 9, .ro, 1, .kept⟩]⟩,
  ⟨Reg.HST_DB_ERR_Q, .single, .single, [⟨7, 0, .ro, 0, (.val 0)⟩]⟩,
  ⟨Reg.HST_INFLIGHT, .single, .single, [⟨16, 0, .ro, 0, (.val 0)⟩]⟩,
  ⟨Reg.SQ_CTRL, .queue, .single, [⟨0, 0, .rw, 0, (.val 0)⟩, ⟨1, 1, .rw, 0, (.val 0)⟩, ⟨15, 8, .rw, 0, (.val 0)⟩]⟩,
  ⟨Reg.SQ_BASE_LO, .queue, .lo, [⟨31, 12, .rw, 0, (.val 0)⟩]⟩,
  ⟨Reg.SQ_BASE_HI, .queue, .hi, [⟨31, 0, .rw, 0, (.val 0)⟩]⟩,
  ⟨Reg.SQ_SIZE, .queue, .single, [⟨16, 0, .rw, 0, (.val 0)⟩]⟩,
  ⟨Reg.SQ_HEAD, .queue, .single, [⟨15, 0, .ro, 0, (.val 0)⟩]⟩,
  ⟨Reg.SQ_TAIL, .queue, .single, [⟨15, 0, .ro, 0, (.val 0)⟩]⟩,
  ⟨Reg.SQ_STATUS, .queue, .single, [⟨0, 0, .ro, 1, (.val 1)⟩, ⟨1, 1, .w1c, 0, (.val 0)⟩]⟩,
  ⟨Reg.SQ_TAKEN, .queue, .single, [⟨31, 0, .rc, 0, (.val 0)⟩]⟩,
  ⟨Reg.CQ_CTRL, .queue, .single, [⟨0, 0, .rw, 0, (.val 0)⟩, ⟨1, 1, .rw, 0, (.val 0)⟩, ⟨2, 2, .rw, 0, (.val 0)⟩, ⟨26, 16, .rw, 0, (.val 0)⟩]⟩]

/-- Registers of the HST block, part 1. -/
def regsHst1 : List RegDef := [
  ⟨Reg.CQ_BASE_LO, .queue, .lo, [⟨31, 12, .rw, 0, (.val 0)⟩]⟩,
  ⟨Reg.CQ_BASE_HI, .queue, .hi, [⟨31, 0, .rw, 0, (.val 0)⟩]⟩,
  ⟨Reg.CQ_SIZE, .queue, .single, [⟨16, 0, .rw, 0, (.val 0)⟩]⟩,
  ⟨Reg.CQ_TAIL, .queue, .single, [⟨15, 0, .ro, 0, (.val 0)⟩, ⟨16, 16, .ro, 1, (.val 1)⟩]⟩,
  ⟨Reg.CQ_HEAD, .queue, .single, [⟨15, 0, .ro, 0, (.val 0)⟩]⟩,
  ⟨Reg.CQ_COAL, .queue, .single, [⟨15, 0, .rw, 0, (.val 0)⟩, ⟨31, 16, .rw, 0, (.val 0)⟩]⟩,
  ⟨Reg.CQ_STATUS, .queue, .single, [⟨0, 0, .w1c, 0, (.val 0)⟩, ⟨1, 1, .ro, 0, (.val 0)⟩]⟩,
  ⟨Reg.CQ_RESERVED, .queue, .single, [⟨16, 0, .ro, 0, (.val 0)⟩]⟩]

/-- Registers of the SEC block, part 0. -/
def regsSec0 : List RegDef := [
  ⟨Reg.SEC_SERIAL_LO, .single, .lo, [⟨31, 0, .ro, 0, .kept⟩]⟩,
  ⟨Reg.SEC_SERIAL_HI, .single, .hi, [⟨31, 0, .ro, 0, .kept⟩]⟩,
  ⟨Reg.SEC_BOOT, .single, .single, [⟨1, 0, .ro, 0, .kept⟩, ⟨7, 4, .ro, 0, .kept⟩, ⟨8, 8, .ro, 0, .kept⟩, ⟨9, 9, .ro, 0, .kept⟩, ⟨10, 10, .ro, 0, .kept⟩]⟩,
  ⟨Reg.SEC_SVN_MIN, .single, .single, [⟨5, 0, .ro, 0, .kept⟩, ⟨13, 8, .ro, 0, .kept⟩, ⟨21, 16, .ro, 0, .kept⟩]⟩,
  ⟨Reg.SEC_SVN_RUN, .single, .single, [⟨5, 0, .ro, 0, .kept⟩, ⟨13, 8, .ro, 0, .kept⟩, ⟨21, 16, .ro, 0, .kept⟩]⟩,
  ⟨Reg.SEC_UPDATE, .single, .single, [⟨1, 0, .ro, 0, (.val 0)⟩, ⟨15, 8, .ro, 0, .kept⟩]⟩,
  ⟨Reg.SEC_MEAS_IDX, .single, .single, [⟨3, 0, .rw, 1, (.val 1)⟩]⟩,
  ⟨Reg.SEC_BOOT_OPT, .single, .single, [⟨0, 0, .ro, 0, .kept⟩]⟩,
  ⟨Reg.SEC_MEAS_DATA0, .single, .single, [⟨31, 0, .ro, 0, .kept⟩]⟩,
  ⟨Reg.SEC_MEAS_DATA1, .single, .single, [⟨31, 0, .ro, 0, .kept⟩]⟩,
  ⟨Reg.SEC_MEAS_DATA2, .single, .single, [⟨31, 0, .ro, 0, .kept⟩]⟩,
  ⟨Reg.SEC_MEAS_DATA3, .single, .single, [⟨31, 0, .ro, 0, .kept⟩]⟩,
  ⟨Reg.SEC_MEAS_DATA4, .single, .single, [⟨31, 0, .ro, 0, .kept⟩]⟩,
  ⟨Reg.SEC_MEAS_DATA5, .single, .single, [⟨31, 0, .ro, 0, .kept⟩]⟩,
  ⟨Reg.SEC_MEAS_DATA6, .single, .single, [⟨31, 0, .ro, 0, .kept⟩]⟩,
  ⟨Reg.SEC_MEAS_DATA7, .single, .single, [⟨31, 0, .ro, 0, .kept⟩]⟩,
  ⟨Reg.SEC_DBG, .single, .single, [⟨1, 0, .ro, 0, (.val 0)⟩, ⟨2, 2, .ro, 0, (.val 0)⟩]⟩]

/-- Registers of the PWR block, part 0. -/
def regsPwr0 : List RegDef := [
  ⟨Reg.PWR_CTRL, .single, .single, [⟨31, 31, .rwl, 0, (.val 0)⟩]⟩,
  ⟨Reg.PWR_LIMIT, .single, .single, [⟨11, 0, .rw, 3500, .kept⟩]⟩,
  ⟨Reg.PWR_HEADROOM, .single, .single, [⟨8, 0, .rwl, 50, .kept⟩]⟩,
  ⟨Reg.PWR_ACLK_MAX, .single, .single, [⟨4, 0, .rw, 24, .kept⟩]⟩,
  ⟨Reg.PWR_ACLK, .single, .single, [⟨4, 0, .ro, 24, (.val 24)⟩]⟩,
  ⟨Reg.PWR_POWER, .single, .single, [⟨11, 0, .ro, 0, (.val 0)⟩]⟩,
  ⟨Reg.PWR_PEAK, .single, .single, [⟨11, 0, .rc, 0, (.val 0)⟩]⟩,
  ⟨Reg.PWR_IDLE_CYC, .single, .single, [⟨15, 0, .rwl, 1024, .kept⟩]⟩,
  ⟨Reg.PWR_RET_TICKS, .single, .single, [⟨23, 0, .rwl, 25000, .kept⟩]⟩,
  ⟨Reg.PWR_PLL_OFF_TICKS, .single, .single, [⟨23, 0, .rwl, 250000, .kept⟩]⟩,
  ⟨Reg.PWR_OFF_IDX, .single, .single, [⟨6, 0, .rw, 0, (.val 0)⟩]⟩,
  ⟨Reg.PWR_OFF_CTRL, .single, .single, [⟨0, 0, .wo, 0, (.val 0)⟩, ⟨1, 1, .wo, 0, (.val 0)⟩]⟩,
  ⟨Reg.PWR_STATUS, .single, .single, [⟨0, 0, .ro, 0, (.val 0)⟩, ⟨1, 1, .w1c, 0, (.val 0)⟩, ⟨2, 2, .w1c, 0, (.val 0)⟩, ⟨3, 3, .w1c, 0, (.val 0)⟩]⟩,
  ⟨Reg.PWR_ENERGY_LO, .single, .lo, [⟨31, 0, .rc, 0, .kept⟩]⟩,
  ⟨Reg.PWR_ENERGY_HI, .single, .hi, [⟨31, 0, .rc, 0, .kept⟩]⟩,
  ⟨Reg.PWR_THROTTLE_TICKS, .single, .single, [⟨31, 0, .rc, 0, (.val 0)⟩]⟩,
  ⟨Reg.CLK_STATUS, .single, .single, [⟨0, 0, .ro, 0, (.val 0)⟩, ⟨1, 1, .ro, 0, (.val 0)⟩, ⟨2, 2, .ro, 0, (.val 0)⟩, ⟨3, 3, .ro, 0, (.val 0)⟩, ⟨8, 8, .ro, 1, .kept⟩, ⟨9, 9, .ro, 1, .kept⟩, ⟨16, 16, .w1c, 0, (.val 0)⟩]⟩,
  ⟨Reg.CLK_MCLK_PLL_OFF_TICKS, .single, .single, [⟨23, 0, .rwl, 250000, .kept⟩]⟩,
  ⟨Reg.CLK_TB_LO, .single, .lo, [⟨31, 0, .ro, 0, .kept⟩]⟩,
  ⟨Reg.CLK_TB_HI, .single, .hi, [⟨31, 0, .ro, 0, .kept⟩]⟩,
  ⟨Reg.CLK_TB_SET_LO, .single, .lo, [⟨31, 0, .wo, 0, (.val 0)⟩]⟩,
  ⟨Reg.CLK_TB_SET_HI, .single, .hi, [⟨31, 0, .wo, 0, (.val 0)⟩]⟩,
  ⟨Reg.CLK_XOVR, .single, .single, [⟨4, 0, .w1c, 0, (.val 0)⟩]⟩,
  ⟨Reg.CLK_XOVR_COUNT, .single, .single, [⟨31, 0, .rc, 0, (.val 0)⟩]⟩]

/-- Registers of the PWR block, part 1. -/
def regsPwr1 : List RegDef := [
  ⟨Reg.CLK_TIMEOUTS, .single, .single, [⟨31, 0, .rc, 0, (.val 0)⟩]⟩,
  ⟨Reg.CLK_LAST_TO_DOMAIN, .single, .single, [⟨2, 0, .ro, 0, .kept⟩]⟩,
  ⟨Reg.CLK_LAST_TO_TICK_LO, .single, .lo, [⟨31, 0, .ro, 0, .kept⟩]⟩,
  ⟨Reg.CLK_LAST_TO_TICK_HI, .single, .hi, [⟨31, 0, .ro, 0, .kept⟩]⟩,
  ⟨Reg.CLK_PLL_STARTS, .single, .single, [⟨31, 0, .rc, 0, (.val 0)⟩]⟩]

/-- Registers of the FLT block, part 0. -/
def regsFlt0 : List RegDef := [
  ⟨Reg.FLT_CTRL, .single, .single, [⟨2, 0, .rwl, 2, .kept⟩, ⟨31, 31, .rwl, 0, (.val 0)⟩]⟩,
  ⟨Reg.FLT_STATUS, .single, .single, [⟨0, 0, .w1c, 0, (.val 0)⟩, ⟨1, 1, .w1c, 0, (.val 0)⟩, ⟨2, 2, .w1c, 0, (.val 0)⟩]⟩,
  ⟨Reg.FLT_HEAD_SEQ, .single, .single, [⟨31, 0, .rw, 1, .kept⟩]⟩,
  ⟨Reg.FLT_NEXT_SEQ, .single, .single, [⟨31, 0, .ro, 1, .kept⟩]⟩,
  ⟨Reg.FLT_HELD, .single, .single, [⟨10, 0, .ro, 0, .kept⟩]⟩,
  ⟨Reg.FLT_DROP_MASKED, .single, .single, [⟨31, 0, .rc, 0, .kept⟩]⟩,
  ⟨Reg.FLT_DROP_REPORTED, .single, .single, [⟨31, 0, .rc, 0, .kept⟩]⟩,
  ⟨Reg.FLT_REPLAYS, .single, .single, [⟨31, 0, .rc, 0, (.val 0)⟩]⟩,
  ⟨Reg.FLT_SRAM_CE, .single, .single, [⟨31, 0, .rc, 0, (.val 0)⟩]⟩,
  ⟨Reg.FLT_FABRIC_RETRY, .single, .single, [⟨31, 0, .rc, 0, (.val 0)⟩]⟩,
  ⟨Reg.FLT_PEAT_CE, .single, .single, [⟨31, 0, .rc, 0, .kept⟩]⟩,
  ⟨Reg.FLT_REC0, .single, .single, [⟨31, 0, .ro, 0, .kept⟩]⟩,
  ⟨Reg.FLT_REC1, .single, .single, [⟨31, 0, .ro, 0, .kept⟩]⟩,
  ⟨Reg.FLT_REC2, .single, .single, [⟨31, 0, .ro, 0, .kept⟩]⟩,
  ⟨Reg.FLT_REC3, .single, .single, [⟨31, 0, .ro, 0, .kept⟩]⟩,
  ⟨Reg.FLT_REC4, .single, .single, [⟨31, 0, .ro, 0, .kept⟩]⟩,
  ⟨Reg.FLT_REC5, .single, .single, [⟨31, 0, .ro, 0, .kept⟩]⟩,
  ⟨Reg.FLT_REC6, .single, .single, [⟨31, 0, .ro, 0, .kept⟩]⟩,
  ⟨Reg.FLT_REC7, .single, .single, [⟨31, 0, .ro, 0, .kept⟩]⟩,
  ⟨Reg.FLT_REC8, .single, .single, [⟨31, 0, .ro, 0, .kept⟩]⟩,
  ⟨Reg.FLT_REC9, .single, .single, [⟨31, 0, .ro, 0, .kept⟩]⟩,
  ⟨Reg.FLT_REC10, .single, .single, [⟨31, 0, .ro, 0, .kept⟩]⟩,
  ⟨Reg.FLT_REC11, .single, .single, [⟨31, 0, .ro, 0, .kept⟩]⟩,
  ⟨Reg.FLT_REC12, .single, .single, [⟨31, 0, .ro, 0, .kept⟩]⟩]

/-- Registers of the FLT block, part 1. -/
def regsFlt1 : List RegDef := [
  ⟨Reg.FLT_REC13, .single, .single, [⟨31, 0, .ro, 0, .kept⟩]⟩,
  ⟨Reg.FLT_REC14, .single, .single, [⟨31, 0, .ro, 0, .kept⟩]⟩,
  ⟨Reg.FLT_REC15, .single, .single, [⟨31, 0, .ro, 0, .kept⟩]⟩,
  ⟨Reg.JRN_CTRL, .single, .single, [⟨0, 0, .rw, 0, (.val 0)⟩, ⟨1, 1, .rwl, 0, .kept⟩]⟩,
  ⟨Reg.JRN_SPILL_BASE_LO, .single, .lo, [⟨31, 12, .rwl, 0, .kept⟩]⟩,
  ⟨Reg.JRN_SPILL_BASE_HI, .single, .hi, [⟨31, 0, .rwl, 0, .kept⟩]⟩,
  ⟨Reg.JRN_SPILL_SIZE, .single, .single, [⟨15, 0, .rwl, 0, .kept⟩]⟩,
  ⟨Reg.JRN_SPILL_WR, .single, .single, [⟨23, 0, .ro, 0, (.val 0)⟩]⟩,
  ⟨Reg.JRN_SPILL_RD, .single, .single, [⟨23, 0, .rw, 0, (.val 0)⟩]⟩,
  ⟨Reg.JRN_SPILL_WM, .single, .single, [⟨23, 0, .rwl, 0, .kept⟩]⟩,
  ⟨Reg.JRN_NEXT_SEQ, .single, .single, [⟨23, 0, .ro, 1, .kept⟩]⟩,
  ⟨Reg.JRN_HELD, .single, .single, [⟨16, 0, .ro, 0, .kept⟩]⟩,
  ⟨Reg.JRN_UNSPILLED, .single, .single, [⟨16, 0, .ro, 0, .kept⟩]⟩,
  ⟨Reg.JRN_LOST_LO, .single, .lo, [⟨31, 0, .ro, 0, .kept⟩]⟩,
  ⟨Reg.JRN_LOST_HI, .single, .hi, [⟨31, 0, .ro, 0, .kept⟩]⟩,
  ⟨Reg.JRN_STATUS, .single, .single, [⟨0, 0, .w1c, 0, (.val 0)⟩, ⟨1, 1, .w1c, 0, (.val 0)⟩, ⟨2, 2, .w1c, 0, (.val 0)⟩, ⟨3, 3, .w1c, 0, (.val 0)⟩]⟩,
  ⟨Reg.JRN_RD, .single, .single, [⟨23, 0, .rw, 0, (.val 0)⟩]⟩,
  ⟨Reg.JRN_RD_STATUS, .single, .single, [⟨1, 0, .ro, 0, (.val 0)⟩]⟩,
  ⟨Reg.JRN_ENT0, .single, .single, [⟨31, 0, .ro, 0, .kept⟩]⟩,
  ⟨Reg.JRN_ENT1, .single, .single, [⟨31, 0, .ro, 0, .kept⟩]⟩,
  ⟨Reg.JRN_ENT2, .single, .single, [⟨31, 0, .ro, 0, .kept⟩]⟩,
  ⟨Reg.JRN_ENT3, .single, .single, [⟨31, 0, .ro, 0, .kept⟩]⟩,
  ⟨Reg.JRN_ENT4, .single, .single, [⟨31, 0, .ro, 0, .kept⟩]⟩,
  ⟨Reg.JRN_ENT5, .single, .single, [⟨31, 0, .ro, 0, .kept⟩]⟩]

/-- Registers of the FLT block, part 2. -/
def regsFlt2 : List RegDef := [
  ⟨Reg.JRN_ENT6, .single, .single, [⟨31, 0, .ro, 0, .kept⟩]⟩,
  ⟨Reg.JRN_ENT7, .single, .single, [⟨31, 0, .ro, 0, .kept⟩]⟩]

/-- Registers of the ARR block, part 0. -/
def regsArr0 : List RegDef := [
  ⟨Reg.ARR_CHSEL, .chsel, .single, [⟨6, 0, .rw, 0, (.val 0)⟩]⟩,
  ⟨Reg.ARR_CTRL, .single, .single, [⟨4, 0, .rwl, 16, .kept⟩, ⟨31, 31, .rwl, 0, (.val 0)⟩]⟩,
  ⟨Reg.ARR_STATUS, .single, .single, [⟨2, 0, .ro, 4, .kept⟩, ⟨14, 8, .ro, 0, .kept⟩, ⟨22, 16, .ro, 96, .kept⟩, ⟨24, 24, .w1c, 0, (.val 0)⟩]⟩,
  ⟨Reg.ARR_MAP_IDX, .single, .single, [⟨6, 0, .rw, 0, (.val 0)⟩]⟩,
  ⟨Reg.ARR_MAP_DATA, .mapIdx, .single, [⟨6, 0, .ro, 0, .kept⟩, ⟨8, 8, .ro, 0, .kept⟩]⟩,
  ⟨Reg.ARR_EVT_COUNT, .single, .single, [⟨31, 0, .rc, 0, (.val 0)⟩]⟩,
  ⟨Reg.ARR_REMAP_TICK_LO, .single, .lo, [⟨31, 0, .ro, 0, .kept⟩]⟩,
  ⟨Reg.ARR_REMAP_TICK_HI, .single, .hi, [⟨31, 0, .ro, 0, .kept⟩]⟩,
  ⟨Reg.ARR_REMAP_COUNT, .single, .single, [⟨31, 0, .ro, 0, .kept⟩]⟩,
  ⟨Reg.VEC_SEED_LO, .single, .lo, [⟨31, 0, .rw, 0, .kept⟩]⟩,
  ⟨Reg.VEC_SEED_HI, .single, .hi, [⟨31, 0, .rw, 0, .kept⟩]⟩,
  ⟨Reg.ARR_LOGICAL, .phys, .single, [⟨7, 0, .ro, 0, .kept⟩, ⟨10, 8, .ro, 0, .kept⟩, ⟨17, 16, .ro, 0, (.val 0)⟩]⟩,
  ⟨Reg.ARR_ROW_MISMATCH, .phys, .single, [⟨31, 0, .rc, 0, (.val 0)⟩]⟩,
  ⟨Reg.ARR_COL_MISMATCH, .phys, .single, [⟨31, 0, .rc, 0, (.val 0)⟩]⟩,
  ⟨Reg.ARR_INT_CORRECTED, .phys, .single, [⟨31, 0, .rc, 0, (.val 0)⟩]⟩,
  ⟨Reg.ARR_RECOMPUTES, .phys, .single, [⟨31, 0, .rc, 0, (.val 0)⟩]⟩,
  ⟨Reg.ARR_LAST_EVT_TICK_LO, .phys, .lo, [⟨31, 0, .ro, 0, .kept⟩]⟩,
  ⟨Reg.ARR_LAST_EVT_TICK_HI, .phys, .hi, [⟨31, 0, .ro, 0, .kept⟩]⟩,
  ⟨Reg.ARR_ROWS_LO, .phys, .lo, [⟨31, 0, .rc, 0, (.val 0)⟩]⟩,
  ⟨Reg.ARR_ROWS_HI, .phys, .hi, [⟨31, 0, .rc, 0, (.val 0)⟩]⟩,
  ⟨Reg.ARR_BUSY_CYCLES_LO, .phys, .lo, [⟨31, 0, .rc, 0, (.val 0)⟩]⟩,
  ⟨Reg.ARR_BUSY_CYCLES_HI, .phys, .hi, [⟨31, 0, .rc, 0, (.val 0)⟩]⟩,
  ⟨Reg.ARR_INJECT, .phys, .single, [⟨0, 0, .wo, 0, (.val 0)⟩, ⟨1, 1, .wo, 0, (.val 0)⟩, ⟨7, 4, .wo, 0, (.val 0)⟩]⟩,
  ⟨Reg.ROW_SIDE_PTR, .phys, .single, [⟨18, 0, .ro, 0, (.val 0)⟩]⟩]

/-- Registers of the ARR block, part 1. -/
def regsArr1 : List RegDef := [
  ⟨Reg.ROW_SPILL_PTR, .phys, .single, [⟨31, 0, .ro, 0, (.val 0)⟩]⟩,
  ⟨Reg.ROW_TAGS, .phys, .single, [⟨8, 0, .ro, 0, (.val 0)⟩]⟩,
  ⟨Reg.VEC_BUSY, .phys, .single, [⟨31, 0, .rc, 0, (.val 0)⟩]⟩,
  ⟨Reg.ROW_BUSY, .phys, .single, [⟨31, 0, .rc, 0, (.val 0)⟩]⟩]

/-- Registers of the EXP block, part 0. -/
def regsExp0 : List RegDef := [
  ⟨Reg.EXP_CHSEL, .chsel, .single, [⟨6, 0, .rw, 0, (.val 0)⟩]⟩,
  ⟨Reg.EXP_CTRL, .single, .single, [⟨0, 0, .wo, 0, (.val 0)⟩]⟩,
  ⟨Reg.EXP_DAMAGED, .single, .single, [⟨31, 0, .rc, 0, (.val 0)⟩]⟩,
  ⟨Reg.EXP_STALE, .single, .single, [⟨31, 0, .rc, 0, (.val 0)⟩]⟩,
  ⟨Reg.EXP_INVALID, .single, .single, [⟨31, 0, .rc, 0, (.val 0)⟩]⟩,
  ⟨Reg.EXP_STALL_DECODE_LO, .phys, .lo, [⟨31, 0, .rc, 0, (.val 0)⟩]⟩,
  ⟨Reg.EXP_STALL_DECODE_HI, .phys, .hi, [⟨31, 0, .rc, 0, (.val 0)⟩]⟩,
  ⟨Reg.EXP_STALL_MEM_LO, .phys, .lo, [⟨31, 0, .rc, 0, (.val 0)⟩]⟩,
  ⟨Reg.EXP_STALL_MEM_HI, .phys, .hi, [⟨31, 0, .rc, 0, (.val 0)⟩]⟩,
  ⟨Reg.EXP_BLOCKS_LO, .phys, .lo, [⟨31, 0, .rc, 0, (.val 0)⟩]⟩,
  ⟨Reg.EXP_BLOCKS_HI, .phys, .hi, [⟨31, 0, .rc, 0, (.val 0)⟩]⟩,
  ⟨Reg.EXP_ESCAPES, .phys, .single, [⟨31, 0, .rc, 0, (.val 0)⟩]⟩,
  ⟨Reg.EXP_ARR_DAMAGED, .phys, .single, [⟨31, 0, .rc, 0, (.val 0)⟩]⟩,
  ⟨Reg.EXP_DMG_REC_DROPPED, .phys, .single, [⟨31, 0, .rc, 0, (.val 0)⟩]⟩,
  ⟨Reg.EXP_CACHE, .phys, .single, [⟨15, 0, .ro, 0, (.val 0)⟩, ⟨31, 16, .ro, 0, (.val 0)⟩]⟩,
  ⟨Reg.EXP_BINDS, .phys, .single, [⟨31, 0, .rc, 0, (.val 0)⟩]⟩,
  ⟨Reg.EXP_BIND_HITS, .phys, .single, [⟨31, 0, .rc, 0, (.val 0)⟩]⟩,
  ⟨Reg.EXP_LAST_DMG_VA_LO, .phys, .lo, [⟨31, 0, .ro, 0, (.val 0)⟩]⟩,
  ⟨Reg.EXP_LAST_DMG_VA_HI, .phys, .hi, [⟨31, 0, .ro, 0, (.val 0)⟩]⟩]

/-- Registers of the MEM block, part 0. -/
def regsMem0 : List RegDef := [
  ⟨Reg.MEM_CHSEL, .chsel, .single, [⟨4, 0, .rw, 0, (.val 0)⟩, ⟨9, 5, .rw, 0, (.val 0)⟩]⟩,
  ⟨Reg.MEM_CTRL, .single, .single, [⟨0, 0, .rwl, 0, .kept⟩, ⟨1, 1, .ro, 0, .kept⟩, ⟨15, 8, .rwl, 8, .kept⟩, ⟨31, 31, .rwl, 0, (.val 0)⟩]⟩,
  ⟨Reg.MEM_STATUS, .single, .single, [⟨0, 0, .ro, 1, .kept⟩, ⟨1, 1, .ro, 1, .kept⟩, ⟨2, 2, .ro, 0, (.val 0)⟩, ⟨8, 8, .w1c, 0, (.val 0)⟩, ⟨9, 9, .w1c, 0, (.val 0)⟩]⟩,
  ⟨Reg.MEM_SHARE_LO, .single, .lo, [⟨7, 0, .rw, 25, .kept⟩, ⟨15, 8, .rw, 50, .kept⟩, ⟨23, 16, .rw, 10, .kept⟩, ⟨31, 24, .rw, 10, .kept⟩]⟩,
  ⟨Reg.MEM_SHARE_HI, .single, .hi, [⟨7, 0, .rw, 5, .kept⟩]⟩,
  ⟨Reg.MEM_FCLASS_IDX, .single, .single, [⟨13, 0, .rw, 0, (.val 0)⟩]⟩,
  ⟨Reg.MEM_FCLASS_DATA, .fclassIdx, .single, [⟨31, 0, .rw, 0, (.val 0)⟩]⟩,
  ⟨Reg.MEM_HOT_MAP, .single, .single, [⟨31, 0, .ro, 0, .kept⟩]⟩,
  ⟨Reg.MEM_FENCED_MAP, .single, .single, [⟨31, 0, .ro, 0, .kept⟩]⟩,
  ⟨Reg.MEM_FAILED_PCS, .single, .single, [⟨10, 0, .ro, 0, .kept⟩]⟩,
  ⟨Reg.MEM_TEMP, .stack, .single, [⟨7, 0, .ro, 0, .kept⟩, ⟨9, 8, .ro, 0, .kept⟩]⟩,
  ⟨Reg.MEM_STK_CE, .stack, .single, [⟨31, 0, .rc, 0, (.val 0)⟩]⟩,
  ⟨Reg.MEM_PC, .pc, .single, [⟨0, 0, .ro, 0, .kept⟩, ⟨15, 8, .ro, 0, (.val 0)⟩]⟩,
  ⟨Reg.MEM_PC_RETRY, .pc, .single, [⟨31, 0, .rc, 0, (.val 0)⟩]⟩,
  ⟨Reg.MEM_PC_UE, .pc, .single, [⟨31, 0, .rc, 0, (.val 0)⟩]⟩]

/-- Registers of the T2 block, part 0. -/
def regsT20 : List RegDef := [
  ⟨Reg.T2_CHSEL, .chsel, .single, [⟨4, 0, .rw, 0, (.val 0)⟩]⟩,
  ⟨Reg.T2_CTRL, .single, .single, [⟨7, 0, .rwl, 24, .kept⟩, ⟨31, 31, .rwl, 0, (.val 0)⟩]⟩,
  ⟨Reg.T2_STATUS, .single, .single, [⟨0, 0, .ro, 1, .kept⟩, ⟨1, 1, .ro, 1, .kept⟩, ⟨2, 2, .ro, 0, .kept⟩]⟩,
  ⟨Reg.CKP_LIST_LO, .single, .lo, [⟨31, 0, .rw, 0, .kept⟩]⟩,
  ⟨Reg.CKP_LIST_HI, .single, .hi, [⟨15, 0, .rw, 0, .kept⟩]⟩,
  ⟨Reg.CKP_COUNT, .single, .single, [⟨12, 0, .rw, 0, .kept⟩]⟩,
  ⟨Reg.CKP_CTRL, .single, .single, [⟨0, 0, .wo, 0, (.val 0)⟩, ⟨1, 1, .wo, 0, (.val 0)⟩]⟩,
  ⟨Reg.CKP_STATUS, .single, .single, [⟨7, 0, .ro, 0, .kept⟩, ⟨8, 8, .ro, 0, (.val 0)⟩, ⟨9, 9, .ro, 0, (.val 0)⟩, ⟨10, 10, .w1c, 0, (.val 0)⟩]⟩,
  ⟨Reg.CKP_DONE, .single, .single, [⟨12, 0, .ro, 0, .kept⟩]⟩,
  ⟨Reg.CKP_TICK_LO, .single, .lo, [⟨31, 0, .ro, 0, .kept⟩]⟩,
  ⟨Reg.CKP_TICK_HI, .single, .hi, [⟨31, 0, .ro, 0, .kept⟩]⟩,
  ⟨Reg.T2_PKG, .pkg, .single, [⟨0, 0, .ro, 1, .kept⟩, ⟨1, 1, .ro, 0, .kept⟩]⟩,
  ⟨Reg.T2_PKG_CE, .pkg, .single, [⟨31, 0, .rc, 0, (.val 0)⟩]⟩,
  ⟨Reg.T2_PKG_UE, .pkg, .single, [⟨31, 0, .rc, 0, (.val 0)⟩]⟩]

/-- Registers of the POOL block, part 0. -/
def regsPool0 : List RegDef := [
  ⟨Reg.POOL_CHSEL, .chsel, .single, [⟨5, 0, .rw, 0, (.val 0)⟩]⟩,
  ⟨Reg.POOL_BANK_CE, .bank, .single, [⟨31, 0, .rc, 0, (.val 0)⟩]⟩,
  ⟨Reg.POOL_BANK_UE, .bank, .single, [⟨31, 0, .rc, 0, (.val 0)⟩]⟩,
  ⟨Reg.POOL_BANK_WAIT, .bank, .single, [⟨31, 0, .rc, 0, (.val 0)⟩]⟩,
  ⟨Reg.POOL_BANK_MERGED, .bank, .single, [⟨31, 0, .rc, 0, (.val 0)⟩]⟩]

/-- Registers of the MMU block, part 0. -/
def regsMmu0 : List RegDef := [
  ⟨Reg.MMU_CTRL, .single, .single, [⟨0, 0, .rw, 0, (.val 0)⟩, ⟨31, 31, .rwl, 0, (.val 0)⟩]⟩,
  ⟨Reg.MMU_ROOT_LO, .single, .lo, [⟨31, 12, .rwl, 0, (.val 0)⟩]⟩,
  ⟨Reg.MMU_ROOT_HI, .single, .hi, [⟨15, 0, .rwl, 0, (.val 0)⟩]⟩,
  ⟨Reg.MMU_INV_VA_LO, .single, .lo, [⟨31, 16, .rw, 0, (.val 0)⟩]⟩,
  ⟨Reg.MMU_INV_VA_HI, .single, .hi, [⟨15, 0, .rw, 0, (.val 0)⟩]⟩,
  ⟨Reg.MMU_INV_SIZE, .single, .single, [⟨31, 0, .rw, 0, (.val 0)⟩]⟩,
  ⟨Reg.MMU_INV_CTRL, .single, .single, [⟨0, 0, .wo, 0, (.val 0)⟩]⟩,
  ⟨Reg.MMU_INV_STATUS, .single, .single, [⟨0, 0, .ro, 0, (.val 0)⟩, ⟨1, 1, .w1c, 0, (.val 0)⟩, ⟨2, 2, .w1c, 0, (.val 0)⟩]⟩,
  ⟨Reg.MMU_FAULT_COUNT, .single, .single, [⟨31, 0, .rc, 0, (.val 0)⟩]⟩,
  ⟨Reg.DMA_OOB_DISCARD_LO, .single, .lo, [⟨31, 0, .rc, 0, (.val 0)⟩]⟩,
  ⟨Reg.DMA_OOB_DISCARD_HI, .single, .hi, [⟨31, 0, .rc, 0, (.val 0)⟩]⟩]

/-- Registers of the MED block, part 0. -/
def regsMed0 : List RegDef := [
  ⟨Reg.MED_CHSEL, .chsel, .single, [⟨9, 0, .rw, 0, (.val 0)⟩, ⟨22, 16, .rw, 0, (.val 0)⟩]⟩,
  ⟨Reg.MED_CTRL, .single, .single, [⟨31, 31, .rwl, 0, (.val 0)⟩]⟩,
  ⟨Reg.MED_STATUS, .single, .single, [⟨0, 0, .w1c, 0, (.val 0)⟩, ⟨1, 1, .w1c, 0, (.val 0)⟩, ⟨2, 2, .w1c, 0, (.val 0)⟩, ⟨3, 3, .w1c, 0, (.val 0)⟩]⟩,
  ⟨Reg.MED_FB_BASE_LO, .single, .lo, [⟨31, 21, .rwl, 0, (.val 0)⟩]⟩,
  ⟨Reg.MED_FB_BASE_HI, .single, .hi, [⟨15, 0, .rwl, 0, (.val 0)⟩]⟩,
  ⟨Reg.MED_FB_SIZE, .single, .single, [⟨6, 0, .rwl, 0, (.val 0)⟩]⟩,
  ⟨Reg.MED_FB_COUNT, .single, .single, [⟨10, 0, .rwl, 0, (.val 0)⟩]⟩,
  ⟨Reg.MED_FB_FREE, .single, .single, [⟨10, 0, .ro, 0, (.val 0)⟩]⟩,
  ⟨Reg.MED_FB_RELEASE, .single, .single, [⟨9, 0, .wo, 0, (.val 0)⟩]⟩,
  ⟨Reg.MED_SAMPLES_LO, .single, .lo, [⟨31, 0, .rc, 0, (.val 0)⟩]⟩,
  ⟨Reg.MED_SAMPLES_HI, .single, .hi, [⟨31, 0, .rc, 0, (.val 0)⟩]⟩,
  ⟨Reg.MED_REJECTED, .single, .single, [⟨31, 0, .rc, 0, (.val 0)⟩]⟩,
  ⟨Reg.MED_CONCEALED, .single, .single, [⟨31, 0, .rc, 0, (.val 0)⟩]⟩,
  ⟨Reg.MED_EMPTY, .single, .single, [⟨31, 0, .rc, 0, (.val 0)⟩]⟩,
  ⟨Reg.TOK0_MERGE_LO, .single, .lo, [⟨31, 12, .rwl, 0, (.val 0)⟩]⟩,
  ⟨Reg.TOK0_MERGE_HI, .single, .hi, [⟨15, 0, .rwl, 0, (.val 0)⟩]⟩,
  ⟨Reg.TOK0_NMERGE, .single, .single, [⟨17, 0, .rwl, 0, (.val 0)⟩]⟩,
  ⟨Reg.TOK0_VOCAB_LO, .single, .lo, [⟨31, 12, .rwl, 0, (.val 0)⟩]⟩,
  ⟨Reg.TOK0_VOCAB_HI, .single, .hi, [⟨15, 0, .rwl, 0, (.val 0)⟩]⟩,
  ⟨Reg.TOK0_REPL_ID, .single, .single, [⟨31, 0, .rwl, 0, (.val 0)⟩]⟩,
  ⟨Reg.TOK0_LOAD, .single, .single, [⟨0, 0, .wo, 0, (.val 0)⟩]⟩,
  ⟨Reg.TOK0_STATE, .single, .single, [⟨0, 0, .ro, 0, (.val 0)⟩, ⟨1, 1, .ro, 0, (.val 0)⟩, ⟨15, 8, .ro, 0, (.val 0)⟩]⟩,
  ⟨Reg.TOK1_MERGE_LO, .single, .lo, [⟨31, 12, .rwl, 0, (.val 0)⟩]⟩,
  ⟨Reg.TOK1_MERGE_HI, .single, .hi, [⟨15, 0, .rwl, 0, (.val 0)⟩]⟩]

/-- Registers of the MED block, part 1. -/
def regsMed1 : List RegDef := [
  ⟨Reg.TOK1_NMERGE, .single, .single, [⟨17, 0, .rwl, 0, (.val 0)⟩]⟩,
  ⟨Reg.TOK1_VOCAB_LO, .single, .lo, [⟨31, 12, .rwl, 0, (.val 0)⟩]⟩,
  ⟨Reg.TOK1_VOCAB_HI, .single, .hi, [⟨15, 0, .rwl, 0, (.val 0)⟩]⟩,
  ⟨Reg.TOK1_REPL_ID, .single, .single, [⟨31, 0, .rwl, 0, (.val 0)⟩]⟩,
  ⟨Reg.TOK1_LOAD, .single, .single, [⟨0, 0, .wo, 0, (.val 0)⟩]⟩,
  ⟨Reg.TOK1_STATE, .single, .single, [⟨0, 0, .ro, 0, (.val 0)⟩, ⟨1, 1, .ro, 0, (.val 0)⟩, ⟨15, 8, .ro, 0, (.val 0)⟩]⟩,
  ⟨Reg.MED_CTX_CTRL, .ctx, .single, [⟨0, 0, .rw, 0, (.val 0)⟩, ⟨3, 1, .rw, 0, (.val 0)⟩, ⟨6, 4, .rw, 0, (.val 0)⟩, ⟨15, 8, .rw, 0, (.val 0)⟩, ⟨23, 16, .rw, 255, (.val 255)⟩, ⟨24, 24, .rw, 0, (.val 0)⟩, ⟨31, 25, .rw, 100, (.val 100)⟩]⟩,
  ⟨Reg.MED_IN_RING_VA_LO, .ctx, .lo, [⟨31, 21, .rw, 0, (.val 0)⟩]⟩,
  ⟨Reg.MED_IN_RING_VA_HI, .ctx, .hi, [⟨15, 0, .rw, 0, (.val 0)⟩]⟩,
  ⟨Reg.MED_IN_RING_SIZE, .ctx, .single, [⟨11, 0, .rw, 0, (.val 0)⟩]⟩,
  ⟨Reg.MED_IN_WR_PTR, .ctx, .single, [⟨31, 0, .rw, 0, (.val 0)⟩]⟩,
  ⟨Reg.MED_IN_RD_PTR, .ctx, .single, [⟨31, 0, .ro, 0, (.val 0)⟩]⟩,
  ⟨Reg.MED_OUT_RING_VA_LO, .ctx, .lo, [⟨31, 21, .rw, 0, (.val 0)⟩]⟩,
  ⟨Reg.MED_OUT_RING_VA_HI, .ctx, .hi, [⟨15, 0, .rw, 0, (.val 0)⟩]⟩,
  ⟨Reg.MED_OUT_RING_SIZE, .ctx, .single, [⟨11, 0, .rw, 0, (.val 0)⟩]⟩,
  ⟨Reg.MED_OUT_WR_PTR, .ctx, .single, [⟨31, 0, .ro, 0, (.val 0)⟩]⟩,
  ⟨Reg.MED_OUT_RD_PTR, .ctx, .single, [⟨31, 0, .rw, 0, (.val 0)⟩]⟩,
  ⟨Reg.MED_LIM_WH, .ctx, .single, [⟨15, 0, .rw, 0, (.val 0)⟩, ⟨31, 16, .rw, 0, (.val 0)⟩]⟩,
  ⟨Reg.MED_LIM_PIX, .ctx, .single, [⟨31, 0, .rw, 0, (.val 0)⟩]⟩,
  ⟨Reg.MED_LIM_DUR_MS, .ctx, .single, [⟨31, 0, .rw, 0, (.val 0)⟩]⟩,
  ⟨Reg.MED_LIM_TOKENS, .ctx, .single, [⟨31, 0, .rw, 0, (.val 0)⟩]⟩,
  ⟨Reg.MED_RESERVE, .ctx, .single, [⟨4, 0, .rw, 0, (.val 0)⟩]⟩,
  ⟨Reg.MED_CTX_STATE, .ctx, .single, [⟨6, 0, .ro, 0, (.val 0)⟩, ⟨8, 8, .ro, 0, (.val 0)⟩, ⟨9, 9, .w1c, 0, (.val 0)⟩]⟩,
  ⟨Reg.MED_CTX_SAMPLES, .ctx, .single, [⟨31, 0, .rc, 0, (.val 0)⟩]⟩]

/-- Registers of the MED block, part 2. -/
def regsMed2 : List RegDef := [
  ⟨Reg.MED_CTX_CONCEALED, .ctx, .single, [⟨31, 0, .rc, 0, (.val 0)⟩]⟩,
  ⟨Reg.MED_CTX_REJECTED, .ctx, .single, [⟨31, 0, .rc, 0, (.val 0)⟩]⟩,
  ⟨Reg.MED_CTX_EMPTIES, .ctx, .single, [⟨31, 0, .rc, 0, (.val 0)⟩]⟩,
  ⟨Reg.MED_CORE_STATE, .core, .single, [⟨1, 0, .ro, 0, (.val 0)⟩, ⟨25, 16, .ro, 0, (.val 0)⟩]⟩,
  ⟨Reg.MED_BUSY, .core, .single, [⟨31, 0, .rc, 0, (.val 0)⟩]⟩,
  ⟨Reg.MED_UNITS_LO, .core, .lo, [⟨31, 0, .rc, 0, (.val 0)⟩]⟩,
  ⟨Reg.MED_UNITS_HI, .core, .hi, [⟨31, 0, .rc, 0, (.val 0)⟩]⟩,
  ⟨Reg.MED_SWITCHES, .core, .single, [⟨31, 0, .rc, 0, (.val 0)⟩]⟩,
  ⟨Reg.MED_DAMAGE, .core, .single, [⟨31, 0, .rc, 0, (.val 0)⟩]⟩]

/-- Registers of the ITK block, part 0. -/
def regsItk0 : List RegDef := [
  ⟨Reg.ITK_CHSEL, .chsel, .single, [⟨0, 0, .rw, 0, (.val 0)⟩, ⟨15, 8, .rw, 0, (.val 0)⟩]⟩,
  ⟨Reg.ITK_CTRL, .single, .single, [⟨31, 31, .rwl, 0, (.val 0)⟩]⟩,
  ⟨Reg.ITK_PCTRL, .iport, .single, [⟨0, 0, .rw, 0, (.val 0)⟩, ⟨6, 4, .rwl, 3, .kept⟩]⟩,
  ⟨Reg.ITK_ETYPE, .iport, .single, [⟨15, 0, .rwl, 34997, .kept⟩]⟩,
  ⟨Reg.ITK_SKID_US, .iport, .single, [⟨9, 0, .rwl, 1000, .kept⟩]⟩,
  ⟨Reg.ITK_XOFF_LEVEL, .iport, .single, [⟨25, 0, .ro, 0, .kept⟩]⟩,
  ⟨Reg.ITK_XON_LEVEL, .iport, .single, [⟨25, 0, .rwl, 8388608, .kept⟩]⟩,
  ⟨Reg.ITK_MAC_LO, .iport, .lo, [⟨31, 0, .rwl, 0, .kept⟩]⟩,
  ⟨Reg.ITK_MAC_HI, .iport, .hi, [⟨15, 0, .rwl, 0, .kept⟩]⟩,
  ⟨Reg.ITK_PSTATUS, .iport, .single, [⟨0, 0, .ro, 0, .kept⟩, ⟨1, 1, .ro, 1, (.val 1)⟩, ⟨2, 2, .w1c, 0, (.val 0)⟩, ⟨3, 3, .w1c, 0, (.val 0)⟩, ⟨4, 4, .w1c, 0, (.val 0)⟩, ⟨5, 5, .w1c, 0, (.val 0)⟩]⟩,
  ⟨Reg.ITK_FILL, .iport, .single, [⟨26, 0, .ro, 0, (.val 0)⟩]⟩,
  ⟨Reg.ITK_FILL_PEAK, .iport, .single, [⟨26, 0, .rc, 0, (.val 0)⟩]⟩,
  ⟨Reg.ITK_FRAMES_LO, .iport, .lo, [⟨31, 0, .rc, 0, (.val 0)⟩]⟩,
  ⟨Reg.ITK_FRAMES_HI, .iport, .hi, [⟨31, 0, .rc, 0, (.val 0)⟩]⟩,
  ⟨Reg.ITK_DROP_PRE_EN, .iport, .single, [⟨31, 0, .rc, 0, (.val 0)⟩]⟩,
  ⟨Reg.ITK_DROP_OVF, .iport, .single, [⟨31, 0, .rc, 0, (.val 0)⟩]⟩,
  ⟨Reg.ITK_DROP_FCS, .iport, .single, [⟨31, 0, .rc, 0, (.val 0)⟩]⟩,
  ⟨Reg.ITK_DROP_FILTER, .iport, .single, [⟨31, 0, .rc, 0, (.val 0)⟩]⟩,
  ⟨Reg.ITK_XOFF_SENT, .iport, .single, [⟨31, 0, .rc, 0, (.val 0)⟩]⟩,
  ⟨Reg.ITK_SAMPLES_SHORT, .iport, .single, [⟨31, 0, .rc, 0, (.val 0)⟩]⟩,
  ⟨Reg.ITK_RING_VA_LO, .stream, .lo, [⟨31, 21, .rw, 0, (.val 0)⟩]⟩,
  ⟨Reg.ITK_RING_VA_HI, .stream, .hi, [⟨15, 0, .rw, 0, (.val 0)⟩]⟩,
  ⟨Reg.ITK_RING_SIZE, .stream, .single, [⟨11, 0, .rw, 0, (.val 0)⟩]⟩,
  ⟨Reg.ITK_MAX_SAMPLE, .stream, .single, [⟨31, 0, .rw, 0, (.val 0)⟩]⟩]

/-- Registers of the ITK block, part 1. -/
def regsItk1 : List RegDef := [
  ⟨Reg.ITK_WR_PTR, .stream, .single, [⟨31, 0, .ro, 0, (.val 0)⟩]⟩,
  ⟨Reg.ITK_RD_PTR, .stream, .single, [⟨31, 0, .rw, 0, (.val 0)⟩]⟩,
  ⟨Reg.ITK_SAMPLES, .stream, .single, [⟨31, 0, .rc, 0, (.val 0)⟩]⟩]

/-- Registers of the BAT block, part 0. -/
def regsBat0 : List RegDef := [
  ⟨Reg.BAT_CHSEL, .chsel, .single, [⟨5, 0, .rw, 0, (.val 0)⟩, ⟨19, 16, .rw, 0, (.val 0)⟩]⟩,
  ⟨Reg.BAT_CTRL, .single, .single, [⟨0, 0, .rw, 0, .kept⟩, ⟨1, 1, .rw, 0, .kept⟩, ⟨31, 31, .rwl, 0, (.val 0)⟩]⟩,
  ⟨Reg.BAT_STATUS, .single, .single, [⟨0, 0, .w1c, 0, (.val 0)⟩, ⟨1, 1, .w1c, 0, (.val 0)⟩]⟩,
  ⟨Reg.BAT_SEED_LO, .single, .lo, [⟨31, 0, .rw, 0, .kept⟩]⟩,
  ⟨Reg.BAT_SEED_HI, .single, .hi, [⟨31, 0, .rw, 0, .kept⟩]⟩,
  ⟨Reg.BAT_SLOTS_FREE, .single, .single, [⟨12, 0, .ro, 4096, (.val 4096)⟩]⟩,
  ⟨Reg.BAT_RELEASE, .single, .single, [⟨5, 0, .wo, 0, (.val 0)⟩, ⟨13, 8, .wo, 0, (.val 0)⟩]⟩,
  ⟨Reg.BAT_SCTRL, .bstream, .single, [⟨0, 0, .rw, 0, (.val 0)⟩, ⟨2, 1, .rwl, 0, (.val 0)⟩, ⟨4, 4, .rwl, 0, (.val 0)⟩, ⟨5, 5, .rwl, 0, (.val 0)⟩, ⟨11, 8, .rwl, 0, (.val 0)⟩, ⟨16, 16, .w1c, 0, (.val 0)⟩]⟩,
  ⟨Reg.BAT_N, .bstream, .single, [⟨12, 0, .rwl, 1, (.val 1)⟩]⟩,
  ⟨Reg.BAT_SLOT_QUOTA, .bstream, .single, [⟨12, 0, .rwl, 0, (.val 0)⟩]⟩,
  ⟨Reg.BAT_FLUSH_US, .bstream, .single, [⟨19, 0, .rwl, 0, (.val 0)⟩]⟩,
  ⟨Reg.BAT_BUF_VA_LO, .bstream, .lo, [⟨31, 21, .rwl, 0, (.val 0)⟩]⟩,
  ⟨Reg.BAT_BUF_VA_HI, .bstream, .hi, [⟨15, 0, .rwl, 0, (.val 0)⟩]⟩,
  ⟨Reg.BAT_BUF_SIZE, .bstream, .single, [⟨9, 0, .rwl, 0, (.val 0)⟩]⟩,
  ⟨Reg.BAT_NBUF, .bstream, .single, [⟨6, 0, .rwl, 0, (.val 0)⟩]⟩,
  ⟨Reg.BAT_BOX_VA_LO, .bstream, .lo, [⟨31, 14, .rwl, 0, (.val 0)⟩]⟩,
  ⟨Reg.BAT_BOX_VA_HI, .bstream, .hi, [⟨15, 0, .rwl, 0, (.val 0)⟩]⟩,
  ⟨Reg.BAT_FLUSH, .bstream, .single, [⟨0, 0, .wo, 0, (.val 0)⟩]⟩,
  ⟨Reg.BAT_SSTATE, .bstream, .single, [⟨6, 0, .ro, 0, (.val 0)⟩, ⟨31, 16, .ro, 0, (.val 0)⟩]⟩,
  ⟨Reg.BAT_SLOTS_USED, .bstream, .single, [⟨12, 0, .ro, 0, (.val 0)⟩]⟩,
  ⟨Reg.BAT_BATCHES_LO, .bstream, .lo, [⟨31, 0, .rc, 0, (.val 0)⟩]⟩,
  ⟨Reg.BAT_BATCHES_HI, .bstream, .hi, [⟨31, 0, .rc, 0, (.val 0)⟩]⟩,
  ⟨Reg.BAT_FLUSHED, .bstream, .single, [⟨31, 0, .rc, 0, (.val 0)⟩]⟩,
  ⟨Reg.BAT_EMPTIES, .bstream, .single, [⟨31, 0, .rc, 0, (.val 0)⟩]⟩]

/-- Registers of the BAT block, part 1. -/
def regsBat1 : List RegDef := [
  ⟨Reg.BAT_HOLD_BUF, .bstream, .single, [⟨31, 0, .rc, 0, (.val 0)⟩]⟩,
  ⟨Reg.BAT_BUCKET, .bucket, .single, [⟨0, 0, .rwl, 0, (.val 0)⟩, ⟨2, 1, .rwl, 0, (.val 0)⟩, ⟨5, 4, .rwl, 0, (.val 0)⟩, ⟨6, 6, .rwl, 0, (.val 0)⟩, ⟨11, 8, .rwl, 0, (.val 0)⟩, ⟨13, 12, .rwl, 0, (.val 0)⟩, ⟨14, 14, .rwl, 0, (.val 0)⟩, ⟨15, 15, .rwl, 0, (.val 0)⟩]⟩,
  ⟨Reg.BAT_DIM0, .bucket, .single, [⟨31, 0, .rwl, 0, (.val 0)⟩]⟩,
  ⟨Reg.BAT_DIM1, .bucket, .single, [⟨15, 0, .rwl, 0, (.val 0)⟩]⟩,
  ⟨Reg.BAT_TOK_PAD, .bucket, .single, [⟨31, 0, .rwl, 0, (.val 0)⟩]⟩,
  ⟨Reg.BAT_MEAN0, .bucket, .single, [⟨31, 0, .rwl, 0, (.val 0)⟩]⟩,
  ⟨Reg.BAT_MEAN1, .bucket, .single, [⟨31, 0, .rwl, 0, (.val 0)⟩]⟩,
  ⟨Reg.BAT_MEAN2, .bucket, .single, [⟨31, 0, .rwl, 0, (.val 0)⟩]⟩,
  ⟨Reg.BAT_MEAN3, .bucket, .single, [⟨31, 0, .rwl, 0, (.val 0)⟩]⟩,
  ⟨Reg.BAT_MEAN4, .bucket, .single, [⟨31, 0, .rwl, 0, (.val 0)⟩]⟩,
  ⟨Reg.BAT_MEAN5, .bucket, .single, [⟨31, 0, .rwl, 0, (.val 0)⟩]⟩,
  ⟨Reg.BAT_MEAN6, .bucket, .single, [⟨31, 0, .rwl, 0, (.val 0)⟩]⟩,
  ⟨Reg.BAT_MEAN7, .bucket, .single, [⟨31, 0, .rwl, 0, (.val 0)⟩]⟩,
  ⟨Reg.BAT_SCALE0, .bucket, .single, [⟨31, 0, .rwl, 1065353216, (.val 1065353216)⟩]⟩,
  ⟨Reg.BAT_SCALE1, .bucket, .single, [⟨31, 0, .rwl, 1065353216, (.val 1065353216)⟩]⟩,
  ⟨Reg.BAT_SCALE2, .bucket, .single, [⟨31, 0, .rwl, 1065353216, (.val 1065353216)⟩]⟩,
  ⟨Reg.BAT_SCALE3, .bucket, .single, [⟨31, 0, .rwl, 1065353216, (.val 1065353216)⟩]⟩,
  ⟨Reg.BAT_SCALE4, .bucket, .single, [⟨31, 0, .rwl, 1065353216, (.val 1065353216)⟩]⟩,
  ⟨Reg.BAT_SCALE5, .bucket, .single, [⟨31, 0, .rwl, 1065353216, (.val 1065353216)⟩]⟩,
  ⟨Reg.BAT_SCALE6, .bucket, .single, [⟨31, 0, .rwl, 1065353216, (.val 1065353216)⟩]⟩,
  ⟨Reg.BAT_SCALE7, .bucket, .single, [⟨31, 0, .rwl, 1065353216, (.val 1065353216)⟩]⟩]

/-- Registers of the CWY block, part 0. -/
def regsCwy0 : List RegDef := [
  ⟨Reg.CWY_CHSEL, .chsel, .single, [⟨3, 0, .rw, 0, (.val 0)⟩, ⟨19, 16, .rw, 0, (.val 0)⟩]⟩,
  ⟨Reg.CWY_CTRL, .single, .single, [⟨31, 31, .rwl, 0, (.val 0)⟩]⟩,
  ⟨Reg.CWY_MODULE, .single, .single, [⟨11, 0, .rwl, 0, .kept⟩]⟩,
  ⟨Reg.CWY_AUTOSTART, .single, .single, [⟨11, 0, .rwl, 0, .kept⟩]⟩,
  ⟨Reg.CWY_STATUS, .single, .single, [⟨0, 0, .w1c, 0, (.val 0)⟩]⟩,
  ⟨Reg.CWY_DT_IDX, .single, .single, [⟨11, 0, .rw, 0, (.val 0)⟩]⟩,
  ⟨Reg.CWY_DT_DATA, .dtIdx, .single, [⟨3, 0, .rw, 15, (.val 15)⟩, ⟨7, 4, .rw, 15, (.val 15)⟩, ⟨11, 8, .rw, 8, (.val 8)⟩]⟩,
  ⟨Reg.CWY_PCTRL, .cport, .single, [⟨0, 0, .rw, 0, (.val 0)⟩]⟩,
  ⟨Reg.CWY_PSTATE, .cport, .single, [⟨2, 0, .ro, 0, (.val 0)⟩, ⟨7, 4, .ro, 0, (.val 0)⟩, ⟨11, 8, .ro, 0, (.val 0)⟩, ⟨12, 12, .w1c, 0, (.val 0)⟩]⟩,
  ⟨Reg.CWY_PEER, .cport, .single, [⟨11, 0, .ro, 0, (.val 0)⟩, ⟨19, 16, .ro, 0, (.val 0)⟩]⟩,
  ⟨Reg.CWY_CRED01, .cport, .single, [⟨10, 0, .rwl, 448, .kept⟩, ⟨26, 16, .rwl, 448, .kept⟩]⟩,
  ⟨Reg.CWY_CRED23, .cport, .single, [⟨10, 0, .rwl, 96, .kept⟩, ⟨26, 16, .rwl, 32, .kept⟩]⟩,
  ⟨Reg.CWY_LANE_SER_MAX, .cport, .single, [⟨17, 0, .rwl, 2000, .kept⟩]⟩,
  ⟨Reg.CWY_RTT_NS, .cport, .single, [⟨15, 0, .ro, 0, (.val 0)⟩]⟩,
  ⟨Reg.CWY_FLITS_TX_LO, .cport, .lo, [⟨31, 0, .rc, 0, (.val 0)⟩]⟩,
  ⟨Reg.CWY_FLITS_TX_HI, .cport, .hi, [⟨31, 0, .rc, 0, (.val 0)⟩]⟩,
  ⟨Reg.CWY_FLITS_RX_LO, .cport, .lo, [⟨31, 0, .rc, 0, (.val 0)⟩]⟩,
  ⟨Reg.CWY_FLITS_RX_HI, .cport, .hi, [⟨31, 0, .rc, 0, (.val 0)⟩]⟩,
  ⟨Reg.CWY_CRC_ERR, .cport, .single, [⟨31, 0, .rc, 0, (.val 0)⟩]⟩,
  ⟨Reg.CWY_RETRIES, .cport, .single, [⟨31, 0, .rc, 0, (.val 0)⟩]⟩,
  ⟨Reg.CWY_FEC_UNCORR, .cport, .single, [⟨31, 0, .rc, 0, (.val 0)⟩]⟩,
  ⟨Reg.CWY_NOROUTE_HOP, .cport, .single, [⟨15, 0, .rc, 0, (.val 0)⟩, ⟨31, 16, .rc, 0, (.val 0)⟩]⟩,
  ⟨Reg.CWY_MESH_CNT, .cport, .single, [⟨15, 0, .rc, 0, (.val 0)⟩, ⟨31, 16, .rc, 0, (.val 0)⟩]⟩,
  ⟨Reg.CWY_LANE_DROPS, .cport, .single, [⟨7, 0, .ro, 0, (.val 0)⟩]⟩]

/-- Registers of the CWY block, part 1. -/
def regsCwy1 : List RegDef := [
  ⟨Reg.CWY_WIN_EN, .win, .single, [⟨0, 0, .rw, 0, (.val 0)⟩]⟩,
  ⟨Reg.CWY_WIN_BASE_LO, .win, .lo, [⟨31, 16, .rw, 0, (.val 0)⟩]⟩,
  ⟨Reg.CWY_WIN_BASE_HI, .win, .hi, [⟨15, 0, .rw, 0, (.val 0)⟩]⟩,
  ⟨Reg.CWY_WIN_SIZE, .win, .single, [⟨23, 0, .rw, 0, (.val 0)⟩]⟩]

/-- Registers of the COL block, part 0. -/
def regsCol0 : List RegDef := [
  ⟨Reg.COL_CHSEL, .chsel, .single, [⟨5, 0, .rw, 0, (.val 0)⟩]⟩,
  ⟨Reg.COL_CTRL, .single, .single, [⟨0, 0, .rw, 0, .kept⟩, ⟨1, 1, .rw, 0, .kept⟩, ⟨31, 31, .rwl, 0, (.val 0)⟩]⟩,
  ⟨Reg.COL_SEED_LO, .single, .lo, [⟨31, 0, .rw, 0, .kept⟩]⟩,
  ⟨Reg.COL_SEED_HI, .single, .hi, [⟨31, 0, .rw, 0, .kept⟩]⟩,
  ⟨Reg.COL_EARLY_VA_LO, .single, .lo, [⟨31, 21, .rwl, 0, .kept⟩]⟩,
  ⟨Reg.COL_EARLY_VA_HI, .single, .hi, [⟨15, 0, .rwl, 0, .kept⟩]⟩,
  ⟨Reg.COL_EARLY_SIZE, .single, .single, [⟨9, 0, .rwl, 0, .kept⟩]⟩,
  ⟨Reg.COL_STATUS, .single, .single, [⟨0, 0, .w1c, 0, (.val 0)⟩, ⟨1, 1, .w1c, 0, (.val 0)⟩]⟩,
  ⟨Reg.COL_FACTOR, .single, .single, [⟨3, 0, .ro, 1, (.val 1)⟩]⟩,
  ⟨Reg.COL_PEER_IDX, .single, .single, [⟨11, 0, .rw, 0, (.val 0)⟩]⟩,
  ⟨Reg.COL_PEER_FACTOR, .peerIdx, .single, [⟨3, 0, .ro, 1, (.val 1)⟩]⟩,
  ⟨Reg.COL_PLANS, .single, .single, [⟨31, 0, .rc, 0, (.val 0)⟩]⟩,
  ⟨Reg.COL_TIMEOUTS, .single, .single, [⟨31, 0, .rc, 0, (.val 0)⟩]⟩,
  ⟨Reg.COL_ABORTS, .single, .single, [⟨31, 0, .rc, 0, (.val 0)⟩]⟩,
  ⟨Reg.COL_ORPHANS, .single, .single, [⟨31, 0, .rc, 0, (.val 0)⟩]⟩,
  ⟨Reg.COL_EARLY_USED, .single, .single, [⟨31, 0, .ro, 0, (.val 0)⟩]⟩,
  ⟨Reg.COL_SLOT, .slot, .single, [⟨15, 0, .ro, 0, (.val 0)⟩, ⟨16, 16, .ro, 0, (.val 0)⟩, ⟨17, 17, .ro, 0, (.val 0)⟩]⟩,
  ⟨Reg.COL_STEPS_DONE, .slot, .single, [⟨12, 0, .ro, 0, (.val 0)⟩]⟩,
  ⟨Reg.COL_CODE, .slot, .single, [⟨7, 0, .ro, 0, (.val 0)⟩]⟩,
  ⟨Reg.COL_START_TICK_LO, .slot, .lo, [⟨31, 0, .ro, 0, (.val 0)⟩]⟩,
  ⟨Reg.COL_START_TICK_HI, .slot, .hi, [⟨31, 0, .ro, 0, (.val 0)⟩]⟩,
  ⟨Reg.COL_PROGRESS_TICK_LO, .slot, .lo, [⟨31, 0, .ro, 0, (.val 0)⟩]⟩,
  ⟨Reg.COL_PROGRESS_TICK_HI, .slot, .hi, [⟨31, 0, .ro, 0, (.val 0)⟩]⟩]

/-- Registers of the LOD block, part 0. -/
def regsLod0 : List RegDef := [
  ⟨Reg.LOD_CHSEL, .chsel, .single, [⟨11, 0, .rw, 0, (.val 0)⟩]⟩,
  ⟨Reg.LOD_CTRL, .single, .single, [⟨0, 0, .rw, 0, .kept⟩, ⟨31, 31, .rwl, 0, (.val 0)⟩]⟩,
  ⟨Reg.LOD_GTAB_VA_LO, .single, .lo, [⟨31, 12, .rwl, 0, .kept⟩]⟩,
  ⟨Reg.LOD_GTAB_VA_HI, .single, .hi, [⟨15, 0, .rwl, 0, .kept⟩]⟩,
  ⟨Reg.LOD_SEED_LO, .single, .lo, [⟨31, 0, .rw, 0, .kept⟩]⟩,
  ⟨Reg.LOD_SEED_HI, .single, .hi, [⟨31, 0, .rw, 0, .kept⟩]⟩,
  ⟨Reg.LOD_PROG_IDX, .single, .single, [⟨10, 0, .rw, 0, (.val 0)⟩]⟩,
  ⟨Reg.LOD_PROG_DATA, .progIdx, .single, [⟨31, 0, .rw, 0, (.val 0)⟩]⟩,
  ⟨Reg.LOD_STATUS, .single, .single, [⟨0, 0, .ro, 0, (.val 0)⟩, ⟨1, 1, .w1c, 0, (.val 0)⟩]⟩,
  ⟨Reg.LOD_HELD, .single, .single, [⟨12, 0, .ro, 0, (.val 0)⟩]⟩,
  ⟨Reg.LOD_UPDATES_LO, .single, .lo, [⟨31, 0, .rc, 0, (.val 0)⟩]⟩,
  ⟨Reg.LOD_UPDATES_HI, .single, .hi, [⟨31, 0, .rc, 0, (.val 0)⟩]⟩,
  ⟨Reg.LOD_REL_UNDERFLOW, .single, .single, [⟨31, 0, .rc, 0, (.val 0)⟩]⟩,
  ⟨Reg.LOD_VER, .group, .single, [⟨31, 0, .rw, 0, (.val 0)⟩]⟩,
  ⟨Reg.LOD_READERS, .group, .single, [⟨15, 0, .ro, 0, (.val 0)⟩, ⟨31, 16, .ro, 0, (.val 0)⟩]⟩,
  ⟨Reg.LOD_GSTATE, .group, .single, [⟨0, 0, .ro, 0, (.val 0)⟩, ⟨1, 1, .ro, 0, (.val 0)⟩, ⟨2, 2, .w1c, 0, (.val 0)⟩]⟩,
  ⟨Reg.LOD_VER_TICK_LO, .group, .lo, [⟨31, 0, .ro, 0, (.val 0)⟩]⟩,
  ⟨Reg.LOD_VER_TICK_HI, .group, .hi, [⟨31, 0, .ro, 0, (.val 0)⟩]⟩]

/-- Registers of the DSP block, part 0. -/
def regsDsp0 : List RegDef := [
  ⟨Reg.DSP_CHSEL, .chsel, .single, [⟨5, 0, .rw, 0, (.val 0)⟩]⟩,
  ⟨Reg.DSP_CTRL, .single, .single, [⟨0, 0, .rw, 0, (.val 0)⟩, ⟨1, 1, .rwl, 1, .kept⟩, ⟨31, 31, .rwl, 0, (.val 0)⟩]⟩,
  ⟨Reg.DSP_WIN_TICKS, .single, .single, [⟨21, 0, .rwl, 250000, .kept⟩]⟩,
  ⟨Reg.DSP_BAL, .single, .single, [⟨5, 0, .rwl, 5, .kept⟩, ⟨11, 8, .rwl, 2, .kept⟩, ⟨19, 16, .rwl, 4, .kept⟩]⟩,
  ⟨Reg.DSP_STATUS, .single, .single, [⟨0, 0, .w1c, 0, (.val 0)⟩, ⟨1, 1, .ro, 0, (.val 0)⟩, ⟨2, 2, .ro, 0, (.val 0)⟩]⟩,
  ⟨Reg.DSP_STEP, .single, .single, [⟨31, 0, .ro, 0, (.val 0)⟩]⟩,
  ⟨Reg.DSP_BOUNDARY_TICK_LO, .single, .lo, [⟨31, 0, .ro, 0, (.val 0)⟩]⟩,
  ⟨Reg.DSP_BOUNDARY_TICK_HI, .single, .hi, [⟨31, 0, .ro, 0, (.val 0)⟩]⟩,
  ⟨Reg.DSP_REBALANCES, .single, .single, [⟨31, 0, .ro, 0, (.val 0)⟩]⟩,
  ⟨Reg.DSP_LAST_IMBAL, .single, .single, [⟨9, 0, .ro, 0, (.val 0)⟩]⟩,
  ⟨Reg.DSP_ARR_IDX, .single, .single, [⟨6, 0, .rw, 0, (.val 0)⟩]⟩,
  ⟨Reg.DSP_ARR_BRANCH, .arrIdx, .single, [⟨5, 0, .ro, 0, (.val 0)⟩, ⟨8, 8, .ro, 1, (.val 1)⟩, ⟨15, 9, .ro, 64, (.val 64)⟩]⟩,
  ⟨Reg.DSP_SHARE, .branch, .single, [⟨6, 0, .ro, 0, (.val 0)⟩, ⟨14, 8, .rw, 0, .kept⟩, ⟨15, 15, .rw, 0, .kept⟩]⟩,
  ⟨Reg.DSP_COST_LO, .branch, .lo, [⟨31, 0, .ro, 0, (.val 0)⟩]⟩,
  ⟨Reg.DSP_COST_HI, .branch, .hi, [⟨31, 0, .ro, 0, (.val 0)⟩]⟩,
  ⟨Reg.DSP_LASTWIN_LO, .branch, .lo, [⟨31, 0, .ro, 0, (.val 0)⟩]⟩,
  ⟨Reg.DSP_LASTWIN_HI, .branch, .hi, [⟨31, 0, .ro, 0, (.val 0)⟩]⟩,
  ⟨Reg.DSP_READY_RUNNING, .branch, .single, [⟨15, 0, .ro, 0, (.val 0)⟩, ⟨31, 16, .ro, 0, (.val 0)⟩]⟩,
  ⟨Reg.DSP_ITEMS, .branch, .single, [⟨31, 0, .rc, 0, (.val 0)⟩]⟩,
  ⟨Reg.DSP_BORROWED, .branch, .single, [⟨31, 0, .rc, 0, (.val 0)⟩]⟩,
  ⟨Reg.DSP_EST, .branch, .single, [⟨31, 0, .ro, 0, (.val 0)⟩]⟩]

/-- The registers of the block that holds a BAR0 offset (R435). -/
def blockRegs (off : Nat) : List RegDef :=
  match off >>> 16 with
  | 0x0 => regsGlb0
  | 0x1 => regsHst0 ++ regsHst1
  | 0x2 => regsSec0
  | 0x3 => regsPwr0 ++ regsPwr1
  | 0x4 => regsFlt0 ++ regsFlt1 ++ regsFlt2
  | 0x10 => regsArr0 ++ regsArr1
  | 0x11 => regsExp0
  | 0x20 => regsMem0
  | 0x21 => regsT20
  | 0x22 => regsPool0
  | 0x23 => regsMmu0
  | 0x30 => regsMed0 ++ regsMed1 ++ regsMed2
  | 0x31 => regsItk0 ++ regsItk1
  | 0x32 => regsBat0 ++ regsBat1
  | 0x40 => regsCwy0 ++ regsCwy1
  | 0x41 => regsCol0
  | 0x42 => regsLod0
  | 0x50 => regsDsp0
  | _ => []

/-- The register at a BAR0 offset; none where the offset is not assigned (R9). -/
def regDef? (off : Nat) : Option RegDef := (blockRegs off).find? (fun r => r.off == off)

/-- Lock bit of HST_MLOCK that governs a BAR0 offset (R435). -/
def lockBit (off : Nat) : Option Nat :=
  match off >>> 16 with
  | 0x0 => some 0
  | 0x1 => some 1
  | 0x2 => some 2
  | 0x3 => some 3
  | 0x4 => some 4
  | 0x10 => some 5
  | 0x11 => some 6
  | 0x20 => some 7
  | 0x21 => some 8
  | 0x22 => some 9
  | 0x23 => some 10
  | 0x30 => some 11
  | 0x31 => some 12
  | 0x32 => some 13
  | 0x40 => some 14
  | 0x41 => some 15
  | 0x42 => some 16
  | 0x50 => some 17
  | _ => none

/-- The register and bit of the LOCK field that makes a block's RWL fields read-only (R7). -/
def blockLock (off : Nat) : Option Nat :=
  match off >>> 16 with
  | 0x1 => some Reg.HST_CTRL
  | 0x3 => some Reg.PWR_CTRL
  | 0x4 => some Reg.FLT_CTRL
  | 0x10 => some Reg.ARR_CTRL
  | 0x20 => some Reg.MEM_CTRL
  | 0x21 => some Reg.T2_CTRL
  | 0x23 => some Reg.MMU_CTRL
  | 0x30 => some Reg.MED_CTRL
  | 0x31 => some Reg.ITK_CTRL
  | 0x32 => some Reg.BAT_CTRL
  | 0x40 => some Reg.CWY_CTRL
  | 0x41 => some Reg.COL_CTRL
  | 0x42 => some Reg.LOD_CTRL
  | 0x50 => some Reg.DSP_CTRL
  | _ => none

/-- A register word from one value per field. -/
def packFields (fs : List FieldDef) (v : FieldDef → Nat) : W32 :=
  fs.foldl (fun w f => setFld w f.hi f.lo (v f)) 0

/-- The register word after a cold start (R10). -/
def RegDef.coldWord (r : RegDef) : W32 := packFields r.fields (·.cold)

/-- The register word after a warm start that found `w` (R10). -/
def RegDef.warmWord (r : RegDef) (w : W32) : W32 :=
  packFields r.fields (fun f => match f.warm with | .val n => n | .kept => fld w f.hi f.lo)

end Sys2Proof.Machine
end

