-- ==== Sys2Proof/Machine/State.lean ====
section
/-! DEFINITION. Machine/State.lean: everything the block holds, as plain data, and its value after a cold start from power-up.
A table field lists only the entries that differ from what an unlisted key holds. -/

namespace Sys2Proof.Machine

/-- Why the machine stops with a fault. -/
inductive Fault where
  /-- Raised by INPUT_APPLY when the input exceeds the absolute ratings of R504: the manual gives no behaviour there. Safe: no
  claim about a next state can be proved of it. -/
  | beyondRatings
deriving DecidableEq, Repr

/-- Why a command has no meaning here. -/
inductive Refusal where
  /-- A command whose meaning is not written yet. Safe: no claim about a next state can be proved of it. -/
  | notModelled (mnemonic : String)
deriving DecidableEq, Repr


/-- A failed access or operation: its status, the FSEQ of the record it follows from (0 none, R468), whether it was an SRAM_UE
(R472), and the virtual address involved. -/
structure Fail where
  st   : Status
  root : Nat := 0
  sram : Bool := false
  va   : Nat := 0
deriving DecidableEq, Repr


/-- A fault record of R477 and R478. -/
structure FaultRec where
  fseq    : Nat
  cls     : FaultClass
  status  : Status
  disp    : Disp
  outside : Bool
  replay  : Bool
  tick    : W64
  req     : Nat
  unit    : Nat
  root    : Nat
  pa      : Nat
  body    : List Byte
deriving DecidableEq, Repr

/-- Class, unit and elapsed tick of a root record, for FLAGS.OUTSIDE (R468). -/
structure RootMark where
  cls  : FaultClass
  unit : Nat
  at_  : Nat
deriving DecidableEq, Repr

/-- The fault queue and its sequence numbers (R479, R480), the two latest root marks of different class or unit (R468), and the
FSEQ that stands for a fault whose record later records name in ROOT: of a fenced stack, a failed pseudo-channel, an array. -/
structure FaultUnit where
  queue   : List FaultRec
  head    : Nat
  next    : Nat
  last    : Option RootMark
  prev    : Option RootMark
  stkRoot : SMap Nat
  pcRoot  : SMap Nat
  arrRoot : SMap Nat
deriving DecidableEq, Repr

/-- The fault queue right after a cold start from power-up: the START record with FSEQ 1 (R466, R470, R479). Its bytes carry
GLB_START, GLB_STARTS, the ticks and GLB_STACK_RETRAIN (R478). -/
def FaultUnit.empty : FaultUnit :=
  ⟨[⟨1, .start, .ok, .notice, false, false, 0, 0, 0xFFFF, 0, 0,
      leBytes 4 0x1000 ++ leBytes 4 1 ++ leBytes 16 0 ++ leBytes 4 0xFFFFFFFF ++ leBytes 4 0⟩], 1, 2, none, none, [], [], []⟩

/-- A change-journal entry (R482). -/
structure JEntry where
  tick   : Nat
  rid    : Nat
  seq    : Nat
  addr   : Nat
  inst   : Nat
  origin : Origin
  pair   : Bool
  old    : Nat
  new    : Nat
deriving DecidableEq, Repr

/-- The change journal: the ring, newest entry first, the SEQ of the next entry, how many entries are not yet spilled, entries
lost, and the SEQ of entries found damaged (R485 to R487). -/
structure Journal where
  ring      : List JEntry
  nextSeq   : Nat
  unspilled : Nat
  lost      : Nat
  damaged   : List Nat
deriving DecidableEq, Repr

/-- The pending low half and the captured high half of an origin port, each with the key of its register (R8). -/
structure PortHalf where
  pendLo : Option (Nat × W32)
  capHi  : Option (Nat × W32)
deriving DecidableEq, Repr

/-- A cached translation: first VA of the page, page size, first PA, permissions (R33, R93). -/
structure TlbEntry where
  va   : Nat
  size : Nat
  pa   : Nat
  r    : Bool
  w    : Bool
  x    : Bool
deriving DecidableEq, Repr

/-- A request admitted to the reorder queue of a pseudo-channel (R77, R80): how many requests admitted after it have passed it, and its failed
attempts; one with a failed attempt waits for its retry. -/
structure QReq where
  q      : MemReq
  passed : Nat
  fails  : Nat
deriving DecidableEq, Repr

/-- One pseudo-channel: requests that wait for admission with the cycle in which each arrived (R13), the reorder queue in the order of
admission (R80), admissions of each class in the current 64 (R34), whether the next admission is skipped for a Hot stack (R81), and the cycles
in which requests have arrived. -/
structure PseudoChan where
  waiting : List (MemReq × Nat)
  queue   : List QReq
  counts  : List Nat
  skip    : Bool
  cyc     : Nat
deriving DecidableEq, Repr

/-- A running checkpoint list (R95 to R97): its address and entries, the entry and the frame of it to copy next, and what is still held from
Lode writes (R25): the physical addresses of the 64 KiB source pages in HBM, with the number of the entry and of the 2 MiB unit in it. -/
structure CkpRun where
  va    : Nat
  count : Nat
  entry : Nat
  frame : Nat
  held  : List (Nat × Nat × Nat)
deriving DecidableEq, Repr

/-- An access that waits for a clock to start (R418, R419), or behind an earlier access of the host (R434): a register read or write, a
request to array SRAM, a unit by its number, a work item, a tail or head doorbell, a request through the device window. -/
inductive WaitAcc where
  | regRead (port : Port) (off : Nat)
  | regWrite (a : RegAcc)
  | sram (q : MemReq)
  | unit (n : Nat)
  | item (id : Nat)
  | tail (q val : Nat)
  | head (q val : Nat)
  | window (q : MemReq)
deriving DecidableEq, Repr

/-- The state of a PLL on REFCLK_AO (R415, R419). -/
structure Pll where
  on       : Bool
  starting : Option Nat
  fails    : Nat
  failed   : Bool
deriving DecidableEq, Repr

/-- Power states of an array (R410, R411, R521). -/
inductive PState where
  | run | idle | ret | off
deriving DecidableEq, Repr

/-- A tile held in a buffer (R98, R227): TMODE, element format, rows and lanes, element codes K-row by K-row, the scale code of each run of 32
K positions of each lane, and the checksum column (R101, R116): for each K-row the FP32 codes of X·e and of |X|·e and the exact unscaled sum. -/
structure Tile where
  tmode : Nat
  fmt   : Fmt
  tk    : Nat
  pm    : Nat
  x     : List Nat
  sc    : List Nat
  xe    : List Nat
  xa    : List Nat
  xi    : List Int
deriving DecidableEq, Repr

/-- A weight row: one entry for each 32 dense K positions, its scale code and its values as (K position, element code) (R110, R111). -/
abbrev WRow := List (Nat × List (Nat × Nat))

/-- A row kept for the replay copy until its group passes (R117, R120): row number, weight row, the accumulator bytes before it
was written, the wrong bits of a lane of its output, whether its row check has run, whether it ran wrong for a fault of the check
path, and whether it mismatched. -/
structure KRow where
  n    : Nat
  w    : WRow
  old  : List Byte
  err  : Option (Nat × W32)
  chk  : Bool
  bad  : Bool
  mism : Bool
deriving DecidableEq, Repr

/-- An injected fault of a block (R122): group, and the row, lane and bit of a wrong output element, and a wrong checksum-column
entry. -/
structure Inj where
  grp   : Nat
  row   : Nat
  lane  : Nat
  bitNo : Nat
  elem  : Bool
  ckcol : Bool
deriving DecidableEq, Repr

/-- Kinds of grid and Rush path operations (R226, R231). -/
inductive GKind where
  | load | stream | part
deriving DecidableEq, Repr

/-- A grid or Rush path operation (R99 to R106, R120, R226 to R231): partition 16 is the Rush path. `mode` is TMODE of a load and
MODE of mxm.part; `r0`, `l0`, `lanes`, `total` are the accumulator window of a stream that has begun; `raw` are the CMPR blocks
fetched and not yet in a lane, with their virtual and physical addresses (no bytes: outside the tensor), `look` the decoded blocks in the
look-ahead buffer, as scale codes and element codes, that the next rows take; `pend` are rows in the grid and `keep` rows written whose group has not
passed. -/
structure GOp where
  kind    : GKind
  thr     : Nat
  seq     : Nat
  item    : Nat
  part    : Nat
  buf     : Nat
  mode    : Nat
  da      : BitVec 512
  dc      : BitVec 512
  accum   : Bool
  xint    : Bool
  kchunk  : Nat
  row0    : Nat
  begun   : Bool
  tile    : Option Tile
  r0      : Nat
  l0      : Nat
  lanes   : Nat
  total   : Nat
  entered : Nat
  fetched : Nat
  raw     : List (Nat × Nat × List Byte)
  look    : List (List Nat × List Nat)
  pend    : List (Nat × WRow)
  keep    : List KRow
  passed  : Nat
  dmg     : Nat
  fail    : Fail
  recomp  : Bool
  inj     : Option Inj
deriving DecidableEq, Repr

/-- A block in a decode lane of the expander (R144, R146): the thread and sequence number of its stream, its number in the stream, its virtual and
physical address and bytes, and once the lane has finished the scale codes and element codes that it holds until the blocks ahead have entered. -/
structure Lane where
  thr  : Nat
  seq  : Nat
  idx  : Nat
  va   : Nat
  pa   : Nat
  raw  : List Byte
  done : Option (List Nat × List Nat)
deriving DecidableEq, Repr

/-- The grid, the Rush path and the expander of a logical array (R99, R104, R113, R115, R122, R126, R144): partition mode, owners of
partitions, tiles by 2 × partition + buffer (32 is the Rush tile), K positions reduced since a pass began, operations in issue order, the
waiting injection (partition; bit 0 ELEM, bit 1 CKCOL), and the decode lanes in use. -/
structure Grid where
  mode  : Nat
  own   : SMap Nat
  tiles : SMap Tile
  kcnt  : SMap Nat
  ops   : List GOp
  inj   : Option (Nat × Nat)
  lanes : SMap Lane
deriving DecidableEq, Repr

/-- A grid as every start leaves it. -/
def Grid.empty : Grid := ⟨0, [], [], [], [], none, []⟩

/-- A cache entry of a validated code table (R133, R142): address, generation, format, element codes and lengths of its symbols,
escape length, items that pin it, and the order of its last binding. -/
structure CodeTab where
  va    : Nat
  gen   : Nat
  fmt   : Fmt
  vals  : List Nat
  lens  : List Nat
  esc   : Nat
  pins  : List Nat
  used  : Nat
deriving DecidableEq, Repr

/-- What an operation does to the accumulator elements it covers (R105, R225): a stream that adds to them, a stream that starts a pass, or
a vec or dma operation that writes them. -/
inductive AccKind where
  | add | fresh | write
deriving DecidableEq, Repr

/-- The accumulator elements of an operation whose token has not completed (R225): logical array, thread and sequence number, what it
does, and the first physical address and length in bytes of its runs. -/
structure AccUse where
  a    : Nat
  t    : Nat
  seq  : Nat
  kind : AccKind
  runs : List (Nat × Nat)
deriving DecidableEq, Repr


/-- Thread states (R151). -/
inductive TSt where
  | free | ready | wait | drain | done
deriving DecidableEq, Repr

/-- What a thread in WAIT waits for (R152): data of a load at a virtual address, the old value of an atomic or semaphore, tokens,
a barrier, or a slot of its token window (31) or of a unit's issue queue. Registers are named by number. -/
inductive Wait where
  | none
  | load (func rd va : Nat)
  | atom (rd : Nat)
  | semP (rd : Nat)
  | tok (rd seq : Nat)
  | all (rd : Nat)
  | fence (mask : Nat)
  | bar (b : Nat)
  | slot (unit : Nat)
deriving DecidableEq, Repr

/-- One issued asynchronous operation of a thread (R169, R170): its sequence number, unit and the PC it issued at; the status of
its finished work, and the status its completed token shows. -/
structure Tok where
  seq  : Nat
  unit : Nat
  pc   : Nat
  work : Option Fail
  fin  : Option Status
deriving DecidableEq, Repr

/-- A hardware thread (R154, R169): state, PC, scalar registers that are not zero, predicates, descriptor registers that are not
zero, the last sequence number and whether the numbers have wrapped, the issues that its 32 slots hold (newest first), FAIL, what it waits for and since when, when it started,
the work item it belongs to, the word it halted at, and whether a fault halted it. -/
structure Thread where
  st      : TSt
  pc      : Nat
  s       : SMap W64
  p       : BitVec 8
  d       : SMap (BitVec 512)
  seq     : Nat
  lapped  : Bool
  toks    : List Tok
  fail    : Status
  wait    : Wait
  waitAt  : Nat
  startAt : Nat
  item    : Nat
  faulted : Bool
deriving DecidableEq, Repr

/-- A FREE thread. -/
def Thread.free : Thread := ⟨.free, 0, [], 1, [], 0, false, [], .ok, .none, 0, 0, 0, false⟩

/-- A barrier that is owned (R173): work item, count, and the threads that have arrived. -/
structure Barrier where
  item    : Nat
  count   : Nat
  arrived : List Nat
deriving DecidableEq, Repr

/-- A queued transfer of a descriptor engine (R205 to R212): issuing thread, sequence number, function, descriptors, the scalar
of dma.prog and the origin offsets. -/
structure DmaOp where
  thr  : Nat
  seq  : Nat
  func : Nat
  da   : BitVec 512
  dd   : BitVec 512
  di   : BitVec 512
  sb   : W64
  org  : List Int
deriving DecidableEq, Repr

/-- A tag of the statistics memory (R244): rows, first slot, and whether its slots lie in the spill region. -/
structure Tag where
  rows  : Nat
  first : Nat
  spill : Bool
deriving DecidableEq, Repr

/-- Statistics memory of a logical array (R244, R245): tags, side pointer, spill pointer, and the spill region. -/
structure RowStat where
  tags   : SMap Tag
  side   : Nat
  spill  : Nat
  region : Option (Nat × Nat)
deriving DecidableEq, Repr

/-- Statistics memory as every start leaves it (R246). -/
def RowStat.empty : RowStat := ⟨[], 0, 0, none⟩

/-- What Sluice holds (R272, R279, R281): a segment with its header, the bytes it occupies, and the tick at which it was accepted;
the mark of a frame of a stream that was dropped for want of room; or the mark of a link that went down or, with `dis`, of EN cleared. -/
inductive SFrame where
  | seg (raw : List Byte) (occ : Nat) (tick : W64)
  | lost (stream : Nat)
  | cut (dis : Bool)
deriving DecidableEq, Repr

/-- One Intake port (R275, R280): Sluice oldest first, and the elapsed tick of the last XOFF sent. -/
structure IPort where
  frames : List SFrame
  xoffAt : Nat
deriving DecidableEq, Repr

/-- A sample being reassembled (R275, R276): its identifier and media type, the bytes stored, and the tick of its first segment. -/
structure OpenSample where
  sample : Nat
  mtype  : Nat
  len    : Nat
  first  : W64
deriving DecidableEq, Repr

/-- Reassembly of one stream (R275 to R277): the open sample, whether segments are discarded until one with OFFSET 0, the ring offset
of the open or the next record, and the offsets that WR_PTR will take as ended samples become visible, oldest first. -/
structure IStream where
  open_   : Option OpenSample
  discard : Bool
  head    : Nat
  vis     : List Nat
deriving DecidableEq, Repr

/-- A port as every start leaves it (R283). -/
def IPort.empty : IPort := ⟨[], 0⟩

/-- A stream as every start leaves it (R283). -/
def IStream.empty : IStream := ⟨none, false, 0, []⟩


/-- A picture that a reference picture set names: by its POC, or, where `mod` is not 0, by its POC modulo that (R306). -/
structure RefPoc where
  poc : Int
  mod : Nat
deriving DecidableEq, Repr

/-- What the header of a compressed sample says by its own standard (R287, R298): whether it is complete and inside the subset; the
picture's cropped and coded sizes and the origin of its window; CHROMA and DEPTH codes; the HEVC buffering requirement and CTU size;
the JPEG restart interval and the blocks of its first scan; the data bytes that bound a claim; the sound format; HEVC picture kinds,
POC, CRA or BLA, whether the picture carries the POC of TemporalId 0 on, the pictures its reference set keeps, and whether the sample holds
more than one access unit. -/
structure MedHdr where
  complete  : Bool
  supported : Bool
  width     : Nat
  height    : Nat
  codedW    : Nat
  codedH    : Nat
  offX      : Nat
  offY      : Nat
  chroma    : Nat
  depth     : Nat
  dpb       : Nat
  ctu       : Nat
  dri       : Nat
  blocks    : Nat
  dataBytes : Nat
  rate      : Nat
  channels  : Nat
  frames    : Nat
  maxBlock  : Nat
  irap      : Bool
  rasl      : Bool
  noOutput  : Bool
  poc       : Int
  cra       : Bool
  tid0      : Bool
  keep      : List RefPoc
  multi     : Bool
deriving DecidableEq, Repr

/-- An empty header. -/
def MedHdr.zero : MedHdr :=
  ⟨false, false, 0, 0, 0, 0, 0, 0, 0, 0, 0, 0, 0, 0, 0, 0, 0, 0, 0, false, false, false, 0, false, false, [], false⟩

/-- Where the bytes of a sample lie: in a ring at an offset (R275, R289), or under a descriptor (R315). -/
inductive MSrc where
  | ring (va size off : Nat)
  | desc (d : BitVec 512)
deriving DecidableEq, Repr

/-- Stages of an admitted sample (R293 to R296): waiting for a core, its header being read, waiting for its area, for a frame buffer,
decoding, recorded. -/
inductive MStage where
  | queued | header | area | buffer | decode | done
deriving DecidableEq, Repr

/-- An admitted sample (R292 to R300): admission order, context and batch stream, source, MTYPE of the source record, the context
registers at admission (0x0100, 0x012C to 0x013C), whether its record is SHORT or OVERSIZE, the token of med.submit, the core, its stage,
the header, the output area, the frame buffer, whether the picture predicts from a concealed one (R307), the source bytes once read, STATUS and CAUSE so far, and its record. -/
structure MSample where
  order  : Nat
  ctx    : Nat
  id     : Nat
  src    : MSrc
  len    : Nat
  mtype  : Nat
  tick   : W64
  cfg    : List Nat
  short  : Bool
  tok    : Option (Nat × Nat × Nat)
  core   : Option Nat
  stage  : MStage
  hdr    : Option MedHdr
  area   : Option Nat
  length : Nat
  fb     : Option Nat
  refCon : Bool
  bytes  : List Byte
  read   : Bool
  fail   : Fail
  cause  : Nat
  rec_   : List Byte
deriving DecidableEq, Repr

/-- A med.submit that waits for admission (R315): its token, SAMPLE and source descriptor. -/
structure MSubmit where
  a    : Nat
  thr  : Nat
  seq  : Nat
  id   : Nat
  da   : BitVec 512
  len  : Nat
deriving DecidableEq, Repr

/-- A decode context (R289 to R295, R307): admitted samples without a visible record, oldest first; waiting submissions; the offset of
the next sample to be taken in; samples read but not yet passed by the source's read pointer, as (order, offset after, read); the
offset of the next area; areas the composer has yet to pass, as (order, offset after, used); the last decoded picture as (buffer, coded width and height);
the HEVC parameter sets received, by kind and identifier; the POC of the last picture that carries it on; and whether the last IRAP picture is the CRA
or BLA picture at which decoding began (R306 to R308). -/
structure MCtx where
  samples : List MSample
  submits : List MSubmit
  next    : Nat
  ends    : List (Nat × Nat × Bool)
  head    : Nat
  areas   : List (Nat × Nat × Bool)
  last    : Option (Nat × Nat × Nat)
  params  : SMap (List Byte)
  prevPoc : Int
  skipRasl : Bool
deriving DecidableEq, Repr

/-- A context as every start leaves it (R291). -/
def MCtx.empty : MCtx := ⟨[], [], 0, [], 0, [], none, [], 0, false⟩

/-- A reserved frame buffer (R305 to R307): its context, its marks DEC, REF and OUT, and the POC of its picture and whether damage was
concealed in it. -/
structure FrameBuf where
  ctx : Nat
  dec : Bool
  ref : Bool
  out : Bool
  poc : Int
  dirty : Bool
deriving DecidableEq, Repr

/-- A tokeniser set in its table memory (R312): merge pairs, vocabulary, and REPL_ID of the load. -/
structure TokSet where
  merges : List (Nat × Nat)
  vocab  : List Nat
  repl   : Nat
deriving DecidableEq, Repr

/-- A sample the composer knows (R317, R319): context, admission order there, and once classified its bucket, whether it is placed as
EMPTY, NO_BUCKET, its record (none where it came without one), and where its area lies. -/
structure CSample where
  ctx    : Nat
  order  : Nat
  bucket : Option Nat
  empty  : Bool
  nobkt  : Bool
  rec_   : List Byte
  area   : Nat
  lone   : Bool
deriving DecidableEq, Repr

/-- A batch being filled (R321, R323, R330, R332): bucket, buffer, BATCH_SEQ, tick of its opening and the elapsed tick of it (R426),
modes in force, positions assigned and not composed, positions assigned so far, the count of NVALID, and whether it is flushed or
dead (R333). -/
structure Batch where
  bucket  : Nat
  buf     : Nat
  seq     : Nat
  tick    : W64
  since   : Nat
  sat     : Bool
  sr      : Bool
  wait    : List (Nat × CSample)
  filled  : Nat
  valid   : Nat
  flushed : Bool
  dead    : Bool
deriving DecidableEq, Repr

/-- A batch stream (R316 to R325): samples not yet placed, batches being filled, buffers of closed batches in the order in which they
closed, offered batches as (index, buffer), how many have been offered, and the last BATCH_SEQ. -/
structure BStream where
  queue   : List CSample
  batches : List Batch
  closed  : List Nat
  offered : List (Nat × Nat)
  count   : Nat
  seq     : Nat
deriving DecidableEq, Repr

/-- A stream as every start leaves it (R324). -/
def BStream.empty : BStream := ⟨[], [], [], [], 0, 0⟩


/-- A message queued on a virtual channel of a port (R343 to R345, R359): its number, channel, modules, the requester that queued
it, the receive port whose credits its flits hold, the plan slot and step it belongs to, payloads of its flits not yet sent with the HOPS of
each, whether the last of them is known, and whether its first flit has been sent. -/
structure CMsg where
  id    : Nat
  vc    : Nat
  dest  : Nat
  src   : Nat
  rid   : Nat
  from_ : Option Nat
  plan  : Option (Nat × Nat)
  data  : List (List Byte × Nat)
  fin   : Bool
  begun : Bool
deriving DecidableEq, Repr

/-- A DATA flit in the retry buffer (R340): its header fields, payload, message, plan slot and step, and how often it has been resent in a row. -/
structure RFlit where
  seq   : Nat
  vc    : Nat
  eom   : Bool
  dest  : Nat
  src   : Nat
  hops  : Nat
  data  : List Byte
  msg   : Nat
  plan  : Option (Nat × Nat)
  tries : Nat
deriving DecidableEq, Repr

/-- Where the flits of an arriving message go (R344 to R348): collected for the collective engine, dropped, forwarded as a message on a
port, written through a window from an address with the offset reached and the bytes of a word not yet whole, or refused. -/
inductive CMode where
  | local_
  | drop
  | fwd (port msg : Nat)
  | mesh (addr len off : Nat) (carry : List Byte)
  | refused
deriving DecidableEq, Repr

/-- A message whose flits are arriving on a virtual channel: sender, place, bytes so far, flits that still hold credits, and the offset
of the early-arrival region kept for it (R341, R361). -/
structure CRx where
  src   : Nat
  mode  : CMode
  data  : List Byte
  flits : Nat
  place : Option Nat
deriving DecidableEq, Repr

/-- A whole message for the collective engine that waits: sender, bytes, flits that still hold credits, and the offset of the early-arrival
region kept for it. -/
structure CIn where
  src   : Nat
  data  : List Byte
  flits : Nat
  place : Option Nat
deriving DecidableEq, Repr

/-- A Causeway port (R338 to R354): the sequence number expected and the next to send; whether received flits are being discarded, a NAK
is due, and the elapsed tick of the last; the retry buffer with the place of the next flit to send again; credits held and credits
to return, by channel; messages queued; messages arriving by channel; whole messages of channels 0 and 2; elapsed tick of the last
flit; transmission held by a lane failure; failed lanes in transmit and receive direction; the elapsed tick at which a disable
ends; whether a refusal has been recorded since MESH_REFUSED was read. -/
structure CPort where
  rxSeq   : Nat
  txSeq   : Nat
  discard : Bool
  nakDue  : Bool
  nakAt   : Nat
  retry   : List RFlit
  again   : Nat
  cred    : List Nat
  ret     : List Nat
  msgs    : List CMsg
  rx      : SMap CRx
  inbox   : List CIn
  ctl     : List CIn
  lastRx  : Nat
  held    : Bool
  badTx   : Nat
  badRx   : Nat
  offAt   : Option Nat
  noted   : Bool
deriving DecidableEq, Repr

/-- A port as every start leaves it (R353). -/
def CPort.empty : CPort := ⟨0, 0, false, false, 0, [], 0, [0, 0, 0, 0], [0, 0, 0, 0], [], [], [], [], 0, false, 0, 0, none, false⟩


/-- Phases of a plan step (R359, R383): not started, waiting for its message, its work done and its sends or update not yet, completed. -/
inductive SPhase where
  | idle | ready | work | done
deriving DecidableEq, Repr

/-- A plan step as it runs: phase; start and factor of its timeout window (R383); its messages in flight; whether its update is written or
held (R359); for a fetch, whether it has landed and is marked done, and the version received (R368, R369). -/
structure StepSt where
  ph     : SPhase
  at_    : Nat
  f      : Nat
  sent   : List Nat
  upd    : Bool
  landed : Bool
  marked : Bool
  ver    : Nat
deriving DecidableEq, Repr

/-- A running plan (R355, R359): its run number, header, step records, participants, steps as they run, and the thread, token and work
item of its coll.plan; the runs it reduces into (first physical address, bytes, bytes of an element), and the parts of them that kernel
programs have written since it began (R362). -/
structure Plan where
  run   : Nat
  hdr   : List Byte
  steps : List (List Byte)
  parts : List Nat
  st    : List StepSt
  a     : Nat
  t     : Nat
  seq   : Nat
  item  : Nat
  red   : List (Nat × Nat × Nat)
  hit   : List (Nat × Nat)
deriving DecidableEq, Repr

/-- A coll.plan that has been issued and not started: thread, token, plan address, work item. -/
structure PlanReq where
  a    : Nat
  t    : Nat
  seq  : Nat
  va   : Nat
  item : Nat
deriving DecidableEq, Repr

/-- A chunk in the early-arrival region (R361): its sender, plan and tag, and its place there. -/
structure Early where
  src  : Nat
  plan : Nat
  tag  : Nat
  off  : Nat
  len  : Nat
deriving DecidableEq, Repr

/-- An update step handed to Lode (R357, R376, R379): plan slot, run and step, group, elements, gradient address and LOCAL format. -/
structure Upd where
  slot  : Nat
  run   : Nat
  step  : Nat
  group : Nat
  off   : Nat
  count : Nat
  addr  : Nat
  fmt   : Nat
deriving DecidableEq, Repr

/-- The update step that Lode is running, with what it took at its start (R63, R370, R371, R377): group entry, version, program words,
curve values, and the saturating mode. -/
structure LodeRun where
  u     : Upd
  ent   : List Byte
  ver   : Nat
  prog  : List Nat
  sched : List Nat
  sat   : Bool
deriving DecidableEq, Repr


/-- What of a written update step waits for frames that the checkpoint engine has not copied (R25): the run and the pieces left, each a virtual
address with its bytes. -/
structure LodePart where
  run  : LodeRun
  left : List (Nat × List Byte)
deriving DecidableEq, Repr

/-- Phases of a work item: taken and not ready, ready, tables binding, image loading, threads running, waiting for its replay, ended (R394 to R400,
R473). -/
inductive IPhase where
  | held | ready | bind | load | run | replay | done
deriving DecidableEq, Repr

/-- A work item that has been taken (R390 to R402): ITEM, the 128 bytes of its entry, its phase, the order in which it became
ready, and once it has started the order in which it did, the logical array of its last attempt, replays started, the first failure of the attempt (OK while none), whether the
attempt ended for a reason of R472, the elapsed tick of the first thread fault, whether it
borrowed, its batch buffer (stream and buffer), the threads it receives (R150), and of its binding (R141) the table list as read (address,
generation), how that read ended, and the first read of each GEN word with how it ended. -/
structure Item where
  id      : Nat
  raw     : List Byte
  phase   : IPhase
  order   : Nat
  arr     : Nat
  replays : Nat
  fail    : Fail
  reason  : Bool
  haltAt  : Option Nat
  borrow  : Bool
  batch   : Option (Nat × Nat)
  threads : List Nat
  tabs    : List (Nat × Nat)
  listed  : Fail
  gens    : List (Nat × Fail)
deriving DecidableEq, Repr

/-- The power and clock controller (R410 to R415). -/
structure PwrCtl where
  /-- ACLK code chosen at the end of the last control period (R413). -/
  pwrC : Nat
  /-- Elapsed tick at which the current control period began (R413). -/
  pwrFrom : Nat
  /-- Tenths of a millijoule not yet counted in PWR_ENERGY. -/
  energyRest : Nat
  /-- Elapsed tick since which an array has held no item in RUN, or has been in IDLE (R411). -/
  arrSince : SMap Nat
  /-- Elapsed tick at which the last array left RUN (R411). -/
  aclkIdle : Nat
  /-- Elapsed tick at which MCLK last had work (R415). -/
  mclkIdle : Nat
  /-- Gates closed by UNIT_CLOCK_STOP, by unit number (R22, R415). -/
  gates : List Nat
deriving DecidableEq, Repr

/-- The power and clock controller (R410 to R415) right after a cold start from power-up. -/
def PwrCtl.atReset : PwrCtl where
  pwrC := 24
  pwrFrom := 0
  energyRest := 0
  arrSince := []
  aclkIdle := 0
  mclkIdle := 0
  gates := []


/-- A taken submission entry whose completion is not written (R443 to R447): its submission index, its 128 bytes, the completion queue
whose slot it reserved, whether it has started, its status once it is complete, and the replays of its work item. -/
structure HEntry where
  idx     : Nat
  raw     : List Byte
  cq      : Nat
  started : Bool
  st      : Option Status
  replays : Nat
deriving DecidableEq, Repr

/-- A submission queue (R441, R448): the index of the next entry to take, whether a fetch error has stopped it, its taken entries, oldest
first. -/
structure HSq where
  count : Nat
  stop  : Bool
  ents  : List HEntry
deriving DecidableEq, Repr

/-- A submission queue as every start leaves it. -/
def HSq.empty : HSq := ⟨0, false, []⟩

/-- A completion queue (R448, R449): whether a write error has stopped it, the entries counted since the last signal, and the elapsed tick
of the first of them. -/
structure HCq where
  stop   : Bool
  coalN  : Nat
  coalAt : Nat
deriving DecidableEq, Repr

/-- A completion queue as every start leaves it. -/
def HCq.empty : HCq := ⟨false, 0, 0⟩


/-- A start in progress (R451 to R463): KIND, CAUSE and FALLBACK of GLB_START, the elapsed tick of its trigger, which stages have ended, and
the elapsed tick at which it failed. -/
structure Boot where
  kind    : Nat
  cause   : Nat
  fallback : Nat
  at_     : Nat
  fuses   : Bool
  stage1  : Bool
  trained : Bool
  tested  : Bool
  filled  : Bool
  failed  : Option Nat
deriving DecidableEq, Repr

/-- Pins, input stage and start sequence (R451 to R464, R504 to R517). -/
structure UpState where
  /-- The ordering number in the fuses, as the row of the table of R2: 0 T2048-X2, 1 T1024-X2, 2 T0-X0. -/
  order : Nat
  /-- The rails are on: a start has begun and no power-down followed (R451, R509). -/
  powered : Bool
  /-- The Peat domain is up (R454). -/
  peat : Bool
  /-- The management port is ready (R455). -/
  mgmtReady : Bool
  /-- Configuration ready has been reached (R454). -/
  cfgReady : Bool
  /-- The start in progress (R451). -/
  boot : Option Boot
  /-- The module is in SAFE state (R464). -/
  safe : Bool
  /-- PWR_EN is asserted (R511). -/
  pwrEn : Bool
  /-- PERST# is asserted (R511). -/
  perst : Bool
  /-- Input voltage in mV (R504). -/
  inputMv : Int
  /-- Input is good (R505). -/
  inputGood : Bool
  /-- Voltage of the bulk capacitance in mV when it began to charge, and the elapsed tick of that moment (R506). -/
  bulkMv : Nat
  /-- Elapsed tick at which charging began (R506). -/
  bulkAt : Nat
  /-- The thermal trip latch: THERM_TRIP# is low (R517). -/
  tripLatch : Bool
  /-- A thermal trip has happened since the last start: the next one needs cool sensors (R517). -/
  tripSeen : Bool
  /-- Elapsed tick of the last power-down or PWR_EN deassertion (R509, R512). -/
  downAt : Option Nat
  /-- MOD_ID as sampled when the Peat domain came up (R454, R511). -/
  modId : Nat
  /-- A start has completed since power-up (R460). -/
  everDone : Bool
  /-- The last start completed (R460). -/
  lastDone : Bool
  /-- Temperature of each stack at its saved training (R460); a missing one is 0. -/
  savedTemps : List Nat
  /-- Boot options record in flash: MEMTEST (R501). -/
  optMemtest : Bool
  /-- Intake ports whose PHY the start found missing (R465). -/
  itkGone : List Nat
deriving DecidableEq, Repr

/-- Pins, input stage and start sequence (R451 to R464, R504 to R517) right after a cold start from power-up. -/
def UpState.atReset : UpState where
  order := 0
  powered := true
  peat := true
  mgmtReady := true
  cfgReady := true
  boot := none
  safe := false
  pwrEn := true
  perst := false
  inputMv := 72000
  inputGood := true
  bulkMv := 72000
  bulkAt := 0
  tripLatch := false
  tripSeen := false
  downAt := none
  modId := 0
  everDone := true
  lastDone := true
  savedTemps := []
  optMemtest := false
  itkGone := []


/-- What a copy of an image type holds in flash (R489, R490): nothing whole, the image the module was shipped with, by its SVN and
VERSION, signed under boot key slot 0, or bytes that an update wrote. -/
inductive FlashCopy where
  | blank
  | shipped (svn version : Nat)
  | written (data : List Byte)
deriving DecidableEq, Repr

/-- The security unit (R489 to R503). -/
structure SecState where
  /-- Flash copies A and B of types 1, 2 and 3, in the order A1, B1, A2, B2, A3, B3 (R489). -/
  flash : List FlashCopy
  /-- The images that run, of types 1, 2 and 3 (R492). -/
  running : List FlashCopy
  /-- The open update session: image type and next offset (R494). -/
  fwOpen : Option (Nat × Nat)
  /-- The image type whose commit is rewriting copy A, and the endpoint that asked (R494). -/
  fwCommit : Option (Nat × Nat)
  /-- Copies under repair, as indices of `flash` (R495). -/
  repair : List Nat
  /-- The nonce of the latest DEBUG_CHALLENGE, unused (R503). -/
  dbgNonce : Option (List Byte)
  /-- MEMTEST of the boot options record as measured at the end of the last start (R499). -/
  measOpt : Bool
  /-- SEC_SVN_MIN and SEC_BOOT as measured at the end of the last start (R499). -/
  measFuse : Nat × Nat
  /-- The first stage that ran, and SEC_SVN_MIN, at the last cold start: the Alias pair and certificate follow from them (R496, R497). -/
  aliasFrom : FlashCopy × Nat
  /-- Negotiation reached on MCTP: 0 none, 1 version, 2 capabilities, 3 algorithms (R498). -/
  spdmMctp : Nat
  /-- Negotiation reached on DOE (R498). -/
  spdmDoe : Nat
deriving DecidableEq, Repr

/-- The security unit (R489 to R503) right after a cold start from power-up. -/
def SecState.atReset : SecState where
  flash := [.shipped 0 0, .shipped 0 0, .shipped 0 0, .shipped 0 0, .shipped 0 0, .shipped 0 0]
  running := [.shipped 0 0, .shipped 0 0, .shipped 0 0]
  fwOpen := none
  fwCommit := none
  repair := []
  dbgNonce := none
  measOpt := false
  measFuse := (0, 0)
  aliasFrom := (.shipped 0 0, 0)
  spdmMctp := 0
  spdmDoe := 0

/-- The state of the module. -/
structure State where
  /-- Elapsed ticks of the Peat domain; no jump moves it (R426). -/
  now : Nat
  /-- The time base (R11, R425). -/
  tb : W64
  /-- Value the time base takes at the next tick (R427). -/
  tbJump : Option W64
  /-- Number of free values drawn so far: the model's own field. -/
  free : Nat
  /-- What the module has sent, newest first: the model's own record of its outputs. -/
  out : List Out
  /-- The register file of BAR0, keyed by instance and offset; unlisted registers hold their Cold value (R8, R10). -/
  regs : SMap W32
  /-- Pending and captured halves of the PCIe port (R8). -/
  halfPcie : PortHalf
  /-- Pending and captured halves of the management port (R8). -/
  halfMgmt : PortHalf
  /-- Fault queue (R479). -/
  faults : FaultUnit
  /-- Change journal (R485). -/
  jrn : Journal
  /-- Every byte of HBM, Pool, array SRAM and tier 2 by physical address; an unlisted byte is zero (R27, R28). -/
  mem : SMap Byte
  /-- Sideband scale of a class A word, keyed by PA / 32; unlisted words hold 127 (R73, R74). -/
  scales : SMap Nat
  /-- First address of every code word that holds an error its code does not correct (R78). -/
  bad : List Nat
  /-- Frames of class A (R74). -/
  classA : List Nat
  /-- Frames under conversion (R74). -/
  conv : List Nat
  /-- MEM_FCLASS_DATA writes held until the conversions end (R74). -/
  convHeld : List RegAcc
  /-- Cached translations (R33). -/
  tlb : List TlbEntry
  /-- First VA and length of the invalidation in progress (R33). -/
  inval : Option (Nat × Nat)
  /-- Pseudo-channels with requests, by number (R69, R80). -/
  pcs : SMap PseudoChan
  /-- Next HBM address of the patrol scrubber (R79). -/
  scrubHbm : Nat
  /-- Next tier-2 offset of the patrol scrubber (R79). -/
  scrubT2 : Nat
  /-- Tier-2 packages in self-refresh, with the elapsed tick of entry (R86). -/
  selfRef : List Nat
  /-- Elapsed tick of the last access of each tier-2 package (R86). -/
  t2Last : SMap Nat
  /-- Tier-2 accesses waiting for the fill or for a self-refresh exit (R86, R87). -/
  t2Wait : List MemReq
  /-- Every package stayed in self-refresh since the warm start began (R86). -/
  t2Kept : Bool
  /-- Admissions of each class in the current 64 of each tier-2 package (R34, R35). -/
  t2Counts : SMap (List Nat)
  /-- Requests waiting at each Pool bank (R91). -/
  pool : SMap (List PoolReq)
  /-- FCLK cycles the banks have run: the stamp of arrivals. -/
  poolCyc : Nat
  /-- Results of served Pool requests not yet returned, by requester number: status and old value (R89, R165). -/
  poolDone : SMap (Fail × Nat)
  /-- Round-robin pointers by resource (R39). -/
  rr : SMap Nat
  /-- The running checkpoint list (R96). -/
  ckp : Option CkpRun
  /-- Address and count of the armed checkpoint list, as they stood when it was armed (R97). -/
  ckpArmed : Option (Nat × Nat)
  /-- The ACLK PLL (R415). -/
  aclk : Pll
  /-- The FCLK PLL (R415). -/
  fclk : Pll
  /-- The MCLK PLL (R415). -/
  mclk : Pll
  /-- Accesses waiting for a clock: domain and elapsed tick of the request (R418, R419). -/
  clkWait : List (ClkDomain × Nat × WaitAcc)
  /-- Accesses of the host that wait behind an earlier one, oldest first (R434). -/
  busHeld : List WaitAcc
  /-- Vectors the host has unmasked in the MSI-X table (R449). -/
  msixOn : List Nat
  /-- Vectors pending in the PBA (R449). -/
  msixPend : List Nat
  /-- Bus Master Enable (R432). -/
  bme : Bool
  /-- The function is in D3hot (R432). -/
  d3hot : Bool
  /-- Power state of each physical array; unlisted arrays are in RET (R410, R411, R510). -/
  pstate : SMap PState
  /-- Logical arrays remapped away from the physical array of their own number (R17, R123). -/
  lmap : SMap Nat
  /-- Logical numbers retired because no spare was free (R17). -/
  lretired : List Nat
  /-- Physical arrays marked defective by fuse (R17). -/
  defective : List Nat
  /-- Physical arrays retired at run time (R521). -/
  pretired : List Nat
  /-- Redirection of the SRAM range of a retired physical array to its spare (R19). -/
  redir : SMap Nat
  /-- Physical arrays on their way to RUN, with the elapsed tick at which the wake began (R410). -/
  waking : SMap Nat
  /-- Accesses waiting for a physical array to reach RUN (R18, R22). -/
  sramWait : SMap (List MemReq)
  /-- Grid and Rush path by logical array; unlisted arrays are empty (R99, R113, R126). -/
  grid : SMap Grid
  /-- Physical arrays whose failing array is fenced, with the elapsed tick of the detection (R123, R124). -/
  failing : SMap Nat
  /-- Elapsed tick of the last check event of each physical array (R123). -/
  lastEvt : SMap Nat
  /-- Cached code tables by 16 × logical array + entry (R142). -/
  tabs : SMap CodeTab
  /-- Bindings made so far: the order of R142's least recently bound entry. -/
  binds : Nat
  /-- Failing physical arrays whose fence is in place (R124). -/
  fencedArr : List Nat
  /-- Accumulator elements of operations whose tokens have not completed (R105, R225). -/
  accUse : List AccUse
  /-- Threads by 64 × logical array + thread number; unlisted threads are FREE (R150, R154). -/
  thr : SMap Thread
  /-- Barriers in use by 16 × logical array + barrier number; unlisted barriers are idle (R173). -/
  bars : SMap Barrier
  /-- Transfers waiting in the DMA queues by 4 × logical array + queue (R216). -/
  dma : SMap (List DmaOp)
  /-- Statistics memory by logical array (R244). -/
  rowst : SMap RowStat
  /-- Stochastic-rounding generators of the vector lanes by 256 × logical array + lane; unlisted ones stand at their seed (R66, R236). -/
  vecGen : SMap W64
  /-- Program images that the dispatcher has loaded and nothing has touched since, by logical array: IMG_VA, IMG_WORDS and LOAD (R394). -/
  imgs : SMap (List (Nat × Nat × Nat))
  /-- Intake ports (R275, R280). -/
  iports : SMap IPort
  /-- Reassembly by 256 × port + stream (R275). -/
  istreams : SMap IStream
  /-- Decode contexts (R289). -/
  med : SMap MCtx
  /-- Samples admitted so far: the order of R293. -/
  medCount : Nat
  /-- Reserved frame buffers (R305). -/
  fbs : SMap FrameBuf
  /-- Context whose picture an HEVC core last decoded (R308). -/
  medLast : SMap Nat
  /-- Tokeniser sets that hold valid tables (R312). -/
  toksets : SMap TokSet
  /-- Batch streams (R316). -/
  bstreams : SMap BStream
  /-- Quantiser lanes of the composer; unlisted ones stand at their seed (R66, R330). -/
  batGen : SMap W64
  /-- Causeway ports (R336 to R354). -/
  cports : SMap CPort
  /-- Messages that start here and have not sent a flit, in the order in which they were queued: they have no port yet (R343, R344). -/
  outbox : List CMsg
  /-- Messages queued on Causeway ports so far: their numbers. -/
  msgCount : Nat
  /-- SLOW with the factor in force is still to be sent (R382). -/
  slowDue : Bool
  /-- Issued coll.plan operations that have not started (R358). -/
  planReqs : List PlanReq
  /-- Running plans by plan slot (R359). -/
  plans : SMap Plan
  /-- Plans started so far: their run numbers. -/
  planRuns : Nat
  /-- PLAN_IDs that have ended on this module since the last step boundary (R361, R384). -/
  planEnded : List Nat
  /-- The abort list, oldest first (R386). -/
  aborts : List Nat
  /-- Chunks in the early-arrival region (R361). -/
  early : List Early
  /-- coll.slot operations that wait: thread, token, plan slot, index (R387). -/
  slotWait : List (Nat × Nat × Nat × Nat × Nat)
  /-- Packer lanes; unlisted ones stand at their seed (R66, R367). -/
  colGen : SMap W64
  /-- Runnable update steps, in order (R376). -/
  lodeQ : List Upd
  /-- Held update steps, in order (R379, R380). -/
  lodeHeld : List Upd
  /-- The running update step (R376). -/
  lodeRun : Option LodeRun
  /-- Update steps with writes that wait for the checkpoint engine, in order (R25). -/
  lodeParts : List LodePart
  /-- Update steps of a plan for a group, by 4096 × run + group: all of them, and those not yet written (R381, R385). -/
  lodeCnt : SMap (Nat × Nat)
  /-- Lode lanes; unlisted ones stand at their seed (R66, R376). -/
  lodeGen : SMap W64
  /-- Work items taken and not completed, and the completed ones of the open step, in the order in which they were taken (R391, R396). -/
  items : List Item
  /-- Branch whose share holds a logical array; unlisted arrays are unassigned (R399, R409). -/
  shares : SMap Nat
  /-- The open step (R395). -/
  openStep : Option Nat
  /-- The last closed step (R395). -/
  lastStep : Option Nat
  /-- Evaluation items may start: from a boundary or enable until a step item is ready (R402). -/
  evalOk : Bool
  /-- Charges of windows not yet closed by 64 × window + branch, in parts of an array-cycle (R403). -/
  winCost : SMap Nat
  /-- The first window not yet closed (R404). -/
  winK : Nat
  /-- Charges of the last closed window by branch (LASTWIN). -/
  lastWin : SMap Nat
  /-- Charges of the counted windows by branch, M_b (R404). -/
  cost : SMap Nat
  /-- Windows counted since the last share change or enable (R404). -/
  winCount : Nat
  /-- Time-base tick from which windows count (R404). -/
  winFrom : Nat
  /-- Window length in force (R404). -/
  winTicks : Nat
  /-- Base count of each batch stream (R397). -/
  batchBase : SMap Nat
  /-- Batches that the dispatcher has released for the open step: stream and count (R397). -/
  released : List (Nat × Nat)
  /-- Batches of closed steps that were not offered yet and are released when they are: stream and count (R397). -/
  relDue : List (Nat × Nat)
  /-- Items that have become ready so far: the order of R400. -/
  readyCount : Nat
  /-- The power and clock controller (R410 to R415). -/
  pw : PwrCtl
  /-- Submission queues (R441). -/
  sqs : SMap HSq
  /-- Completion queues (R441). -/
  cqs : SMap HCq
  /-- The PCIe link is up (R456). -/
  linkUp : Bool
  /-- Pins, input stage and start sequence (R451 to R464, R504 to R517). -/
  up : UpState
  /-- The security unit (R489 to R503). -/
  sec : SecState
  /-- The commands that wait, first in, first out. -/
  pending : List Instr
deriving DecidableEq, Repr

/-- The machine right after reset: a cold start from power-up of the full configuration that has completed (R454, R463, R466),
with no fuse defect. [DESIGN CHOICE 4, 5, 6, 8; PRESUMED 7] -/
def State.reset : State where
  now := 0
  tb := 0
  tbJump := none
  free := 0
  out := []
  regs := []
  halfPcie := ⟨none, none⟩
  halfMgmt := ⟨none, none⟩
  faults := FaultUnit.empty
  jrn := ⟨[], 1, 0, 0, []⟩
  mem := []
  scales := []
  bad := []
  classA := []
  conv := []
  convHeld := []
  tlb := []
  inval := none
  pcs := []
  scrubHbm := 0
  scrubT2 := 0
  selfRef := []
  t2Last := []
  t2Wait := []
  t2Kept := true
  t2Counts := []
  pool := []
  poolCyc := 0
  poolDone := []
  rr := []
  ckp := none
  ckpArmed := none
  aclk := ⟨false, none, 0, false⟩
  fclk := ⟨true, none, 0, false⟩
  mclk := ⟨false, none, 0, false⟩
  clkWait := []
  busHeld := []
  msixOn := []
  msixPend := []
  bme := false
  d3hot := false
  pstate := []
  lmap := []
  lretired := []
  defective := []
  pretired := []
  redir := []
  waking := []
  sramWait := []
  grid := []
  failing := []
  lastEvt := []
  tabs := []
  binds := 0
  fencedArr := []
  accUse := []
  thr := []
  bars := []
  dma := []
  rowst := []
  vecGen := []
  imgs := []
  iports := []
  istreams := []
  med := []
  medCount := 0
  fbs := []
  medLast := []
  toksets := []
  bstreams := []
  batGen := []
  cports := []
  outbox := []
  msgCount := 0
  slowDue := false
  planReqs := []
  plans := []
  planRuns := 0
  planEnded := []
  aborts := []
  early := []
  slotWait := []
  colGen := []
  lodeQ := []
  lodeHeld := []
  lodeRun := none
  lodeParts := []
  lodeCnt := []
  lodeGen := []
  items := []
  shares := []
  openStep := none
  lastStep := none
  evalOk := false
  winCost := []
  winK := 0
  lastWin := []
  cost := []
  winCount := 0
  winFrom := 0
  winTicks := 250000
  batchBase := []
  released := []
  relDue := []
  readyCount := 0
  pw := PwrCtl.atReset
  sqs := []
  cqs := []
  linkUp := true
  up := UpState.atReset
  sec := SecState.atReset
  pending := []

end Sys2Proof.Machine
end

