-- ==== Sys2Proof/Machine/Ops.lean ====
section
/-! DEFINITION. Machine/Ops.lean: the operations every unit shares: the register file, event causes and MSI-X (R449, R450),
the fault queue (R468, R477 to R479) and the change journal (R481 to R487). -/

namespace Sys2Proof.Machine

/-- Key of a register of an instance in the register file. -/
def regKey (inst off : Nat) : Nat := inst * 0x4000000 + off

/-- The Cold value of a register (R10); unassigned offsets hold zero (R9). [DESIGN CHOICE 5; PRESUMED 141] -/
def coldReg (off : Nat) : W32 :=
  match regDef? off with
  | some r => r.coldWord
  | none => 0

/-- Stored value of a register of an instance. -/
def State.reg (s : State) (inst off : Nat) : W32 :=
  match SMap.get? s.regs (regKey inst off) with
  | some v => v
  | none => coldReg off

/-- Store a register of an instance. -/
def State.setReg (s : State) (inst off : Nat) (v : W32) : State :=
  { s with regs := SMap.put s.regs (regKey inst off) v }

/-- A field of a register. -/
def State.rf (s : State) (inst off hi lo : Nat) : Nat := fld (s.reg inst off) hi lo

/-- Set a field of a register. -/
def State.setRf (s : State) (inst off hi lo x : Nat) : State :=
  s.setReg inst off (setFld (s.reg inst off) hi lo x)

/-- Tier-2 packages of the configuration: GLB_CONFIG.T2 (R2, R465). -/
def State.t2Count (s : State) : Nat :=
  match s.rf 0 Reg.GLB_CONFIG 1 0 with
  | 0 => 0
  | 1 => 16
  | _ => 32

/-- Does the configuration have Intake ports: GLB_CONFIG.INTAKE (R2, R465). -/
def State.hasIntake (s : State) : Bool := s.rf 0 Reg.GLB_CONFIG 2 2 == 1

/-- Value of a 64-bit pair from its low offset; the high half stands 4 above (R8). -/
def State.reg64 (s : State) (inst off : Nat) : Nat :=
  (s.reg inst off).toNat + 2 ^ 32 * (s.reg inst (off + 4)).toNat

/-- Store a 64-bit pair. -/
def State.setReg64 (s : State) (inst off v : Nat) : State :=
  (s.setReg inst off (BitVec.ofNat 32 v)).setReg inst (off + 4) (BitVec.ofNat 32 (v / 2 ^ 32))

/-- Advance a saturating 32-bit counter. -/
def State.count (s : State) (inst off n : Nat) : State :=
  s.setReg inst off (satAdd32 (s.reg inst off) n)

/-- Advance a saturating counter that fills only field [hi:lo]. -/
def State.countField (s : State) (inst off hi lo n : Nat) : State :=
  s.setRf inst off hi lo (min (2 ^ (hi + 1 - lo) - 1) (s.rf inst off hi lo + n))

/-- Advance a 64-bit counter pair. -/
def State.count64 (s : State) (inst off n : Nat) : State :=
  s.setReg64 inst off ((s.reg64 inst off + n) % 2 ^ 64)

/-- Record an output. [DESIGN CHOICE 15] -/
def State.emit (s : State) (o : Out) : State := { s with out := o :: s.out }

/-- Draw the index of a fresh free value. [DESIGN CHOICE 10] -/
def State.drawFree (s : State) : Nat × State := (s.free, { s with free := s.free + 1 })

/-- Send an MSI-X message, or leave it pending while the vector is masked, Bus Master Enable is clear or the function is in
D3hot (R432, R449). [DEDUCED 163] -/
def sendMsix (v : Nat) (s : State) : State :=
  if s.msixOn.contains v && s.bme && !s.d3hot then s.emit (.msix v)
  else { s with msixPend := setIns s.msixPend v }

/-- The bits of HST_EVT_CAUSE (R450). -/
inductive Evt where
  | fault | ckpt | journal | power | thermal | link | intake | media | lock | boundary
deriving DecidableEq, Repr

/-- Bit number of an event cause (R450). -/
def Evt.bit : Evt → Nat
  | .fault => 0 | .ckpt => 1 | .journal => 2 | .power => 3 | .thermal => 4
  | .link => 5 | .intake => 6 | .media => 7 | .lock => 8 | .boundary => 9

/-- Raise an event cause; one message when its masked bit goes from 0 to 1 (R450). [DEDUCED 163] -/
def raiseEvt (e : Evt) (s : State) : State :=
  let old := s.rf 0 Reg.HST_EVT_CAUSE e.bit e.bit
  let s1 := s.setRf 0 Reg.HST_EVT_CAUSE e.bit e.bit 1
  if old = 0 ∧ s.rf 0 Reg.HST_EVT_MASK e.bit e.bit = 1 then sendMsix (s.rf 0 Reg.HST_EVT_VEC 10 0) s1 else s1

/-- What a unit hands to the fault unit: the fields of R477 that it decides. `root` is 0 for a root record. -/
structure FaultIn where
  cls    : FaultClass
  status : Status
  disp   : Disp
  replay : Bool := false
  req    : Nat := 0
  unit   : Nat := 0xFFFF
  root   : Nat := 0
  pa     : Nat := 0
  body   : List Byte := []
deriving DecidableEq, Repr

/-- Ticks of R468: 100 ms. [DEDUCED 26] -/
def outsideTicks : Nat := 2500000

/-- FLAGS.OUTSIDE of a root record (R468): the latest root record of another class or unit lies less than 100 ms back. [DEDUCED 27] -/
def rootOutside (f : FaultUnit) (cls : FaultClass) (unit now : Nat) : Bool :=
  let near := fun (m : RootMark) => (m.cls ≠ cls || m.unit ≠ unit) && decide (now < m.at_ + outsideTicks)
  (f.last.any near) || (f.prev.any near)

/-- The OUTSIDE flag of the root a record names; false when that record is gone (R468). [DEDUCED 26] -/
def outsideOf (f : FaultUnit) (root : Nat) : Bool :=
  match f.queue.find? (fun r => r.fseq == root) with
  | some r => r.outside
  | none => false

/-- FLAGS.OUTSIDE of a new record (R468). -/
def recOutside (f : FaultUnit) (r : FaultIn) (now : Nat) : Bool :=
  if r.disp = .notice then false
  else if r.root = 0 then rootOutside f r.cls r.unit now
  else outsideOf f r.root

/-- The root marks after a record (R468): only root records of masked or reported faults count. [DEDUCED 27] -/
def pushMark (f : FaultUnit) (r : FaultIn) (now : Nat) : FaultUnit :=
  if r.disp = .notice ∨ r.root ≠ 0 then f
  else
    let m : RootMark := ⟨r.cls, r.unit, now⟩
    match f.last with
    | some l => if l.cls = r.cls ∧ l.unit = r.unit then { f with last := some m } else { f with last := some m, prev := some l }
    | none => { f with last := some m }

/-- Records that may be held before this one is dropped (R479). -/
def faultRoom (d : Disp) : Nat := if d = .reported then 1024 else 960

/-- The common part of entering a record: the flags of FLT_STATUS (R469, R479). -/
def faultFlags (r : FaultIn) (outside : Bool) (s : State) : State :=
  let s1 := if r.disp = .reported then s.setRf 0 Reg.FLT_STATUS 0 0 1 else s
  if outside then s1.setRf 0 Reg.FLT_STATUS 2 2 1 else s1

/-- Drop a record: counted, DROPPED set, and a REPORTED one still sets REPORTED (R479). -/
def dropFault (r : FaultIn) (s : State) : State :=
  let s1 := s.setRf 0 Reg.FLT_STATUS 1 1 1
  if r.disp = .reported then (s1.count 0 Reg.FLT_DROP_REPORTED 1).setRf 0 Reg.FLT_STATUS 0 0 1
  else s1.count 0 Reg.FLT_DROP_MASKED 1

/-- Write a fault record without the event cause: the FSEQ it took, or 0xFFFF_FFFF when it was dropped (R477, R479). [DEDUCED 23] -/
def writeFaultQuiet (r : FaultIn) (s : State) : Nat × State :=
  if s.faults.queue.length < faultRoom r.disp then
    let o := recOutside s.faults r s.now
    let rec_ : FaultRec := ⟨s.faults.next, r.cls, r.status, r.disp, o, r.replay, s.tb, r.req, r.unit, r.root, r.pa,
      slice r.body 0 32⟩
    let f := pushMark s.faults r s.now
    (s.faults.next, faultFlags r o { s with faults := { f with queue := f.queue ++ [rec_], next := f.next + 1 } })
  else (0xFFFFFFFF, dropFault r s)

/-- Write a fault record; the FAULT cause when the queue goes from empty to not empty (R450, R469, R479). -/
def writeFaultId (r : FaultIn) (s : State) : Nat × State :=
  let was := s.faults.queue.isEmpty
  let (q, s1) := writeFaultQuiet r s
  (q, if was && !s1.faults.queue.isEmpty then raiseEvt .fault s1 else s1)

/-- Write a fault record (R479). -/
def writeFault (r : FaultIn) (s : State) : State := (writeFaultId r s).2

/-- Bytes of a fault record (R477): the common header, then its body. -/
def FaultRec.bytes (r : FaultRec) : List Byte :=
  leBytes 4 r.fseq ++ leBytes 1 r.cls.code ++ leBytes 1 r.status.code ++
  leBytes 1 (match r.disp with | .masked => 0 | .reported => 1 | .notice => 2) ++
  leBytes 1 (b2n r.outside + 2 * b2n r.replay) ++ leBytes 8 r.tick.toNat ++ leBytes 2 r.req ++ leBytes 2 r.unit ++
  leBytes 4 r.root ++ leBytes 8 r.pa ++ slice r.body 0 32

/-- Capacity of the journal ring (R485). -/
def jrnCap : Nat := 65536

/-- Note the loss of an entry overwritten before it was spilled (R487). -/
def jrnLose (s : State) : State :=
  let was := s.rf 0 Reg.JRN_STATUS 0 0
  let s1 := { s with jrn := { s.jrn with lost := s.jrn.lost + 1 } }.setRf 0 Reg.JRN_STATUS 0 0 1
  if was = 0 then raiseEvt .journal s1 else s1

/-- Append an entry; the ring keeps the latest 65,536 (R484, R485, R487). -/
def jrnAppend (e : JEntry) (s : State) : State :=
  let full := decide (s.jrn.ring.length = jrnCap)
  let lose := full && decide (s.jrn.unspilled = jrnCap)
  let ring := ({ e with seq := s.jrn.nextSeq } :: s.jrn.ring).take jrnCap
  let s1 := { s with jrn := { s.jrn with ring := ring, nextSeq := (s.jrn.nextSeq + 1) % 2 ^ 24,
                                         unspilled := min jrnCap (s.jrn.unspilled + 1) } }
  if lose then jrnLose s1 else s1

/-- Journal a change of a register (R481, R482): `off` is the low offset of a pair. -/
def journal (origin : Origin) (rid off inst : Nat) (pair : Bool) (old new : Nat) (s : State) : State :=
  jrnAppend ⟨s.tb.toNat % 2 ^ 48, rid % 65536, 0, off / 4 % 2 ^ 21, inst, origin, pair, old, new⟩ s

/-- A change the device itself makes to an RW or RWL field, journaled with the requester number of the unit (R481, R482). -/
def deviceSetReg (rid inst off : Nat) (v : W32) (s : State) : State :=
  let old := s.reg inst off
  if old = v then s else journal .device rid off inst false old.toNat v.toNat (s.setReg inst off v)

/-- Bytes of a journal entry (R482). -/
def JEntry.bytes (e : JEntry) : List Byte :=
  leBytes 6 e.tick ++ leBytes 2 e.rid ++
  leBytes 8 (e.seq + 2 ^ 24 * e.addr + 2 ^ 45 * (e.inst % 2 ^ 14) +
    2 ^ 59 * (match e.origin with | .pcie => 0 | .mgmt => 1 | .device => 2) + 2 ^ 61 * b2n e.pair) ++
  leBytes 8 e.old ++ leBytes 8 e.new

/-- The journal entry with a sequence number. -/
def jrnFind (s : State) (seq : Nat) : Option JEntry := s.jrn.ring.find? (fun e => e.seq == seq)

/-- JRN_RD_STATUS of a sequence number (R485): 0 held, 1 overwritten, 2 not yet written, 3 damaged. Numbers that the next half of
the sequence space will use count as not yet written. -/
def jrnStatus (s : State) (seq : Nat) : Nat :=
  if s.jrn.damaged.contains seq then 3
  else if (jrnFind s seq).isSome then 0
  else if (seq + 2 ^ 24 - s.jrn.nextSeq) % 2 ^ 24 < 2 ^ 23 then 2 else 1

/-- Grant a resource by its round-robin pointer (R39). [DESIGN CHOICE 16, 18] -/
def rrGrant (res : Nat) (cs : List Nat) (s : State) : Option (Nat × State) :=
  match rrWinner (SMap.getD s.rr res 0) cs with
  | some w => some (w, { s with rr := SMap.put s.rr res (w + 1) })
  | none => none

/-- Keys of the round-robin pointers. [DESIGN CHOICE 18] -/
def rrPool (bank : Nat) : Nat := bank
/-- Pointer of a pseudo-channel for one class. [DESIGN CHOICE 18] -/
def rrPc (pc cls : Nat) : Nat := 0x1000 + pc * 8 + cls
/-- Pointer of the submission queues (R443). [DESIGN CHOICE 18] -/
def rrSq : Nat := 0x10000
/-- Pointer of a tier-2 package for one class. -/
def rrT2 (pkg cls : Nat) : Nat := 0x13000 + pkg * 8 + cls
/-- Pointer of the SRAM of a physical array. [DESIGN CHOICE 18] -/
def rrSram (phys : Nat) : Nat := 0x14000 + phys
/-- Pointer of the weight port of a logical array (R114). [DESIGN CHOICE 18] -/
def rrPort (a : Nat) : Nat := 0x15000 + a
/-- Pointer of the expander of a logical array (R144). [DESIGN CHOICE 18] -/
def rrExp (a : Nat) : Nat := 0x16000 + a
/-- Pointer of a descriptor engine. [DESIGN CHOICE 18] -/
def rrDma (a : Nat) : Nat := 0x12000 + a

end Sys2Proof.Machine
end

