-- ==== Sys2Proof/Machine/Arbiter.lean ====
section
/-! DEFINITION. Machine/Arbiter.lean: requester classes and their shares of a memory (R34, R35, R37), the choice among waiting requests by class
and by round robin (R39), and the pseudo-channels as stored. -/

namespace Sys2Proof.Machine

/-- The class of a requester (R34, R37): Causeway receive ports, collective engine and Lode are LINK; Intake reassembly, decoders, tokenisers and
composer MEDIA; checkpoint engine CKPT; array threads with what they start ARRAY; every other requester reads and writes for the host. -/
def reqClass (rid : Nat) : ReqClass :=
  if 0x10 ≤ rid ∧ rid ≤ 0x21 then .link
  else if 0x30 ≤ rid ∧ rid ≤ 0x88 then .media
  else if rid = 0x90 then .ckpt
  else if 0x1000 ≤ rid ∧ rid < 0x2800 then .array
  else .host

/-- Order of a class in the tables of R34. -/
def classIdx : ReqClass → Nat
  | .link => 0 | .array => 1 | .media => 2 | .ckpt => 3 | .host => 4

/-- Programmed share of a class in percent (R35). -/
def classShare (s : State) : ReqClass → Nat
  | .link => s.rf 0 Reg.MEM_SHARE_LO 7 0
  | .array => s.rf 0 Reg.MEM_SHARE_LO 15 8
  | .media => s.rf 0 Reg.MEM_SHARE_LO 23 16
  | .ckpt => s.rf 0 Reg.MEM_SHARE_LO 31 24
  | .host => s.rf 0 Reg.MEM_SHARE_HI 7 0

/-- Counts of admissions before any. -/
def noCounts : List Nat := [0, 0, 0, 0, 0]

/-- Has a class had fewer admissions for its share than another, counting the next one (R34). [DEDUCED 20] -/
def sooner (s : State) (counts : List Nat) (k b : ReqClass) : Bool :=
  decide ((counts.getD (classIdx k) 0 + 1) * classShare s b < (counts.getD (classIdx b) 0 + 1) * classShare s k)

/-- The class admitted next among those with a waiting request: the one with the fewest admissions for its share in the current 64, so that
unused shares fall to the waiting classes in proportion to theirs; ties to the first of the table (R34). [DEDUCED 20] -/
def nextClass (s : State) (counts : List Nat) (waiting : List MemReq) : Option ReqClass :=
  let ks := [ReqClass.link, .array, .media, .ckpt, .host].filter (fun k => waiting.any (fun q => reqClass q.rid = k))
  ks.foldl (fun best k => match best with
    | none => some k
    | some b => if sooner s counts k b then some k else some b) none

/-- Count an admission; the counts begin again after 64 (R34). [DEDUCED 20] -/
def countAdmission (counts : List Nat) (k : ReqClass) : List Nat :=
  let n := modAt counts (classIdx k) (· + 1)
  if n.foldl (· + ·) 0 ≥ 64 then noCounts else n

/-- The class that is served next and the place in the list of its request that wins the pointer of the class (R34, R39). -/
def pickWaiting (counts : List Nat) (key : Nat → Nat) (waiting : List MemReq) (s : State) : Option (ReqClass × Nat × State) :=
  match nextClass s counts waiting with
  | none => none
  | some k =>
    match rrGrant (key (classIdx k)) ((waiting.filter (fun q => reqClass q.rid = k)).map (·.rid)) s with
    | none => none
    | some (w, s1) => (waiting.findIdx? (fun q => reqClass q.rid = k ∧ q.rid = w)).map (fun i => (k, i, s1))

/-- An idle pseudo-channel. -/
def PseudoChan.empty : PseudoChan := ⟨[], [], noCounts, false, 0⟩

/-- The pseudo-channel of a number. -/
def State.pc (s : State) (p : Nat) : PseudoChan := SMap.getD s.pcs p PseudoChan.empty

/-- Store a pseudo-channel; PC_QDEPTH shows the depth of its reorder queue. -/
def State.setPc (s : State) (p : Nat) (c : PseudoChan) : State :=
  { s with pcs := SMap.put s.pcs p c }.setRf p Reg.MEM_PC 15 8 c.queue.length

/-- An access that a unit makes in its own row is admitted at a pseudo-channel: it counts for the class of the unit (R34). -/
def admitUnit (rid p : Nat) (s : State) : State :=
  { s with pcs := SMap.put s.pcs p { s.pc p with counts := countAdmission (s.pc p).counts (reqClass rid) } }

end Sys2Proof.Machine
end

