-- ==== Sys2Proof/Machine/Pll.lean ====
section
/-! DEFINITION. Machine/Pll.lean: the PLLs on REFCLK_AO: starts, failures, and the records of requests that a clock start fails (R415, R418,
R419). -/

namespace Sys2Proof.Machine

/-- Ticks of the clock-start window: 20 µs (R419). -/
def clkWindow : Nat := 500

/-- Domain code of records and of CLK_LAST_TO_DOMAIN (R478). -/
def domCode : ClkDomain → Nat
  | .aclk => 1 | .mclk => 2 | .fclk => 3 | .phy => 4

/-- The PLL of a domain; PHY clocks count as running (R415). -/
def State.pll (s : State) : ClkDomain → Pll
  | .aclk => s.aclk | .mclk => s.mclk | .fclk => s.fclk | .phy => ⟨true, none, 0, false⟩

/-- CLK_STATUS shows whether the ACLK and MCLK PLLs are locked or failed. -/
def showPlls (s : State) : State :=
  let r := fun (t : State) (b : Nat) (v : Bool) => t.setRf 0 Reg.CLK_STATUS b b (b2n v)
  r (r (r (r s 0 s.aclk.on) 1 s.mclk.on) 2 s.aclk.failed) 3 s.mclk.failed

/-- Set the PLL of a domain. -/
def State.setPll (s : State) (d : ClkDomain) (p : Pll) : State :=
  showPlls (match d with
    | .aclk => { s with aclk := p }
    | .mclk => { s with mclk := p }
    | .fclk => { s with fclk := p }
    | .phy => s)

/-- Begin a PLL start, counted in CLK_PLL_STARTS for ACLK and MCLK; a start under way goes on (R418, R419). -/
def beginPll (d : ClkDomain) (s : State) : State :=
  let p := s.pll d
  if p.on ∨ p.starting.isSome then s
  else
    let s1 := s.setPll d { p with starting := some s.now }
    if d = .aclk ∨ d = .mclk then s1.count 0 Reg.CLK_PLL_STARTS 1 else s1

/-- A failed PLL start (R419): three in a row mark the PLL failed, with a record. -/
def pllStartFailed (d : ClkDomain) (s : State) : State :=
  let p := s.pll d
  let n := p.fails + 1
  let s1 := s.setPll d { p with starting := none, fails := n, failed := p.failed || decide (n ≥ 3) }
  if n = 3 then
    writeFault { cls := .pllFailed, status := .clkTimeout, disp := .reported,
                 body := leBytes 1 (domCode d) ++ leBytes 1 n } s1
  else s1

/-- Record of a request ended by R419: masked by replay for a REPLAYABLE item, else reported (R470). -/
def clkTimeoutRecord (d : ClkDomain) (fails rid item : Nat) (re : Bool) : FaultIn :=
  { cls := .clkTimeout, status := .clkTimeout, disp := if re then .masked else .reported, replay := re, req := rid,
    body := leBytes 1 (domCode d) ++ leBytes 1 fails ++ leBytes 14 0 ++ leBytes 8 item }

/-- A request ended at the end of its window: counted, recorded, and shown in CLK_LAST_TO; the FSEQ of the record (R419). -/
def noteTimeout (d : ClkDomain) (rid item : Nat) (re : Bool) (s : State) : Nat × State :=
  let (q, s1) := writeFaultId (clkTimeoutRecord d (s.pll d).fails rid item re) (s.count 0 Reg.CLK_TIMEOUTS 1)
  (q, (s1.setReg 0 Reg.CLK_LAST_TO_DOMAIN (BitVec.ofNat 32 (domCode d))).setReg64 0 Reg.CLK_LAST_TO_TICK_LO s1.tb.toNat)

/-- The clock of a domain is running after a start that a row of a unit waited for (R418). -/
def pllStarted (d : ClkDomain) (s : State) : State :=
  let s1 := beginPll d s
  s1.setPll d ⟨true, none, 0, (s1.pll d).failed⟩

/-- A start that a row of a unit waited for has failed; accesses that wait for the same clock have it started again (R419). -/
def pllNotStarted (d : ClkDomain) (s : State) : State :=
  let s1 := pllStartFailed d (beginPll d s)
  if s1.clkWait.any (·.1 = d) then beginPll d s1 else s1

end Sys2Proof.Machine
end

