-- ==== Sys2Proof/Machine/Memory.lean ====
section
/-! DEFINITION. Machine/Memory.lean: the address map (R27 to R29), interleave (R70, R85, R88), reads and writes with their codes
and frame classes (R73 to R78), the array SRAM redirection (R19, R521) and translation (R30 to R33, R92 to R94). -/

namespace Sys2Proof.Machine

/-- The regions of the physical address map (R27, R28). -/
inductive Region where
  | hbm
  | pool
  | sram (phys off : Nat)
  | regs
  | tier2
  | reserved
deriving DecidableEq, Repr

/-- First address of the Pool (R27). -/
def poolBase : Nat := 0x020000000000
/-- First address of the array SRAM windows (R27). -/
def sramBase : Nat := 0x021000000000
/-- First address of tier 2 (R27). -/
def t2Base : Nat := 0x040000000000
/-- End of HBM (R27). -/
def hbmEnd : Nat := 0x00C000000000

/-- The region of a physical address (R27, R28); the last 1 MiB of an SRAM window is reserved. -/
def regionOf (pa : Nat) : Region :=
  if pa < hbmEnd then .hbm
  else if poolBase ≤ pa ∧ pa < poolBase + 0x20000000 then .pool
  else if sramBase ≤ pa ∧ pa < sramBase + 100 * 0x2000000 then
    let o := (pa - sramBase) % 0x2000000
    if o < 0x1F00000 then .sram ((pa - sramBase) / 0x2000000) o else .reserved
  else if 0x03F000000000 ≤ pa ∧ pa < 0x03F004000000 then .regs
  else if t2Base ≤ pa ∧ pa < t2Base + 0x20000000000 then .tier2
  else .reserved

/-- First address of the window of a physical array (R27). -/
def windowOf (phys : Nat) : Nat := sramBase + phys * 0x2000000

/-- Power state of a physical array. -/
def State.pst (s : State) (phys : Nat) : PState := SMap.getD s.pstate phys .ret

/-- Follow the redirections of R19, a retired spare's own range included. -/
def followRedir (s : State) : Nat → Nat → Nat
  | 0, n => n
  | k + 1, n => match SMap.get? s.redir n with
    | some m => followRedir s k m
    | none => n

/-- The physical array that serves the window of array `n`; none where it is OFF and not redirected (R19, R521). -/
def servingArray (s : State) (n : Nat) : Option Nat :=
  let m := followRedir s 5 n
  if s.pst m = .off then none else some m

/-- Bytes of tier 2 in the configuration: 64 GiB a package (R2, R29). -/
def State.t2Bytes (s : State) : Nat := s.t2Count * 0x1000000000

/-- The address at which the bytes of an access live: SRAM windows after redirection; none in a reserved range, the part of tier 2 that the
configuration lacks included (R29, R31, R521). -/
def backing (s : State) (pa : Nat) : Option Nat :=
  match regionOf pa with
  | .hbm | .pool => some pa
  | .tier2 => if pa < t2Base + s.t2Bytes then some pa else none
  | .sram n o => (servingArray s n).map (fun m => windowOf m + o)
  | .regs | .reserved => none

/-- Pseudo-channel of an HBM address: hashed, or plain by ILV_ACTIVE (R70, R71). -/
def hbmPc (s : State) (pa : Nat) : Nat :=
  if s.rf 0 Reg.MEM_CTRL 1 1 = 1 then bits pa 20 11
  else bits pa 20 11 ^^^ bits pa 30 21 ^^^ bits pa 39 31

/-- Local address inside the pseudo-channel (R70). -/
def hbmLocal (pa : Nat) : Nat := bits pa 39 21 <<< 11 ||| bits pa 10 0

/-- Package of a tier-2 address, over 32 or 16 packages (R85). -/
def t2Pkg (s : State) (pa : Nat) : Nat :=
  if s.t2Count = 16 then bits (pa - t2Base) 14 11 ^^^ bits (pa - t2Base) 18 15
  else bits (pa - t2Base) 15 11 ^^^ bits (pa - t2Base) 20 16

/-- Local address of a tier-2 address in its package, over 32 or 16 packages (R85). -/
def t2Local (s : State) (pa : Nat) : Nat :=
  (if s.t2Count = 16 then bits (pa - t2Base) 39 15 else bits (pa - t2Base) 40 16) <<< 11 ||| bits (pa - t2Base) 10 0

/-- Bank of a Pool address (R88). -/
def poolBank (pa : Nat) : Nat := bits (pa - poolBase) 14 9 ^^^ bits (pa - poolBase) 20 15

/-- Row of a Pool address in its bank (R88). -/
def poolRow (pa : Nat) : Nat := bits (pa - poolBase) 28 15

/-- 2 MiB frame of an HBM address. -/
def frameOf (pa : Nat) : Nat := pa / 0x200000

/-- Is an HBM address in a class A frame (R73). -/
def isClassA (s : State) (pa : Nat) : Bool := s.classA.contains (frameOf pa)

/-- Bytes of the code word at an address (R73, R84, R88): 32 in class A, 64 in class W and tier 2, 8 in SRAM and Pool. -/
def codeBytes (s : State) (pa : Nat) : Nat :=
  match regionOf pa with
  | .hbm => if isClassA s pa then 32 else 64
  | .tier2 => 64
  | _ => 8

/-- Stored byte. [DEDUCED 9] -/
def State.byte (s : State) (pa : Nat) : Byte := SMap.getD s.mem pa 0

/-- The canonical form of memory: addresses strictly rising, and no byte listed that an unlisted address reads as. [DEDUCED 9] -/
def Memory.wf (m : SMap Byte) : Bool := SMap.canon 0 m

/-- Stored bytes. -/
def rawRead (s : State) (pa n : Nat) : List Byte := (List.range n).map (fun i => s.byte (pa + i))

/-- Bytes of a memory after storing a list from an address on. [DEDUCED 9] -/
def memWrite (m : SMap Byte) (pa : Nat) : List Byte → SMap Byte
  | [] => m
  | b :: r => memWrite (SMap.set 0 m pa b) (pa + 1) r

/-- Store bytes. -/
def rawWrite (s : State) (pa : Nat) (l : List Byte) : State := { s with mem := memWrite s.mem pa l }

/-- Zero a range. -/
def zeroRange (pa n : Nat) (s : State) : State :=
  { s with mem := s.mem.filter (fun e => e.1 < pa || pa + n ≤ e.1),
           bad := s.bad.filter (fun b => b < pa || pa + n ≤ b) }

/-- Entries of a table shifted from one range to another. -/
def shiftEntries {α : Type} (m : SMap α) (src dst n : Nat) : SMap α :=
  (m.filter (fun e => src ≤ e.1 && e.1 < src + n)).map (fun e => (e.1 - src + dst, e.2))

/-- Join sorted entries into a table from which their range has been removed. -/
def mergeEntries {α : Type} (m add : SMap α) : SMap α := add.foldl (fun a e => SMap.put a e.1 e.2) m

/-- Copy a range. -/
def copyRange (src dst n : Nat) (s : State) : State :=
  let add := shiftEntries s.mem src dst n
  let z := zeroRange dst n s
  { z with mem := mergeEntries z.mem add }

/-- Sideband scale of the class A word at an address (R73). [DEDUCED 9] -/
def State.scaleAt (s : State) (pa : Nat) : Nat := SMap.getD s.scales (pa / 32) 127

/-- Set the sideband scale of a word. -/
def State.setScale (s : State) (pa v : Nat) : State := { s with scales := SMap.set 127 s.scales (pa / 32) v }

/-- Who accesses: requester number, work item (0 none), whether that item may be replayed, the VA for records, and whether
that VA runs with the bytes of the access. -/
structure Ctx where
  rid    : Nat
  item   : Nat := 0
  replay : Bool := false
  va     : Nat := 0
  lin    : Bool := false
deriving DecidableEq, Repr

/-- The virtual address of the byte at an offset of an access, where the access has one. -/
def Ctx.byteAt (c : Ctx) (off : Nat) : Ctx := if c.lin then { c with va := c.va + off } else c

/-- A failure without an SRAM error. -/
def mkFail (st : Status) (root : Nat) : Fail := { st := st, root := root }

/-- Result of an access: data or failure, and the state after it. -/
abbrev MRes (α : Type) := Except Fail α × State

/-- Body of a memory-error record (R478). -/
def memBody (c : Ctx) (fcls symbols loc attempts : Nat) : List Byte :=
  leBytes 8 c.va ++ leBytes 1 fcls ++ leBytes 1 symbols ++ leBytes 2 loc ++ leBytes 4 attempts ++ leBytes 8 c.item

/-- Disposition of an SRAM error: masked by replay for a REPLAYABLE item, else reported (R470). -/
def sramDisp (c : Ctx) : Disp := if c.item ≠ 0 ∧ c.replay then .masked else .reported

/-- The record of an uncorrected read error at an address (R78, R84, R88, R470). -/
def errRecord (c : Ctx) (s : State) (pa : Nat) : FaultIn :=
  match regionOf pa with
  | .hbm =>
    let a := isClassA s pa
    { cls := .hbmUe, status := if a then .memDetected else .memUncorrectable, disp := .reported, req := c.rid,
      unit := hbmPc s pa, pa := pa, body := memBody c (b2n a) 0xFF (hbmPc s pa) 0 }
  | .tier2 => { cls := .t2Ue, status := .memUncorrectable, disp := .reported, req := c.rid, unit := t2Pkg s pa, pa := pa,
                body := memBody c 2 0xFF (t2Pkg s pa) 0 }
  | .pool => { cls := .poolUe, status := .memUncorrectable, disp := .reported, req := c.rid, unit := poolBank pa, pa := pa,
               body := memBody c 2 0xFF (poolBank pa) 0 }
  | .sram n _ => { cls := .sramUe, status := .memUncorrectable, disp := sramDisp c, replay := c.item ≠ 0 && c.replay,
                   req := c.rid, unit := (servingArray s n).getD n, pa := pa, body := memBody c 2 0xFF 0 0 }
  | _ => { cls := .internal, status := .internal, disp := .reported, req := c.rid, pa := pa }

/-- Count an uncorrected error in the register of its place (R78, R88). -/
def countUe (s : State) (pa : Nat) : State :=
  match regionOf pa with
  | .hbm => s.count (hbmPc s pa) Reg.MEM_PC_UE 1
  | .tier2 => s.count (t2Pkg s pa) Reg.T2_PKG_UE 1
  | .pool => s.count (poolBank pa) Reg.POOL_BANK_UE 1
  | _ => s

/-- Is the stack of a pseudo-channel fenced (R82). -/
def fenced (s : State) (pc : Nat) : Bool := bit (s.reg 0 Reg.MEM_FENCED_MAP).toNat (pc / 32)

/-- Is a pseudo-channel marked failed (R77). -/
def pcFailed (s : State) (pc : Nat) : Bool := s.rf pc Reg.MEM_PC 0 0 == 1

/-- Why an access to a pseudo-channel fails without a record: the record it follows from (R77, R82). -/
def pcDown (s : State) (pc : Nat) : Option Nat :=
  if fenced s pc then some (SMap.getD s.faults.stkRoot (pc / 32) 0xFFFFFFFF)
  else if pcFailed s pc then some (SMap.getD s.faults.pcRoot pc 0xFFFFFFFF)
  else none

/-- Tier 2 is short of packages: every access fails (R465). -/
def t2Short (s : State) : Bool := (List.range s.t2Count).any (fun p => s.rf p Reg.T2_PKG 1 0 != 1)

/-- Do the units outside the Peat domain have power: not in SAFE state (R464, R509). [DEDUCED 41] -/
def unitsOn (s : State) : Bool := s.up.powered && !s.up.safe

/-- The first 2 KiB granule addresses of a range. -/
def granules (pa n : Nat) : List Nat :=
  (List.range ((pa + n - 1) / 2048 + 1 - pa / 2048)).map (fun i => max pa ((pa / 2048 + i) * 2048))

/-- The first granule of a range whose memory refuses accesses: its address and the record it follows from. -/
def refusedAt (s : State) (pa n : Nat) : Option (Nat × Nat) :=
  match regionOf pa with
  | .hbm => (granules pa n).findSome? (fun g => (pcDown s (hbmPc s g)).map (fun r => (g, r)))
  | .tier2 => if t2Short s then some (pa, 0) else none
  | _ => none

/-- The first code word with an uncorrected error that a range touches. -/
def firstBad (s : State) (pa n : Nat) : Option Nat :=
  s.bad.find? (fun b => decide (b < pa + n) && decide (pa < b + codeBytes s b))

/-- The first addresses of the 32-byte words that a write from `pa` of `n` bytes covers whole. -/
def wholeWords (pa n : Nat) : List Nat :=
  (List.range ((pa + n) / 32 - (pa + 31) / 32)).map (fun i => ((pa + 31) / 32 + i) * 32)

/-- Tier-2 packages that a range touches. -/
def t2Pkgs (s : State) (pa n : Nat) : List Nat := (granules pa n).map (t2Pkg s)

/-- Note an access of the packages of a range (R86). -/
def noteT2 (pa n : Nat) (s : State) : State :=
  { s with t2Last := (t2Pkgs s pa n).foldl (fun m p => SMap.put m p s.now) s.t2Last }

/-- An array takes an access up and is in RUN; its idle time begins again (R18, R410, R411). [DEDUCED 122] -/
def arrayUp (phys : Nat) (s : State) : State :=
  { s with pstate := SMap.put s.pstate phys .run, pw := { s.pw with arrSince := SMap.put s.pw.arrSince phys s.now } }

/-- An access of a unit reaches the SRAM of a physical array: one that is not in RUN is woken first and the access waits for it, with ACLK
started where its PLL is off; a start that fails ends the access with CLK_TIMEOUT (R18, R22, R410, R419). [DEDUCED 164] -/
def reachArray (c : Ctx) (phys : Nat) (s : State) : MRes Unit :=
  if s.pst phys = .run ∨ s.aclk.on then (.ok (), arrayUp phys s)
  else if s.aclk.failed then (.error { st := .clkTimeout, va := c.va }, s.count 0 Reg.CLK_TIMEOUTS 1)
  else
    let (k, s1) := s.drawFree
    if Config.clockStarts k then (.ok (), arrayUp phys (pllStarted .aclk s1))
    else
      let (q, s2) := noteTimeout .aclk c.rid c.item c.replay (pllNotStarted .aclk s1)
      (.error { st := .clkTimeout, root := q, va := c.va }, s2)

/-- An access that a unit makes in its own row reaches its memory (R22, R34, R86, R87): it counts for the class of the unit at each
pseudo-channel or package, takes a tier-2 package out of self-refresh, and wakes an array. [DEDUCED 164] -/
def unitReach (c : Ctx) (pa n : Nat) (s : State) : MRes Unit :=
  match backing s pa with
  | none => (.ok (), s)
  | some b =>
    if (refusedAt s b n).isSome then (.ok (), s)
    else
      match regionOf b with
      | .hbm => (.ok (), (granules b n).foldl (fun t g => admitUnit c.rid (hbmPc t g) t) s)
      | .tier2 => (.ok (), noteT2 b n { s with
          selfRef := s.selfRef.filter (fun p => !(t2Pkgs s b n).contains p)
          t2Counts := (t2Pkgs s b n).foldl (fun m p => SMap.put m p (countAdmission (SMap.getD m p noCounts) (reqClass c.rid))) s.t2Counts })
      | .sram m _ => reachArray c m s
      | _ => (.ok (), s)

/-- Read physical memory: data, or the failure of R77, R78, R82 with its count and record. -/
def servedRead (c : Ctx) (pa n : Nat) (s : State) : MRes (List Byte) :=
  match backing s pa with
  | none => (.error { mkFail .translationFault 0 with va := c.va }, s)
  | some b =>
    match refusedAt s b n with
    | some (g, root) => (.error { mkFail .memUncorrectable root with va := (c.byteAt (g - b)).va }, countUe s g)
    | none =>
      match firstBad s b n with
      | some w =>
        let c1 := c.byteAt (w - b)
        let r := errRecord c1 s w
        let (q, s1) := writeFaultId r (countUe s w)
        (.error ⟨r.status, q, r.cls == .sramUe, c1.va⟩, s1)
      | none => (.ok (rawRead s b n), s)

/-- A read that a unit makes in its own row. [DEDUCED 34] -/
def physRead (c : Ctx) (pa n : Nat) (s : State) : MRes (List Byte) :=
  match unitReach c pa n s with
  | (.error f, s1) => (.error f, s1)
  | (.ok _, s1) => servedRead c pa n s1

/-- Address and size of the code words that a write touches only in part and whose old contents have an error (R76). [DEDUCED 35] -/
def partBad (s : State) (pa n : Nat) : Option Nat :=
  s.bad.find? (fun b => decide (b < pa + n) && decide (pa < b + codeBytes s b) &&
    !(decide (pa ≤ b) && decide (b + codeBytes s b ≤ pa + n)))

/-- Code words that a write replaces whole keep no error (R78). -/
def healWhole (pa n : Nat) (s : State) : State :=
  { s with bad := s.bad.filter (fun b => !(decide (pa ≤ b) && decide (b + codeBytes s b ≤ pa + n))) }

/-- Scales of the 32-byte words of class A frames that a write covers whole: the given ones, else 127 (R76). -/
def writeScales (pa n : Nat) (scales : Option Nat) (s : State) : State :=
  ((wholeWords pa n).filter (isClassA s)).foldl (fun t w => t.setScale w (scales.getD 127)) s

/-- The bytes of a write that land when one code word keeps its old contents (R76). -/
def landing (bad size pa : Nat) (l : List Byte) (s : State) : State :=
  (List.range l.length).foldl (fun t i =>
    if bad ≤ pa + i ∧ pa + i < bad + size then t else rawWrite t (pa + i) (slice l i 1)) s

/-- Free values in the runs of an undefined result (R362). [DESIGN CHOICE 40] -/
def freeRuns (l : List (Nat × Nat)) (s : State) : State :=
  l.foldl (fun u r => (List.range (ceilDiv r.2 8)).foldl (fun v i =>
    let (k, w) := v.drawFree
    rawWrite w (r.1 + 8 * i) (leBytes (min 8 (r.2 - 8 * i)) (Config.freeWord k).toNat)) u) s

/-- The elements of a run that a write from pa of n bytes meets. -/
def metElems (pa n : Nat) (r : Nat × Nat × Nat) : Option (Nat × Nat) :=
  let lo := max pa r.1
  let hi := min (pa + n) (r.1 + r.2.1)
  if hi ≤ lo then none
  else
    let first := r.1 + (lo - r.1) / r.2.2 * r.2.2
    some (first, ceilDiv (hi - first) r.2.2 * r.2.2)

/-- A write of a kernel program to a buffer that a running plan reduces into leaves the elements it meets undefined (R362). [DESIGN CHOICE 40] -/
def spoilReduced (c : Ctx) (pa n : Nat) (s : State) : State :=
  if s.plans = [] ∨ c.rid < 0x1000 ∨ 0x2800 ≤ c.rid then s
  else
    s.plans.foldl (fun u e =>
      let l := e.2.red.filterMap (metElems pa n)
      if l = [] then u else freeRuns l { u with plans := SMap.put u.plans e.1 { e.2 with hit := e.2.hit ++ l } }) s

/-- Do the bytes of a semaphore overlap a range. -/
def semMeets (q : PoolReq) (pa n : Nat) : Bool := decide (q.pa < pa + n) && decide (pa < q.pa + 4)

/-- The banks of the Pool that a range touches: a 512-byte line lies whole in one bank (R88). -/
def banksOf (pa n : Nat) : List Nat :=
  (List.range ((pa + n - 1) / 512 + 1 - pa / 512)).map (fun i => poolBank ((pa / 512 + i) * 512))

/-- A write to the Pool makes every parked sem.p that waits for a byte it writes ask its bank again (R174). -/
def unparkRange (pa n : Nat) (s : State) : State :=
  if regionOf pa ≠ .pool then s
  else
    { s with pool := (banksOf pa n).foldl (fun m b =>
        match SMap.get? m b with
        | none => m
        | some l => SMap.put m b (l.map (fun q => if q.parked ∧ semMeets q pa n then { q with parked := false } else q))) s.pool }

/-- Write physical memory with an optional sideband scale for the words it covers whole (R76, R77, R82). -/
def servedWrite (c : Ctx) (pa : Nat) (l : List Byte) (scale : Option Nat) (s : State) : MRes Unit :=
  if l = [] then (.ok (), s)
  else
    match backing s pa with
    | none => (.error { mkFail .translationFault 0 with va := c.va }, s)
    | some b =>
      match refusedAt s b l.length with
      | some (g, root) => (.error { mkFail .memUncorrectable root with va := (c.byteAt (g - b)).va }, countUe s g)
      | none =>
        let scaled := fun t =>
          spoilReduced c b l.length (unparkRange b l.length (if regionOf b = .hbm then writeScales b l.length scale t else t))
        match partBad s b l.length with
        | some w =>
          let c1 := c.byteAt (w - b)
          let r := errRecord c1 s w
          let (q, s1) := writeFaultId r (countUe s w)
          (.error ⟨r.status, q, r.cls == .sramUe, c1.va⟩, scaled (landing w (codeBytes s w) b l s1))
        | none => (.ok (), scaled (rawWrite (healWhole b l.length s) b l))

/-- A write that a unit makes in its own row. [DEDUCED 34, 35] -/
def physWrite (c : Ctx) (pa : Nat) (l : List Byte) (scale : Option Nat) (s : State) : MRes Unit :=
  if l = [] then (.ok (), s)
  else
    match unitReach c pa l.length s with
    | (.error f, s1) => (.error f, s1)
    | (.ok _, s1) => servedWrite c pa l scale s1

/-- The record of an access failure of a unit whose chapter names no class of its own (R30, R471). [DEDUCED 41] -/
def unitFault (rid va : Nat) (f : Fail) (s : State) : State :=
  if f.st = .translationFault ∨ f.st = .protectionFault ∨ f.st = .descriptorInvalid ∨ f.st = .alignment then
    writeFault { cls := .internal, status := f.st, disp := .reported, req := rid, root := f.root,
                 body := leBytes 8 va } s
  else s

/-- Requester number of the host interface (R37). -/
def hostRid : Nat := 0x00A0

/-- A window read that met an uncorrected error: Completer Abort and a HOST record (R433, R470). [DEDUCED 103] -/
def windowFail (pa : Nat) (f : Fail) (s : State) : State :=
  writeFault { cls := .host, status := f.st, disp := .reported, req := hostRid, root := f.root, pa := pa }
    (s.emit (.bar2Data none))

/-- Answer a memory request: through the device window for the host (R433), else with status and data. [DEDUCED 41] -/
def memAnswer (q : MemReq) (f : Fail) (d : List Byte) (s : State) : State :=
  if q.rid = hostRid then
    if q.wdata.isSome then s
    else if f.st.completes then s.emit (.bar2Data (some d)) else windowFail q.pa f s
  else s.emit (.memReply q.rid f.st d)

/-- A request to a range that nothing backs: the window reads zero and ignores writes (R32), others get TRANSLATION_FAULT with a fault
record (R30, R31, R521). -/
def unbacked (q : MemReq) (s : State) : State :=
  if q.rid = hostRid then memAnswer q { st := .ok } (List.replicate q.len 0) s
  else (unitFault q.rid 0 (mkFail .translationFault 0) s).emit (.memReply q.rid .translationFault [])

/-- A table entry of R93. -/
structure Pte where
  v    : Bool
  leaf : Bool
  r    : Bool
  w    : Bool
  x    : Bool
  addr : Nat
deriving DecidableEq, Repr

/-- Decode a table entry (R93). -/
def Pte.ofNat (n : Nat) : Pte := ⟨bit n 0, bit n 1, bit n 2, bit n 3, bit n 4, bits n 47 12 * 4096⟩

/-- Index and page size of a table level (R92). -/
def levelIndex (lvl va : Nat) : Nat := if lvl = 1 then bits va 47 30 else if lvl = 2 then bits va 29 21 else bits va 20 16
/-- Page size of a leaf at a level (R92). -/
def levelPage (lvl : Nat) : Nat := if lvl = 1 then 0x40000000 else if lvl = 2 then 0x200000 else 0x10000

/-- One walk read: in class W HBM, else TRANSLATION_FAULT; an uncorrectable error gives MEM_UNCORRECTABLE (R92). -/
def walkRead (c : Ctx) (pa : Nat) (s : State) : MRes Nat :=
  if regionOf pa ≠ .hbm ∨ isClassA s pa then (.error (mkFail .translationFault 0), s)
  else
    match physRead c pa 8 s with
    | (.ok d, s1) => (.ok (leNat d), s1)
    | (.error f, s1) => (.error { f with st := .memUncorrectable }, s1)

/-- The walk of R92 and R93 from a level on: `k` levels are left. -/
def walkFrom (c : Ctx) (va : Nat) : Nat → Nat → State → MRes TlbEntry
  | 0, _, s => (.error (mkFail .translationFault 0), s)
  | k + 1, tab, s =>
    let lvl := 3 - k
    match walkRead c (tab + 8 * levelIndex lvl va) s with
    | (.error f, s1) => (.error f, s1)
    | (.ok e, s1) =>
      let p := Pte.ofNat e
      if !p.v then (.error (mkFail .translationFault 0), s1)
      else if p.leaf then
        if p.addr % levelPage lvl ≠ 0 then (.error (mkFail .translationFault 0), s1)
        else (.ok ⟨va / levelPage lvl * levelPage lvl, levelPage lvl, p.addr, p.r, p.w, p.x⟩, s1)
      else walkFrom c va k p.addr s1

/-- The walk from MMU_ROOT (R92). -/
def walkTables (c : Ctx) (va : Nat) (s : State) : MRes TlbEntry :=
  walkFrom c va 3 (s.reg64 0 Reg.MMU_ROOT_LO % 2 ^ 48) s

/-- The cached translation of an address. -/
def tlbFind (s : State) (va : Nat) : Option TlbEntry :=
  s.tlb.find? (fun e => decide (e.va ≤ va) && decide (va < e.va + e.size))

/-- Cache a translation. [DESIGN CHOICE 14] -/
def tlbInsert (e : TlbEntry) (s : State) : State :=
  { s with tlb := e :: s.tlb.filter (fun x => x.va ≠ e.va || x.size ≠ e.size) }

/-- Count a translation or protection fault. -/
def mmuFault (st : Status) (s : State) : MRes α := (.error (mkFail st 0), s.count 0 Reg.MMU_FAULT_COUNT 1)

/-- The translation an access uses: a walk on a miss; on a hit the cached entry or the table's, freely (R33). [DESIGN CHOICE 13] -/
def lookup (c : Ctx) (va : Nat) (s : State) : MRes TlbEntry :=
  match tlbFind s va with
  | none =>
    match walkTables c va s with
    | (.ok e, s1) => (.ok e, tlbInsert e s1)
    | r => r
  | some e =>
    let (k, s1) := s.drawFree
    if Config.useCached k then (.ok e, s1)
    else
      match walkTables c va s1 with
      | (.ok n, s2) => (.ok n, tlbInsert n s2)
      | r => r

/-- Does an entry permit an access (R30). -/
def TlbEntry.permits (e : TlbEntry) : Perm → Bool
  | .r => e.r | .w => e.w | .x => e.x | .rw => e.r && e.w

/-- Translate an address for an access: MMU_CTRL.EN (R94), the walk, register and reserved ranges (R31), permissions (R93). -/
def translate (c : Ctx) (va : Nat) (need : Perm) (s : State) : MRes Nat :=
  if s.rf 0 Reg.MMU_CTRL 0 0 = 0 ∨ va ≥ 2 ^ 48 then mmuFault .translationFault s
  else
    match lookup c va s with
    | (.error f, s1) => (.error f, if f.st = .translationFault then s1.count 0 Reg.MMU_FAULT_COUNT 1 else s1)
    | (.ok e, s1) =>
      let pa := e.pa + (va - e.va)
      if regionOf pa = .regs then mmuFault .protectionFault s1
      else if (backing s1 pa).isNone then mmuFault .translationFault s1
      else if !e.permits need then mmuFault .protectionFault s1
      else (.ok pa, s1)

/-- Bytes of the first chunk of an access that stays inside one 64 KiB page. -/
def chunkLen (va n : Nat) : Nat := min n (0x10000 - va % 0x10000)

/-- Read through translation, page by page: `k` bounds the pages. -/
def vReadAux (c : Ctx) (need : Perm) : Nat → Nat → Nat → State → MRes (List Byte)
  | 0, _, _, s => (.ok [], s)
  | k + 1, va, n, s =>
    if n = 0 then (.ok [], s)
    else
      let m := chunkLen va n
      match translate { c with va := va } va need s with
      | (.error f, s1) => (.error { f with va := va }, s1)
      | (.ok pa, s1) =>
        match physRead { c with va := va, lin := true } pa m s1 with
        | (.error f, s2) => (.error f, s2)
        | (.ok d, s2) =>
          match vReadAux c need k (va + m) (n - m) s2 with
          | (.ok r, s3) => (.ok (d ++ r), s3)
          | (.error f, s3) => (.error f, s3)

/-- Read `n` bytes at a virtual address (R30). -/
def vRead (c : Ctx) (need : Perm) (va n : Nat) (s : State) : MRes (List Byte) :=
  vReadAux c need (n / 0x10000 + 2) va n s

/-- Write through translation, page by page. -/
def vWriteAux (c : Ctx) (scale : Option Nat) : Nat → Nat → List Byte → State → MRes Unit
  | 0, _, _, s => (.ok (), s)
  | k + 1, va, l, s =>
    if l = [] then (.ok (), s)
    else
      let m := chunkLen va l.length
      match translate { c with va := va } va .w s with
      | (.error f, s1) => (.error { f with va := va }, s1)
      | (.ok pa, s1) =>
        match physWrite { c with va := va, lin := true } pa (l.take m) scale s1 with
        | (.error f, s2) => (.error f, s2)
        | (.ok _, s2) => vWriteAux c scale k (va + m) (l.drop m) s2

/-- Write bytes at a virtual address (R30). -/
def vWrite (c : Ctx) (va : Nat) (l : List Byte) (scale : Option Nat) (s : State) : MRes Unit :=
  vWriteAux c scale (l.length / 0x10000 + 2) va l s

end Sys2Proof.Machine
end

