-- ==== Sys2Proof/Machine/Operands.lean ====
section
/-! DEFINITION. Machine/Operands.lean: the fields of an instruction word (R156), the encodings that are illegal (R160) in every
class, and the operand forms of the instruction classes. -/

namespace Sys2Proof.Machine

/-- CLASS (R156). -/
def iCls (w : Nat) : Nat := bits w 7 4
/-- FUNC (R156). -/
def iFunc (w : Nat) : Nat := bits w 3 0
/-- PG, the guard predicate (R156). -/
def iPg (w : Nat) : Nat := bits w 10 8
/-- PN, 1 negates the guard (R156). -/
def iPn (w : Nat) : Bool := bit w 11
/-- L, the long form (R156). -/
def iLong (w : Nat) : Bool := bit w 12
/-- RD (R156). -/
def iRd (w : Nat) : Nat := bits w 18 14
/-- RA (R156). -/
def iRa (w : Nat) : Nat := bits w 23 19
/-- RB (R156). -/
def iRb (w : Nat) : Nat := bits w 28 24
/-- IMM as 32 bits (R156). -/
def iImm (w : Nat) : Nat := bits w 63 32
/-- IMM sign-extended to 64 bits (R156). -/
def iImmS (w : Nat) : W64 := (BitVec.ofNat 32 (iImm w)).signExtend 64

/-- Words an instruction occupies (R156). -/
def iLen (w : Nat) : Nat := if iLong w then 2 else 1

/-- FUNC codes of a class that are not reserved (R161 to R177, R206, R226, R231, R232, R240, R314, R387). -/
def funcOk (cls f : Nat) : Bool :=
  match cls with
  | 0x0 | 0x1 => decide (f ≤ 0xE)
  | 0x2 => decide (f ≤ 0x5) || (decide (0x8 ≤ f) && decide (f ≤ 0xE))
  | 0x3 => decide (f ≤ 0x4)
  | 0x4 => f != 0x7
  | 0x5 => decide (f ≤ 0xC)
  | 0x6 => decide (f ≤ 0x6)
  | 0x7 => decide (f ≤ 0x3)
  | 0x8 => decide (f ≤ 0x4)
  | 0x9 => decide (f ≤ 0x2)
  | 0xA => decide (f ≤ 0x1)
  | 0xB => decide (f ≤ 0x5)
  | 0xC => decide (f ≤ 0x7)
  | 0xD | 0xE => decide (f ≤ 0x2)
  | _ => false

/-- SUB of a vec instruction (R232). -/
def vSub (w : Nat) : Nat := bits (iImm w) 15 8

/-- Operation codes in IMM that their chapter declares illegal: red kinds (R168) and vec SUB and AF codes (R232). -/
def subOk (w : Nat) : Bool :=
  match iCls w, iFunc w with
  | 0x5, 0xC => decide (iImm w % 16 ≤ 9)
  | 0xB, 0x0 => decide (vSub w ≤ 0x0F)
  | 0xB, 0x1 => decide (vSub w ≤ 0x02)
  | 0xB, 0x2 | 0xB, 0x3 | 0xB, 0x4 => decide (vSub w ≤ 8)
  | 0xB, 0x5 => decide (vSub w ≤ 4)
  | _, _ => true

/-- Does a class and function permit the long form (R158, R206, R226, R231, R232, R240, R314). -/
def longOk (cls f : Nat) : Bool :=
  match cls with
  | 0x1 => true
  | 0x8 => decide (f ≤ 0x2)
  | 0x9 => f == 0x1
  | 0xA => f == 0x1
  | 0xB => true
  | 0xC => decide (f ≤ 0x3)
  | 0xE => f == 0x0
  | _ => false

/-- Does a vec operation use source b (R232). -/
def vUsesB (f sub : Nat) : Bool :=
  if f = 0 then (decide (1 ≤ sub) && decide (sub ≤ 6)) || sub == 0xA || decide (0xD ≤ sub)
  else f == 3 || f == 4

/-- Does a vec operation use source c (R232). -/
def vUsesC (f sub : Nat) : Bool := f == 0 && (sub == 4 || sub == 0xA)

/-- Reserved fields and unused register bits of the scalar classes (R160 to R174): true when all of them are zero. -/
def scalarFieldsOk (w : Nat) : Bool :=
  let imm := iImm w
  match iCls w, iFunc w with
  | 0x0, _ => imm == 0
  | 0x1, _ => iRb w == 0 && (!iLong w || imm == 0)
  | 0x2, 0xE => decide (iRd w < 8) && decide (iRa w < 8) && decide (iRb w < 8) && decide (imm < 16)
  | 0x2, _ => decide (iRd w < 8)
  | 0x4, f => if f ≥ 0xC then decide (iRd w < 16) else true
  | 0x6, 0x1 => decide (iRd w < 8)
  | _, _ => true

/-- Reserved fields of the dma instructions (R205, R206). -/
def dmaFieldsOk (w : Nat) : Bool :=
  let imm := iImm w
  let f := iFunc w
  decide (iRa w < 16) && (f == 4 || decide (iRb w < 16)) && bits imm 3 2 == 0 && bits imm 31 8 == 0 &&
    (f == 1 || f == 2 || bits imm 7 4 == 0) && (f != 3 || iRa w == 0)

/-- Reserved fields of the mxm and mv instructions (R222, R226, R231). -/
def gridFieldsOk (w ext : Nat) : Bool :=
  let imm := iImm w
  let f := iFunc w
  match iCls w, f with
  | 0x9, 0x0 => decide (iRa w < 16) && iRb w == 0 && bits imm 7 5 == 0 && bits imm 31 10 == 0
  | 0x9, 0x1 => decide (iRa w < 16) && decide (iRb w < 16) && bits imm 7 7 == 0 && bits imm 31 24 == 0 &&
      (!iLong w || bits ext 63 32 == 0)
  | 0x9, _ => iRa w == 0 && iRb w == 0 && bits imm 31 2 == 0
  | _, 0x0 => decide (iRa w < 16) && iRb w == 0 && bits imm 7 0 == 0 && bits imm 31 9 == 0
  | _, _ => decide (iRa w < 16) && decide (iRb w < 16) && bits imm 4 0 == 0 && bits imm 7 7 == 0 && bits imm 31 24 == 0 &&
      (!iLong w || bits ext 63 32 == 0)

/-- Reserved and unused fields of the vec instructions (R222, R232). -/
def vecFieldsOk (w : Nat) : Bool :=
  decide (iRa w < 16) && decide (iRb w < 16) && bits (iImm w) 31 17 == 0 &&
    (vUsesB (iFunc w) (vSub w) || iRb w == 0) && (vUsesC (iFunc w) (vSub w) || bits (iImm w) 7 4 == 0)

/-- Reserved and unused fields of the row instructions (R222, R240). -/
def rowFieldsOk (w ext : Nat) : Bool :=
  let imm := iImm w
  let f := iFunc w
  match f with
  | 0x0 | 0x1 | 0x2 | 0x3 =>
    decide (iRa w < 16) && decide (iRb w < 16) && bits imm 31 18 == 0 && (bit imm 8 || bits imm 7 4 == 0) &&
      (f == 1 || f == 3 || bits imm 3 0 == 0) && (f != 2 || !bit imm 9) &&
      (!iLong w || (bits ext 63 56 == 0 && (f == 0 || bits ext 31 0 == 0)))
  | 0x4 => decide (iRa w < 16) && decide (iRb w < 16) && bits imm 7 4 == 0 && bits imm 31 17 == 0
  | 0x5 => iRb w == 0 && bits imm 31 8 == 0
  | 0x6 => iRa w == 0 && iRb w == 0 && imm == 0
  | _ => imm == 0

/-- Reserved fields of the coll and med instructions (R314, R387). -/
def collFieldsOk (w ext : Nat) : Bool :=
  let imm := iImm w
  match iCls w, iFunc w with
  | 0xD, f => imm == 0 && (f != 0 || iRb w == 0)
  | _, 0x0 => decide (iRa w < 16) && iRb w == 0 && bits imm 31 10 == 0 && (!iLong w || bits ext 63 32 == 0)
  | _, 0x1 => iRb w == 0 && imm == 0
  | _, _ => iRb w == 0 && bits imm 31 10 == 0

/-- Reserved fields and unused register bits of any class: true when all of them are zero (R160). -/
def fieldsOk (w ext : Nat) : Bool :=
  bits w 13 13 == 0 && bits w 31 29 == 0 &&
    (match iCls w with
      | 0x8 => dmaFieldsOk w
      | 0x9 | 0xA => gridFieldsOk w ext
      | 0xB => vecFieldsOk w
      | 0xC => rowFieldsOk w ext
      | 0xD | 0xE => collFieldsOk w ext
      | _ => scalarFieldsOk w)

/-- The CAUSE of an illegal encoding (R160, R182), none for a legal one. Where several apply, the first of: reserved operation,
long form not permitted, reserved bits, reserved selector. [DEDUCED 49] -/
def illegalCause (w ext : Nat) : Option Nat :=
  if !funcOk (iCls w) (iFunc w) || !subOk w then some 0x01
  else if iLong w && !longOk (iCls w) (iFunc w) then some 0x03
  else if !fieldsOk w ext then some 0x02
  else if iCls w = 0x7 ∧ iFunc w = 0x1 ∧ iImm w % 256 > 0x0E then some 0x05
  else none

/-- A dma ORG value (R205). -/
def dmaOrg (ext d : Nat) : Int := toSigned 16 (bits ext (16 * d + 15) (16 * d))

end Sys2Proof.Machine
end

