-- ==== Sys2Proof/Machine/Threads.lean ====
section
/-! DEFINITION. Machine/Threads.lean: what every thread instruction shares: threads and their registers (R150 to R154), fetch and
guard (R156 to R160, R175, R176), tokens (R169 to R172), halts and their records (R177 to R182). -/

namespace Sys2Proof.Machine

/-- Requester number of a thread (R150). [DESIGN CHOICE 3] -/
def thrReq (a t : Nat) : Nat := 0x1000 + 64 * a + t

/-- A thread. -/
def State.th (s : State) (a t : Nat) : Thread := SMap.getD s.thr (64 * a + t) Thread.free

/-- Store a thread. -/
def State.setTh (s : State) (a t : Nat) (x : Thread) : State :=
  { s with thr := SMap.set Thread.free s.thr (64 * a + t) x }

/-- The physical array that carries a logical number, none when it is retired (R17). -/
def physOf (s : State) (a : Nat) : Option Nat :=
  if s.lretired.contains a then none else some (SMap.getD s.lmap a a)

/-- The grid of a logical array. -/
def State.gr (s : State) (a : Nat) : Grid := SMap.getD s.grid a Grid.empty

/-- Store the grid of a logical array. -/
def State.setGr (s : State) (a : Nat) (g : Grid) : State := { s with grid := SMap.set Grid.empty s.grid a g }

/-- A scalar register; s0 reads 0 (R154). -/
def Thread.sreg (x : Thread) (r : Nat) : W64 := if r = 0 then 0 else SMap.getD x.s r 0

/-- Write a scalar register; a write to s0 is discarded (R154). -/
def Thread.setS (x : Thread) (r : Nat) (v : W64) : Thread :=
  if r = 0 then x else { x with s := SMap.set 0 x.s r v }

/-- A descriptor register. -/
def Thread.dreg (x : Thread) (r : Nat) : BitVec 512 := SMap.getD x.d r 0

/-- Write a descriptor register. -/
def Thread.setD (x : Thread) (r : Nat) (v : BitVec 512) : Thread := { x with d := SMap.set 0 x.d r v }

/-- Operations of a thread whose token has not completed (R155). -/
def Thread.pending (x : Thread) : Nat := (x.toks.filter (fun k => k.fin.isNone)).length

/-- A taken work item. -/
def State.item? (s : State) (id : Nat) : Option Item := s.items.find? (fun i => i.id == id)

/-- Update a taken work item. -/
def State.modItem (s : State) (id : Nat) (f : Item → Item) : State :=
  { s with items := s.items.map (fun i => if i.id = id then f i else i) }

/-- Is the REPLAYABLE flag of an entry set (R390). -/
def Item.replayable (i : Item) : Bool := bit (leAt i.raw 98 1) 0

/-- May the running attempt of an item be replayed (R472, R473). -/
def mayReplay (s : State) (id : Nat) : Bool :=
  match s.item? id with
  | some i => i.replayable && decide (i.replays < s.rf 0 Reg.FLT_CTRL 2 0)
  | none => false

/-- Is a failure one of the reasons of R472. -/
def Fail.replayReason (f : Fail) : Bool := f.sram || f.st == .clkTimeout || f.st == .internal

/-- Who accesses: a thread or a unit that it started (R38). -/
def thrCtx (s : State) (a t : Nat) : Ctx :=
  { rid := thrReq a t, item := (s.th a t).item, replay := mayReplay s (s.th a t).item }

/-- The item takes its first failure (R15, R172). -/
def itemFail (id : Nat) (f : Fail) (s : State) : State :=
  s.modItem id (fun i => if i.fail.st.completes then { i with fail := f, reason := f.replayReason } else i)

/-- Partitions owned by a thread become unowned (R115). -/
def releaseParts (a t : Nat) (s : State) : State :=
  s.setGr a { s.gr a with own := (s.gr a).own.filter (fun e => e.2 ≠ t) }

/-- A halted thread's waiting sem.p is withdrawn (R174). -/
def withdrawSem (rid : Nat) (s : State) : State :=
  { s with pool := s.pool.map (fun e => (e.1, e.2.filter (fun q => !(q.rid = rid && q.op = PoolOp.semP)))) }

/-- The result of a halted thread's atomic or semaphore operation reaches nobody (R177). -/
def dropResult (rid : Nat) (s : State) : State := { s with poolDone := SMap.del s.poolDone rid }

/-- A thread without outstanding work is DONE, else it drains (R151). -/
def drainState (x : Thread) : TSt := if x.pending = 0 then .done else .drain

/-- A thread stops issuing: DRAIN, its partitions released and its sem.p withdrawn (R115, R151, R174, R177). -/
def toDrain (a t : Nat) (s : State) : State :=
  let x := s.th a t
  dropResult (thrReq a t) (withdrawSem (thrReq a t) (releaseParts a t (s.setTh a t { x with st := drainState x, wait := .none })))

/-- What a thread's fault record tells beyond the thread itself (R182). -/
structure Halt where
  fail    : Fail
  cause   : Nat := 0
  pcCause : Option Nat := none
  seq     : Nat := 0
  unit    : Nat := 0xFF
  trap    : Nat := 0
deriving DecidableEq, Repr

/-- Bytes 32 to 63 of a thread record (R182). -/
def haltBody (x : Thread) (h : Halt) : List Byte :=
  leBytes 4 x.pc ++ leBytes 4 (h.pcCause.getD x.pc) ++ leBytes 8 (h.fail.va % 2 ^ 48) ++ leBytes 4 h.seq ++
  leBytes 1 h.unit ++ leBytes 1 h.cause ++ leBytes 2 h.trap ++ leBytes 8 x.item

/-- The thread record (R182, R470): it names in ROOT the record the failure follows from (R471). [DEDUCED 21, 22] -/
def haltRecord (a t : Nat) (h : Halt) (s : State) : FaultIn :=
  { cls := .thread, status := h.fail.st, disp := .reported,
    replay := h.fail.replayReason && mayReplay s (s.th a t).item, req := thrReq a t,
    unit := (physOf s a).getD 0xFFFF, root := h.fail.root, body := haltBody (s.th a t) h }

/-- The first fault of an item's thread starts the halt of its others (R179). [DEDUCED 21] -/
def noteHalt (id : Nat) (s : State) : State :=
  s.modItem id (fun i => if i.haltAt.isNone then { i with haltAt := some s.now } else i)

/-- A fault halts a thread: one record, DRAIN, failure of the item (R178, R179). A thread already halted by a fault, and one
that is FREE or DONE, is left alone. -/
def haltThread (a t : Nat) (h : Halt) (s : State) : State :=
  let x := s.th a t
  if x.faulted ∨ x.st = .free ∨ x.st = .done then s
  else
    let (q, s1) := writeFaultId (haltRecord a t h s) s
    let f : Fail := { h.fail with root := if h.fail.root = 0 then q else h.fail.root }
    let s2 := noteHalt x.item (itemFail x.item f (s1.setTh a t { x with faulted := true }))
    toDrain a t s2

/-- A halt for a program fault with its CAUSE (R178, R182). -/
def progFault (a t cause : Nat) (s : State) : State := haltThread a t { fail := { st := .programFault }, cause := cause } s

/-- Words of the program store (R163). -/
def psWords : Nat := 131072

/-- Go on at a word address; one outside the store halts the thread (R163). -/
def goTo (a t : Nat) (pc : Int) (s : State) : State :=
  if 0 ≤ pc ∧ pc < psWords then s.setTh a t { s.th a t with pc := pc.toNat } else progFault a t 0x04 s

/-- Go on at the next instruction (R157, R163). -/
def advance (a t w : Nat) (s : State) : State := goTo a t (((s.th a t).pc + iLen w : Nat) : Int) s

/-- Physical address of a program-store word (R28, R175). -/
def psAddr (phys pc : Nat) : Nat := windowOf phys + 0x1E00000 + 8 * pc

/-- Read one program-store word of a logical array (R175, R176). -/
def psRead (c : Ctx) (a pc : Nat) (s : State) : MRes Nat :=
  match physOf s a with
  | none => (.error (mkFail .internal 0), s)
  | some p =>
    match servedRead c (psAddr p pc) 8 s with
    | (.ok d, s1) => (.ok (leNat d), s1)
    | (.error f, s1) => (.error { f with st := .memUncorrectable }, s1)

/-- The base word and the extension at a thread's PC; the extension reads zero where none is permitted or stored. [DESIGN CHOICE 1] -/
def fetchIns (a t : Nat) (s : State) : MRes (Nat × Nat) :=
  let pc := (s.th a t).pc
  match psRead (thrCtx s a t) a pc s with
  | (.error f, s1) => (.error f, s1)
  | (.ok w, s1) =>
    if iLong w && longOk (iCls w) (iFunc w) && decide (pc + 1 < psWords) then
      match psRead (thrCtx s a t) a (pc + 1) s1 with
      | (.ok e, s2) => (.ok (w, e), s2)
      | (.error f, s2) => (.error f, s2)
    else (.ok (w, 0), s1)

/-- One issue of an instruction of a class and function: nothing happens unless the thread is READY and the fetched word is
that instruction; a false guard only advances the PC (R157); a fetch error halts (R176); `body` has the effect. [DESIGN CHOICE 1, 3] -/
def issue (cls func : Nat) (body : Nat → Nat → State → State) (a t : Nat) (s : State) : State :=
  if (s.th a t).st ≠ .ready then s
  else
    match fetchIns a t s with
    | (.error f, s1) => haltThread a t { fail := f } s1
    | (.ok (w, ext), s1) =>
      if iCls w ≠ cls ∨ iFunc w ≠ func ∨ (illegalCause w ext).isSome then s
      else if iLong w && decide ((s.th a t).pc + 1 ≥ psWords) then progFault a t 0x04 s1
      else if !guardHolds (s.th a t).p (iPg w) (iPn w) then advance a t w s1
      else body w ext s1

/-- Enter WAIT; the PC stays at the waiting instruction (R152, R180). -/
def waitFor (a t : Nat) (k : Wait) (s : State) : State :=
  s.setTh a t { s.th a t with st := .wait, wait := k, waitAt := s.now }

/-- Leave WAIT, write a scalar register and go on after the waiting instruction, which is never of the long form (R158). -/
def resume (a t rd : Nat) (v : W64) (s : State) : State :=
  let x := s.th a t
  goTo a t ((x.pc + 1 : Nat) : Int) (s.setTh a t { x.setS rd v with st := .ready, wait := .none })

/-- The sequence number after another; 0 is skipped (R169). -/
def nextSeq (n : Nat) : Nat := if n + 1 ≥ 2 ^ 32 then 1 else n + 1

/-- The token written to RD (R169). -/
def tokenWord (seq unit : Nat) : W64 := BitVec.ofNat 64 (seq + 2 ^ 32 * unit)

/-- The slot of the token window that holds an operation (R169). -/
def tokSlot (seq : Nat) : Nat := seq % 32

/-- Is the slot that the next operation needs still taken by an operation that has not completed (R169). -/
def windowFull (x : Thread) : Bool := x.toks.any (fun k => tokSlot k.seq = tokSlot (nextSeq x.seq) ∧ k.fin.isNone)

/-- The next operation of a thread takes its slot from the one that held it (R169). -/
def Thread.newTok (x : Thread) (unit : Nat) : Thread :=
  let q := nextSeq x.seq
  { x with seq := q, lapped := x.lapped || decide (q ≤ x.seq),
           toks := Tok.mk q unit x.pc none none :: x.toks.filter (fun k => tokSlot k.seq ≠ tokSlot q) }

/-- Issue an asynchronous operation: a full token window makes the thread wait; else it takes the next sequence number, RD
receives the token, the PC goes on, and the unit takes the operation (R152, R169). -/
def issueAsync (a t unit w : Nat) (k : Nat → State → State) (s : State) : State :=
  let x := s.th a t
  if windowFull x then waitFor a t (.slot 31) s
  else
    let q := nextSeq x.seq
    advance a t w (k q (s.setTh a t ((x.newTok unit).setS (iRd w) (tokenWord q unit))))

/-- Statuses of an asynchronous failure that halt the thread (R172). -/
def haltsThread : Status → Bool
  | .translationFault | .protectionFault | .alignment | .descriptorInvalid => true
  | _ => false

/-- A unit has finished an operation of a thread with a status: its token may now complete; a failure of R172 halts the thread. -/
def opDone (a t seq : Nat) (f : Fail) (s : State) : State :=
  let x := s.th a t
  match x.toks.find? (fun k => k.seq == seq) with
  | none => s
  | some k =>
    let s1 := s.setTh a t { x with toks := x.toks.map (fun j => if j.seq = seq then { j with work := some f } else j) }
    if haltsThread f.st then haltThread a t { fail := f, pcCause := some k.pc, seq := seq, unit := k.unit } s1 else s1

/-- An operation finished without failure. -/
def opOk (a t seq : Nat) (s : State) : State := opDone a t seq { st := .ok } s

/-- The status of the operation a token names, by the edge cases of R171: none while it has not completed. -/
inductive TokState where
  | old | running | done (st : Status) | future
deriving DecidableEq, Repr

/-- What a token value names (R171); once the numbers have wrapped, every number has been issued. -/
def tokState (x : Thread) (v : Nat) : TokState :=
  if v = 0 then .done .ok
  else
    match x.toks.find? (fun k => k.seq == v) with
    | some k => (match k.fin with | some st => .done st | none => .running)
    | none => if x.lapped ∨ v ≤ x.seq then .old else .future

/-- Has a thread's wait for tokens ended (R171). -/
def tokWaitOver (x : Thread) : Option (Nat × W64) :=
  match x.wait with
  | .tok rd q => (match tokState x q with
    | .done st => some (rd, BitVec.ofNat 64 st.code)
    | .old => some (rd, BitVec.ofNat 64 x.fail.code)
    | _ => none)
  | .all rd => if x.pending = 0 then some (rd, BitVec.ofNat 64 x.fail.code) else none
  | .fence m => if x.toks.all (fun k => k.fin.isSome || !m.testBit k.unit) then some (0, 0) else none
  | .slot 31 => if windowFull x then none else some (0, 0)
  | _ => none

/-- A thread that waited for a slot issues its instruction again. -/
def reissue (a t : Nat) (s : State) : State := s.setTh a t { s.th a t with st := .ready, wait := .none }

/-- Wake a thread whose wait for tokens has ended. -/
def wakeTok (a t : Nat) (s : State) : State :=
  let x := s.th a t
  if x.st ≠ .wait then s
  else
    match tokWaitOver x with
    | none => s
    | some (rd, v) => if x.wait = .slot 31 then reissue a t s else resume a t rd v s

/-- One place in a unit's issue queue of an array is free: the lowest thread that waits for it issues again (R152). [DESIGN CHOICE 165] -/
def wakeSlot (a unit : Nat) (s : State) : State :=
  match (List.range 64).find? (fun t => (s.th a t).st = .wait ∧ (s.th a t).wait = .slot unit) with
  | some t => reissue a t s
  | none => s

/-- Operations of a unit of an array whose token has not completed, over all its threads. -/
def unitBusy (s : State) (a unit : Nat) : Nat :=
  (List.range 64).foldl (fun n t => n + ((s.th a t).toks.filter (fun k => k.unit = unit ∧ k.fin.isNone)).length) 0

/-- FAIL takes the first failure among completed operations (R172). -/
def Thread.complete (x : Thread) (seq : Nat) (st : Status) : Thread :=
  { x with toks := x.toks.map (fun j => if j.seq = seq then { j with fin := some st } else j),
           fail := if x.fail.completes ∧ !st.completes then st else x.fail }

/-- The oldest operation of a unit whose token has not completed (R170). -/
def oldestOf (x : Thread) (unit : Nat) : Option Tok :=
  x.toks.reverse.find? (fun k => k.unit = unit ∧ k.fin.isNone)

/-- The accumulator elements of an operation are settled (R225). -/
def dropAcc (a t seq : Nat) (s : State) : State :=
  if s.accUse = [] then s else { s with accUse := s.accUse.filter (fun u => !(u.a = a ∧ u.t = t ∧ u.seq = seq)) }

/-- Does a place in the issue queue of a unit become free when a token of it completes: the vector unit, the row engine and the decoders. The
descriptor queues and the plan slots free theirs when a transfer starts and when a plan ends. -/
def freesPlace (unit : Nat) : Bool := unit == 6 || unit == 7 || unit == 9

/-- A token completes: status, FAIL, the item's failure, and DONE for a drained thread (R151, R170, R172). -/
def completeTok (a t : Nat) (k : Tok) (f : Fail) (s : State) : State :=
  let x := (s.th a t).complete k.seq f.st
  let x1 := if x.st = .drain ∧ x.pending = 0 then { x with st := .done } else x
  let s1 := dropAcc a t k.seq (s.setTh a t x1)
  let s2 := if f.st.completes then s1 else itemFail x.item f s1
  let s3 := wakeTok a t s2
  if freesPlace k.unit then wakeSlot a k.unit s3 else s3

/-- ASYNC_OP_COMPLETE (R170): the oldest open token of a thread and unit completes once its work is finished. -/
def execAsyncOpComplete (a : Fin 96) (t : Fin 64) (unit : Fin 11) (s : State) : Host.Outcome State Fault Refusal :=
  match oldestOf (s.th a.val t.val) unit.val with
  | none => .next s
  | some k =>
    match k.work with
    | none => .next s
    | some f => .next (completeTok a.val t.val k f s)

/-- Halt a thread of an item without a record (R179). -/
def haltSibling (id k : Nat) (s : State) : State :=
  let x := s.th (k / 64) (k % 64)
  if x.item = id ∧ (x.st = .ready ∨ x.st = .wait) then
    toDrain (k / 64) (k % 64) (s.setTh (k / 64) (k % 64) { x with faulted := true })
  else s

/-- ITEM_THREADS_HALT: after a thread fault the dispatcher halts the item's other threads (R179). -/
def execItemThreadsHalt (item : BitVec 64) (s : State) : Host.Outcome State Fault Refusal :=
  match s.item? item.toNat with
  | none => .next s
  | some i =>
    if i.haltAt.isNone then .next s
    else .next ((s.thr.map (·.1)).foldl (fun u k => haltSibling i.id k u) s)

/-- The wait limit of an item in ticks (R180, R390). -/
def Item.waitLimit (i : Item) : Nat :=
  let n := leAt i.raw 116 2
  if n % 2 ^ 15 = 0 then 2500000 else (n % 2 ^ 15) * (if bit n 15 then 65536 else 256)

/-- The run limit of an item in ticks; 0 is no limit (R180, R390). -/
def Item.runLimit (i : Item) : Nat := leAt i.raw 118 2 * 65536

/-- A watchdog halt, unless the item's threads are being halted for another thread's fault (R180). -/
def watchdog (a t cause : Nat) (i : Item) (s : State) : State :=
  if i.haltAt.isSome then s else haltThread a t { fail := { st := .watchdog }, cause := cause } s

/-- WAIT_LIMIT_EXPIRY (R180). -/
def execWaitLimitExpiry (a : Fin 96) (t : Fin 64) (s : State) : Host.Outcome State Fault Refusal :=
  let x := s.th a.val t.val
  match s.item? x.item with
  | none => .next s
  | some i =>
    if x.st = .wait ∧ x.waitAt + i.waitLimit < s.now then .next (watchdog a.val t.val 0x0B i s) else .next s

/-- RUN_LIMIT_EXPIRY (R180). -/
def execRunLimitExpiry (a : Fin 96) (t : Fin 64) (s : State) : Host.Outcome State Fault Refusal :=
  let x := s.th a.val t.val
  match s.item? x.item with
  | none => .next s
  | some i =>
    if (x.st = .ready ∨ x.st = .wait) ∧ i.runLimit ≠ 0 ∧ x.startAt + i.runLimit < s.now then
      .next (watchdog a.val t.val 0x0C i s)
    else .next s

/-- ILLEGAL_INSTRUCTION: an illegal encoding halts its thread whatever its guard (R160). -/
def execIllegalInstruction (a : Fin 96) (t : Fin 64) (s : State) : Host.Outcome State Fault Refusal :=
  if (s.th a.val t.val).st ≠ .ready then .next s
  else
    match fetchIns a.val t.val s with
    | (.error f, s1) => .next (haltThread a.val t.val { fail := f } s1)
    | (.ok (w, ext), s1) =>
      match illegalCause w ext with
      | some c => .next (progFault a.val t.val c s1)
      | none => .next s

end Sys2Proof.Machine
end

