-- ==== Sys2Proof/Machine/Items.lean ====
section
/-! DEFINITION. Machine/Items.lean: work items as data (R390 to R393), their completion, and when an item of the open step becomes
ready (R395, R396, R402). -/

namespace Sys2Proof.Machine

/-- IMG_VA (R390). -/
def Item.imgVa (i : Item) : Nat := leAt i.raw 8 8
/-- IMG_WORDS (R390). -/
def Item.words (i : Item) : Nat := leAt i.raw 16 4
/-- LOAD (R390). -/
def Item.load (i : Item) : Nat := leAt i.raw 20 4
/-- ENTRY (R390). -/
def Item.entry (i : Item) : Nat := leAt i.raw 24 4
/-- Argument word `k` (R390). -/
def Item.arg (i : Item) (k : Nat) : Nat := leAt i.raw (28 + 8 * k) 8
/-- STEP (R390). -/
def Item.step (i : Item) : Nat := leAt i.raw 92 4
/-- BRANCH (R390). -/
def Item.branch (i : Item) : Nat := leAt i.raw 96 1 % 64
/-- NTHR (R390). -/
def Item.nthr (i : Item) : Nat := leAt i.raw 97 1
/-- EVAL (R390). -/
def Item.eval (i : Item) : Bool := bit (leAt i.raw 98 1) 1
/-- LAST (R390). -/
def Item.last (i : Item) : Bool := bit (leAt i.raw 98 1) 2
/-- NOLOAD (R390). -/
def Item.noload (i : Item) : Bool := bit (leAt i.raw 98 1) 3
/-- PLACE (R390), treated as 0 for an evaluation item (R402). -/
def Item.place (i : Item) : Nat := if i.eval then 0 else bits (leAt i.raw 98 1) 5 4
/-- PARR (R390). -/
def Item.parr (i : Item) : Nat := leAt i.raw 99 1
/-- GIDX (R390). -/
def Item.gidx (i : Item) : Nat := leAt i.raw 100 2
/-- Does the item read a batch (R390). [DEDUCED 115] -/
def Item.usesBatch (i : Item) : Bool := bit (leAt i.raw 102 1) 6
/-- Batch stream (R390). -/
def Item.bstream (i : Item) : Nat := leAt i.raw 102 1 % 64
/-- Batch index J within the step (R390). -/
def Item.bindex (i : Item) : Nat := leAt i.raw 103 1
/-- The DEP fields that name an item (R390). -/
def Item.deps (i : Item) : List Nat := ([0, 1, 2, 3].map (fun k => leAt i.raw (104 + 2 * k) 2)).filter (· ≠ 0xFFFF)
/-- DEP0 (R390). -/
def Item.dep0 (i : Item) : Nat := leAt i.raw 104 2
/-- COST (R390). -/
def Item.cost (i : Item) : Nat := leAt i.raw 112 4
/-- TAB_VA (R390). -/
def Item.tabVa (i : Item) : Nat := leAt i.raw 120 6
/-- NTAB (R390). -/
def Item.ntab (i : Item) : Nat := leAt i.raw 126 1
/-- Submission queue of an item (R392). -/
def Item.queue (i : Item) : Nat := i.id / 2 ^ 48
/-- Submission index of an item (R392). -/
def Item.index (i : Item) : Nat := i.id % 2 ^ 48

/-- ITEM of an entry (R392). -/
def itemId (q idx : Nat) : Nat := q * 2 ^ 48 + idx % 2 ^ 48

/-- A work item just taken. -/
def Item.fresh (id : Nat) (raw : List Byte) : Item :=
  ⟨id, raw, .held, 0, 0, 0, { st := .ok }, false, none, false, none, [], [], { st := .ok }, []⟩

/-- Does an item belong to a step (R391, R402). -/
def Item.inStep (i : Item) (n : Nat) : Bool := !i.eval && i.step == n

/-- A submission queue. -/
def State.sq (s : State) (q : Nat) : HSq := SMap.getD s.sqs q HSq.empty

/-- Store a submission queue. -/
def State.setSq (s : State) (q : Nat) (x : HSq) : State := { s with sqs := SMap.set HSq.empty s.sqs q x }

/-- An entry of a submission queue is complete with a status (R446): the oldest of that index that is not. -/
def finishEntry (q idx : Nat) (st : Status) (replays : Nat) (s : State) : State :=
  let x := s.sq q
  match x.ents.findIdx? (fun e => e.idx = idx ∧ e.st.isNone) with
  | none => s
  | some k => s.setSq q { x with ents := modAt x.ents k (fun e => { e with started := true, st := some st, replays := replays }) }

/-- A work item completes: counted for its branch, its entry complete (R446). -/
def endItem (id : Nat) (st : Status) (s : State) : State :=
  match s.item? id with
  | none => s
  | some i =>
    let s1 := s.modItem id (fun j => { j with phase := .done, fail := if j.fail.st.completes then { j.fail with st := st } else j.fail })
    finishEntry i.queue i.index st i.replays (s1.count i.branch Reg.DSP_ITEMS 1)

/-- The item of a step that took a GIDX first (R391). -/
def stepItem (s : State) (n g : Nat) : Option Item := s.items.find? (fun i => i.inStep n ∧ i.gidx = g)

/-- Is the graph of a step closed (R395). -/
def stepClosed (s : State) (n : Nat) : Bool := s.items.any (fun i => i.inStep n && i.last)

/-- The count of the batch that an item of the open step reads, from 0 after its stream's EN = 1 (R397). -/
def batchNo (s : State) (i : Item) : Nat := SMap.getD s.batchBase i.bstream 0 + i.bindex

/-- The batch buffer an item of the open step reads, once it is offered (R397). -/
def batchOf (s : State) (i : Item) : Option Nat :=
  let n := batchNo s i
  ((SMap.getD s.bstreams i.bstream BStream.empty).offered.find? (fun o => o.1 = n)).map (·.2)

/-- Does an evaluation item hold an array (R402). -/
def evalHolds (s : State) (a : Nat) : Bool :=
  s.items.any (fun i => i.eval && i.arr == a && (i.phase == .bind || i.phase == .load || i.phase == .run || i.phase == .replay))

/-- The array an item must use: PARR, or the array of DEP0's last attempt (R399). -/
def fixedArray (s : State) (i : Item) : Option Nat :=
  if i.place = 1 then some i.parr
  else if i.place = 2 then (stepItem s i.step i.dep0).map (·.arr)
  else none

/-- What is to be done with a held item of the open step: nothing yet, completion with a status, or it is ready (R393, R396). -/
inductive Ready where
  | wait
  | finish (st : Status)
  | ready
deriving DecidableEq, Repr

/-- Status of the failed dependency with the lowest GIDX (R396). -/
def failedDep (ds : List Item) : Option Status :=
  (ds.filter (fun d => !d.fail.st.completes)).foldl (fun (b : Option Item) d => match b with
    | none => some d
    | some e => if d.gidx < e.gidx then some d else b) none |>.map (fun (d : Item) => d.fail.st)

/-- Readiness of an item whose dependencies have all completed without failure. -/
def readyAfter (s : State) (i : Item) : Ready :=
  if i.nthr = 0 then .finish .ok
  else if i.place = 2 ∧ ((stepItem s i.step i.dep0).map (·.nthr)) = some 0 then .finish .descriptorInvalid
  else if i.usesBatch ∧ (batchOf s i).isNone then .wait
  else
    match fixedArray s i with
    | some a => if evalHolds s a then .wait else .ready
    | none => .ready

/-- Readiness of a held item of the open step (R396). -/
def readiness (s : State) (i : Item) : Ready :=
  let ds := i.deps.map (fun g => stepItem s i.step g)
  if ds.any (·.isNone) then (if stepClosed s i.step then .finish .descriptorInvalid else .wait)
  else
    let ds := ds.filterMap id
    if ds.any (fun d => d.phase != .done) then .wait
    else
      match failedDep ds with
      | some st => .finish st
      | none => readyAfter s i

/-- Settle one held item: it completes, becomes ready and ends the time of evaluation items (R402), or waits on. -/
def settleOne (id : Nat) (s : State) : State :=
  match s.item? id with
  | none => s
  | some i =>
    if i.phase ≠ .held ∨ i.eval ∨ s.openStep ≠ some i.step then s
    else
      match readiness s i with
      | .wait => s
      | .finish st => endItem id st s
      | .ready => { s.modItem id (fun j => { j with phase := .ready, order := s.readyCount }) with
                    readyCount := s.readyCount + 1, evalOk := false }

/-- Items in ascending queue number, then submission order (R400). -/
def inQueueOrder (l : List Item) : List Item := sortBy (fun a b => decide (a.id ≤ b.id)) l

/-- One pass over the held items. -/
def settlePass (s : State) : State := (inQueueOrder s.items).foldl (fun t i => settleOne i.id t) s

/-- Passes until nothing changes: each one completes or readies an item. -/
def settleLoop : Nat → State → State
  | 0, s => s
  | k + 1, s => let t := settlePass s; if t.items = s.items then t else settleLoop k t

/-- Items of the open step become ready or complete (R396). -/
def settleItems (s : State) : State := settleLoop (s.items.length + 1) s

/-- DSP_STATUS shows the open step and its closed graph. -/
def showStep (s : State) : State :=
  let o := s.openStep.isSome
  let c := match s.openStep with
    | some n => stepClosed s n
    | none => false
  (s.setRf 0 Reg.DSP_STATUS 1 1 (b2n o)).setRf 0 Reg.DSP_STATUS 2 2 (b2n c)

end Sys2Proof.Machine
end

