-- ==== Sys2Proof/Machine/RegAccess.lean ====
section
/-! DEFINITION. Machine/RegAccess.lean: what a register write of either port does before and after its own rule: instance
selection (R436), rights and locks (R437 to R440), field access codes (R7 to R9, R520), 64-bit pairs (R8) and journaling (R481). -/

namespace Sys2Proof.Machine

/-- Bank number of a port. -/
def portIdx : Port → Nat
  | .pcie => 0 | .mgmt => 1

/-- Requester number of a port (R37). -/
def portReq : Port → Nat
  | .pcie => 0x00A0 | .mgmt => 0x00A1

/-- Journal origin of a port (R482). -/
def portOrigin : Port → Origin
  | .pcie => .pcie | .mgmt => .mgmt

/-- Halves held for a port (R8). -/
def State.half (s : State) : Port → PortHalf
  | .pcie => s.halfPcie | .mgmt => s.halfMgmt

/-- Set the halves held for a port. -/
def State.setHalf (s : State) (p : Port) (h : PortHalf) : State :=
  match p with
  | .pcie => { s with halfPcie := h }
  | .mgmt => { s with halfMgmt := h }

/-- A number kept only when it names an instance. -/
def below (n k : Nat) : Option Nat := if k < n then some k else none

/-- The instance a port's access to a register reaches, none where the selection names none (R436). -/
def instOf (k : InstKind) (p : Port) (s : State) : Option Nat :=
  let ch := fun off hi lo => s.rf (portIdx p) off hi lo
  match k with
  | .single => some 0
  | .chsel => some (portIdx p)
  | .queue => some (ch Reg.HST_CHSEL 7 0)
  | .phys => below 100 (ch Reg.ARR_CHSEL 6 0)
  | .stack => some (ch Reg.MEM_CHSEL 4 0)
  | .pc => some (ch Reg.MEM_CHSEL 4 0 * 32 + ch Reg.MEM_CHSEL 9 5)
  | .pkg => below s.t2Count (ch Reg.T2_CHSEL 4 0)
  | .bank => some (ch Reg.POOL_CHSEL 5 0)
  | .ctx => some (ch Reg.MED_CHSEL 9 0)
  | .core => below 72 (ch Reg.MED_CHSEL 22 16)
  | .iport => below (if s.hasIntake then 2 else 0) (ch Reg.ITK_CHSEL 0 0)
  | .stream => below (if s.hasIntake then 512 else 0) (ch Reg.ITK_CHSEL 0 0 * 256 + ch Reg.ITK_CHSEL 15 8)
  | .bstream => some (ch Reg.BAT_CHSEL 5 0)
  | .bucket => some (ch Reg.BAT_CHSEL 5 0 * 16 + ch Reg.BAT_CHSEL 19 16)
  | .cport => below 12 (ch Reg.CWY_CHSEL 3 0)
  | .win => some (ch Reg.CWY_CHSEL 19 16)
  | .slot => some (ch Reg.COL_CHSEL 5 0)
  | .group => some (ch Reg.LOD_CHSEL 11 0)
  | .branch => some (ch Reg.DSP_CHSEL 5 0)
  | .fclassIdx => below 12288 (s.rf 0 Reg.MEM_FCLASS_IDX 13 0)
  | .mapIdx => below 96 (s.rf 0 Reg.ARR_MAP_IDX 6 0)
  | .progIdx => some (s.rf 0 Reg.LOD_PROG_IDX 10 0)
  | .dtIdx => some (s.rf 0 Reg.CWY_DT_IDX 11 0)
  | .peerIdx => some (s.rf 0 Reg.COL_PEER_IDX 11 0)
  | .arrIdx => below 96 (s.rf 0 Reg.DSP_ARR_IDX 6 0)

/-- The CHSEL of the EXP block selects its own physical array (R436). -/
def instOfReg (r : RegDef) (p : Port) (s : State) : Option Nat :=
  if r.off >>> 16 = 0x11 ∧ r.inst = .phys then below 100 (s.rf (portIdx p) Reg.EXP_CHSEL 6 0)
  else instOf r.inst p s

/-- Is a register one of a unit that the configuration lacks: the T2 block without tier 2, the ITK block without Intake ports (R2, R3). -/
def absentUnit (off : Nat) (s : State) : Bool :=
  (off >>> 16 == 0x21 && s.t2Count == 0) || (off >>> 16 == 0x31 && !s.hasIntake)

/-- INST of a journal entry (R483): the index register's value for PWR_OFF_CTRL, zero where no instance applies. -/
def jrnInst (r : RegDef) (inst : Nat) (s : State) : Nat :=
  if r.off = Reg.PWR_OFF_CTRL then s.rf 0 Reg.PWR_OFF_IDX 6 0
  else if r.inst = .single ∨ r.inst = .chsel then 0 else inst

/-- The bits of a register that the management port may write (R438). -/
def mgmtMask (r : RegDef) : Nat :=
  if r.inst = .chsel then 2 ^ 32 - 1
  else if r.off = Reg.PWR_LIMIT ∨ r.off = Reg.PWR_ACLK_MAX then 2 ^ 32 - 1
  else if r.off = Reg.LOD_CTRL ∨ r.off = Reg.BAT_CTRL ∨ r.off = Reg.COL_CTRL then 1
  else if r.off = Reg.HST_MLOCK then 2 ^ 18 - 1
  else 0

/-- Fuse, identity and boot-key registers and HST_MLOCK, which the PCIe port may not write (R437). [DEDUCED 92] -/
def pcieForbidden (off : Nat) : Bool :=
  off == Reg.HST_MLOCK || off == Reg.SEC_SERIAL_LO || off == Reg.SEC_SERIAL_HI || off == Reg.SEC_BOOT ||
  off == Reg.SEC_SVN_MIN

/-- A write refused by the rights of its port (R440). -/
def refuseWrite (a : RegAcc) (s : State) : State :=
  let s1 := s.count 0 Reg.HST_REFUSED 1
  let s2 := s1.setReg 0 Reg.HST_LAST_REFUSED (BitVec.ofNat 32 (a.off % 2 ^ 26 + 2 ^ 31 * portIdx a.port))
  raiseEvt .lock (s2.setRf 0 Reg.HST_STATUS 3 3 1)

/-- Is the block of an offset locked against the host by HST_MLOCK (R439). [DEDUCED 91] -/
def mLocked (off : Nat) (s : State) : Bool :=
  match lockBit off with
  | some b => s.rf 0 Reg.HST_MLOCK b b == 1
  | none => false

/-- Is the LOCK bit of a block set (R7). -/
def rwlLocked (off : Nat) (s : State) : Bool :=
  match blockLock off with
  | some l => s.rf 0 l 31 31 == 1
  | none => false

/-- Bits of the fields of a register with one access code. -/
def accMask (r : RegDef) (p : Access → Bool) : Nat :=
  (packFields r.fields (fun f => if p f.acc then 2 ^ 32 - 1 else 0)).toNat

/-- W1C bits of a register. -/
def w1cMask (r : RegDef) : Nat := accMask r (· == .w1c)
/-- Bits of configuration fields (RW and RWL), whose changes are journaled (R481). -/
def cfgMask (r : RegDef) : Nat := accMask r (fun a => a == .rw || a == .rwl)
/-- WO bits of a register. -/
def woMask (r : RegDef) : Nat := accMask r (· == .wo)

/-- The outcome of the rights check: refused or ignored with the state after it, or admitted for the masked bits. -/
inductive Admit where
  | no (s : State)
  | yes (r : RegDef) (inst mask : Nat) (s : State)

/-- Does a write aim at a field other than W1C: it would change an RW or RWL field, or it writes a 1 to a WO bit. [DEDUCED 91] -/
def aimsBeyondW1c (a : RegAcc) (r : RegDef) (inst : Nat) (s : State) : Bool :=
  a.val.toNat &&& cfgMask r != (s.reg inst a.off).toNat &&& cfgMask r || a.val.toNat &&& woMask r != 0

/-- Rights of a port on a register (R437 to R440). In a locked block the PCIe port still reaches CHSEL, and W1C fields by a write that aims
at no other field; any other write is refused whole (R439, R440, R520). [DEDUCED 91] -/
def portRights (a : RegAcc) (r : RegDef) (inst : Nat) (s : State) : Admit :=
  match a.port with
  | .mgmt => if mgmtMask r = 0 then .no (refuseWrite a s) else .yes r inst (mgmtMask r) s
  | .pcie =>
    if pcieForbidden a.off then .no (refuseWrite a s)
    else if mLocked a.off s && r.inst != .chsel then
      if w1cMask r = 0 ∨ aimsBeyondW1c a r inst s then .no (refuseWrite a s) else .yes r inst (w1cMask r) s
    else .yes r inst (2 ^ 32 - 1) s

/-- Blocks that lie in the Peat domain: SEC, PWR / CLK, FLT / JRN, and HST_MLOCK (R415, R455). -/
def peatBlock (off : Nat) : Bool := off >>> 16 == 2 || off >>> 16 == 3 || off >>> 16 == 4 || off == Reg.HST_MLOCK

/-- May a port reach a register now: the PCIe port from configuration ready with its link up, the management port before that only in the
Peat domain (R455, R456). -/
def busOpen (p : Port) (off : Nat) (s : State) : Bool :=
  match p with
  | .pcie => s.up.cfgReady && s.linkUp
  | .mgmt => s.up.mgmtReady && (s.up.cfgReady || peatBlock off)

/-- Everything decided before a write's own rule: what is open (R455), alignment (R431), absent units (R3), reserved space (R9), selection
(R436), rights. -/
def admitWrite (a : RegAcc) (s : State) : Admit :=
  if a.off % 4 ≠ 0 ∨ !busOpen a.port a.off s ∨ absentUnit a.off s then .no s
  else
    match regDef? a.off with
    | none => .no s
    | some r =>
      match instOfReg r a.port s with
      | none => .no s
      | some i => portRights a r i s

/-- One field after a write of `v` over `old` (R7); HST_MLOCK is written by the management port alone (R438). -/
def fieldAfter (acc : Access) (locked mlock : Bool) (old v : Nat) : Nat :=
  match acc with
  | .rw => v
  | .rwl => if locked then old else v
  | .w1c => old &&& (old ^^^ v)
  | .ro => if mlock then v else old
  | .rc => old
  | .wo => 0

/-- The word after a write, each field by its access code, only where the port may write (R7, R9, R438). -/
def applyWord (r : RegDef) (mask : Nat) (locked : Bool) (old val : W32) : W32 :=
  packFields r.fields (fun f =>
    let o := fld old f.hi f.lo
    if mask.testBit f.lo then fieldAfter f.acc locked (r.off == Reg.HST_MLOCK) o (fld val f.hi f.lo) else o)

/-- The own rule of a register: a guard that may keep fields at their old value and set an error flag, and an effect after
the value is stored. `woEntry` says whether a write of WO bits is journaled (R481). -/
structure WriteRule where
  guard   : Nat → W32 → W32 → State → W32 × State := fun _ _ c s => (c, s)
  effect  : Nat → W32 → W32 → W32 → State → State := fun _ _ _ _ s => s
  woEntry : Nat → W32 → State → Bool := fun _ _ _ => true
  silent  : Bool := false

/-- The rule of a plain register. -/
def WriteRule.plain : WriteRule := {}

/-- Journal one register write (R481): a changed RW or RWL field, or a non-zero value written to a WO field. -/
def journalWrite (a : RegAcc) (r : RegDef) (inst : Nat) (old new : W32) (wo : Nat) (s : State) : State :=
  let ji := jrnInst r inst s
  let s1 := if old.toNat &&& cfgMask r ≠ new.toNat &&& cfgMask r then
      journal (portOrigin a.port) a.rid a.off ji false old.toNat new.toNat s else s
  if wo ≠ 0 then journal (portOrigin a.port) a.rid a.off ji false 0 wo s1 else s1

/-- A change of HST_MLOCK raises the LOCK cause (R450). -/
def mlockEvent (off : Nat) (old new : W32) (s : State) : State :=
  if off = Reg.HST_MLOCK ∧ old ≠ new then raiseEvt .lock s else s

/-- A write of one 32-bit register under its rule (R520). -/
def writeReg (w : WriteRule) (a : RegAcc) (s : State) : State :=
  match admitWrite a s with
  | .no s1 => s1
  | .yes r i mask s1 =>
    let old := s1.reg i a.off
    let cand := applyWord r mask (rwlLocked a.off s1) old a.val
    let (new, s2) := w.guard i old cand s1
    let wo := if w.woEntry i a.val s1 then a.val.toNat &&& woMask r &&& mask else 0
    let s3 := s2.setReg i a.off new
    let s4 := if w.silent then s3 else journalWrite a r i old new wo s3
    let s5 := mlockEvent a.off old new s4
    w.effect i old new (a.val &&& BitVec.ofNat 32 mask) s5

/-- The rule of a 64-bit pair, over the joined value; `lowGuard` gives the state that a write of the low half leaves where it is ignored. -/
structure PairRule where
  guard  : Nat → Nat → Nat → State → Nat × State := fun _ _ c s => (c, s)
  effect : Nat → Nat → Nat → State → State := fun _ _ _ s => s
  lowGuard : Nat → State → Option State := fun _ _ => none
  silent : Bool := false

/-- The rule of a plain pair. -/
def PairRule.plain : PairRule := {}

/-- A guard that keeps a pair at its old value, with an error, while a condition holds; its low half is not taken either. -/
def heldPair (busy : Nat → State → Bool) (err : Nat → State → State) : PairRule :=
  { guard := fun i old cand s => if busy i s then (old, err i s) else (cand, s)
    lowGuard := fun i s => if busy i s then some (err i s) else none }

/-- A write to the _LO half: held as the port's pending half, nothing changes (R8). -/
def holdLo (w : PairRule) (a : RegAcc) (s : State) : State :=
  match admitWrite a s with
  | .no s1 => s1
  | .yes _ i _ s1 =>
    match w.lowGuard i s1 with
    | some s2 => s2
    | none => s1.setHalf a.port { s1.half a.port with pendLo := some (a.off, a.val) }

/-- The low half a _HI write joins: the port's pending half of that pair, else the value the register holds (R8). -/
def joinedLo (a : RegAcc) (inst : Nat) (s : State) : W32 :=
  match (s.half a.port).pendLo with
  | some (o, v) => if o = a.off - 4 then v else s.reg inst (a.off - 4)
  | none => s.reg inst (a.off - 4)

/-- Drop the pending half that a _HI write used. -/
def usePending (a : RegAcc) (s : State) : State :=
  match (s.half a.port).pendLo with
  | some (o, _) => if o = a.off - 4 then s.setHalf a.port { s.half a.port with pendLo := none } else s
  | none => s

/-- The whole register value a write of a pair would give (R7, R8). -/
def pairCand (r : RegDef) (mask : Nat) (locked : Bool) (old : Nat) (lo hi : W32) : Nat :=
  match regDef? (r.off - 4) with
  | some rl => (applyWord rl mask locked (BitVec.ofNat 32 old) lo).toNat +
      2 ^ 32 * (applyWord r mask locked (BitVec.ofNat 32 (old / 2 ^ 32)) hi).toNat
  | none => old

/-- Bits of a pair's configuration fields. -/
def pairCfgMask (r : RegDef) : Nat :=
  match regDef? (r.off - 4) with
  | some rl => cfgMask rl + 2 ^ 32 * cfgMask r
  | none => 0

/-- Journal a pair as one entry against its low offset (R8, R482). -/
def journalPair (a : RegAcc) (r : RegDef) (inst old new : Nat) (s : State) : State :=
  if old &&& pairCfgMask r ≠ new &&& pairCfgMask r then
    journal (portOrigin a.port) a.rid (a.off - 4) (jrnInst r inst s) true old new s else s

/-- A write to the _HI half of a pair under its rule: the whole 64-bit value takes effect at once (R8). -/
def writeHi (w : PairRule) (a : RegAcc) (s : State) : State :=
  match admitWrite a s with
  | .no s1 => s1
  | .yes r i mask s1 =>
    let old := s1.reg64 i (a.off - 4)
    let cand := pairCand r mask (rwlLocked a.off s1) old (joinedLo a i s1) a.val
    let (new, s2) := w.guard i old cand (usePending a s1)
    let s3 := s2.setReg64 i (a.off - 4) new
    let s4 := if w.silent then s3 else journalPair a r i old new s3
    w.effect i old new s4

/-- What a read returns and leaves for an RC register: the snapshot, then zero (R7, R424). -/
def clearRc (r : RegDef) (i : Nat) (s : State) : State :=
  let m := accMask r (· == .rc)
  if m = 0 then s
  else if r.pair = .hi then s
  else
    let s1 := s.setReg i r.off (s.reg i r.off &&& BitVec.ofNat 32 (2 ^ 32 - 1 - m))
    if r.pair = .lo then s1.setReg i (r.off + 4) 0 else s1

/-- A register read given what the register shows: pairs capture and use the high half (R8), WO bits read zero (R7), absent units read zero
(R3). A port holds one captured half, of the pair and instance read last; a read of another pair or instance displaces it, and a _HI read of a
pair or instance whose half is not held reads the live half (R8). [DESIGN CHOICE 173] -/
def readThrough (live : Nat → Nat → State → Option W32) (p : Port) (off : Nat) (s : State) : W32 × State :=
  match regDef? (off / 4 * 4) with
  | none => (0, s)
  | some r =>
    match instOfReg r p s with
    | none => (0, s)
    | some i =>
      if absentUnit off s then (0, s) else
      let val := fun (o : Nat) => match live i o s with | some v => v | none => s.reg i o
      match r.pair with
      | .single => (val r.off &&& BitVec.ofNat 32 (2 ^ 32 - 1 - woMask r), clearRc r i s)
      | .lo =>
        let s1 := s.setHalf p { s.half p with capHi := some (regKey i (r.off + 4), val (r.off + 4)) }
        (val r.off &&& BitVec.ofNat 32 (2 ^ 32 - 1 - woMask r), clearRc r i s1)
      | .hi =>
        match (s.half p).capHi with
        | some (k, v) =>
          if k = regKey i r.off then (v, s.setHalf p { s.half p with capHi := none }) else (val r.off, s)
        | none => (val r.off &&& BitVec.ofNat 32 (2 ^ 32 - 1 - woMask r), s)

end Sys2Proof.Machine
end

