-- ==== Sys2Proof/Machine/Clock.lean ====
section
/-! DEFINITION. Machine/Clock.lean: accesses that wait for a clock and their 500-tick window (R418, R419), and the wake of an
array by an access (R410, R411, R18). -/

namespace Sys2Proof.Machine

/-- Requester of a waiting access. -/
def WaitAcc.rid : WaitAcc → Nat
  | .regRead p _ => portReq p
  | .regWrite a => portReq a.port
  | .sram q => q.rid
  | .unit n => n
  | .item _ => 0x0003
  | .tail _ _ | .head _ _ | .window _ => 0x00A0

/-- The data of a register read: a completion of the PCIe port, or the answer of the Nolivo read (R501). [DEDUCED 108] -/
def answerRead (p : Port) (off : Nat) (v : W32) (s : State) : State :=
  match p with
  | .pcie => s.emit (.regData p off v)
  | .mgmt => s.emit (.nolivo 0 (leBytes 4 v.toNat))

/-- What the requester of a failed clock start sees (R419): zero data, a dropped write, or the status. -/
def failWait (w : WaitAcc) (s : State) : State :=
  match w with
  | .regRead p off => answerRead p off 0 s
  | .regWrite _ | .tail _ _ | .head _ _ | .window _ => s
  | .sram q => if q.rid = hostRid then (if q.wdata.isSome then s else s.emit (.bar2Data none))
      else s.emit (.memReply q.rid .clkTimeout [])
  | .unit _ => s
  | .item id => (itemFail id { st := .clkTimeout } s).modItem id (fun i =>
      if i.phase = .bind ∨ i.phase = .load then { i with phase := .run } else i)

/-- The work item of a waiting access, 0 where there is none. -/
def waitItem : WaitAcc → Nat
  | .item i => i
  | _ => 0

/-- One request ended at the end of its window (R419). -/
def timeoutOne (d : ClkDomain) (w : WaitAcc) (s : State) : State :=
  failWait w (noteTimeout d w.rid (waitItem w) (mayReplay s (waitItem w)) s).2

/-- An access that needs a clock whose PLL is off: it waits, or ends at once when the PLL is marked failed (R418, R419). -/
def waitClock (d : ClkDomain) (w : WaitAcc) (s : State) : State :=
  if (s.pll d).failed then failWait w (s.count 0 Reg.CLK_TIMEOUTS 1)
  else { beginPll d s with clkWait := s.clkWait ++ [(d, s.now, w)] }

/-- Begin the wake of a physical array that is IDLE or in RET (R410, R411); OFF arrays are not woken (R521). -/
def beginWake (phys : Nat) (s : State) : State :=
  match s.pst phys with
  | .idle | .ret =>
    if (SMap.get? s.waking phys).isSome then beginPll .aclk s
    else beginPll .aclk { s with waking := SMap.put s.waking phys s.now }
  | _ => s

/-- Requests whose window has ended (R12, R419). -/
def expiredWaits (d : ClkDomain) (s : State) : List WaitAcc :=
  (s.clkWait.filter (fun w => w.1 = d && decide (w.2.1 + clkWindow ≤ s.now))).map (·.2.2)

/-- The window of a clock start has ended without the clock (R419). -/
def clockTimeout (d : ClkDomain) (s : State) : State :=
  match (s.pll d).starting with
  | none => s
  | some t =>
    if s.now < t + clkWindow ∨ (s.pll d).on then s
    else
      let ended := expiredWaits d s
      let s1 := pllStartFailed d s
      let s2 := { s1 with clkWait := s1.clkWait.filter (fun w => !(w.1 = d && decide (w.2.1 + clkWindow ≤ s.now))) }
      let s3 := ended.foldl (fun t w => timeoutOne d w t) s2
      if s3.clkWait.any (·.1 = d) then beginPll d s3 else s3

/-- Is an access one of the PCIe port that later ones must not pass: a register access, or a write to memory. -/
def WaitAcc.ofHost : WaitAcc → Bool
  | .regRead p _ => p == .pcie
  | .regWrite a => a.port == .pcie
  | .sram q => q.rid == hostRid && q.wdata.isSome
  | _ => false

/-- Does an earlier access of the host still wait (R434). [DEDUCED 107] -/
def hostBusy (s : State) : Bool :=
  let held := fun (q : MemReq) => q.rid == hostRid && q.wdata.isSome
  s.busHeld != [] || s.convHeld != [] || s.clkWait.any (fun w => w.2.2.ofHost) || s.sramWait.any (fun e => e.2.any held) || s.t2Wait.any held

/-- An access of the host takes its turn: it waits while an earlier one waits (R434). -/
def hostTurn (w : WaitAcc) (k : State → State) (s : State) : State :=
  if hostBusy s then { s with busHeld := s.busHeld ++ [w] } else k s

/-- A register write of a port takes its turn among the accesses of that port (R434). -/
def portTurn (a : RegAcc) (k : State → State) (s : State) : State :=
  match a.port with
  | .pcie => hostTurn (.regWrite a) k s
  | .mgmt => k s

/-- A row that writes one register under a rule, in its turn. -/
def portWrite (w : WriteRule) (a : RegAcc) (s : State) : State := portTurn a (writeReg w a) s

end Sys2Proof.Machine
end

