-- ==== Sys2Proof/Machine/Hbm.lean ====
section
/-! DEFINITION. Machine/Hbm.lean: frame classes and their conversion (R74), the pseudo-channels with their class shares and reorder
queues (R34, R77, R80), the patrol scrubber (R79) and the thermal states (R81 to R83). -/

namespace Sys2Proof.Machine

/-- Is the stack of a pseudo-channel Hot: it admits at half rate (R81). -/
def stackHot (s : State) (p : Nat) : Bool := s.rf (p / 32) Reg.MEM_TEMP 9 8 == 2

/-- Of the writes to one address that arrived in one cycle the lowest requester number is admitted first, whatever the pointer holds (R13):
the place of the request admitted when the one at place `i` has won. -/
def firstWrite (w : List (MemReq × Nat)) (i : Nat) : Nat :=
  match w[i]? with
  | none => i
  | some (q, cyc) =>
    let same := w.filter (fun o => q.wdata.isSome && o.1.wdata.isSome && o.1.pa == q.pa && o.2 == cyc)
    match (same.map (·.1.rid)).min? with
    | none => i
    | some r => (w.findIdx? (fun o => o.1.wdata.isSome && o.1.pa == q.pa && o.2 == cyc && o.1.rid == r)).getD i

/-- Admit one waiting request into a reorder queue with room (R13, R34, R39, R80); a Hot stack skips every second admission. -/
def admitOne (p : Nat) (s : State) : State :=
  let c := s.pc p
  if c.waiting = [] ∨ c.queue.length ≥ 64 then s
  else if stackHot s p ∧ c.skip then s.setPc p { c with skip := false }
  else
    match pickWaiting c.counts (rrPc p) (c.waiting.map (·.1)) s with
    | none => s
    | some (_, i, s1) =>
      let j := firstWrite c.waiting i
      match c.waiting[j]? with
      | none => s1
      | some (q, _) => s1.setPc p { c with waiting := c.waiting.eraseIdx j, queue := c.queue ++ [⟨q, 0, 0⟩],
                                           counts := countAdmission c.counts (reqClass q.rid), skip := true }

/-- Two requests touch one 64 B slot. -/
def sameSlot (a b : MemReq) : Bool :=
  decide (a.pa / 64 ≤ (b.pa + b.len - 1) / 64) && decide (b.pa / 64 ≤ (a.pa + a.len - 1) / 64)

/-- Does a request touch a frame. -/
def touchesFrame (f : Nat) (q : MemReq) : Bool := decide (q.pa < (f + 1) * 0x200000) && decide (f * 0x200000 < q.pa + q.len)

/-- May the request at an index be served now: it does not wait for a retry, its frame is not under conversion (R74), no older request, one in
retry included, is to its slot, and no older request has been passed 32 times (R80). -/
def mayServe (s : State) (c : PseudoChan) (i : Nat) : Bool :=
  match c.queue[i]? with
  | none => false
  | some r =>
    r.fails == 0 && !s.conv.any (fun f => touchesFrame f r.q) &&
      (c.queue.take i).all (fun o => !sameSlot o.q r.q && decide (o.passed < 32))

/-- The request served: the chosen one where the order rules allow it, else the first that they allow. [DEDUCED 19] -/
def servePick (s : State) (c : PseudoChan) (pick : Nat) : Option Nat :=
  if mayServe s c pick then some pick else (List.range c.queue.length).find? (mayServe s c)

/-- The older requests of a queue, passed once more (R80). -/
def passOlder (l : List QReq) : List QReq := l.map (fun o => { o with passed := o.passed + 1 })

/-- Take a request out of the reorder queue, counting that it passed the older ones (R80). -/
def takeQueue (c : PseudoChan) (i : Nat) : PseudoChan := { c with queue := passOlder (c.queue.take i) ++ c.queue.drop (i + 1) }

/-- A request whose first attempt met a parity error keeps its place and waits for its retry (R77, R80). -/
def toRetry (c : PseudoChan) (i : Nat) (r : QReq) : PseudoChan :=
  { c with queue := passOlder (c.queue.take i) ++ { r with fails := 1 } :: c.queue.drop (i + 1) }

/-- The code word at an address keeps an error that its code does not correct. -/
def markBad (pa : Nat) (s : State) : State := { s with bad := setIns s.bad (pa / codeBytes s pa * codeBytes s pa) }

/-- An error beyond the guarantees of the code that the code accepts or miscorrects: the data of the word, and in class A its scale, are from
then on what the free values say, with no status and no record (R73). [DESIGN CHOICE 168] -/
def silentError (pa : Nat) (s : State) : State :=
  let n := codeBytes s pa
  let s1 := freeRuns [(pa / n * n, n)] s
  if regionOf pa = .hbm ∧ isClassA s pa then
    let (k, s2) := s1.drawFree
    s2.setScale pa ((Config.freeWord k).toNat % 256)
  else s1

/-- The effect of what a read met on a code word (R73): a single wrong symbol is corrected in class W and detected in class A; more are
detected in both, or accepted beyond the guarantees. -/
def applyHbmEvent (ev : HbmEvent) (pa : Nat) (s : State) : State :=
  match ev with
  | .oneSymbol => if isClassA s pa then markBad pa s else s.count (hbmPc s pa / 32) Reg.MEM_STK_CE 1
  | .manySymbols => markBad pa s
  | .silent => silentError pa s
  | .clean | .parity => s

/-- Does a write read a code word first (R76). -/
def partWrite (s : State) (pa n : Nat) : Bool := pa % codeBytes s pa != 0 || (pa + n) % codeBytes s pa != 0

/-- The address whose code word an access reads: the first of a read; for a write the word that it covers in part, the first before the last
(R76). -/
def readWord (q : MemReq) (s : State) : Nat :=
  if q.wdata.isNone ∨ q.pa % codeBytes s q.pa ≠ 0 then q.pa else q.pa + q.len - 1

/-- Serve a memory request and answer its requester (R76, R78). -/
def serveMem (q : MemReq) (s : State) : State :=
  match q.wdata with
  | none =>
    match servedRead { rid := q.rid } q.pa q.len s with
    | (.ok d, s1) => memAnswer q { st := .ok } d s1
    | (.error f, s1) => memAnswer q f [] s1
  | some d =>
    match servedWrite { rid := q.rid } q.pa d none s with
    | (.ok _, s1) => memAnswer q { st := .ok } [] s1
    | (.error f, s1) => memAnswer q f [] s1

/-- A request of a pseudo-channel that is served without a parity error. -/
def serveHbm (q : MemReq) (ev : HbmEvent) (s : State) : State :=
  if q.wdata.isNone ∨ partWrite s q.pa q.len then serveMem q (applyHbmEvent ev (readWord q s) s) else serveMem q s

/-- A request that fails because its pseudo-channel is failed or its stack fenced (R77, R82). -/
def failDown (p : Nat) (q : MemReq) (s : State) : State :=
  memAnswer q (mkFail .memUncorrectable ((pcDown s p).getD 0)) [] (s.count p Reg.MEM_PC_UE 1)

/-- Fail every request of a pseudo-channel (R77, R82). -/
def failAll (p : Nat) (s : State) : State :=
  let c := s.pc p
  let qs := c.queue.map (·.q) ++ c.waiting.map (·.1)
  qs.foldl (fun t q => failDown p q t) (s.setPc p { c with waiting := [], queue := [] })

/-- Serve one request of the reorder queue; a parity error sends it to the retry of R77. -/
def serveOne (p pick : Nat) (ev : HbmEvent) (s : State) : State :=
  let c := s.pc p
  match servePick s c pick with
  | none => s
  | some i =>
    match c.queue[i]? with
    | none => s
    | some r =>
      match ev with
      | .parity => s.setPc p (toRetry c i r)
      | _ => serveHbm r.q ev (s.setPc p (takeQueue c i))

/-- Requests of this pseudo-channel among those that arrive. -/
def arriving (p : Nat) (s : State) (l : List MemReq) : List MemReq :=
  l.filter (fun q => regionOf q.pa = .hbm ∧ hbmPc s q.pa = p ∧ q.len ≠ 0)

/-- Requests arrive at a pseudo-channel in one cycle. -/
def PseudoChan.arrive (c : PseudoChan) (l : List MemReq) : PseudoChan :=
  { c with waiting := c.waiting ++ l.map (fun q => (q, c.cyc)), cyc := c.cyc + 1 }

/-- HBM_ACCESS: requests arrive, one is admitted by the class shares, one is served from the reorder queue (R34, R80). -/
def execHbmAccess (pc : Fin 1024) (arrive : List MemReq) (pick : Nat) (ev : HbmEvent) (s : State) :
    Host.Outcome State Fault Refusal :=
  let p := pc.val
  let s1 := s.setPc p ((s.pc p).arrive (arriving p s arrive))
  .next (if s.rf 0 Reg.MEM_STATUS 1 1 = 0 then s else if (pcDown s p).isSome then failAll p s1 else serveOne p pick ev (admitOne p s1))

/-- The pseudo-channel is marked failed after the fourth attempt: recorded once, its requests fail (R77). -/
def failPc (p : Nat) (q : MemReq) (s : State) : State :=
  let s1 := s.setRf p Reg.MEM_PC 0 0 1
  let s2 := s1.setRf 0 Reg.MEM_FAILED_PCS 10 0 (s1.rf 0 Reg.MEM_FAILED_PCS 10 0 + 1)
  let (seq, s3) := writeFaultId
    { cls := .hbmPcFailed, status := .memUncorrectable, disp := .reported, req := q.rid, unit := p, pa := q.pa,
      body := memBody { rid := q.rid } (b2n (isClassA s q.pa)) 0xFF p 4 } s2
  failAll p { s3 with faults := { s3.faults with pcRoot := SMap.put s3.faults.pcRoot p seq } }

/-- INTERFACE_RETRY: one retry of the oldest request in retry; the fourth failed attempt fails the pseudo-channel (R77). -/
def execInterfaceRetry (pc : Fin 1024) (fails : Bool) (s : State) : Host.Outcome State Fault Refusal :=
  let p := pc.val
  let c := s.pc p
  match c.queue.findIdx? (fun r => r.fails != 0) with
  | none => .next s
  | some i =>
    match c.queue[i]? with
    | none => .next s
    | some r =>
      let s1 := s.count p Reg.MEM_PC_RETRY 1
      if fails then
        if r.fails + 1 ≥ 4 then .next (failPc p r.q s1)
        else .next (s1.setPc p { c with queue := c.queue.set i { r with fails := r.fails + 1 } })
      else .next (serveHbm r.q .clean (s1.setPc p { c with queue := c.queue.eraseIdx i }))

/-- Requests to a frame that were issued before its class is written complete under the old class (R74). [DEDUCED 33] -/
def completeFrame (f : Nat) (s : State) : State :=
  s.pcs.foldl (fun t e =>
    let c := t.pc e.1
    let qs := (c.queue.map (·.q)).filter (touchesFrame f) ++ (c.waiting.map (·.1)).filter (touchesFrame f)
    if qs = [] then t
    else
      qs.foldl (fun u q => serveHbm q .clean u) (t.setPc e.1 { c with
        queue := c.queue.filter (fun r => !touchesFrame f r.q), waiting := c.waiting.filter (fun w => !touchesFrame f w.1) })) s

/-- Change the class of one frame: zeros and valid codes for the new class, scale 127 in class A; the frame is then under
conversion (R74). [DEDUCED 33] -/
def convertFrame (f : Nat) (a : Bool) (s : State) : State :=
  let z := zeroRange (f * 0x200000) 0x200000 s
  { z with scales := z.scales.filter (fun e => e.1 / 0x10000 ≠ f),
           classA := if a then setIns z.classA f else setDel z.classA f,
           conv := setIns z.conv f }

/-- The frames of a MEM_FCLASS_DATA write whose class changes. -/
def changedFrames (idx : Nat) (old new : W32) : List (Nat × Bool) :=
  ((List.range 32).filter (fun i => bit old.toNat i != bit new.toNat i)).map (fun i => (32 * idx + i, bit new.toNat i))

/-- The effect of a MEM_FCLASS_DATA write: conversions of the changed frames, FCLASS_BUSY while there are any (R74). [DEDUCED 33] -/
def fclassEffect (idx : Nat) (old new : W32) (s : State) : State :=
  match changedFrames idx old new with
  | [] => s
  | fs => (fs.foldl (fun t f => convertFrame f.1 f.2 (completeFrame f.1 t)) s).setRf 0 Reg.MEM_STATUS 2 2 1

/-- A MEM_FCLASS_DATA write; held while earlier conversions run (R74). -/
def fclassWrite (a : RegAcc) (s : State) : State :=
  if s.conv ≠ [] then { s with convHeld := s.convHeld ++ [a] }
  else writeReg { effect := fun i o n _ t => fclassEffect i o n t } a s

/-- FCLASS_DATA_WRITE (R74). -/
def execFclassDataWrite (port : Port) (val : W32) (rid : W16) (s : State) : Host.Outcome State Fault Refusal :=
  let a : RegAcc := ⟨port, Reg.MEM_FCLASS_DATA, val, rid.toNat⟩
  .next (portTurn a (fclassWrite a) s)

/-- Release the held writes in order: each is applied once no conversion runs, else it is held again (R74). [DEDUCED 33] -/
def releaseHeld (s : State) : State :=
  s.convHeld.foldl (fun t a => fclassWrite a t) { s with convHeld := [] }

/-- One frame's conversion ends; FCLASS_BUSY clears with the last (R74). -/
def endConversion (frame : Nat) (s : State) : State :=
  if s.conv.contains frame then
    let s1 := { s with conv := setDel s.conv frame }
    if s1.conv = [] then releaseHeld (s1.setRf 0 Reg.MEM_STATUS 2 2 0) else s1
  else s

/-- The next class W word at or after an address: class A frames are passed over (R79); `k` bounds the frames passed. -/
def nextScrub (s : State) : Nat → Nat → Nat
  | 0, pa => pa
  | k + 1, pa => if isClassA s pa then nextScrub s k ((frameOf pa + 1) * 0x200000 % hbmEnd) else pa

/-- The record of an uncorrectable word found by the scrubber (R79, R470). -/
def scrubRecord (s : State) (pa unit : Nat) : FaultIn :=
  { cls := .scrubUe, status := .memUncorrectable, disp := .reported, unit := unit, pa := pa,
    body := memBody { rid := 0 } (if regionOf pa = .hbm then b2n (isClassA s pa) else 2) 0xFF unit 0 }

/-- One scrub read of a word: a correctable error is written back and counted, an uncorrectable one recorded and left (R79). -/
def scrubWord (pa unit ceInst ceOff : Nat) (ev : HbmEvent) (s : State) : State :=
  let s1 := match ev with
    | .manySymbols => markBad pa s
    | .oneSymbol => s.count ceInst ceOff 1
    | .silent => silentError pa s
    | .clean | .parity => s
  if s1.bad.contains pa then writeFault (scrubRecord s1 pa unit) (countUe s1 pa) else s1

/-- Requester number of the checkpoint engine (R37); the patrol scrubber shares its class (R79). -/
def ckpRid : Nat := 0x0090

/-- A scrub read is admitted in the CKPT class (R34, R79). [DEDUCED 169] -/
def scrubReach (pa : Nat) (s : State) : State := (unitReach { rid := ckpRid } pa 64 s).2

/-- SCRUB_READ: the patrol scrubber's next word of HBM or of tier 2; a period of 0 stops it, and it yields to a running checkpoint list
(R79). [DEDUCED 169] -/
def execScrubRead (tier2 : Bool) (ev : HbmEvent) (s : State) : Host.Outcome State Fault Refusal :=
  if s.ckp.isSome then .next s
  else if tier2 then
    if s.rf 0 Reg.T2_CTRL 7 0 = 0 ∨ s.rf 0 Reg.T2_STATUS 1 1 = 0 ∨ s.t2Count = 0 then .next s
    else
      let pa := t2Base + s.scrubT2
      let s1 := scrubReach pa { s with scrubT2 := (s.scrubT2 + 64) % s.t2Bytes }
      .next (scrubWord pa (t2Pkg s pa) (t2Pkg s pa) Reg.T2_PKG_CE ev s1)
  else if s.rf 0 Reg.MEM_CTRL 15 8 = 0 ∨ s.rf 0 Reg.MEM_STATUS 1 1 = 0 then .next s
  else
    let pa := nextScrub s (s.classA.length + 1) s.scrubHbm
    let s1 := { s with scrubHbm := (pa + 64) % hbmEnd }
    if isClassA s pa ∨ (pcDown s (hbmPc s pa)).isSome then .next s1
    else .next (scrubWord pa (hbmPc s pa) (hbmPc s pa / 32) Reg.MEM_STK_CE ev (scrubReach pa s1))

/-- The thermal state after a poll (R81): up at the thresholds 85, 95 and 105 °C, down 3 °C below the one left; one poll at or below 82 °C
takes a Hot stack to Normal. [DESIGN CHOICE 170] -/
def nextThermal (old t : Nat) : Nat :=
  let up := if t ≥ 105 then 3 else if t ≥ 95 then 2 else if t ≥ 85 then 1 else 0
  if old = 3 then 3
  else if up ≥ old then up
  else if old = 2 then (if t ≤ 82 then 0 else if t ≤ 92 then 1 else 2)
  else if t ≤ 82 then 0 else 1

/-- Record of a thermal state change (R81, R82, R478). [DEDUCED 24] -/
def thermalRecord (stack old new t : Nat) : FaultIn :=
  { cls := .hbmThermal, status := if new = 3 then .memUncorrectable else .ok,
    disp := if new = 3 then .reported else .notice, unit := stack * 32,
    body := leBytes 1 stack ++ leBytes 1 old ++ leBytes 1 new ++ leBytes 1 t }

/-- A stack turns Critical: fenced, its requests fail (R82). -/
def fenceStack (stack : Nat) (s : State) : State :=
  let s1 := s.setRf 0 Reg.MEM_FENCED_MAP stack stack 1
  (List.range 32).foldl (fun t i =>
    if (SMap.get? t.pcs (stack * 32 + i)).isSome then failAll (stack * 32 + i) t else t) s1

/-- COL_FACTOR: 2 while any stack is Hot, else 1; a thermal change makes the engine send SLOW (R83, R382). -/
def thermalToCol (s : State) : State :=
  let hot := (List.range 32).any (fun k => s.rf k Reg.MEM_TEMP 9 8 == 2)
  { s.setReg 0 Reg.COL_FACTOR (if hot then 2 else 1) with slowDue := true }

/-- The poll of one stack (R81, R82). -/
def pollStack (stack t : Nat) (s : State) : State :=
  let old := s.rf stack Reg.MEM_TEMP 9 8
  let new := nextThermal old t
  let s1 := (s.setRf stack Reg.MEM_TEMP 7 0 t).setRf stack Reg.MEM_TEMP 9 8 new
  if new = old then s1
  else
    let s2 := s1.setRf 0 Reg.MEM_HOT_MAP stack stack (if new ≥ 2 then 1 else 0)
    let (q, s3) := writeFaultId (thermalRecord stack old new t) s2
    let s4 := if new = 3 then
        fenceStack stack { s3 with faults := { s3.faults with stkRoot := SMap.put s3.faults.stkRoot stack q } } else s3
    raiseEvt .thermal (thermalToCol s4)

/-- THERMAL_POLL: the temperatures of the stacks, in order, at one poll (R81); a stack without a reading keeps its own. -/
def execThermalPoll (temps : List Nat) (s : State) : Host.Outcome State Fault Refusal :=
  if s.rf 0 Reg.MEM_STATUS 0 0 = 0 then .next s
  else .next ((List.range 32).foldl (fun t k => match temps[k]? with
    | some c => pollStack k c t
    | none => t) s)

end Sys2Proof.Machine
end

