-- ==== Sys2Proof/Machine/ScalarMem.lean ====
section
/-! DEFINITION. Machine/ScalarMem.lean: scalar and descriptor loads and stores, descriptor registers (R164, R165), and the issue of
Pool atomics and of red (R167, R168). -/

namespace Sys2Proof.Machine

/-- The address sa + IMM modulo 2^64 (R164). -/
def memAddr (x : Thread) (w : Nat) : Nat := (x.sreg (iRa w) + iImmS w).toNat

/-- May a scalar access reach a physical address: an SRAM window or the Pool, a store not into a program store (R164). -/
def scalarPlace (store : Bool) (pa : Nat) : Bool :=
  match regionOf pa with
  | .pool => true
  | .sram _ o => !(store && decide (0x1E00000 ≤ o))
  | _ => false

/-- Is a physical address in the Pool (R89). -/
def inPool (pa : Nat) : Bool := decide (regionOf pa = .pool)

/-- The checks of R164 in their order: address bits, translation and permissions, place, alignment. -/
def checkedPa (c : Ctx) (va : Nat) (need : Perm) (place : Nat → Bool) (align : Nat) (s : State) : MRes Nat :=
  if va ≥ 2 ^ 48 then (.error { st := .translationFault, va := va }, s)
  else
    match translate { c with va := va } va need s with
    | (.error f, s1) => (.error { f with va := va }, s1)
    | (.ok pa, s1) =>
      if !place pa then (.error { st := .protectionFault, va := va }, s1)
      else if pa % align ≠ 0 then (.error { st := .alignment, va := va }, s1)
      else (.ok pa, s1)

/-- Bytes of a class 0x4 access (R164). -/
def accessLen (func : Nat) : Nat :=
  match func with
  | 0x0 | 0x4 | 0x8 => 1
  | 0x1 | 0x5 | 0x9 => 2
  | 0x2 | 0x6 | 0xA => 4
  | 0x3 | 0xB => 8
  | _ => 64

/-- Write loaded data: a scalar, zero- or sign-extended, or a descriptor (R164). -/
def loadInto (func rd : Nat) (d : List Byte) (x : Thread) : Thread :=
  let v := leNat d
  match func with
  | 0x4 => x.setS rd ((BitVec.ofNat 8 v).signExtend 64)
  | 0x5 => x.setS rd ((BitVec.ofNat 16 v).signExtend 64)
  | 0x6 => x.setS rd ((BitVec.ofNat 32 v).signExtend 64)
  | 0xC => x.setD rd (BitVec.ofNat 512 v)
  | _ => x.setS rd (BitVec.ofNat 64 v)

/-- Issue of a load: the thread waits for the data (R152, R165). -/
def loadIssue (func : Nat) (a : Fin 96) (t : Fin 64) (s : State) : State :=
  issue 0x4 func (fun w _ u => waitFor a.val t.val (.load func (iRd w) (memAddr (u.th a.val t.val) w)) u) a.val t.val s

/-- The bytes a store writes (R164). -/
def storeData (func w : Nat) (x : Thread) : List Byte :=
  if func = 0xD then leBytes 64 (x.dreg (iRd w)).toNat else leBytes (accessLen func) (x.sreg (iRb w)).toNat

/-- A posted store, applied as it issues; its failure halts the thread (R164, R165, R178). -/
def storeNow (func a t w : Nat) (s : State) : State :=
  let x := s.th a t
  let c := thrCtx s a t
  match checkedPa c (memAddr x w) .w (scalarPlace true) (accessLen func) s with
  | (.error f, s1) => haltThread a t { fail := f } s1
  | (.ok pa, s1) =>
    match physWrite { c with va := memAddr x w } pa (storeData func w x) none s1 with
    | (.error f, s2) => haltThread a t { fail := { f with va := memAddr x w } } s2
    | (.ok _, s2) => advance a t w s2

/-- A class 0x4 store. -/
def storeIssue (func : Nat) (a : Fin 96) (t : Fin 64) (s : State) : State :=
  issue 0x4 func (fun w _ u => storeNow func a.val t.val w u) a.val t.val s

/-- What a read of an SRAM or Pool word met: one wrong bit is corrected and counted, two are an error (R88, R470). -/
def applyBitErr (ev : BitErr) (pa : Nat) (s : State) : State :=
  match ev with
  | .none => s
  | .one => if inPool pa then s.count (poolBank pa) Reg.POOL_BANK_CE 1 else s.count 0 Reg.FLT_SRAM_CE 1
  | .two => markBad ((backing s pa).getD pa) s

/-- The data of a waiting load: checks, read, and the register write (R164, R165). -/
def finishLoad (a t func rd va : Nat) (ev : BitErr) (s : State) : State :=
  let c := thrCtx s a t
  match checkedPa c va .r (scalarPlace false) (accessLen func) s with
  | (.error f, s1) => haltThread a t { fail := f } s1
  | (.ok pa, s1) =>
    match physRead { c with va := va } pa (accessLen func) (applyBitErr ev pa s1) with
    | (.error f, s2) => haltThread a t { fail := { f with va := va } } s2
    | (.ok d, s2) =>
      let s3 := s2.setTh a t (loadInto func rd d (s2.th a t))
      resume a t 0 0 s3

/-- The result of a served atomic or semaphore operation reaches its thread (R165, R167, R174). -/
def finishAtomic (a t rd : Nat) (s : State) : State :=
  match SMap.get? s.poolDone (thrReq a t) with
  | none => s
  | some (f, v) =>
    let s1 := { s with poolDone := SMap.del s.poolDone (thrReq a t) }
    if f.st = .ok then resume a t rd (BitVec.ofNat 64 v) s1 else haltThread a t { fail := f } s1

/-- LOAD_DATA_RETURN (R165): data or an old value return; a failing access halts the thread (R178). -/
def execLoadDataReturn (a : Fin 96) (t : Fin 64) (ev : BitErr) (s : State) : Host.Outcome State Fault Refusal :=
  let x := s.th a.val t.val
  if x.st ≠ .wait then .next s
  else
    match x.wait with
    | .load func rd va => .next (finishLoad a.val t.val func rd va ev s)
    | .atom rd | .semP rd => .next (finishAtomic a.val t.val rd s)
    | _ => .next s

/-- Base field of a descriptor register (R183). -/
def setBase (d : BitVec 512) (v : Nat) : BitVec 512 := BitVec.ofNat 512 (putBits d.toNat 47 0 v)

/-- dset.base and dadd.base: write the base field of dn (R164). -/
def writeBase (a t w : Nat) (f : Nat → W64 → Nat) (s : State) : State :=
  let x := s.th a t
  let d := x.dreg (iRd w)
  advance a t w (s.setTh a t (x.setD (iRd w) (setBase d (f (bits d.toNat 47 0) (x.sreg (iRa w))))))

/-- Put a request at its Pool bank (R91). -/
def poolPush (q : PoolReq) (s : State) : State :=
  let b := poolBank q.pa
  { s with pool := SMap.put s.pool b (SMap.getD s.pool b [] ++ [{ q with cyc := s.poolCyc }]) }

/-- Issue of a Pool atomic or semaphore operation: the checks of R89 in the order of R164, then the thread waits for the old value. -/
def poolIssue (a t w width : Nat) (op : PoolOp) (k : Wait) (s : State) : State :=
  let x := s.th a t
  match checkedPa (thrCtx s a t) (memAddr x w) .rw inPool width s with
  | (.error f, s1) => haltThread a t { fail := f } s1
  | (.ok pa, s1) => waitFor a t k (poolPush ⟨thrReq a t, memAddr x w, pa, op, 0, 0, false⟩ s1)

/-- The operation of an atomic with its operand (R167). -/
def atomOp (func : Nat) (v old : Nat) : PoolOp :=
  match func with
  | 0x0 => .add .fp32 (v % 2 ^ 32)
  | 0x1 => .add .bf16 (v % 2 ^ 16)
  | 0x2 => .add .i32 (v % 2 ^ 32)
  | 0x3 => .max .fp32 (v % 2 ^ 32)
  | 0x4 => .max .bf16 (v % 2 ^ 16)
  | 0x5 => .max .i32 (v % 2 ^ 32)
  | 0x6 => .min .fp32 (v % 2 ^ 32)
  | 0x7 => .min .bf16 (v % 2 ^ 16)
  | 0x8 => .min .i32 (v % 2 ^ 32)
  | 0x9 => .swap 4 (v % 2 ^ 32)
  | 0xA => .swap 8 v
  | _ => .cas old v

/-- Element width of a Pool operation in bytes (R91). -/
def poolWidth : PoolOp → Nat
  | .add f _ | .max f _ | .min f _ => fmtBits f / 8
  | .swap w _ => w
  | .cas _ _ => 8
  | .semP | .semV => 4
  | .redAdd _ _ | .redMax _ _ | .redMin _ _ | .redPair _ => 256
  | .read n => n
  | .write d => d.length

/-- A class 0x5 atomic (R167). -/
def atomIssue (func : Nat) (a : Fin 96) (t : Fin 64) (s : State) : State :=
  issue 0x5 func (fun w _ u =>
    let x := u.th a.val t.val
    let op := atomOp func (x.sreg (iRb w)).toNat (x.sreg (iRd w)).toNat
    poolIssue a.val t.val w (poolWidth op) op (.atom (iRd w)) u) a.val t.val s

/-- The operation of red with its 256 bytes (R168). -/
def redOp (kind : Nat) (d : List Byte) : PoolOp :=
  match kind with
  | 0 => .redAdd .fp32 d
  | 1 => .redAdd .bf16 d
  | 2 => .redAdd .i32 d
  | 3 => .redMax .fp32 d
  | 4 => .redMax .bf16 d
  | 5 => .redMax .i32 d
  | 6 => .redMin .fp32 d
  | 7 => .redMin .bf16 d
  | 8 => .redMin .i32 d
  | _ => .redPair d

/-- Does a physical address lie in the local memory of the array that carries a logical number (R28, R168). -/
def inOwnLocal (s : State) (a pa : Nat) : Bool :=
  match regionOf pa with
  | .sram n o => decide (servingArray s n = physOf s a) && decide (o < 0x1800000)
  | _ => false

/-- The work of red: both addresses are checked, the source is read, and the reduction goes to its bank (R168). -/
def redStart (a t seq src dst kind : Nat) (s : State) : State :=
  let c := thrCtx s a t
  match checkedPa c src .r (inOwnLocal s a) 256 s with
  | (.error f, s1) => opDone a t seq f s1
  | (.ok ps, s1) =>
    match checkedPa c dst .rw inPool 256 s1 with
    | (.error f, s2) => opDone a t seq f s2
    | (.ok pd, s2) =>
      match physRead { c with va := src } ps 256 s2 with
      | (.error f, s3) => opDone a t seq f s3
      | (.ok d, s3) => poolPush ⟨thrReq a t, dst, pd, redOp kind d, seq + 1, 0, false⟩ s3

/-- red (R168). -/
def execRed (a : Fin 96) (t : Fin 64) (s : State) : Host.Outcome State Fault Refusal :=
  .next (issue 0x5 0xC (fun w _ u =>
    let x := u.th a.val t.val
    issueAsync a.val t.val 10 w
      (fun q v => redStart a.val t.val q (x.sreg (iRa w)).toNat (x.sreg (iRb w)).toNat (iImm w % 16) v) u) a.val t.val s)

/-- Class 0x4 load, function 0x0 (R164, R165). -/
def execLdB (a : Fin 96) (t : Fin 64) (s : State) : Host.Outcome State Fault Refusal := .next (loadIssue 0x0 a t s)

/-- Class 0x4 load, function 0x1 (R164, R165). -/
def execLdH (a : Fin 96) (t : Fin 64) (s : State) : Host.Outcome State Fault Refusal := .next (loadIssue 0x1 a t s)

/-- Class 0x4 load, function 0x2 (R164, R165). -/
def execLdW (a : Fin 96) (t : Fin 64) (s : State) : Host.Outcome State Fault Refusal := .next (loadIssue 0x2 a t s)

/-- Class 0x4 load, function 0x3 (R164, R165). -/
def execLdD (a : Fin 96) (t : Fin 64) (s : State) : Host.Outcome State Fault Refusal := .next (loadIssue 0x3 a t s)

/-- Class 0x4 load, function 0x4 (R164, R165). -/
def execLdBs (a : Fin 96) (t : Fin 64) (s : State) : Host.Outcome State Fault Refusal := .next (loadIssue 0x4 a t s)

/-- Class 0x4 load, function 0x5 (R164, R165). -/
def execLdHs (a : Fin 96) (t : Fin 64) (s : State) : Host.Outcome State Fault Refusal := .next (loadIssue 0x5 a t s)

/-- Class 0x4 load, function 0x6 (R164, R165). -/
def execLdWs (a : Fin 96) (t : Fin 64) (s : State) : Host.Outcome State Fault Refusal := .next (loadIssue 0x6 a t s)

/-- Class 0x4 load, function 0xC (R164, R165). -/
def execLdDesc (a : Fin 96) (t : Fin 64) (s : State) : Host.Outcome State Fault Refusal := .next (loadIssue 0xC a t s)

/-- Class 0x4 store, function 0x8 (R164, R165). -/
def execStB (a : Fin 96) (t : Fin 64) (s : State) : Host.Outcome State Fault Refusal := .next (storeIssue 0x8 a t s)

/-- Class 0x4 store, function 0x9 (R164, R165). -/
def execStH (a : Fin 96) (t : Fin 64) (s : State) : Host.Outcome State Fault Refusal := .next (storeIssue 0x9 a t s)

/-- Class 0x4 store, function 0xA (R164, R165). -/
def execStW (a : Fin 96) (t : Fin 64) (s : State) : Host.Outcome State Fault Refusal := .next (storeIssue 0xA a t s)

/-- Class 0x4 store, function 0xB (R164, R165). -/
def execStD (a : Fin 96) (t : Fin 64) (s : State) : Host.Outcome State Fault Refusal := .next (storeIssue 0xB a t s)

/-- Class 0x4 store, function 0xD (R164, R165). -/
def execStDesc (a : Fin 96) (t : Fin 64) (s : State) : Host.Outcome State Fault Refusal := .next (storeIssue 0xD a t s)

/-- dset.base (R164). -/
def execDsetBase (a : Fin 96) (t : Fin 64) (s : State) : Host.Outcome State Fault Refusal :=
  .next (issue 0x4 0xE (fun w _ u => writeBase a.val t.val w (fun _ v => v.toNat) u) a.val t.val s)

/-- dadd.base (R164). -/
def execDaddBase (a : Fin 96) (t : Fin 64) (s : State) : Host.Outcome State Fault Refusal :=
  .next (issue 0x4 0xF (fun w _ u =>
    writeBase a.val t.val w (fun b v => b + v.toNat + (iImmS w).toNat) u) a.val t.val s)

/-- Pool atomic, function 0x0 (R167). -/
def execAtomAddF32 (a : Fin 96) (t : Fin 64) (s : State) : Host.Outcome State Fault Refusal := .next (atomIssue 0x0 a t s)

/-- Pool atomic, function 0x1 (R167). -/
def execAtomAddBf16 (a : Fin 96) (t : Fin 64) (s : State) : Host.Outcome State Fault Refusal := .next (atomIssue 0x1 a t s)

/-- Pool atomic, function 0x2 (R167). -/
def execAtomAddI32 (a : Fin 96) (t : Fin 64) (s : State) : Host.Outcome State Fault Refusal := .next (atomIssue 0x2 a t s)

/-- Pool atomic, function 0x3 (R167). -/
def execAtomMaxF32 (a : Fin 96) (t : Fin 64) (s : State) : Host.Outcome State Fault Refusal := .next (atomIssue 0x3 a t s)

/-- Pool atomic, function 0x4 (R167). -/
def execAtomMaxBf16 (a : Fin 96) (t : Fin 64) (s : State) : Host.Outcome State Fault Refusal := .next (atomIssue 0x4 a t s)

/-- Pool atomic, function 0x5 (R167). -/
def execAtomMaxI32 (a : Fin 96) (t : Fin 64) (s : State) : Host.Outcome State Fault Refusal := .next (atomIssue 0x5 a t s)

/-- Pool atomic, function 0x6 (R167). -/
def execAtomMinF32 (a : Fin 96) (t : Fin 64) (s : State) : Host.Outcome State Fault Refusal := .next (atomIssue 0x6 a t s)

/-- Pool atomic, function 0x7 (R167). -/
def execAtomMinBf16 (a : Fin 96) (t : Fin 64) (s : State) : Host.Outcome State Fault Refusal := .next (atomIssue 0x7 a t s)

/-- Pool atomic, function 0x8 (R167). -/
def execAtomMinI32 (a : Fin 96) (t : Fin 64) (s : State) : Host.Outcome State Fault Refusal := .next (atomIssue 0x8 a t s)

/-- Pool atomic, function 0x9 (R167). -/
def execAtomSwapW (a : Fin 96) (t : Fin 64) (s : State) : Host.Outcome State Fault Refusal := .next (atomIssue 0x9 a t s)

/-- Pool atomic, function 0xA (R167). -/
def execAtomSwapD (a : Fin 96) (t : Fin 64) (s : State) : Host.Outcome State Fault Refusal := .next (atomIssue 0xA a t s)

/-- Pool atomic, function 0xB (R167). -/
def execAtomCasD (a : Fin 96) (t : Fin 64) (s : State) : Host.Outcome State Fault Refusal := .next (atomIssue 0xB a t s)

end Sys2Proof.Machine
end

