-- ==== Sys2Proof/Machine/Desc.lean ====
section
/-! DEFINITION. Machine/Desc.lean: tensor descriptors (R183 to R185), their layouts and element addresses (R186 to R196), bounds and
padding (R197 to R200), and reading and writing the elements of a tensor with their block scales (R75, R76, R188 to R191). -/

namespace Sys2Proof.Machine

/-- A tensor descriptor (R183, R184). -/
structure Desc where
  base   : Nat
  fmt    : Nat
  layout : Nat
  rank   : Nat
  pad    : Nat
  scale  : Nat
  padwr  : Bool
  sp24   : Bool
  padval : Nat
  size   : List Nat
  stride : List Int
deriving DecidableEq, Repr

/-- The fields of a descriptor word (R183, R184). -/
def Desc.ofWord (b : BitVec 512) : Desc :=
  let v := b.toNat
  { base := bits v 47 0, fmt := bits v 51 48, layout := bits v 54 52, rank := bits v 57 55, pad := bits v 59 58,
    scale := bits v 61 60, padwr := bit v 62, sp24 := bit v 63, padval := bits v 79 64,
    size := (List.range 6).map (fun d => bits v (80 + 72 * d + 31) (80 + 72 * d)),
    stride := (List.range 6).map (fun d => toSigned 40 (bits v (80 + 72 * d + 71) (80 + 72 * d + 32))) }

/-- Element format of an FMT code (R183). -/
def fmtOf (c : Nat) : Fmt :=
  match c with
  | 0 => .e4m3 | 1 => .e5m2 | 2 => .i8s | 3 => .i8u | 4 => .i4s | 5 => .i4u | 6 => .bf16 | 7 => .fp32 | _ => .i32

/-- Element format of a descriptor. -/
def Desc.f (d : Desc) : Fmt := fmtOf d.fmt

/-- Is the element format 4 bits wide. -/
def Desc.four (d : Desc) : Bool := fmtBits d.f == 4

/-- SIZE of a dimension in an iteration space: 1 at and above RANK (R185). -/
def Desc.dim (d : Desc) (i : Nat) : Nat := if i < d.rank then d.size.getD i 1 else 1

/-- Sizes of the iteration space. -/
def Desc.dims (d : Desc) : List Nat := (List.range 6).map d.dim

/-- Elements of the iteration space. -/
def Desc.count (d : Desc) : Nat := d.dims.foldl (· * ·) 1

/-- Stride of a dimension. -/
def Desc.str (d : Desc) (i : Nat) : Int := d.stride.getD i 0

/-- The index vector of a linear index (R201). -/
def idxOf (dims : List Nat) (l : Nat) : List Int :=
  match dims with
  | [] => []
  | n :: r => ((l % n : Nat) : Int) :: idxOf r (l / n)

/-- Dense K positions of a WROW record (R194). -/
def wrowCk (four sp : Bool) : Nat :=
  match four, sp with
  | false, false => 256 | true, false => 512 | false, true => 512 | true, true => 1024

/-- Bytes of a WROW record (R194). -/
def wrowRs (four sp : Bool) : Nat :=
  match four, sp with
  | false, false => 264 | true, false => 272 | false, true => 336 | true, true => 416

/-- Stage 1, first row: reserved codes (R213). -/
def Desc.codesOk (d : Desc) : Bool :=
  decide (1 ≤ d.rank) && decide (d.rank ≤ 6) && decide (d.fmt ≤ 8) && decide (d.layout ≤ 4) && decide (d.scale ≤ 2) &&
    (!d.sp24 || d.layout == 2)

/-- Stage 1, second row: layout, format, rank and SCALE agree (R46, R189, R192). -/
def Desc.formOk (d : Desc) : Bool :=
  match d.layout with
  | 0 => d.scale == 0 || (d.scale == 1 && decide (d.fmt ≤ 3)) || (d.scale == 2 && decide (d.fmt ≤ 5) && decide (d.rank ≤ 5))
  | 4 => d.rank == 2 && decide (7 ≤ d.fmt) && d.scale == 0
  | _ => d.rank == 2 && decide (d.fmt ≤ 5) && d.scale == 0

/-- ACC strides of R196. -/
def Desc.accLanes (d : Desc) : Bool := d.str 0 == 1 && d.str 1 == 256
/-- ACC strides of R196, the other orientation. -/
def Desc.accRows (d : Desc) : Bool := d.str 0 == 256 && d.str 1 == 1

/-- Fields of a CMPR descriptor at and above dimension 2 (R195). -/
def Desc.cmprOk (d : Desc) (raw : Nat) : Bool :=
  d.dim 0 % 256 == 0 && bits raw 295 294 == 0 && bits raw 327 299 == 0 && bits raw 511 328 == 0

/-- Stage 1, third row: sizes of XTILE, WROW, ACC and CMPR, without the place of an ACC base (R193 to R196). -/
def Desc.sizesOk (d : Desc) (raw : Nat) : Bool :=
  match d.layout with
  | 1 => decide (d.dim 0 ≤ 256)
  | 2 => d.dim 0 % wrowCk d.four d.sp24 == 0
  | 3 => d.cmprOk raw
  | 4 => d.accLanes || d.accRows
  | _ => true

/-- Alignment of BASE (R187, R192). -/
def Desc.align (d : Desc) : Nat :=
  match d.layout with
  | 1 | 3 => 256
  | 2 => 64
  | 4 => 4
  | _ =>
    if d.fmt = 6 then 2 else if d.fmt ≥ 7 then 4
    else if d.scale = 0 then 1 else if d.four then 16 else 32

/-- A descriptor made ready for use: its fields, and for ACC its first row and lane and the accumulator's first address. -/
structure View where
  d    : Desc
  acc  : Nat
  row  : Nat
  lane : Nat
deriving DecidableEq, Repr

/-- First address of the accumulator memory of a physical array (R28, R103). -/
def accBase (phys : Nat) : Nat := windowOf phys + 0x1800000

/-- Do the lanes and rows of an ACC descriptor stay in the memory (R196). -/
def accFits (d : Desc) (row lane : Nat) : Bool :=
  if d.accLanes then decide (lane + d.dim 0 ≤ 256) && decide (row + d.dim 1 ≤ 4096)
  else decide (row + d.dim 0 ≤ 4096) && decide (lane + d.dim 1 ≤ 256)

/-- A failure of a descriptor use at its base. -/
def descFail (st : Status) (va : Nat) : Fail := { st := st, va := va }

/-- The failure of an element address outside the address space (R186), with its low 64 bits as the failing address (R214), counted. [DESIGN CHOICE 179] -/
def outOfSpace {α : Type} (va : Int) (s : State) : MRes α :=
  (.error (descFail .translationFault (va % 2 ^ 64).toNat), s.count 0 Reg.MMU_FAULT_COUNT 1)

/-- Does an access of this kind write. -/
def permWrites : Perm → Bool
  | .w | .rw => true
  | _ => false

/-- May a write reach a physical address: not a program store (R188), nor another array's accumulator by accident. -/
def descPlace (pa : Nat) : Bool :=
  match regionOf pa with
  | .sram _ o => decide (o < 0x1E00000)
  | _ => true

/-- Resolve an ACC base: translation, permissions, the issuing array's accumulator memory, bounds (R196); a write aimed at a program store
is forbidden (R188). -/
def accView (c : Ctx) (a : Nat) (d : Desc) (need : Perm) (s : State) : MRes View :=
  match translate { c with va := d.base } d.base need s with
  | (.error f, s1) => (.error { f with va := d.base }, s1)
  | (.ok pa, s1) =>
    match regionOf pa, physOf s1 a with
    | .sram n o, some p =>
      let off := o - 0x1800000
      if servingArray s1 n = some p ∧ 0x1800000 ≤ o ∧ o < 0x1C00000 ∧
          accFits d (off / 1024) (off % 1024 / 4) then
        (.ok ⟨d, accBase p, off / 1024, off % 1024 / 4⟩, s1)
      else if permWrites need ∧ !descPlace pa then (.error (descFail .protectionFault d.base), s1)
      else (.error (descFail .descriptorInvalid d.base), s1)
    | _, _ => (.error (descFail .descriptorInvalid d.base), s1)

/-- Stage 1 of R213 on one descriptor, in table order. -/
def descCheck (c : Ctx) (a : Nat) (raw : BitVec 512) (need : Perm) (s : State) : MRes View :=
  let d := Desc.ofWord raw
  if !d.codesOk || !d.formOk || !d.sizesOk raw.toNat then (.error (descFail .descriptorInvalid d.base), s)
  else if d.layout = 4 then
    match accView c a d need s with
    | (.error f, s1) => (.error f, s1)
    | (.ok v, s1) => if d.base % 4 ≠ 0 then (.error (descFail .alignment d.base), s1) else (.ok v, s1)
  else if d.base % d.align ≠ 0 then (.error (descFail .alignment d.base), s)
  else (.ok ⟨d, 0, 0, 0⟩, s)

/-- Where an element lies: a virtual address, exact and maybe outside the address space, or an accumulator address; for a 4-bit
element which half of the byte. -/
structure Loc where
  va   : Int
  phys : Bool
  hi   : Option Bool
deriving DecidableEq, Repr

/-- Half of the byte of a 4-bit element. -/
def half (four : Bool) (odd : Bool) : Option Bool := if four then some odd else none

/-- Address of a LINEAR element (R186). -/
def linLoc (d : Desc) (idx : List Nat) : Loc :=
  let sum : Int := ((List.range d.rank).map (fun i => (idx.getD i 0 : Int) * d.str i)).foldl (· + ·) 0
  if d.four then ⟨d.base + sum / 2, false, some (sum % 2 != 0)⟩
  else ⟨d.base + sum * ((fmtBits d.f / 8 : Nat) : Int), false, none⟩

/-- Address of an XTILE element (R193). -/
def xtileLoc (d : Desc) (m k : Nat) : Loc :=
  if d.four then ⟨(d.base + k / 64 * 8704 + k % 64 / 2 * 256 + m : Nat), false, some (k % 2 == 1)⟩
  else ⟨(d.base + k / 32 * 8448 + k % 32 * 256 + m : Nat), false, none⟩

/-- Address of the record of a dense WROW element (R194). -/
def wrowRec (d : Desc) (k row : Nat) : Nat :=
  d.base + (row * (d.dim 0 / wrowCk d.four d.sp24) + k / wrowCk d.four d.sp24) * wrowRs d.four d.sp24

/-- Address of a dense WROW element (R194). -/
def wrowLoc (d : Desc) (k row : Nat) : Loc :=
  let kk := k % wrowCk d.four false
  if d.four then ⟨(wrowRec d k row + 16 + kk / 2 : Nat), false, some (kk % 2 == 1)⟩
  else ⟨(wrowRec d k row + 8 + kk : Nat), false, none⟩

/-- Address of an ACC element (R103, R196). -/
def accLoc (v : View) (i0 i1 : Nat) : Loc :=
  let rl := if v.d.accLanes then (v.row + i1, v.lane + i0) else (v.row + i0, v.lane + i1)
  ⟨(v.acc + rl.1 * 1024 + rl.2 * 4 : Nat), true, none⟩

/-- Where an element in bounds lies. -/
def View.loc (v : View) (idx : List Nat) : Loc :=
  match v.d.layout with
  | 0 => linLoc v.d idx
  | 1 => xtileLoc v.d (idx.getD 0 0) (idx.getD 1 0)
  | 4 => accLoc v (idx.getD 0 0) (idx.getD 1 0)
  | _ => wrowLoc v.d (idx.getD 0 0) (idx.getD 1 0)

/-- Where the scale of an element's block lies: nowhere, in the sideband of a word, or in a byte of memory. -/
inductive ScaleLoc where
  | none
  | side (va : Int)
  | byte (va : Int)
deriving DecidableEq, Repr

/-- Bytes of data that one LINEAR scale covers (R189, R190). -/
def Desc.blockBytes (d : Desc) : Int := if d.four then 16 else 32

/-- Number of the block of a LINEAR element, aligned from BASE (R189). -/
def linBlock (d : Desc) (idx : List Nat) : Int := ((linLoc d idx).va - d.base) / d.blockBytes

/-- Where the scale of an element lies (R189, R190, R193, R194). -/
def View.scaleLoc (v : View) (idx : List Nat) : ScaleLoc :=
  let d := v.d
  match d.layout with
  | 0 =>
    if d.scale = 1 then .side (d.base + linBlock d idx * 32)
    else if d.scale = 2 then .byte (d.base + d.str 5 + linBlock d idx) else .none
  | 1 =>
    let m := idx.getD 0 0
    let k := idx.getD 1 0
    if d.four then .byte (d.base + k / 64 * 8704 + 8192 + k % 64 / 32 * 256 + m : Nat)
    else .byte (d.base + k / 32 * 8448 + 8192 + m : Nat)
  | 2 => .byte (wrowRec d (idx.getD 0 0) (idx.getD 1 0) + idx.getD 0 0 % wrowCk d.four false / 32 : Nat)
  | _ => .none

/-- A number that tells the blocks of a tensor apart. -/
def View.block (v : View) (idx : List Nat) : Int :=
  match v.d.layout with
  | 0 => linBlock v.d idx
  | _ => match v.scaleLoc idx with
    | .byte a => a
    | .side a => a
    | .none => 0

/-- MIRROR reflection (R199). -/
def mirror (c : Int) (n : Nat) : Nat :=
  if n ≤ 1 then 0
  else
    let p : Int := 2 * ((n : Int) - 1)
    let m := c % p
    if m < n then m.toNat else (p - m).toNat

/-- The index that PAD substitutes for an out-of-bounds index: none where the value is generated (R198). -/
def padIndex (pad : Nat) (c : Int) (n : Nat) : Option Nat :=
  if n = 0 then none
  else match pad with
    | 0 => some (max 0 (min ((n : Int) - 1) c)).toNat
    | 3 => some (mirror c n)
    | _ => none

/-- What a read at an index vector uses: an element in bounds, substituted or not, or a generated code (R197, R198). -/
inductive Src where
  | elem (idx : List Nat) (pad : Bool)
  | konst (code : Nat)
deriving DecidableEq, Repr

/-- PADVAL as an element code (R200). -/
def Desc.padCode (d : Desc) : Nat :=
  match d.fmt with
  | 4 | 5 => d.padval % 16
  | 6 => d.padval
  | 7 => d.padval * 65536
  | 8 => ofSigned 32 (toSigned 16 d.padval)
  | _ => d.padval % 256

/-- Is an index vector out of bounds in any dimension (R197). -/
def Desc.outside (d : Desc) (idx : List Int) : Bool :=
  (List.range 6).any (fun i => decide (idx.getD i 0 < 0) || decide (idx.getD i 0 ≥ (d.dim i : Int)))

/-- The source of a read at an index vector (R197 to R200). -/
def Desc.src (d : Desc) (idx : List Int) : Src :=
  let one := fun i =>
    let c := idx.getD i 0
    if 0 ≤ c ∧ c < (d.dim i : Int) then some c.toNat else padIndex d.pad c (d.dim i)
  let r := (List.range 6).map one
  if r.all Option.isSome then .elem (r.map (fun o => o.getD 0)) (d.outside idx)
  else .konst (if d.pad = 2 then d.padCode else 0)

/-- The runs of accumulator elements a tensor covers: first physical address and length in bytes (R103, R196). Elements of another layout
that lie in accumulator memory count one by one. [DESIGN CHOICE 11] -/
def accRuns (c : Ctx) (a : Nat) (raw : BitVec 512) (need : Perm) (s : State) : List (Nat × Nat) :=
  let d := Desc.ofWord raw
  if d.layout = 4 then
    match accView c a d need s with
    | (.error _, _) => []
    | (.ok v, _) =>
      let rows := if d.accLanes then d.dim 1 else d.dim 0
      let lanes := if d.accLanes then d.dim 0 else d.dim 1
      if lanes = 0 then [] else (List.range rows).map (fun r => (v.acc + (v.row + r) * 1024 + v.lane * 4, 4 * lanes))
  else
    (List.range d.count).filterMap (fun l =>
      let va := (View.loc ⟨d, 0, 0, 0⟩ ((idxOf d.dims l).map Int.toNat)).va
      if va < 0 then none
      else
        match translate { c with va := va.toNat } va.toNat need s with
        | (.error _, _) => none
        | (.ok pa, _) =>
          match regionOf pa with
          | .sram n o =>
            if 0x1800000 ≤ o ∧ o < 0x1C00000 then (servingArray s n).map (fun p => (windowOf p + o, if d.four then 1 else fmtBits d.f / 8)) else none
          | _ => none)

/-- Note the accumulator elements of an operation until its token completes (R225). -/
def noteAcc (u : AccUse) (s : State) : State := if u.runs = [] then s else { s with accUse := s.accUse ++ [u] }

/-- Does an operation of a kind whose token has not completed cover an accumulator element (R225). [DESIGN CHOICE 11] -/
def accOpen (p : AccKind → Bool) (pa : Nat) (s : State) : Bool :=
  s.accUse.any (fun u => p u.kind && u.runs.any (fun r => decide (r.1 ≤ pa) && decide (pa < r.1 + r.2)))

/-- The 4-byte elements of a run from pa, those that p calls undefined replaced by free values (R225). [DESIGN CHOICE 11] -/
def freeElems (p : AccKind → Bool) (pa : Nat) (l : List Byte) (s : State) : List Byte × State :=
  if s.accUse = [] then (l, s)
  else
    (List.range (ceilDiv l.length 4)).foldl (fun x i =>
      if accOpen p (pa + 4 * i) s then
        let (k, s1) := x.2.drawFree
        (x.1 ++ (leBytes 4 (Config.freeWord k).toNat).take (l.length - 4 * i), s1)
      else (x.1 ++ slice l (4 * i) (min 4 (l.length - 4 * i)), x.2)) ([], s)

/-- A vec or dma operation has written a tensor: elements that a stream still adds to are undefined, and the tensor counts as being
written until the token completes (R225). [DESIGN CHOICE 11] -/
def wroteAcc (c : Ctx) (a t seq : Nat) (raw : BitVec 512) (r : MRes Unit) : MRes Unit :=
  match r with
  | (.error f, s) => (.error f, s)
  | (.ok _, s) =>
    let runs := accRuns c a raw .w s
    let s1 := runs.foldl (fun u r =>
      let (l, u1) := freeElems (· == .add) r.1 (rawRead u r.1 r.2) u
      if l = rawRead u r.1 r.2 then u1 else rawWrite u1 r.1 l) s
    (.ok (), noteAcc ⟨a, t, seq, .write, runs⟩ s1)

/-- The context of an access to an accumulator address: the virtual address of the element, counted from BASE, as records name it (R214). -/
def View.ctx (v : View) (c : Ctx) (pa : Nat) : Ctx := { c with va := v.d.base + pa - (v.acc + v.row * 1024 + v.lane * 4), lin := true }

/-- Read bytes at a location: translated, or in the accumulator memory. -/
def readLoc (c : Ctx) (l : Loc) (n : Nat) (s : State) : MRes (List Byte) :=
  if l.phys then physRead c l.va.toNat n s
  else if l.va < 0 ∨ l.va + n > 2 ^ 48 then outOfSpace l.va s
  else vRead c .r l.va.toNat n s

/-- Bytes an element occupies. -/
def Desc.bytes (d : Desc) : Nat := if d.four then 1 else fmtBits d.f / 8

/-- The code in the bytes of a location. -/
def codeIn (l : Loc) (d : List Byte) : Nat :=
  match l.hi with
  | some true => leNat d / 16
  | some false => leNat d % 16
  | none => leNat d

/-- Read the scale of an element (R75, R189, R190). -/
def readScale (c : Ctx) (v : View) (idx : List Nat) (s : State) : MRes Nat :=
  match v.scaleLoc idx with
  | .none => (.ok 127, s)
  | .byte a =>
    match readLoc c ⟨a, false, none⟩ 1 s with
    | (.ok d, s1) => (.ok (leNat d), s1)
    | (.error f, s1) => (.error f, s1)
  | .side a =>
    match translate { c with va := a.toNat } a.toNat .r s with
    | (.error f, s1) => (.error { f with va := a.toNat }, s1)
    | (.ok pa, s1) =>
      if regionOf pa = .hbm ∧ isClassA s1 pa then (.ok (s1.scaleAt pa), s1)
      else (.error (descFail .descriptorInvalid a.toNat), s1)

/-- An element as read: its code, its scale code, and the scale again where it came from memory (R191, R198). -/
structure Elem where
  code  : Nat
  scale : Nat
  mem   : Bool
deriving DecidableEq, Repr

/-- Read one element through a descriptor, with padding (R186 to R200). -/
def readElem (c : Ctx) (v : View) (idx : List Int) (s : State) : MRes Elem :=
  match v.d.src idx with
  | .konst k => (.ok ⟨k, 127, false⟩, s)
  | .elem i _ =>
    let l := v.loc i
    match readLoc (v.ctx c l.va.toNat) l v.d.bytes s with
    | (.error f, s1) => (.error f, s1)
    | (.ok d, s1) =>
      if fmtScaled v.d.f then
        match readScale c v i s1 with
        | (.ok sc, s2) => (.ok ⟨codeIn l d, sc, true⟩, s2)
        | (.error f, s2) => (.error f, s2)
      else (.ok ⟨codeIn l d, 127, true⟩, s1)

/-- The value of an element widened (R45). -/
def Elem.value (f : Fmt) (e : Elem) : Fp := decodeScaled f e.code e.scale

/-- Map over a list, stopping at the first failure. -/
def mapM {α β : Type} (f : α → State → MRes β) : List α → State → MRes (List β)
  | [], s => (.ok [], s)
  | x :: r, s =>
    match f x s with
    | (.error e, s1) => (.error e, s1)
    | (.ok y, s1) =>
      match mapM f r s1 with
      | (.ok ys, s2) => (.ok (y :: ys), s2)
      | (.error e, s2) => (.error e, s2)

/-- One element to be written: its linear index, where, its index vector in the destination, its code, whether it is a pad
element, and the scale of the block it was read from where it came from memory. -/
structure WElem where
  l     : Nat
  idx   : List Nat
  code  : Nat
  pad   : Bool
  scale : Option Nat
deriving DecidableEq, Repr

/-- Elements that are written under PADWR (R203). -/
def padFilter (v : View) (es : List WElem) : List WElem :=
  if !v.d.padwr then es
  else if fmtScaled v.d.f then
    es.filter (fun e => !e.pad || es.any (fun g => !g.pad && v.block g.idx == v.block e.idx))
  else es.filter (fun e => !e.pad)

/-- Order in which colliding writes land: pad elements first, then valid ones, each in ascending linear index (R201, R202). -/
def landOrder (es : List WElem) : List WElem := es.filter (·.pad) ++ es.filter (fun e => !e.pad)

/-- Half-bytes of the final contents, keyed by 2 × address + half. -/
abbrev Nibs := SMap Nat

/-- Put a code of a location into the half-byte map. -/
def putCode (d : Desc) (l : Loc) (code : Nat) (m : Nibs) : Nibs :=
  match l.hi with
  | some h => SMap.put m (2 * l.va.toNat + b2n h) (code % 16)
  | none => (List.range d.bytes).foldl (fun m i =>
      let b := code / 256 ^ i % 256
      SMap.put (SMap.put m (2 * (l.va.toNat + i)) (b % 16)) (2 * (l.va.toNat + i) + 1) (b / 16)) m

/-- Does a written element share its byte with the pad nibble of a LINEAR 4-bit tensor of odd innermost size: it is the last of its row, in
the low half, and no element of the tensor lies in the high half (R43). [DESIGN CHOICE 180] -/
def padNibble (v : View) (e : WElem) : Bool :=
  v.d.four && v.d.layout == 0 && v.d.dim 0 % 2 == 1 && e.idx.getD 0 0 + 1 == v.d.dim 0 && v.d.str 0 == 1 &&
    (v.loc e.idx).hi == some false &&
    (List.range v.d.count).all (fun l => v.loc ((idxOf v.d.dims l).map Int.toNat) != { v.loc e.idx with hi := some true })

/-- The half-byte map of a transfer; the pad nibble of an odd row reads zero afterwards (R43). -/
def nibMap (v : View) (es : List WElem) : Nibs :=
  (landOrder es).foldl (fun m e =>
    let m1 := putCode v.d (v.loc e.idx) e.code m
    if padNibble v e then putCode v.d { v.loc e.idx with hi := some true } 0 m1 else m1) []

/-- The write checks of one element: address range, translation, program store (R186, R188). -/
def checkWrite (c : Ctx) (v : View) (e : WElem) (s : State) : MRes Unit :=
  let l := v.loc e.idx
  if l.phys then (.ok (), s)
  else if l.va < 0 ∨ l.va + v.d.bytes > 2 ^ 48 then outOfSpace l.va s
  else
    match translate { c with va := l.va.toNat } l.va.toNat .w s with
    | (.error f, s1) => (.error { f with va := l.va.toNat }, s1)
    | (.ok pa, s1) =>
      if !descPlace pa then (.error (descFail .protectionFault l.va.toNat), s1)
      else if v.d.scale = 1 ∧ v.d.layout = 0 ∧ ¬(regionOf pa = .hbm ∧ isClassA s1 pa) then
        (.error (descFail .descriptorInvalid l.va.toNat), s1)
      else (.ok (), s1)

/-- Runs of consecutive addresses in an ascending list. -/
def runs : List Nat → List (Nat × Nat)
  | [] => []
  | a :: r =>
    match runs r with
    | (b, n) :: t => if b = a + 1 then (a, n + 1) :: t else (a, 1) :: (b, n) :: t
    | [] => [(a, 1)]

/-- Addresses that a half-byte map touches, ascending. -/
def touched (m : Nibs) : List Nat := (m.map (fun e => e.1 / 2)).dedup

/-- The byte a half-byte map leaves at an address over its old value. -/
def nibByte (m : Nibs) (old : Byte) (a : Nat) : Byte :=
  BitVec.ofNat 8 (SMap.getD m (2 * a) (old.toNat % 16) % 16 + 16 * (SMap.getD m (2 * a + 1) (old.toNat / 16) % 16))

/-- Does a half-byte map hold both halves of every byte of a run. -/
def wholeRun (m : Nibs) (a n : Nat) : Bool :=
  (List.range n).all (fun i => (SMap.get? m (2 * (a + i))).isSome && (SMap.get? m (2 * (a + i) + 1)).isSome)

/-- Write one run; half-written bytes keep their other half (R43). -/
def writeRun (c0 : Ctx) (v : View) (m : Nibs) (r : Nat × Nat) (s : State) : MRes Unit :=
  let phys := v.d.layout == 4
  let c := if phys then v.ctx c0 r.1 else c0
  let put := fun (old : List Byte) (t : State) =>
    let d := (List.range r.2).map (fun i => nibByte m (old.getD i 0) (r.1 + i))
    if phys then physWrite c r.1 d none t else vWrite c r.1 d none t
  if wholeRun m r.1 r.2 then put [] s
  else
    match readLoc c ⟨r.1, phys, none⟩ r.2 s with
    | (.error f, s1) => (.error f, s1)
    | (.ok old, s1) => put old s1

/-- The linear index of an index vector (R201). -/
def linIndex : List Nat → List Nat → Nat
  | n :: d, i :: r => i + n * linIndex d r
  | _, _ => 0

/-- The elements that remain where several land at one place (R201, R202). -/
def lasting (v : View) (es : List WElem) : List WElem :=
  (landOrder es).foldl (fun acc e => acc.filter (fun g => v.loc g.idx != v.loc e.idx) ++ [e]) []

/-- The element whose source block gives a destination block its scale: of those read from memory that remain, the one of the lowest index
(R191). -/
def supplier (v : View) (es : List WElem) (e : WElem) : Option WElem :=
  ((lasting v (es.filter (fun g => v.block g.idx == v.block e.idx))).filter (·.scale.isSome)).foldl (fun best g =>
    match best with
    | none => some g
    | some b => if linIndex v.d.dims g.idx < linIndex v.d.dims b.idx then some g else some b) none

/-- The scale a destination block takes in a transfer of codes (R191): that of the source block of its lowest element read from
memory, else 127. -/
def blockScaleOf (v : View) (es : List WElem) (e : WElem) : Nat := ((supplier v es e).bind (·.scale)).getD 127

/-- Does a half-byte map write a whole 32-byte word at an address. -/
def wholeWord (m : Nibs) (a : Nat) : Bool := wholeRun m a 32

/-- Write the scale of one block: discarded, in the sideband of a word written whole, or in the scale byte, which is no program store (R76,
R188, R189). -/
def writeScale (c : Ctx) (l : ScaleLoc) (m : Nibs) (sc : Nat) (s : State) : MRes Unit :=
  match l with
  | .none => (.ok (), s)
  | .byte a =>
    if a < 0 ∨ a ≥ 2 ^ 48 then outOfSpace a s
    else
      match translate { c with va := a.toNat } a.toNat .w s with
      | (.error f, s1) => (.error { f with va := a.toNat }, s1)
      | (.ok pa, s1) =>
        if !descPlace pa then (.error (descFail .protectionFault a.toNat), s1)
        else vWrite c a.toNat [BitVec.ofNat 8 sc] none s1
  | .side a =>
    match translate { c with va := a.toNat } a.toNat .w s with
    | (.error f, s1) => (.error { f with va := a.toNat }, s1)
    | (.ok pa, s1) => (.ok (), if wholeWord m a.toNat then s1.setScale pa sc else s1)

/-- One element of each block, in order. -/
def firstOfBlocks (v : View) (es : List WElem) : List WElem :=
  es.foldl (fun acc e => if acc.any (fun g => v.block g.idx == v.block e.idx) then acc else acc ++ [e]) []

/-- Write elements and the scales of their blocks. The checks of all of them come first (R188, R214). -/
def writeElems (c : Ctx) (v : View) (es0 : List WElem) (scaleOf : WElem → Nat) (s : State) : MRes Unit :=
  let es := padFilter v es0
  match mapM (checkWrite c v) es s with
  | (.error f, s1) => (.error f, s1)
  | (.ok _, s1) =>
    let m := nibMap v es
    match mapM (writeRun c v m) (runs (touched m)) s1 with
    | (.error f, s2) => (.error f, s2)
    | (.ok _, s2) =>
      if fmtScaled v.d.f then
        match mapM (fun e t => writeScale c (v.scaleLoc e.idx) m (scaleOf e) t) (firstOfBlocks v es) s2 with
        | (.error f, s3) => (.error f, s3)
        | (.ok _, s3) => (.ok (), s3)
      else (.ok (), s2)

/-- What is left of a failed transfer: of the writes it had to make, one for each element or scaled block, any subset has landed (R214). [DESIGN CHOICE 39] -/
def landSome (c : Ctx) (v : View) (es : List WElem) (scaleOf : WElem → Nat) (before s : State) : State :=
  if es = [] then s
  else
    let (k, s1) := s.drawFree
    let groups := if fmtScaled v.d.f then (firstOfBlocks v es).map (fun g => es.filter (fun e => v.block e.idx == v.block g.idx))
      else es.map (fun e => [e])
    let u := ((List.range groups.length).zip groups).foldl (fun u p =>
      if Config.landed k p.1 then
        match writeElems c v p.2 scaleOf u with
        | (.ok _, w) => w
        | (.error _, _) => u
      else u) before
    { s1 with mem := u.mem, scales := u.scales, bad := u.bad }

/-- Write the elements of a transfer; a failure leaves any subset of the writes (R214). [DESIGN CHOICE 39] -/
def writeOrLand (c : Ctx) (v : View) (es : List WElem) (scaleOf : WElem → Nat) (s : State) : MRes Unit :=
  match writeElems c v es scaleOf s with
  | (.ok u, s1) => (.ok u, s1)
  | (.error f, s1) => (.error f, landSome c v es scaleOf s s1)

/-- What can be read of a failed transfer. -/
def readable {α β : Type} (f : α → State → MRes β) (l : List α) (s : State) : List β :=
  l.filterMap (fun x => match f x s with
    | (.ok y, _) => some y
    | (.error _, _) => none)

/-- The order in which the engine takes up the elements of a transfer that meets its own writes, freely (R204). [DESIGN CHOICE 38] -/
def freeOrder (k : Nat) (es : List WElem) : List WElem :=
  es.foldl (fun l e => let i := Config.turn k e.l % (l.length + 1); l.take i ++ e :: l.drop i) []

/-- One element of such a transfer written over what it has written so far; the scale of its block follows once the element that supplies
it is written (R191, R204). [DESIGN CHOICE 38] -/
def putOne (c : Ctx) (v : View) (es done : List WElem) (e : WElem) (s : State) : State :=
  let all := done ++ [e]
  let s1 := (mapM (writeRun c v (nibMap v [e])) (runs (touched (nibMap v [e]))) s).2
  if !fmtScaled v.d.f then s1
  else
    match (supplier v es e).map (fun g => all.find? (fun x => x.l = g.l)) with
    | none => (writeScale c (v.scaleLoc e.idx) (nibMap v all) 127 s1).2
    | some (some x) => (writeScale c (v.scaleLoc e.idx) (nibMap v all) (x.scale.getD 127) s1).2
    | some none => s1

/-- The elements of a transfer as read, each from memory as it was before the transfer or as one of the writes made so far left it (R204).
`snaps` holds those contents, oldest first. [DESIGN CHOICE 38] -/
def settleReads (read : WElem → State → WElem) (put : List WElem → WElem → State → State) (k : Nat) :
    List WElem → List State → List WElem → List WElem
  | [], _, done => done
  | e :: r, snaps, done =>
    match snaps.getLast? with
    | none => done
    | some cur =>
      let x := read e (snaps.getD (Config.seenWrites k e.l % snaps.length) cur)
      settleReads read put k r (snaps ++ [put done x cur]) (done ++ [x])

/-- Does a transfer read what it writes: its reads differ between destinations filled with zeros and with ones. -/
def readsOwn (read : WElem → State → WElem) (write : List WElem → State → State) (es : List WElem) (s : State) : Bool :=
  let fill := fun (code scale : Nat) => write (es.map (fun e => { e with code := code, scale := e.scale.map (fun _ => scale) })) s
  let lo := fill 0 0
  let hi := fill (2 ^ 32 - 1) 255
  es.any (fun e => read e lo != read e hi)

/-- The elements of a transfer: where its source overlaps its destination, each is read from memory as it was before the transfer or as a
write of the transfer leaves it (R204). [DESIGN CHOICE 38] -/
def overlapReads (c : Ctx) (v : View) (read : WElem → State → WElem) (es : List WElem) (s : State) : List WElem × State :=
  if readsOwn read (fun l t => (writeElems c v l (blockScaleOf v l) t).2) es s then
    let (k, s1) := s.drawFree
    let got := settleReads read (putOne c v es) k (freeOrder k es) [s] []
    (es.map (fun e => (got.find? (fun x => x.l = e.l)).getD e), s1)
  else (es, s)

end Sys2Proof.Machine
end

