-- ==== Sys2Proof/Machine/Bitstream.lean ====
section
/-! DEFINITION. Machine/Bitstream.lean: readers of bit streams, Exp-Golomb codes and cyclic checks, as the standards of R287 use them.
[PRESUMED 54] -/

namespace Sys2Proof.Machine

/-- A reader of a bit stream. It fails with true where the data end early, with false where they are not valid. -/
abbrev Rd (α : Type) := StateT (List Bool) (Except Bool) α

/-- The bits of a byte list, most significant first. -/
def msbBits (l : List Byte) : List Bool := l.flatMap (fun b => (List.range 8).map (fun i => b.toNat.testBit (7 - i)))

/-- The bits of a byte list, least significant first. -/
def lsbBits (l : List Byte) : List Bool := l.flatMap (fun b => (List.range 8).map (fun i => b.toNat.testBit i))

/-- The data are not valid. -/
def rdBad {α : Type} : Rd α := fun _ => .error false

/-- `n` bits, the first the most significant. -/
def rdU (n : Nat) : Rd Nat := fun bs =>
  if bs.length < n then .error true else .ok ((bs.take n).foldl (fun v b => 2 * v + b2n b) 0, bs.drop n)

/-- `n` bits, the first the least significant. -/
def rdL (n : Nat) : Rd Nat := fun bs =>
  if bs.length < n then .error true else .ok ((bs.take n).foldr (fun b v => 2 * v + b2n b) 0, bs.drop n)

/-- One bit. -/
def rdFlag : Rd Bool := do return (← rdU 1) == 1

/-- A signed number of `n` bits. -/
def rdS (n : Nat) : Rd Int := do
  let v ← rdU n
  return (if n = 0 then 0 else toSigned n v)

/-- Zeros at the head of a stream. -/
def leadZeros : List Bool → Nat
  | false :: r => leadZeros r + 1
  | _ => 0

/-- The number of zeros before the next one, which is consumed. -/
def rdUnary : Rd Nat := fun bs =>
  let z := leadZeros bs
  if bs.length ≤ z then .error true else .ok (z, bs.drop (z + 1))

/-- An unsigned Exp-Golomb code, ue(v) of H.265. -/
def rdUe : Rd Nat := do
  let z ← rdUnary
  if 32 < z then rdBad
  else
    let v ← rdU z
    return (2 ^ z - 1 + v)

/-- A signed Exp-Golomb code, se(v) of H.265. -/
def rdSe : Rd Int := do
  let k ← rdUe
  return (if k % 2 = 1 then ((k + 1) / 2 : Nat) else -((k / 2 : Nat) : Int))

/-- A reader run `n` times. -/
def rdMany {α : Type} (r : Rd α) : Nat → Rd (List α)
  | 0 => pure []
  | n + 1 => do
    let x ← r
    let l ← rdMany r n
    return x :: l

/-- A cyclic check of `w` bits, most significant bit first, from zero. -/
def crcMsb (w poly : Nat) (l : List Byte) : Nat :=
  l.foldl (fun c b => (List.range 8).foldl (fun c _ =>
    if c.testBit (w - 1) then ((c <<< 1) ^^^ poly) % 2 ^ w else (c <<< 1) % 2 ^ w) (c ^^^ (b.toNat <<< (w - 8)))) 0

/-- Adler-32 of zlib. -/
def adler32 (l : List Byte) : Nat :=
  let r := l.foldl (fun (p : Nat × Nat) b => let a := (p.1 + b.toNat) % 65521; (a, (p.2 + a) % 65521)) (1, 0)
  r.2 * 65536 + r.1

/-- Big-endian field of `k` bytes at offset `o`. -/
def beAt (l : List Byte) (o k : Nat) : Nat := beNat (slice l o k)

/-- Byte `o` as a number. -/
def byteAt (l : List Byte) (o : Nat) : Nat := (l.getD o 0).toNat

end Sys2Proof.Machine
end

