-- ==== Sys2Proof/Machine/Flac.lean ====
section
/-! DEFINITION. Machine/Flac.lean: FLAC samples (R287, R298, R300, R301): STREAMINFO, frames with their checks, and the silent frames that
stand for damaged ones, by RFC 9639. [PRESUMED 54] -/

namespace Sys2Proof.Machine

/-- Offset after the metadata blocks; `k` bounds their number. -/
def flacMeta (b : List Byte) : Nat → Nat → Nat
  | 0, o => o
  | k + 1, o =>
    if b.length < o + 4 then b.length
    else
      let e := o + 4 + beAt b (o + 1) 3
      if 128 ≤ byteAt b o then e else flacMeta b k e

/-- First byte of the frames. -/
def flacData (b : List Byte) : Nat := flacMeta b (b.length / 4 + 1) 4

/-- "fLaC" and STREAMINFO (R298). [PRESUMED 54] -/
def flacHdr (b : List Byte) : MedHdr :=
  let v := beAt b 18 8
  { MedHdr.zero with
    complete := beAt b 0 4 == 0x664C6143 && byteAt b 4 % 128 == 0 && beAt b 5 3 == 34 && decide (42 ≤ b.length)
    supported := decide (4 ≤ bits v 40 36 + 1) && decide (bits v 40 36 + 1 ≤ 24) && decide (bits v 63 44 ≤ 384000)
    rate := bits v 63 44
    channels := bits v 43 41 + 1
    depth := bits v 40 36 + 1
    frames := bits v 35 0
    maxBlock := beAt b 10 2
    dataBytes := b.length - flacData b }

/-- The coded number of a frame header: value and bytes. -/
def flacNumber (b : List Byte) (o : Nat) : Option (Nat × Nat) :=
  let x := byteAt b o
  let n := ((List.range 8).takeWhile (fun i => x.testBit (7 - i))).length
  if n = 0 then some (x, 1)
  else if n = 1 ∨ n = 8 then none
  else if (List.range (n - 1)).all (fun i => byteAt b (o + 1 + i) / 64 == 2) then
    some ((List.range (n - 1)).foldl (fun v i => 64 * v + byteAt b (o + 1 + i) % 64) (x % 2 ^ (7 - n)), n)
  else none

/-- A frame header: bytes, first sample, block size, channel assignment, bits of a value. -/
structure FlacHead where
  len   : Nat
  first : Nat
  size  : Nat
  chans : Nat
  depth : Nat
deriving DecidableEq, Repr

/-- Extra bytes of a block size and of a rate code. -/
def flacExtra (bs rc : Nat) : Nat × Nat := (if bs = 6 then 1 else if bs = 7 then 2 else 0, if rc = 12 then 1 else if rc = 13 ∨ rc = 14 then 2 else 0)

/-- The block size of its code. -/
def flacBlock (b : List Byte) (o bs : Nat) : Nat :=
  if bs = 1 then 192 else if bs ≤ 5 then 576 * 2 ^ (bs - 2) else if bs = 6 then beAt b o 1 + 1 else if bs = 7 then beAt b o 2 + 1
  else 256 * 2 ^ (bs - 8)

/-- The frame header at a byte, its CRC-8 good. -/
def flacHead (b : List Byte) (h : MedHdr) (o : Nat) : Option FlacHead :=
  let bs := byteAt b (o + 2) / 16
  let rc := byteAt b (o + 2) % 16
  let ds := bits (byteAt b (o + 3)) 3 1
  match flacNumber b (o + 4) with
  | none => none
  | some (v, n) =>
    let e := flacExtra bs rc
    let len := 4 + n + e.1 + e.2 + 1
    let depth := [h.depth, 8, 12, 0, 16, 20, 24, 32].getD ds 0
    let size := flacBlock b (o + 4 + n) bs
    if b.length < o + len ∨ beAt b o 2 / 2 ≠ 0x7FFC ∨ bs = 0 ∨ rc = 15 ∨ byteAt b (o + 3) / 16 ≥ 11 ∨ ds = 3 ∨ byteAt b (o + 3) % 2 = 1 ∨
        crcMsb 8 0x07 (slice b o (len - 1)) ≠ byteAt b (o + len - 1) then none
    else some ⟨len, if byteAt b (o + 1) % 2 = 1 then v else v * h.maxBlock, size, byteAt b (o + 3) / 16, depth⟩

/-- One Rice-coded residual of parameter p. -/
def flacRice (p : Nat) : Rd Int := do
  let q ← rdUnary
  let r ← rdU p
  let v := q * 2 ^ p + r
  return (if v % 2 = 0 then ((v / 2 : Nat) : Int) else -(((v + 1) / 2 : Nat) : Int))

/-- The residuals of one partition of `n` values. -/
def flacPart (w n : Nat) : Rd (List Int) := do
  let p ← rdU w
  if p = 2 ^ w - 1 then
    let e ← rdU 5
    rdMany (rdS e) n
  else rdMany (flacRice p) n

/-- The residuals of `ps` partitions. -/
def flacParts (w per pred : Nat) : Nat → Bool → Rd (List Int)
  | 0, _ => pure []
  | k + 1, first => do
    let l ← flacPart w (if first then per - pred else per)
    let r ← flacParts w per pred k false
    return l ++ r

/-- The residual of a subframe of `n` values after `pred` warm-up values. -/
def flacResidual (n pred : Nat) : Rd (List Int) := do
  let m ← rdU 2
  let o ← rdU 4
  if 1 < m ∨ n % 2 ^ o ≠ 0 ∨ n / 2 ^ o < pred then rdBad
  else flacParts (if m = 0 then 4 else 5) (n / 2 ^ o) pred (2 ^ o) true

/-- Values predicted from those before them, newest first: coefficient i applies to the value i + 1 back. -/
def flacPredict (coef : List Int) (shift : Nat) (warm res : List Int) : List Int :=
  (res.foldl (fun (out : List Int) r =>
    let s := ((coef.zip out).map (fun p => p.1 * p.2)).foldl (· + ·) 0
    (r + s / (2 ^ shift : Int)) :: out) warm.reverse).reverse

/-- Coefficients of the fixed predictors. -/
def flacFixed (o : Nat) : List Int :=
  match o with
  | 0 => [] | 1 => [1] | 2 => [2, -1] | 3 => [3, -3, 1] | _ => [4, -6, 4, -1]

/-- A subframe of `n` values of `w` bits. -/
def flacSub (n w : Nat) : Rd (List Int) := do
  let z ← rdU 1
  let t ← rdU 6
  let wf ← rdU 1
  let k ← (if wf = 1 then do let u ← rdUnary; return (u + 1) else pure 0)
  if z = 1 ∨ w ≤ k then rdBad
  else
    let v := w - k
    let l ← (
      if t = 0 then do let x ← rdS v; return (List.replicate n x)
      else if t = 1 then rdMany (rdS v) n
      else if 8 ≤ t ∧ t ≤ 12 then do
        if n < t - 8 then rdBad
        else
          let warm ← rdMany (rdS v) (t - 8)
          let res ← flacResidual n (t - 8)
          return (flacPredict (flacFixed (t - 8)) 0 warm res)
      else if 32 ≤ t then do
        if n < t - 31 then rdBad
        else
          let warm ← rdMany (rdS v) (t - 31)
          let p ← rdU 4
          let sh ← rdS 5
          if p = 15 ∨ sh < 0 then rdBad
          else
            let coef ← rdMany (rdS (p + 1)) (t - 31)
            let res ← flacResidual n (t - 31)
            return (flacPredict coef sh.toNat warm res)
      else rdBad)
    return (l.map (fun x => x * 2 ^ k))

/-- Undo stereo decorrelation. -/
def flacStereo (ca : Nat) (l : List (List Int)) : List (List Int) :=
  let a := l.getD 0 []
  let b := l.getD 1 []
  match ca with
  | 8 => [a, List.zipWith (· - ·) a b]
  | 9 => [List.zipWith (· + ·) a b, b]
  | 10 =>
    let m := List.zipWith (fun x y => 2 * x + y % 2) a b
    [List.zipWith (fun x y => (x + y) / 2) m b, List.zipWith (fun x y => (x - y) / 2) m b]
  | _ => l

/-- The subframes of a frame, one after another; the side channel is one bit wider. -/
def flacSubs (n w ca : Nat) : List Nat → Rd (List (List Int))
  | [] => pure []
  | c :: r => do
    let wide := decide ((ca = 8 ∧ c = 1) ∨ (ca = 9 ∧ c = 0) ∨ (ca = 10 ∧ c = 1))
    let x ← flacSub n (if wide then w + 1 else w)
    let l ← flacSubs n w ca r
    return x :: l

/-- The frame at a byte: its header, its end and its channels; an error is true where the data end early. -/
def flacFrame (b : List Byte) (h : MedHdr) (o : Nat) : Except Bool (FlacHead × Nat × List (List Int)) :=
  match flacHead b h o with
  | none => .error (decide (b.length < o + 6))
  | some f =>
    let chans := if f.chans < 8 then f.chans + 1 else 2
    if chans ≠ h.channels ∨ f.depth ≠ h.depth then .error false
    else
      let body := b.drop (o + f.len)
      match flacSubs f.size f.depth f.chans (List.range chans) (msbBits body) with
      | .error e => .error e
      | .ok (l, r) =>
        let e := o + f.len + (body.length - r.length / 8)
        if b.length < e + 2 then .error true
        else if crcMsb 16 0x8005 (slice b o (e - o)) ≠ beAt b e 2 then .error false
        else .ok (f, e + 2, flacStereo f.chans l)

/-- Sound as decoded so far: frames placed at their first sample, and damage as (byte, first frame, frames). -/
structure FlacOut where
  runs   : List (Nat × List (List Int))
  damage : List (Nat × Nat × Nat)
  frames : Nat
  trunc  : Bool
deriving DecidableEq, Repr

/-- Decode from a byte with `cur` frames done (R300, R301): `lim` is N, or the limit where N is 0; `cut` says that the data of the sample
end before the sample does. `k` bounds the steps. [PRESUMED 54] -/
def flacRun (b : List Byte) (h : MedHdr) (lim : Nat) (cut : Bool) : Nat → Nat → FlacOut → FlacOut
  | 0, _, x => x
  | k + 1, o, x =>
    if lim ≤ x.frames then { x with trunc := h.frames == 0 && decide (o < b.length) }
    else if b.length ≤ o then
      if h.frames = 0 ∧ !cut then x
      else { x with damage := x.damage ++ [(b.length, x.frames, lim - x.frames)], frames := lim }
    else
      match flacFrame b h o with
      | .ok (f, e, l) =>
        let n := min f.size (lim - x.frames)
        let y := { x with runs := x.runs ++ [(x.frames, l.map (fun c => c.take n))], frames := x.frames + n }
        if h.frames = 0 ∧ n < f.size then { y with trunc := true } else flacRun b h lim cut k e y
      | .error e =>
        let byte := if e then b.length else o
        match ((List.range (b.length - o - 1)).map (fun i => o + 1 + i)).findSome? (fun j => (flacHead b h j).map (fun g => (j, g))) with
        | some (j, g) =>
          let next := min lim (max x.frames g.first)
          flacRun b h lim cut k j { x with damage := x.damage ++ [(byte, x.frames, next - x.frames)], frames := next }
        | none => { x with damage := x.damage ++ [(byte, x.frames, lim - x.frames)], frames := lim }

/-- The values of a channel, silent where damaged (R301). -/
def FlacOut.channel (x : FlacOut) (c : Nat) : List Int :=
  (x.runs.foldl (fun (acc : List Int) r => acc ++ List.replicate (r.1 - acc.length) 0 ++ r.2.getD c []) []) ++ []

end Sys2Proof.Machine
end

