-- ==== Sys2Proof/Machine/Hevc.lean ====
section
/-! DEFINITION. Machine/Hevc.lean: HEVC samples (R287, R298, R306, R307): NAL units, parameter sets, slice headers, picture order count and
reference picture sets, by ITU-T H.265. [PRESUMED 54] -/

namespace Sys2Proof.Machine

/-- Offsets of the NAL units of a byte stream, after their start codes. -/
def nalStarts (b : List Byte) : List Nat :=
  ((List.range b.length).filter (fun i => beAt b i 3 = 1 ∧ i + 3 ≤ b.length)).map (· + 3)

/-- The NAL units of a byte stream (Annex B), trailing zeros removed. -/
def nalUnits (b : List Byte) : List (List Byte) :=
  let l := nalStarts b
  l.mapIdx (fun i o =>
    let e := ((l[i + 1]?).map (· - 3)).getD b.length
    ((slice b o (e - o)).reverse.dropWhile (· = 0)).reverse)

/-- nal_unit_type. -/
def nalType (n : List Byte) : Nat := bits (byteAt n 0) 6 1
/-- nuh_layer_id. -/
def nalLayer (n : List Byte) : Nat := byteAt n 0 % 2 * 32 + byteAt n 1 / 8
/-- TemporalId. -/
def nalTid (n : List Byte) : Nat := byteAt n 1 % 8 - 1

/-- Remove emulation prevention bytes; `z` counts zeros before. -/
def unescape : Nat → List Byte → List Byte
  | _, [] => []
  | z, x :: r => if z ≥ 2 ∧ x = 3 then unescape 0 r else x :: unescape (if x = 0 then z + 1 else 0) r

/-- The bits of a NAL unit after its header. -/
def nalBits (n : List Byte) : List Bool := msbBits (unescape 0 (n.drop 2))

/-- profile_tier_level: general_profile_idc, compatibility flags, general_level_idc. -/
def rdPtl (subs : Nat) : Rd (Nat × Nat × Nat) := do
  let _ ← rdU 3
  let p ← rdU 5
  let c ← rdU 32
  let _ ← rdU 48
  let l ← rdU 8
  let f ← rdMany (rdU 2) (if subs = 0 then 0 else 8)
  let _ ← rdU (((f.take subs).map (fun v => (v / 2) * 88 + (v % 2) * 8)).foldl (· + ·) 0)
  return (p, c, l)

/-- Pass over scaling_list_data. -/
def rdScaling : Rd Unit := do
  let one := fun (size : Nat) => (do
    let m ← rdU 1
    if m = 0 then let _ ← rdUe
    else
      let n := min 64 (2 ^ (4 + 2 * size))
      let _ ← rdMany rdSe (if 1 < size then n + 1 else n) : Rd Unit)
  let _ ← rdMany (one 0) 6
  let _ ← rdMany (one 1) 6
  let _ ← rdMany (one 2) 6
  let _ ← rdMany (one 3) 2

/-- A short-term reference picture set: (delta POC, used by the current picture), negative ones nearest first, then positive ones. -/
structure Rps where
  neg : List (Int × Bool)
  pos : List (Int × Bool)
deriving DecidableEq, Repr

/-- Running delta POCs of a list of differences. -/
def rpsRun (sign : Int) (l : List (Nat × Bool)) : List (Int × Bool) :=
  (l.foldl (fun (acc : Int × List (Int × Bool)) e => let d := acc.1 + sign * (e.1 + 1 : Nat); (d, acc.2 ++ [(d, e.2)])) (0, [])).2

/-- One difference of an explicit set. -/
def rdRpsOne : Rd (Nat × Bool) := do
  let d ← rdUe
  let u ← rdFlag
  return (d, u)

/-- Flags of a predicted set: used_by_curr_pic_flag and use_delta_flag. -/
def rdRpsUse : Rd (Bool × Bool) := do
  let u ← rdFlag
  if u then return (true, true)
  else
    let d ← rdFlag
    return (false, d)

/-- A predicted set (H.265, 7-61 and 7-62): its reference, the difference, and the flags. -/
def rpsPredict (r : Rps) (d : Int) (fl : List (Bool × Bool)) : Rps :=
  let n := r.neg.length
  let flag := fun (j : Nat) => fl.getD j (false, false)
  let take := fun (ok : Int → Bool) (e : Int) (j : Nat) => if ok e && (flag j).2 then [(e, (flag j).1)] else []
  let isNeg := fun (e : Int) => decide (e < 0)
  let isPos := fun (e : Int) => decide (0 < e)
  let sn := (r.neg.mapIdx (fun j e => (j, e.1 + d)))
  let sp := (r.pos.mapIdx (fun j e => (n + j, e.1 + d)))
  let own := n + r.pos.length
  ⟨sp.reverse.flatMap (fun e => take isNeg e.2 e.1) ++ take isNeg d own ++ sn.flatMap (fun e => take isNeg e.2 e.1),
   sn.reverse.flatMap (fun e => take isPos e.2 e.1) ++ take isPos d own ++ sp.flatMap (fun e => take isPos e.2 e.1)⟩

/-- st_ref_pic_set(idx) with the sets before it. -/
def rdRps (idx num : Nat) (sets : List Rps) : Rd Rps := do
  let inter ← (if idx = 0 then pure false else rdFlag)
  if inter then
    let di ← (if idx = num then rdUe else pure 0)
    let sg ← rdU 1
    let ab ← rdUe
    if idx < di + 1 then rdBad
    else
      let r := sets.getD (idx - (di + 1)) ⟨[], []⟩
      let fl ← rdMany rdRpsUse (r.neg.length + r.pos.length + 1)
      return rpsPredict r ((if sg = 1 then -1 else 1) * ((ab : Int) + 1)) fl
  else
    let nn ← rdUe
    let np ← rdUe
    if 16 < nn ∨ 16 < np then rdBad
    else
      let a ← rdMany rdRpsOne nn
      let b ← rdMany rdRpsOne np
      return ⟨rpsRun (-1) a, rpsRun 1 b⟩

/-- The sets of a sequence parameter set, one after another. -/
def rdRpsAll (num : Nat) : Nat → List Rps → Rd (List Rps)
  | 0, l => pure l
  | k + 1, l => do
    let r ← rdRps l.length num l
    rdRpsAll num k (l ++ [r])

/-- What a sequence parameter set gives. -/
structure Sps where
  vps    : Nat
  id     : Nat
  prof   : Nat
  compat : Nat
  level  : Nat
  chroma : Nat
  w      : Nat
  h      : Nat
  win    : List Nat
  luma   : Nat
  chr    : Nat
  pocLog : Nat
  dpb    : Nat
  ctu    : Nat
  rps    : List Rps
  longT  : Bool
  ltLsb  : List Nat
deriving DecidableEq, Repr

/-- Pass over pcm fields. -/
def rdPcm : Rd Unit := do
  let p ← rdFlag
  if p then
    let _ ← rdU 8
    let _ ← rdUe
    let _ ← rdUe
    let _ ← rdU 1

/-- seq_parameter_set_rbsp, up to the long-term reference pictures. -/
def rdSps : Rd Sps := do
  let vps ← rdU 4
  let subs ← rdU 3
  let _ ← rdU 1
  let ptl ← rdPtl subs
  let id ← rdUe
  let chroma ← rdUe
  let _ ← (if chroma = 3 then rdU 1 else pure 0)
  let w ← rdUe
  let h ← rdUe
  let cw ← rdFlag
  let win ← (if cw then rdMany rdUe 4 else pure [0, 0, 0, 0])
  let luma ← rdUe
  let chr ← rdUe
  let pl ← rdUe
  let all ← rdFlag
  let ord ← rdMany (do let a ← rdUe; let _ ← rdUe; let _ ← rdUe; return a : Rd Nat) (if all then subs + 1 else 1)
  let mc ← rdUe
  let dc ← rdUe
  let _ ← rdMany rdUe 4
  let sl ← rdFlag
  if sl then
    let pr ← rdFlag
    if pr then rdScaling
  let _ ← rdU 2
  rdPcm
  let nr ← rdUe
  if 64 < nr ∨ 12 < pl then rdBad
  else
    let rps ← rdRpsAll nr nr []
    let lt ← rdFlag
    let nl ← (if lt then rdUe else pure 0)
    let lts ← rdMany (do let v ← rdU (pl + 4); let _ ← rdU 1; return v : Rd Nat) nl
    return ⟨vps, id, ptl.1, ptl.2.1, ptl.2.2, chroma, w, h, win, luma + 8, chr + 8, pl + 4, ord.getLastD 0, 2 ^ (mc + 3 + dc), rps, lt, lts⟩

/-- What a picture parameter set gives that a slice header needs. -/
structure Pps where
  id    : Nat
  sps   : Nat
  dep   : Bool
  out   : Bool
  extra : Nat
deriving DecidableEq, Repr

/-- pic_parameter_set_rbsp, its first fields. -/
def rdPps : Rd Pps := do
  let id ← rdUe
  let sps ← rdUe
  let dep ← rdFlag
  let out ← rdFlag
  let extra ← rdU 3
  return ⟨id, sps, dep, out, extra⟩

/-- The result of a reader on a NAL unit. -/
def nalRead {α : Type} (r : Rd α) (n : List Byte) : Option α :=
  match r (nalBits n) with
  | .ok (x, _) => some x
  | .error _ => none

/-- Key of a parameter set: 64 × its kind (0 video, 1 sequence, 2 picture) + its identifier. -/
def paramKey (n : List Byte) : Option Nat :=
  match nalType n with
  | 32 => nalRead (rdU 4) n
  | 33 => ((nalRead rdSps n).filter (fun p => p.id < 16)).map (fun p => 64 + p.id)
  | 34 => ((nalRead rdPps n).filter (fun p => p.id < 64)).map (fun p => 128 + p.id)
  | _ => none

/-- The parameter sets of a context after the NAL units of a sample (R298, R308). -/
def addParams (p : SMap (List Byte)) (ns : List (List Byte)) : SMap (List Byte) :=
  ns.foldl (fun m n => if nalLayer n = 0 then (match paramKey n with | some k => SMap.put m k n | none => m) else m) p

/-- Is a NAL unit a slice segment of the base layer. -/
def isSlice (n : List Byte) : Bool := nalLayer n == 0 && decide (2 < n.length) && (decide (nalType n ≤ 9) || (decide (16 ≤ nalType n) && decide (nalType n ≤ 21)))

/-- Is a picture type IRAP. -/
def isIrap (t : Nat) : Bool := decide (16 ≤ t) && decide (t ≤ 23)
/-- Is a picture type IDR. -/
def isIdr (t : Nat) : Bool := t == 19 || t == 20

/-- What an independent slice segment header gives: its type, TemporalId, parameter sets, output flag, POC bits, short-term set, and the
long-term pictures as (POC bits, MSB cycle where present). -/
structure SliceHdr where
  type : Nat
  tid  : Nat
  sps  : Sps
  out  : Bool
  lsb  : Nat
  st   : Rps
  lt   : List (Nat × Option Nat)
deriving DecidableEq, Repr

/-- Bits that number `n` things. -/
def numBits (n : Nat) : Nat := ((List.range 32).find? (fun k => decide (n ≤ 2 ^ k))).getD 0

/-- One long-term picture of a slice header. -/
def rdLt (sps : Sps) (fromSps : Bool) : Rd (Nat × Option Nat) := do
  let lsb ← (if fromSps then do
      let i ← (if 1 < sps.ltLsb.length then rdU (numBits sps.ltLsb.length) else pure 0)
      return sps.ltLsb.getD i 0
    else do
      let v ← rdU sps.pocLog
      let _ ← rdU 1
      return v)
  let m ← rdFlag
  if m then
    let c ← rdUe
    return (lsb, some c)
  else return (lsb, none)

/-- slice_segment_header of an independent segment, up to its reference picture sets; `first` is its first flag. -/
def rdSlice (params : SMap (List Byte)) (type tid : Nat) : Rd SliceHdr := do
  let first ← rdFlag
  let _ ← (if isIrap type then rdU 1 else pure 0)
  let pid ← rdUe
  match (SMap.get? params (128 + pid)).bind (nalRead rdPps) with
  | none => rdBad
  | some pps =>
    match (SMap.get? params (64 + pps.sps)).bind (nalRead rdSps) with
    | none => rdBad
    | some sps =>
      if (SMap.get? params sps.vps).isNone then rdBad
      else
        let ctbs := ceilDiv sps.w sps.ctu * ceilDiv sps.h sps.ctu
        let dep ← (if !first && pps.dep then rdFlag else pure false)
        let _ ← (if first then pure 0 else rdU (numBits ctbs))
        if dep then rdBad
        else
          let _ ← rdU pps.extra
          let _ ← rdUe
          let out ← (if pps.out then rdFlag else pure true)
          if isIdr type then return ⟨type, tid, sps, out, 0, ⟨[], []⟩, []⟩
          else
            let lsb ← rdU sps.pocLog
            let known ← rdFlag
            let st ← (if known then do
                let i ← (if 1 < sps.rps.length then rdU (numBits sps.rps.length) else pure 0)
                return sps.rps.getD i ⟨[], []⟩
              else rdRps sps.rps.length sps.rps.length sps.rps)
            if !sps.longT then return ⟨type, tid, sps, out, lsb, st, []⟩
            else
              let ns ← (if sps.ltLsb ≠ [] then rdUe else pure 0)
              let np ← rdUe
              if 32 < ns + np then rdBad
              else
                let a ← rdMany (rdLt sps true) ns
                let b ← rdMany (rdLt sps false) np
                let acc := fun (l : List (Nat × Option Nat)) =>
                  (l.foldl (fun (p : Nat × List (Nat × Option Nat)) e =>
                    let c := p.1 + e.2.getD 0
                    (c, p.2 ++ [(e.1, e.2.map (fun _ => c))])) (0, [])).2
                return ⟨type, tid, sps, out, lsb, st, acc a ++ acc b⟩

/-- The first independent slice segment of a sample that its parameter sets let read. -/
def firstSlice (params : SMap (List Byte)) (ns : List (List Byte)) : Option SliceHdr :=
  (ns.filter isSlice).findSome? (fun n => nalRead (rdSlice params (nalType n) (nalTid n)) n)

/-- PicOrderCntVal (H.265, 8.3.1): `prev` is that of the previous picture of TemporalId 0, `fresh` says that decoding begins here. -/
def hevcPoc (prev : Int) (fresh : Bool) (h : SliceHdr) : Int :=
  let m : Int := 2 ^ h.sps.pocLog
  if isIrap h.type && (fresh || h.type ≤ 20) then (h.lsb : Int)
  else
    let pl := prev % m
    let pm := prev - pl
    let l : Int := h.lsb
    (if l < pl ∧ pl - l ≥ m / 2 then pm + m else if pl < l ∧ l - pl > m / 2 then pm - m else pm) + l

/-- The pictures that a reference picture set keeps (H.265, 8.3.2): none for a picture at which decoding begins or restarts. -/
def hevcKeep (poc : Int) (fresh : Bool) (h : SliceHdr) : List RefPoc :=
  if isIrap h.type && (fresh || h.type ≤ 20) then []
  else
    let m := 2 ^ h.sps.pocLog
    (h.st.neg ++ h.st.pos).map (fun e => ⟨poc + e.1, 0⟩) ++
      h.lt.map (fun e => match e.2 with
        | some c => ⟨poc - (c * m : Nat) - poc % (m : Int) + (e.1 : Int), 0⟩
        | none => ⟨(e.1 : Int), m⟩)

/-- Is a sequence inside the subset of R287. -/
def spsOk (p : Sps) : Bool :=
  let main := p.prof == 1 || p.prof == 3 || p.compat.testBit 30 || p.compat.testBit 28
  let main10 := p.prof == 2 || p.compat.testBit 29
  (main || main10) && decide (p.level ≤ 186) && p.chroma == 1 && decide (p.luma ≤ 10) && decide (p.chr ≤ 10) &&
    (main10 || (p.luma == 8 && p.chr == 8))

/-- The header of a sample (R298, R307): the parameter sets of the context with those of the sample, the state of its picture order count,
and whether decoding begins with this picture. [PRESUMED 54] -/
def hevcHdr (params : SMap (List Byte)) (prev : Int) (fresh : Bool) (b : List Byte) : MedHdr :=
  let ns := nalUnits b
  match firstSlice params ns with
  | none => MedHdr.zero
  | some h =>
    let p := h.sps
    let poc := hevcPoc prev fresh h
    { MedHdr.zero with
      complete := true
      supported := spsOk p
      width := p.w - 2 * (p.win.getD 0 0 + p.win.getD 1 0)
      height := p.h - 2 * (p.win.getD 2 0 + p.win.getD 3 0)
      codedW := p.w
      codedH := p.h
      offX := 2 * p.win.getD 0 0
      offY := 2 * p.win.getD 2 0
      chroma := 1
      depth := if p.luma = 8 ∧ p.chr = 8 then 8 else 10
      dpb := p.dpb
      ctu := p.ctu
      irap := isIrap h.type
      rasl := h.type == 8 || h.type == 9
      noOutput := !h.out
      poc := poc
      cra := h.type == 21 || (decide (16 ≤ h.type) && decide (h.type ≤ 18))
      tid0 := h.tid == 0 && !(decide (6 ≤ h.type) && decide (h.type ≤ 9)) && !(decide (h.type < 16) && h.type % 2 == 0)
      keep := hevcKeep poc fresh h
      multi := decide (1 < ((ns.filter isSlice).filter (fun n => 128 ≤ byteAt n 2)).length) }

end Sys2Proof.Machine
end

