-- ==== Sys2Proof/Machine/Jpeg.lean ====
section
/-! DEFINITION. Machine/Jpeg.lean: JPEG samples (R287, R298, R301, R303): the marker segments, the frame and scan headers, and the restart
markers in entropy-coded data, by ITU-T T.81. [PRESUMED 54] -/

namespace Sys2Proof.Machine

/-- A marker segment: the marker's second byte, its offset, and the offset and bytes of its parameters. -/
structure JSeg where
  mark : Nat
  off  : Nat
  par  : Nat
  len  : Nat
deriving DecidableEq, Repr

/-- Is a marker RST0 to RST7. -/
def isRst (m : Nat) : Bool := decide (0xD0 ≤ m) && decide (m ≤ 0xD7)

/-- The offset of the marker that ends entropy-coded data, or of the end of the sample. -/
def entropyEnd (b : List Byte) : Nat → Nat → Nat
  | 0, _ => b.length
  | k + 1, i =>
    if b.length ≤ i + 1 then b.length
    else if byteAt b i = 0xFF ∧ byteAt b (i + 1) ≠ 0 ∧ byteAt b (i + 1) ≠ 0xFF ∧ !isRst (byteAt b (i + 1)) then i
    else entropyEnd b k (i + 1)

/-- The marker segments from an offset, entropy-coded data passed over; a segment that the end of the sample cuts is left out. -/
def jpegSegs (b : List Byte) : Nat → Nat → List JSeg
  | 0, _ => []
  | k + 1, o =>
    if b.length < o + 2 ∨ byteAt b o ≠ 0xFF then []
    else
      let m := byteAt b (o + 1)
      if m = 0xFF then jpegSegs b k (o + 1)
      else if isRst m ∨ m = 0x01 ∨ m = 0xD8 then jpegSegs b k (o + 2)
      else if m = 0xD9 then [⟨m, o, o + 2, 0⟩]
      else
        let n := beAt b (o + 2) 2
        if n < 2 ∨ b.length < o + 2 + n then []
        else ⟨m, o, o + 4, n - 2⟩ :: jpegSegs b k (if m = 0xDA then entropyEnd b b.length (o + 2 + n) else o + 2 + n)

/-- All segments of a sample that begins with SOI. -/
def jpegAll (b : List Byte) : List JSeg := if beAt b 0 2 = 0xFFD8 then jpegSegs b b.length 2 else []

/-- Is a marker a start of frame. -/
def isSof (m : Nat) : Bool := decide (0xC0 ≤ m) && decide (m ≤ 0xCF) && m != 0xC4 && m != 0xC8 && m != 0xCC

/-- A component of the frame: identifier, sampling factors, quantisation table. -/
structure JComp where
  id : Nat
  h  : Nat
  v  : Nat
  tq : Nat
deriving DecidableEq, Repr

/-- The frame header: kind, precision, lines, samples per line, components. -/
structure JFrame where
  sof   : Nat
  prec  : Nat
  y     : Nat
  x     : Nat
  comps : List JComp
deriving DecidableEq, Repr

/-- Parse a frame header. -/
def jpegFrame (b : List Byte) (s : JSeg) : JFrame :=
  ⟨s.mark, byteAt b s.par, beAt b (s.par + 1) 2, beAt b (s.par + 3) 2, (List.range (byteAt b (s.par + 5))).map (fun i =>
    let o := s.par + 6 + 3 * i
    ⟨byteAt b o, byteAt b (o + 1) / 16, byteAt b (o + 1) % 16, byteAt b (o + 2)⟩)⟩

/-- Quantisation tables that DQT segments define; `k` bounds those of one segment. -/
def dqtIds (b : List Byte) : Nat → Nat → Nat → List Nat
  | 0, _, _ => []
  | k + 1, o, e => if e ≤ o then [] else byteAt b o % 16 :: dqtIds b k (o + 1 + if byteAt b o < 16 then 64 else 128) e

/-- Huffman tables that DHT segments define, as 16 × class + identifier. -/
def dhtIds (b : List Byte) : Nat → Nat → Nat → List Nat
  | 0, _, _ => []
  | k + 1, o, e =>
    if e ≤ o then []
    else byteAt b o :: dhtIds b k (o + 17 + ((List.range 16).map (fun i => byteAt b (o + 1 + i))).foldl (· + ·) 0) e

/-- A scan: its components as (identifier, table selectors), spectral selection, the restart interval in force, and its data. -/
structure JScan where
  comps : List (Nat × Nat)
  ss    : Nat
  se    : Nat
  dri   : Nat
  off   : Nat
  lo    : Nat
  hi    : Nat
deriving DecidableEq, Repr

/-- The scans of a sample, the restart interval carried along. -/
def jpegScans (b : List Byte) : List JSeg → Nat → List JScan
  | [], _ => []
  | s :: r, dri =>
    if s.mark = 0xDD then jpegScans b r (beAt b s.par 2)
    else if s.mark = 0xDA then
      let n := byteAt b s.par
      let o := s.par + 1 + 2 * n
      ⟨(List.range n).map (fun i => (byteAt b (s.par + 1 + 2 * i), byteAt b (s.par + 2 + 2 * i))), byteAt b o, byteAt b (o + 1), dri, s.off,
        s.par + s.len, entropyEnd b b.length (s.par + s.len)⟩ :: jpegScans b r dri
    else jpegScans b r dri

/-- CHROMA code of a frame inside the subset (R287, R297). -/
def jpegChroma (f : JFrame) : Option Nat :=
  match f.comps.map (fun c => (c.h, c.v)) with
  | [_] => some 0
  | [(1, 1), (1, 1), (1, 1)] => some 3
  | [(2, 1), (1, 1), (1, 1)] => some 2
  | [(2, 2), (1, 1), (1, 1)] => some 1
  | _ => none

/-- MCU size of a CHROMA code (R287). -/
def mcuSize (chroma : Nat) : Nat × Nat := if chroma = 1 then (16, 16) else if chroma = 2 then (16, 8) else (8, 8)

/-- Sampling factors of a component relative to the MCU of the image; a lone component counts as 1 × 1. -/
def jpegFactors (f : JFrame) (id : Nat) : Nat × Nat :=
  if f.comps.length = 1 then (1, 1) else ((f.comps.find? (fun c => c.id = id)).map (fun c => (c.h, c.v))).getD (1, 1)

/-- Blocks in one row and one column of a component. -/
def jpegBlocks (f : JFrame) (id : Nat) : Nat × Nat :=
  let hm := if f.comps.length = 1 then 1 else (f.comps.map (·.h)).foldl max 1
  let vm := if f.comps.length = 1 then 1 else (f.comps.map (·.v)).foldl max 1
  let c := jpegFactors f id
  (ceilDiv (ceilDiv (f.x * c.1) hm) 8, ceilDiv (ceilDiv (f.y * c.2) vm) 8)

/-- MCUs in one row and in the whole image. -/
def jpegGrid (f : JFrame) : Nat × Nat :=
  let mc := mcuSize ((jpegChroma f).getD 0)
  (ceilDiv f.x mc.1, ceilDiv f.x mc.1 * ceilDiv f.y mc.2)

/-- Units that a scan codes one after another: MCUs, or the blocks of a lone component. -/
def scanUnits (f : JFrame) (s : JScan) : Nat :=
  match s.comps with
  | [(c, _)] => (jpegBlocks f c).1 * (jpegBlocks f c).2
  | _ => (jpegGrid f).2

/-- The MCU of the image that a unit of a scan lies in. -/
def unitMcu (f : JFrame) (s : JScan) (u : Nat) : Nat :=
  match s.comps with
  | [(c, _)] =>
    let w := (jpegBlocks f c).1
    u / w / (jpegFactors f c).2 * (jpegGrid f).1 + u % w / (jpegFactors f c).1
  | _ => u

/-- Number of 8 × 8 blocks that a scan covers (R298). -/
def scanBlocks (f : JFrame) (s : JScan) : Nat :=
  match s.comps with
  | [(c, _)] => (jpegBlocks f c).1 * (jpegBlocks f c).2
  | l => (jpegGrid f).2 * (l.map (fun c => (jpegFactors f c.1).1 * (jpegFactors f c.1).2)).foldl (· + ·) 0

/-- Are the tables defined that the first scan uses (R298). -/
def jpegTables (b : List Byte) (pre : List JSeg) (f : JFrame) (s : JScan) : Bool :=
  let tabs := fun (m : Nat) (ids : List Byte → Nat → Nat → Nat → List Nat) =>
    (pre.filter (fun x => x.mark = m)).flatMap (fun x => ids b (x.len + 1) x.par (x.par + x.len))
  let dq := tabs 0xDB dqtIds
  let dh := tabs 0xC4 dhtIds
  s.comps.all (fun c => (f.comps.find? (fun j => j.id = c.1)).any (fun j => dq.contains j.tq) &&
    (s.ss != 0 || dh.contains (c.2 / 16)) && (s.se == 0 || dh.contains (16 + c.2 % 16)))

/-- The segments before the first scan, the frame and the scans of a sample. -/
def jpegParts (b : List Byte) : List JSeg × Option JFrame × List JScan :=
  let pre := (jpegAll b).takeWhile (fun s => s.mark ≠ 0xDA)
  (pre, (pre.find? (fun s => isSof s.mark)).map (jpegFrame b), jpegScans b (jpegAll b) 0)

/-- The header of a sample (R287, R298): SOI, SOF, tables and the first SOS. [PRESUMED 54] -/
def jpegHdr (b : List Byte) : MedHdr :=
  match jpegParts b with
  | (pre, some f, s :: _) =>
    let huff := f.sof = 0xC0 ∨ f.sof = 0xC1 ∨ f.sof = 0xC2
    { MedHdr.zero with
      complete := !decide huff || jpegTables b pre f s
      supported := decide huff && f.prec == 8 && f.y != 0 && f.x != 0 && (jpegChroma f).isSome
      width := f.x
      height := f.y
      chroma := (jpegChroma f).getD 0
      depth := 8
      dri := s.dri
      blocks := scanBlocks f s
      dataBytes := b.length - s.off }
  | _ => MedHdr.zero

/-- The restart markers in the data of a scan: offset and number. -/
def rstMarks (b : List Byte) (s : JScan) : List (Nat × Nat) :=
  ((List.range (s.hi - s.lo)).map (s.lo + ·)).filterMap (fun i =>
    if byteAt b i = 0xFF ∧ isRst (byteAt b (i + 1)) ∧ i + 1 < b.length then some (i, byteAt b (i + 1) % 8) else none)

/-- The first interval at or after i whose number is m modulo 8 (R303). -/
def nextInterval (i m : Nat) : Nat := i + (m + 8 - i % 8) % 8

/-- Damage of a scan as (byte, first unit, end) (R301, R303): `bad` holds the places where no code matches or an index passes 63, as (byte,
unit). `k` bounds the intervals, `d` is their length, `n` the units, `fin` the byte at which the data end. -/
def scanDamage (bad : List (Nat × Nat)) (d n fin : Nat) : Nat → Nat → List (Nat × Nat) → List (Nat × Nat × Nat)
  | 0, _, _ => []
  | k + 1, i, ms =>
    if n ≤ i * d then []
    else
      let stop := ((ms.head?).map (·.1)).getD fin
      match bad.find? (fun e => decide (i * d ≤ e.2) && decide (e.2 < min n ((i + 1) * d)) && decide (e.1 ≤ stop)) with
      | some (byte, u) =>
        match ms.dropWhile (fun m => m.1 < byte) with
        | [] => [(byte, u, n)]
        | m :: r =>
          let j := nextInterval i m.2
          (byte, u, min n ((j + 1) * d)) :: scanDamage bad d n fin k (j + 1) r
      | none =>
        if n ≤ (i + 1) * d then []
        else
          match ms with
          | [] => [(fin, (i + 1) * d, n)]
          | m :: r =>
            let j := nextInterval i m.2
            if j = i then scanDamage bad d n fin k (i + 1) r
            else (m.1, (i + 1) * d, min n ((j + 1) * d)) :: scanDamage bad d n fin k (j + 1) r

/-- The damage events of a sample in the order found: byte and MCUs filled (R301, R303). A component that no scan codes is missing data. [PRESUMED 54] -/
def jpegDamage (b : List Byte) (bad : List (Nat × Nat)) : List (Nat × List Nat) :=
  match jpegParts b with
  | (_, some f, scans) =>
    scans.flatMap (fun s =>
      let n := scanUnits f s
      let d := if s.dri = 0 then n else s.dri
      let mine := bad.filter (fun e => decide (s.lo ≤ e.1) && (decide (e.1 < s.hi) || (s.hi == b.length)))
      (scanDamage mine d n s.hi (n + 1) 0 (rstMarks b s)).map (fun e =>
        (e.1, ((List.range (e.2.2 - e.2.1)).map (fun u => unitMcu f s (e.2.1 + u))).dedup))) ++
    (if f.comps.all (fun c => scans.any (fun s => s.comps.any (fun x => x.1 = c.id))) then [] else [(b.length, List.range (jpegGrid f).2)])
  | _ => []

end Sys2Proof.Machine
end

