-- ==== Sys2Proof/Machine/Png.lean ====
section
/-! DEFINITION. Machine/Png.lean: PNG samples (R287, R298, R301): the chunks and the header, inflate, and the row filters, by ISO/IEC 15948
and RFC 1950 and 1951. [PRESUMED 54] -/

namespace Sys2Proof.Machine

/-- A chunk: type, offset of its data, its length, and the bytes of data present. -/
structure PngChunk where
  type : Nat
  off  : Nat
  len  : Nat
  have_ : Nat
deriving DecidableEq, Repr

/-- The chunks from an offset; `k` bounds their number. -/
def pngChunks (b : List Byte) : Nat → Nat → List PngChunk
  | 0, _ => []
  | k + 1, o =>
    if b.length < o + 8 then []
    else
      let n := beAt b o 4
      ⟨beAt b (o + 4) 4, o + 8, n, min n (b.length - (o + 8))⟩ :: pngChunks b k (o + 12 + n)

/-- Is the CRC of a chunk present and right. -/
def pngCrcOk (b : List Byte) (c : PngChunk) : Bool :=
  decide (c.off + c.len + 4 ≤ b.length) && beAt b (c.off + c.len) 4 == crcReflected 0xEDB88320 (slice b (c.off - 4) (c.len + 4))

/-- All chunks of a sample. -/
def pngAll (b : List Byte) : List PngChunk := pngChunks b (b.length / 12 + 1) 8

/-- Its IDAT chunks. -/
def pngIdat (b : List Byte) : List PngChunk := (pngAll b).filter (fun c => c.type = 0x49444154)

/-- Signature and IHDR with a good CRC (R298), and the fields of IHDR. [PRESUMED 54] -/
def pngHdr (b : List Byte) : MedHdr :=
  match pngAll b with
  | c :: _ =>
    let depth := byteAt b (c.off + 8)
    let ct := byteAt b (c.off + 9)
    { MedHdr.zero with
      complete := beAt b 0 8 == 0x89504E470D0A1A0A && c.type == 0x49484452 && c.len == 13 && pngCrcOk b c
      supported := ((ct == 0 && (depth == 8 || depth == 16)) || (ct == 2 && depth == 8)) && beAt b (c.off + 10) 3 == 0 &&
        beAt b c.off 4 != 0 && beAt b (c.off + 4) 4 != 0
      width := beAt b c.off 4
      height := beAt b (c.off + 4) 4
      depth := depth
      chroma := if ct = 2 then 4 else 0
      dataBytes := ((pngIdat b).map (·.have_)).foldl (· + ·) 0 }
  | [] => MedHdr.zero

/-- Canonical Huffman codes of a list of code lengths: (length, code, symbol) (RFC 1951, 3.2.2). -/
def huffCodes (lens : List Nat) : List (Nat × Nat × Nat) :=
  let sym := (List.range lens.length).zip lens
  ((List.range 15).foldl (fun (acc : Nat × List (Nat × Nat × Nat)) i =>
    let l := i + 1
    let mine := sym.filter (fun p => p.2 = l)
    let first := 2 * acc.1
    (first + mine.length, acc.2 ++ (mine.mapIdx (fun j p => (l, first + j, p.1))))) (0, [])).2

/-- Do code lengths ask for more codes than there are. -/
def huffOver (lens : List Nat) : Bool :=
  decide (2 ^ 15 < ((lens.filter (· ≠ 0)).map (fun l => 2 ^ (15 - l))).foldl (· + ·) 0)

/-- One symbol: the code grows bit by bit. -/
def huffGet (t : List (Nat × Nat × Nat)) : Nat → Nat → Nat → Rd Nat
  | 0, _, _ => rdBad
  | k + 1, len, code => do
    let b ← rdU 1
    let c := 2 * code + b
    match t.find? (fun e => e.1 = len + 1 ∧ e.2.1 = c) with
    | some e => pure e.2.2
    | none => huffGet t k (len + 1) c

/-- Base length and extra bits of a length symbol. -/
def lenBase (s : Nat) : Nat × Nat :=
  if s < 265 then (s - 254, 0) else if s = 285 then (258, 0)
  else let e := (s - 261) / 4; ((4 + (s - 265) % 4) * 2 ^ e + 3, e)

/-- Base distance and extra bits of a distance symbol. -/
def distBase (s : Nat) : Nat × Nat := if s < 4 then (s + 1, 0) else let e := s / 2 - 1; ((2 + s % 2) * 2 ^ e + 1, e)

/-- What one step of a compressed block gives. -/
inductive InfSym where
  | lit (b : Nat)
  | copy (n d : Nat)
  | stop
deriving DecidableEq, Repr

/-- One step of a compressed block. -/
def infSym (lt dt : List (Nat × Nat × Nat)) : Rd InfSym := do
  let s ← huffGet lt 15 0 0
  if s < 256 then pure (.lit s)
  else if s = 256 then pure .stop
  else if 285 < s then rdBad
  else
    let n ← rdL (lenBase s).2
    let d ← huffGet dt 15 0 0
    if 29 < d then rdBad
    else
      let e ← rdL (distBase d).2
      pure (.copy ((lenBase s).1 + n) ((distBase d).1 + e))

/-- Copy from the output so far, newest byte first. -/
def copyBack (d : Nat) : Nat → List Byte → List Byte
  | 0, out => out
  | n + 1, out => copyBack d n (out.getD (d - 1) 0 :: out)

/-- What inflate leaves: the output, newest byte first, and the bits that remain, or the error with the bits at its place. -/
abbrev InfRes := List Byte × Except (Bool × List Bool) (List Bool)

/-- A compressed block; `k` bounds its steps. -/
def infCodes (lt dt : List (Nat × Nat × Nat)) : Nat → List Bool → List Byte → InfRes
  | 0, bs, out => (out, .error (true, bs))
  | k + 1, bs, out =>
    match infSym lt dt bs with
    | .error e => (out, .error (e, bs))
    | .ok (.lit b, r) => infCodes lt dt k r (BitVec.ofNat 8 b :: out)
    | .ok (.copy n d, r) => if out.length < d then (out, .error (false, bs)) else infCodes lt dt k r (copyBack d n out)
    | .ok (.stop, r) => (out, .ok r)

/-- Code lengths of a dynamic block; `k` bounds the steps. -/
def codeLens (t : List (Nat × Nat × Nat)) (n : Nat) : Nat → List Nat → Rd (List Nat)
  | 0, l => pure l
  | k + 1, l =>
    if n ≤ l.length then (if n < l.length then rdBad else pure l)
    else do
      let s ← huffGet t 15 0 0
      if s < 16 then codeLens t n k (l ++ [s])
      else if s = 16 then
        let r ← rdL 2
        if l = [] then rdBad else codeLens t n k (l ++ List.replicate (r + 3) (l.getLastD 0))
      else
        let r ← rdL (if s = 17 then 3 else 7)
        codeLens t n k (l ++ List.replicate (r + if s = 17 then 3 else 11) 0)

/-- The tables of a dynamic block (RFC 1951, 3.2.7). -/
def dynTables : Rd (List (Nat × Nat × Nat) × List (Nat × Nat × Nat)) := do
  let hl ← rdL 5
  let hd ← rdL 5
  let hc ← rdL 4
  let cl ← rdMany (rdL 3) (hc + 4)
  let order := [16, 17, 18, 0, 8, 7, 9, 6, 10, 5, 11, 4, 12, 3, 13, 2, 14, 1, 15]
  let lens := (order.zip cl).foldl (fun l p => l.set p.1 p.2) (List.replicate 19 0)
  if 29 < hl || huffOver lens then rdBad
  else
    let all ← codeLens (huffCodes lens) (hl + 257 + hd + 1) 320 []
    let ll := all.take (hl + 257)
    let dl := all.drop (hl + 257)
    if huffOver ll || huffOver dl || ll.getD 256 0 == 0 then rdBad else pure (huffCodes ll, huffCodes dl)

/-- The tables of a fixed block. -/
def fixTables : List (Nat × Nat × Nat) × List (Nat × Nat × Nat) :=
  (huffCodes (List.replicate 144 8 ++ List.replicate 112 9 ++ List.replicate 24 7 ++ List.replicate 8 8), huffCodes (List.replicate 30 5))

/-- A stored block, from a byte boundary. -/
def infStored (bs : List Bool) (out : List Byte) : InfRes :=
  match (do let n ← rdL 16; let c ← rdL 16; if n + c = 65535 then pure n else rdBad : Rd Nat) (bs.drop (bs.length % 8)) with
  | .error e => (out, .error (e, bs))
  | .ok (n, r) =>
    let m := min n (r.length / 8)
    let bytes := (List.range m).map (fun i => BitVec.ofNat 8 (((r.drop (8 * i)).take 8).foldr (fun b v => 2 * v + b2n b) 0))
    (bytes.reverse ++ out, if m = n then .ok (r.drop (8 * n)) else .error (true, []))

/-- The blocks of a deflate stream; `k` bounds their number. -/
def inflate : Nat → List Bool → List Byte → InfRes
  | 0, bs, out => (out, .error (true, bs))
  | k + 1, bs, out =>
    match (do let f ← rdL 1; let t ← rdL 2; pure (f, t) : Rd (Nat × Nat)) bs with
    | .error e => (out, .error (e, bs))
    | .ok ((f, t), r) =>
      let one : InfRes := match t with
        | 0 => infStored r out
        | 1 => infCodes fixTables.1 fixTables.2 (r.length + 1) r out
        | 2 => match dynTables r with
          | .error e => (out, .error (e, r))
          | .ok (tabs, r2) => infCodes tabs.1 tabs.2 (r2.length + 1) r2 out
        | _ => (out, .error (false, bs))
      match one with
      | (o, .ok r3) => if f = 1 then (o, .ok r3) else inflate k r3 o
      | e => e

/-- Offsets in the sample of the bytes of its zlib stream. -/
def pngOffs (b : List Byte) : List Nat := (pngIdat b).flatMap (fun c => (List.range c.have_).map (c.off + ·))

/-- The zlib stream inflated: the output in order, the place and kind of an error, and whether the Adler-32 is right. [PRESUMED 54] -/
def pngInflate (b : List Byte) : List Byte × Option (Bool × Nat) × Bool :=
  let z := (pngIdat b).flatMap (fun c => slice b c.off c.have_)
  let head := byteAt z 0 % 16 = 8 ∧ byteAt z 0 / 16 ≤ 7 ∧ beAt z 0 2 % 31 = 0 ∧ !(byteAt z 1).testBit 5
  if z.length < 2 then ([], some (true, z.length), false)
  else if ¬head then ([], some (false, 0), false)
  else
    match inflate (8 * z.length) (lsbBits (z.drop 2)) [] with
    | (o, .error (e, r)) => (o.reverse, some (e, z.length - ceilDiv r.length 8), false)
    | (o, .ok r) =>
      let at_ := z.length - r.length / 8
      (o.reverse, none, decide (at_ + 4 ≤ z.length) && beAt z at_ 4 == adler32 o.reverse)

/-- The byte of the sample that completes output byte `n` of its zlib stream. -/
def pngByteFor (b : List Byte) (n : Nat) : Nat :=
  let offs := pngOffs b
  let z := offs.map (fun o => b.getD o 0)
  match (List.range (offs.length + 1)).find? (fun p => decide (n < (inflate (8 * p) (lsbBits ((z.take p).drop 2)) []).1.length)) with
  | some p => offs.getD (p - 1) b.length
  | none => b.length

/-- Paeth predictor. -/
def paeth (a b c : Nat) : Nat :=
  let p : Int := (a : Int) + b - c
  let pa := (p - a).natAbs
  let pb := (p - b).natAbs
  let pc := (p - c).natAbs
  if pa ≤ pb ∧ pa ≤ pc then a else if pb ≤ pc then b else c

/-- One row reconstructed from its filter and the row before it; `bpp` is the bytes of a pixel. -/
def unfilter (ft bpp : Nat) (prior row : List Byte) : List Byte :=
  ((List.range row.length).foldl (fun (out : List Byte) i =>
    let x := byteAt row i
    let a := if i < bpp then 0 else (out.getD (bpp - 1) 0).toNat
    let b := byteAt prior i
    let c := if i < bpp then 0 else byteAt prior (i - bpp)
    let p := match ft with
      | 1 => a
      | 2 => b
      | 3 => (a + b) / 2
      | 4 => paeth a b c
      | _ => 0
    BitVec.ofNat 8 (x + p) :: out) []).reverse

/-- The rows of an image from its inflated bytes, with the rows of a filter type above 4, which are zero (R301). -/
def pngRows (h : MedHdr) (d : List Byte) : List (List Byte) × List Nat :=
  let bits := if h.chroma = 4 then 3 * h.depth else h.depth
  let rb := ceilDiv (h.width * bits) 8
  let n := min h.height (d.length / (1 + rb))
  let r := (List.range n).foldl (fun (acc : List (List Byte) × List Nat) y =>
    let ft := byteAt d (y * (1 + rb))
    let prior := acc.1.headD (List.replicate rb 0)
    if 4 < ft then (List.replicate rb 0 :: acc.1, y :: acc.2)
    else (unfilter ft (bits / 8) prior (slice d (y * (1 + rb) + 1) rb) :: acc.1, acc.2)) ([], [])
  (r.1.reverse ++ List.replicate (h.height - n) (List.replicate rb 0), r.2.reverse)

/-- The values of the planes of an image in row order: grey, or R, G and B (R297). -/
def pngPlanes (h : MedHdr) (rows : List (List Byte)) : List (List Nat) :=
  let one := fun (ch chs bytes : Nat) => rows.flatMap (fun r => (List.range h.width).map (fun x => beAt r ((x * chs + ch) * bytes) bytes))
  if h.chroma = 4 then [one 0 3 1, one 1 3 1, one 2 3 1] else [one 0 1 (h.depth / 8)]

/-- The first IDAT chunk whose CRC is wrong: the offset of the CRC, none where every one is right or missing with the end of the data. -/
def pngBadCrc (b : List Byte) : Option Nat :=
  ((pngIdat b).find? (fun c => decide (c.off + c.len + 4 ≤ b.length) && !pngCrcOk b c)).map (fun c => c.off + c.len)

end Sys2Proof.Machine
end

