-- ==== Sys2Proof/Machine/Intake.lean ====
section
/-! DEFINITION. Machine/Intake.lean: the Intake ports: the frame checks (R272 to R274), Sluice and its flow control (R279 to R281),
reassembly into staging rings (R275 to R278), enable, disable and the link (R283 to R285). -/

namespace Sys2Proof.Machine

/-- Do something for a unit whose clock may be stopped: the request starts the clock and the unit goes on once it runs (R22, R418). -/
def needClock (d : ClkDomain) (rid : Nat) (k : State → State) (s : State) : State :=
  if (s.pll d).on then k s
  else if s.clkWait.any (fun w => w.1 = d && w.2.2 == WaitAcc.unit rid) then s
  else waitClock d (.unit rid) s

/-- An Intake port. -/
def State.iport (s : State) (p : Nat) : IPort := SMap.getD s.iports p IPort.empty

/-- Store an Intake port; FILL follows its frames (R279). -/
def State.setIport (s : State) (p : Nat) (x : IPort) : State :=
  let fill := (x.frames.map (fun f => match f with | .seg _ o _ => o | .lost _ | .cut _ => 0)).foldl (· + ·) 0
  let s1 := { s with iports := SMap.set IPort.empty s.iports p x }.setReg p Reg.ITK_FILL (BitVec.ofNat 32 fill)
  s1.setReg p Reg.ITK_FILL_PEAK (BitVec.ofNat 32 (max fill (s1.reg p Reg.ITK_FILL_PEAK).toNat))

/-- Reassembly of a stream. -/
def State.ist (s : State) (p n : Nat) : IStream := SMap.getD s.istreams (256 * p + n) IStream.empty

/-- Store the reassembly of a stream. -/
def State.setIst (s : State) (p n : Nat) (x : IStream) : State :=
  { s with istreams := SMap.set IStream.empty s.istreams (256 * p + n) x }

/-- Capacity of Sluice (R279). -/
def sluiceBytes : Nat := 67108864

/-- Bytes in Sluice. -/
def itkFill (s : State) (p : Nat) : Nat := (s.reg p Reg.ITK_FILL).toNat

/-- XOFF_LEVEL (R279). -/
def xoffLevel (s : State) (p : Nat) : Nat := sluiceBytes - (50 * s.rf p Reg.ITK_SKID_US 9 0 * 1000 + 18432)

/-- Effective XON level (R280). -/
def xonLevel (s : State) (p : Nat) : Nat := min (s.rf p Reg.ITK_XON_LEVEL 25 0) (xoffLevel s p - 18432)

/-- Is a port enabled. -/
def itkEn (s : State) (p : Nat) : Bool := s.rf p Reg.ITK_PCTRL 0 0 == 1

/-- Send XOFF (R280). -/
def sendXoff (p : Nat) (s : State) : State :=
  let s1 := (s.emit (.pfc p (s.rf p Reg.ITK_PCTRL 6 4) 0xFFFF)).count p Reg.ITK_XOFF_SENT 1
  (s1.setIport p { s1.iport p with xoffAt := s1.now }).setRf p Reg.ITK_PSTATUS 1 1 1

/-- Send quanta 0 (R280). -/
def sendXon (p : Nat) (s : State) : State := (s.emit (.pfc p (s.rf p Reg.ITK_PCTRL 6 4) 0)).setRf p Reg.ITK_PSTATUS 1 1 0

/-- Flow control after a change of the fill from `old` bytes (R280): each rise to XOFF_LEVEL sends XOFF, also while XOFF is in force; a port
that is not enabled holds XOFF (R283, R285). -/
def flowControl (p old : Nat) (s : State) : State :=
  let xoff := s.rf p Reg.ITK_PSTATUS 1 1
  if s.rf p Reg.ITK_PSTATUS 0 0 = 0 ∨ !itkEn s p then s
  else if xoffLevel s p ≤ itkFill s p ∧ (xoff = 0 ∨ old < xoffLevel s p) then sendXoff p s
  else if xoff = 1 ∧ itkFill s p < xonLevel s p then sendXon p s
  else s

/-- Flow control of a port that is enabled, or whose link returns, from the fill at that moment: an empty Sluice sends quanta 0 (R284, R285). -/
def resumeFlow (p : Nat) (s : State) : State :=
  if s.rf p Reg.ITK_PSTATUS 0 0 = 1 ∧ itkFill s p = 0 then sendXon p s else flowControl p 0 s

/-- A drop, counted. -/
def dropFrame (p off : Nat) (s : State) : State := s.count p off 1

/-- Is the FCS of an Ethernet frame correct (IEEE 802.3). -/
def fcsOk (f : List Byte) : Bool := leAt f (f.length - 4) 4 == crcReflected 0xEDB88320 (f.take (f.length - 4))

/-- Is a frame tagged. -/
def ethTagged (f : List Byte) : Bool := beNat (slice f 12 2) == 0x8100

/-- Place of the EtherType of a frame. -/
def ethTypeAt (f : List Byte) : Nat := if ethTagged f then 16 else 12

/-- A PFC or pause frame (R272). -/
def isPause (f : List Byte) : Bool :=
  beNat (slice f 12 2) == 0x8808 && (beNat (slice f 14 2) == 0x0101 || beNat (slice f 14 2) == 0x0001)

/-- The bytes between the EtherType and the FCS. -/
def ethPayload (f : List Byte) : List Byte := (f.take (f.length - 4)).drop (ethTypeAt f + 2)

/-- STREAM of a segment header (R273). -/
def segStream (h : List Byte) : Nat := leAt h 2 2
/-- MTYPE (R273). -/
def segMtype (h : List Byte) : Nat := leAt h 4 1
/-- SAMPLE (R273). -/
def segSample (h : List Byte) : Nat := leAt h 8 4
/-- OFFSET (R273). -/
def segOffset (h : List Byte) : Nat := leAt h 12 4
/-- LENGTH (R273). -/
def segLength (h : List Byte) : Nat := leAt h 16 2
/-- LAST (R273). -/
def segLast (h : List Byte) : Bool := bit (leAt h 1 1) 0
/-- The data of a segment; what follows them is discarded (R274). -/
def segData (h : List Byte) : List Byte := slice h 24 (segLength h)

/-- Ring size in bytes of a stream (R275). -/
def ringBytes (s : State) (p n : Nat) : Nat := s.rf (256 * p + n) Reg.ITK_RING_SIZE 11 0 * 0x200000

/-- Is a segment header valid (R274). -/
def segOk (p : Nat) (h : List Byte) (s : State) : Bool :=
  decide (24 ≤ h.length) && leAt h 0 1 == 1 && leAt h 1 1 / 2 == 0 && decide (segStream h < 256) && decide (segMtype h ≤ 5) &&
    leAt h 5 3 == 0 && leAt h 18 6 == 0 && decide (24 + segLength h ≤ h.length) && ringBytes s p (segStream h) != 0

/-- The address, tag, type and header checks of R272, in one for they count alike. [DEDUCED 51] -/
def filterOk (p : Nat) (f : List Byte) (s : State) : Bool :=
  leAt f 0 6 == (s.reg p Reg.ITK_MAC_LO).toNat + 2 ^ 32 * s.rf p Reg.ITK_MAC_HI 15 0 &&
    (!ethTagged f || beNat (slice f 14 2) / 8192 == s.rf p Reg.ITK_PCTRL 6 4) &&
    beNat (slice f (ethTypeAt f) 2) == s.rf p Reg.ITK_ETYPE 15 0 && segOk p (ethPayload f) s

/-- Raise the INTAKE cause (R450). -/
def itkFlag (p b : Nat) (s : State) : State := raiseEvt .intake (s.setRf p Reg.ITK_PSTATUS b b 1)

/-- A frame that Sluice has no room for (R281). -/
def overflowFrame (p : Nat) (f : List Byte) (s : State) : State :=
  let x := s.iport p
  itkFlag p 2 ((s.count p Reg.ITK_DROP_OVF 1).setIport p { x with frames := x.frames ++ [.lost (segStream (ethPayload f))] })

/-- Take a frame into Sluice (R279). -/
def storeFrame (p : Nat) (f : List Byte) (s : State) : State :=
  let x := s.iport p
  flowControl p (itkFill s p) ((s.count64 p Reg.ITK_FRAMES_LO 1).setIport p
    { x with frames := x.frames ++ [.seg (ethPayload f) (f.length + 8) s.tb] })

/-- INTAKE_FRAME_RECEIVE: the checks of R272 in table order. -/
def execIntakeFrameReceive (port : Fin 2) (frame : List Byte) (s : State) : Host.Outcome State Fault Refusal :=
  let p := port.val
  if s.rf p Reg.ITK_PSTATUS 0 0 = 0 then .next s
  else if frame.length < 64 ∨ 9216 < frame.length ∨ !fcsOk frame then .next (dropFrame p Reg.ITK_DROP_FCS s)
  else if isPause frame then .next s
  else if !filterOk p frame s then .next (dropFrame p Reg.ITK_DROP_FILTER s)
  else if !itkEn s p then .next (dropFrame p Reg.ITK_DROP_PRE_EN s)
  else if sluiceBytes < itkFill s p + frame.length + 8 then .next (overflowFrame p frame s)
  else .next (storeFrame p frame s)

/-- XOFF_REPEAT: every 40 µs, 1,000 ticks, while XOFF is in force (R280, R283). -/
def execXoffRepeat (port : Fin 2) (s : State) : Host.Outcome State Fault Refusal :=
  let p := port.val
  if s.rf p Reg.ITK_PSTATUS 1 0 = 3 ∧ (s.iport p).xoffAt + 1000 ≤ s.now then .next (sendXoff p s) else .next s

/-- Requester number of an Intake port (R37). -/
def itkReq (p : Nat) : Nat := 0x0030 + p

/-- First VA of a stream's ring (R275). -/
def ringVa (s : State) (p n : Nat) : Nat :=
  s.rf (256 * p + n) Reg.ITK_RING_VA_LO 31 21 * 0x200000 + 2 ^ 32 * s.rf (256 * p + n) Reg.ITK_RING_VA_HI 15 0

/-- Write bytes at a ring offset, wrapping (R275, R76). -/
def ringWrite (p n off : Nat) (d : List Byte) (s : State) : MRes Unit :=
  let size := ringBytes s p n
  let o := off % size
  let c : Ctx := { rid := itkReq p }
  match vWrite c (ringVa s p n + o) (d.take (size - o)) none s with
  | (.error f, s1) => (.error f, s1)
  | (.ok _, s1) => if d.length ≤ size - o then (.ok (), s1) else vWrite c (ringVa s p n) (d.drop (size - o)) none s1

/-- A failing ring write: the sample ends SHORT, the stream is disabled, a record is written (R278). [DEDUCED 31] -/
def ringFault (p n : Nat) (sample : Nat) (f : Fail) (s : State) : State :=
  let s1 := deviceSetReg (itkReq p) (256 * p + n) Reg.ITK_RING_SIZE 0 (s.count p Reg.ITK_SAMPLES_SHORT 1)
  let s2 := writeFault { cls := .intakeWrite, status := f.st, disp := .reported, req := itkReq p, unit := p, root := f.root,
                         body := leBytes 8 f.va ++ leBytes 2 n ++ leBytes 1 p ++ leBytes 1 0 ++ leBytes 4 sample } s1
  itkFlag p 4 (s2.setIst p n { s2.ist p n with open_ := none, discard := true })

/-- The record of a sample (R275). -/
def sampleRecord (n : Nat) (o : OpenSample) (flags : Nat) (last : W64) : List Byte :=
  leBytes 4 o.sample ++ leBytes 2 n ++ leBytes 1 o.mtype ++ leBytes 1 flags ++ leBytes 4 o.len ++ leBytes 4 0 ++
    leBytes 8 o.first.toNat ++ leBytes 8 last.toNat ++ leBytes 32 0

/-- The open sample of a stream ends: its record is written, and it becomes visible in its turn (R276, R277). -/
def endSample (p n flags : Nat) (s : State) : State :=
  let x := s.ist p n
  match x.open_ with
  | none => s
  | some o =>
    if ringBytes s p n = 0 then s.setIst p n { x with open_ := none, discard := true }
    else match ringWrite p n x.head (sampleRecord n o flags s.tb) s with
    | (.error f, s1) => ringFault p n o.sample f s1
    | (.ok _, s1) =>
      let h := (x.head + 64 + roundUp o.len 64) % ringBytes s p n
      let s2 := s1.setIst p n ⟨none, flags ≠ 1, h, x.vis ++ [h]⟩
      if flags = 1 then s2 else s2.count p Reg.ITK_SAMPLES_SHORT 1

/-- FLAGS values of R275. -/
def flagComplete : Nat := 1
/-- SHORT. -/
def flagShort : Nat := 2
/-- OVERSIZE. -/
def flagOversize : Nat := 4

/-- The part of a segment that MAX_SAMPLE leaves (R276). -/
def keptData (s : State) (p n len : Nat) (d : List Byte) : List Byte :=
  d.take ((s.reg (256 * p + n) Reg.ITK_MAX_SAMPLE).toNat - len)

/-- Does a segment continue the open sample (R275, R276). -/
def inOrder (o : OpenSample) (h : List Byte) : Bool := segSample h == o.sample && segOffset h == o.len

/-- Bytes of the ring in use up to an offset. -/
def ringUsed (s : State) (p n head : Nat) : Nat :=
  (head + ringBytes s p n - (s.reg (256 * p + n) Reg.ITK_RD_PTR).toNat) % ringBytes s p n

/-- Has the ring space for a segment: for a new record and for the data, rounded to 64 bytes (R275, R278). -/
def ringRoom (s : State) (p n : Nat) (h : List Byte) : Bool :=
  let x := s.ist p n
  let data := segData h
  let lim := ringBytes s p n - 64
  let fresh := fun (base : Nat) =>
    decide (ringUsed s p n x.head + base + 64 + roundUp (keptData s p n 0 data).length 64 ≤ lim)
  match x.open_ with
  | some o =>
    if inOrder o h then decide (ringUsed s p n x.head + 64 + roundUp (o.len + (keptData s p n o.len data).length) 64 ≤ lim)
    else if segOffset h = 0 then fresh (64 + roundUp o.len 64) else true
  | none => if segOffset h = 0 then fresh 0 else true

/-- Store a segment that continues the open sample (R275, R276). -/
def storeSeg (p n : Nat) (o : OpenSample) (h : List Byte) (s : State) : State :=
  let x := s.ist p n
  let d := keptData s p n o.len (segData h)
  match ringWrite p n (x.head + 64 + o.len) d s with
  | (.error f, s1) => ringFault p n o.sample f s1
  | (.ok _, s1) =>
    let s2 := s1.setIst p n { x with open_ := some { o with len := o.len + d.length }, discard := false }
    if d.length < segLength h then endSample p n flagOversize s2
    else if segLast h then endSample p n flagComplete s2 else s2

/-- Reassemble one segment (R275, R276); those of a stream that was disabled meanwhile are dropped (R274, R278). [DEDUCED 52] -/
def takeSeg (p : Nat) (h : List Byte) (tick : W64) (s : State) : State :=
  let n := segStream h
  let start := fun (u : State) => storeSeg p n ⟨segSample h, segMtype h, 0, tick⟩ h u
  if ringBytes s p n = 0 then s.count p Reg.ITK_DROP_FILTER 1
  else
    match (s.ist p n).open_ with
    | some o =>
      if inOrder o h then storeSeg p n o h s
      else
        let s1 := endSample p n flagShort s
        if segOffset h = 0 ∧ ringBytes s1 p n ≠ 0 then start s1 else s1
    | none => if segOffset h = 0 then start s else s

/-- Streams of a port with an open sample. -/
def openStreams (s : State) (p : Nat) : List Nat :=
  ((s.istreams.filter (fun e => e.1 / 256 = p ∧ e.2.open_.isSome)).map (fun e => e.1 % 256))

/-- Every open sample of a port ends SHORT (R276, R285). [DEDUCED 184] -/
def cutSamples (p : Nat) (s : State) : State := (openStreams s p).foldl (fun u n => endSample p n flagShort u) s

/-- Once all that Sluice held before its link went down or EN was cleared is reassembled, the samples still open end SHORT; a disabled
port is then drained (R276, R285). [DEDUCED 184] -/
def settleCuts (p : Nat) : List SFrame → State → State
  | .cut dis :: r, s =>
    let s1 := cutSamples p (s.setIport p { s.iport p with frames := r })
    settleCuts p r (if dis then itkFlag p 5 s1 else s1)
  | _, s => s

/-- The marks at the head of Sluice take effect. [DEDUCED 184] -/
def settle (p : Nat) (s : State) : State := settleCuts p (s.iport p).frames s

/-- Mark in Sluice that the link went down or EN was cleared: what it holds is still reassembled (R285). -/
def cutPort (p : Nat) (dis : Bool) (s : State) : State :=
  settle p (s.setIport p { s.iport p with frames := (s.iport p).frames ++ [.cut dis] })

/-- SLUICE_DRAIN: reassembly takes the frame at the head of Sluice if its stream's ring has room (R275 to R278, R282). -/
def execSluiceDrain (port : Fin 2) (s : State) : Host.Outcome State Fault Refusal :=
  let p := port.val
  .next (needClock .mclk (itkReq p) (fun s0 =>
    let x := s0.iport p
    match x.frames with
    | [] => s0
    | .lost n :: r => settle p (endSample p n flagShort (s0.setIport p { x with frames := r }))
    | .cut _ :: _ => settle p s0
    | .seg h _ tick :: r =>
      if ringBytes s0 p (segStream h) ≠ 0 ∧ !ringRoom s0 p (segStream h) h then s0
      else settle p (flowControl p (itkFill s0 p) (takeSeg p h tick (s0.setIport p { x with frames := r })))) s)

/-- SAMPLE_RECORD_VISIBLE: WR_PTR moves past the oldest ended sample of a stream (R277). -/
def execSampleRecordVisible (port : Fin 2) (stream : Fin 256) (s : State) : Host.Outcome State Fault Refusal :=
  let x := s.ist port.val stream.val
  match x.vis with
  | [] => .next s
  | h :: r =>
    let i := 256 * port.val + stream.val
    .next (((s.setIst port.val stream.val { x with vis := r }).setReg i Reg.ITK_WR_PTR (BitVec.ofNat 32 h)).count i Reg.ITK_SAMPLES 1)

/-- INTAKE_LINK_UP: the PHY has trained; flow control resumes from the fill, or XOFF is held (R283, R285). It needs CWY_REFCLK
(R417) and configuration ready (R457); a missing PHY trains no link (R465). -/
def execIntakeLinkUp (port : Fin 2) (s : State) : Host.Outcome State Fault Refusal :=
  let p := port.val
  if s.rf p Reg.ITK_PSTATUS 0 0 = 1 ∨ s.rf 0 Reg.CLK_STATUS 9 9 = 0 ∨ !s.up.cfgReady ∨ s.up.itkGone.contains p then .next s
  else
    let s1 := s.setRf p Reg.ITK_PSTATUS 0 0 1
    .next (if itkEn s p then resumeFlow p s1 else sendXoff p s1)

/-- The link of a port goes down: what Sluice holds is still reassembled (R285). -/
def intakeLinkDown (p : Nat) (s : State) : State :=
  if s.rf p Reg.ITK_PSTATUS 0 0 = 0 then s else if itkEn s p then cutPort p false (s.setRf p Reg.ITK_PSTATUS 0 0 0)
  else s.setRf p Reg.ITK_PSTATUS 0 0 0

/-- INTAKE_LINK_DOWN (R285). -/
def execIntakeLinkDown (port : Fin 2) (s : State) : Host.Outcome State Fault Refusal := .next (intakeLinkDown port.val s)

/-- Set CFG_ERR of a port (R284). -/
def itkCfgErr (p : Nat) (s : State) : State := s.setRf p Reg.ITK_PSTATUS 3 3 1

/-- May a port be enabled (R284). -/
def enableOk (p : Nat) (s : State) : Bool :=
  let ns := (List.range 256).filter (fun n => ringBytes s p n ≠ 0)
  ns ≠ [] && ns.all (fun n =>
    let m := (s.reg (256 * p + n) Reg.ITK_MAX_SAMPLE).toNat
    decide (s.rf (256 * p + n) Reg.ITK_RING_SIZE 11 0 ≤ 2048) && m != 0 && decide (m + 64 ≤ ringBytes s p n))

/-- The guard of CTRL (R284): PRIO stands while EN is 1, and EN = 1 is refused without usable streams or without a PHY (R465). -/
def itkCtrlGuard (p : Nat) (old cand : W32) (s : State) : W32 × State :=
  if fld old 0 0 = 1 then
    if fld cand 6 4 = fld old 6 4 then (cand, s) else (setFld cand 6 4 (fld old 6 4), itkCfgErr p s)
  else if fld cand 0 0 = 1 ∧ (!enableOk p s ∨ s.up.itkGone.contains p) then (setFld cand 0 0 0, itkCfgErr p s)
  else (cand, s)

/-- Effect of CTRL (R284, R285): enabling sends quanta 0 where the fill allows it, disabling sends XOFF and holds it. -/
def itkCtrlEffect (p : Nat) (old new : W32) (s : State) : State :=
  let up := s.rf p Reg.ITK_PSTATUS 0 0 = 1
  if fld old 0 0 = 0 ∧ fld new 0 0 = 1 then resumeFlow p s
  else if fld old 0 0 = 1 ∧ fld new 0 0 = 0 then
    cutPort p true (if up then sendXoff p s else s.setRf p Reg.ITK_PSTATUS 1 1 1)
  else s

/-- The rule of CTRL. [DEDUCED 68] -/
def itkCtrlRule : WriteRule := { guard := fun p o c s => itkCtrlGuard p o c s, effect := fun p o n _ s => itkCtrlEffect p o n s }

/-- A register that keeps its value, with CFG_ERR, while the port is enabled (R284). -/
def itkHeld (p : Nat) (old cand : W32) (s : State) : W32 × State := if itkEn s p then (old, itkCfgErr p s) else (cand, s)

/-- The rule of ETYPE, MAC and XON_LEVEL (R284). -/
def itkPortRule : WriteRule := { guard := fun p o c s => itkHeld p o c s }

/-- The rule of SKID_US: 1 to 1,000 µs. -/
def itkSkidRule : WriteRule :=
  { guard := fun p o c s =>
      if fld c 9 0 = 0 ∨ 1000 < fld c 9 0 then (o, itkCfgErr p s) else itkHeld p o c s }

/-- The rule of the stream-entry fields other than RD_PTR (R284). -/
def itkStreamRule : WriteRule := { guard := fun i o c s => itkHeld (i / 256) o c s }

/-- The rule of RD_PTR: 64-byte aligned and inside the ring. -/
def itkRdRule : WriteRule :=
  { guard := fun i o c s => if c.toNat % 64 ≠ 0 ∨ ringBytes s (i / 256) (i % 256) ≤ c.toNat then (o, s) else (c, s) }

end Sys2Proof.Machine
end

