-- ==== Sys2Proof/Machine/Tokeniser.lean ====
section
/-! DEFINITION. Machine/Tokeniser.lean: UTF-8 validation (R309), pieces (R310), merges (R311), and the loading of a tokeniser set
(R312). -/

namespace Sys2Proof.Machine

/-- Is a byte a UTF-8 continuation byte (RFC 3629). -/
def utfCont (b : Nat) : Bool := decide (0x80 ≤ b) && decide (b ≤ 0xBF)

/-- Length of the well-formed sequence that begins a byte list, 0 where none does (R309, RFC 3629). -/
def utfLen : List Nat → Nat
  | [] => 0
  | b :: r =>
    let c := fun i lo hi => let x := r.getD i 0; decide (i < r.length) && decide (lo ≤ x) && decide (x ≤ hi)
    let t := fun i => decide (i < r.length) && utfCont (r.getD i 0)
    if b < 0x80 then 1
    else if 0xC2 ≤ b ∧ b ≤ 0xDF then (if t 0 then 2 else 0)
    else if b = 0xE0 then (if c 0 0xA0 0xBF && t 1 then 3 else 0)
    else if b = 0xED then (if c 0 0x80 0x9F && t 1 then 3 else 0)
    else if 0xE1 ≤ b ∧ b ≤ 0xEF then (if t 0 && t 1 then 3 else 0)
    else if b = 0xF0 then (if c 0 0x90 0xBF && t 1 && t 2 then 4 else 0)
    else if 0xF1 ≤ b ∧ b ≤ 0xF3 then (if t 0 && t 1 && t 2 then 4 else 0)
    else if b = 0xF4 then (if c 0 0x80 0x8F && t 1 && t 2 then 4 else 0)
    else 0

/-- One unit of text: a code point's bytes, or an invalid byte (R309). -/
structure TextUnit where
  off   : Nat
  bytes : List Nat
  ok    : Bool
deriving DecidableEq, Repr

/-- Split text into units; `k` bounds the bytes left. -/
def textUnits : Nat → Nat → List Nat → List TextUnit
  | 0, _, _ => []
  | k + 1, off, l =>
    match l with
    | [] => []
    | b :: r =>
      let n := utfLen (b :: r)
      if n = 0 then ⟨off, [b], false⟩ :: textUnits k (off + 1) r
      else ⟨off, (b :: r).take n, true⟩ :: textUnits k (off + n) ((b :: r).drop n)

/-- White space of R310. -/
def isSpace (u : TextUnit) : Bool := u.ok && [0x20, 0x09, 0x0A, 0x0D].any (fun c => u.bytes == [c])

/-- Does a piece boundary lie between two units, the length limit apart (R310). -/
def boundary (p u : TextUnit) : Bool := !p.ok || !u.ok || (isSpace u && !isSpace p)

/-- Does a unit at offset `n` of an otherwise unbroken piece hold a multiple of 1,024 bytes: the piece is cut before it (R310). [DEDUCED 60] -/
def lengthCut (n len : Nat) : Bool := decide ((n - 1) / 1024 < (n + len - 1) / 1024)

/-- Pieces of text, each a list of units; the one being built is in reverse, with the bytes since the last boundary that is not a cut
for length (R310). [DEDUCED 60] -/
def piecesFrom : List TextUnit → List TextUnit → Nat → List (List TextUnit)
  | [], [], _ => []
  | [], cur, _ => [cur.reverse]
  | u :: r, [], n => piecesFrom r [u] (n + u.bytes.length)
  | u :: r, p :: cur, n =>
    if boundary p u then (p :: cur).reverse :: piecesFrom r [u] u.bytes.length
    else if lengthCut n u.bytes.length then (p :: cur).reverse :: piecesFrom r [u] (n + u.bytes.length)
    else piecesFrom r (u :: p :: cur) (n + u.bytes.length)

/-- Rank of the merge of two adjacent tokens (R311). -/
def rankOf (merges : List (Nat × Nat)) (a b : Nat) : Option Nat := merges.findIdx? (fun m => m == (a, b))

/-- The lowest rank among adjacent pairs (R311). -/
def lowestRank (merges : List (Nat × Nat)) : List Nat → Option Nat
  | a :: b :: r =>
    match rankOf merges a b, lowestRank merges (b :: r) with
    | some x, some y => some (min x y)
    | some x, none => some x
    | none, y => y
  | _ => none

/-- Replace every occurrence of a pair, left to right without overlap (R311). -/
def replacePair (p : Nat × Nat) (tok : Nat) : List Nat → List Nat
  | a :: b :: r => if (a, b) = p then tok :: replacePair p tok r else a :: replacePair p tok (b :: r)
  | l => l
termination_by structural l => l

/-- Merge a piece until no pair has an entry; each round shortens it (R311). -/
def mergePiece (merges : List (Nat × Nat)) : Nat → List Nat → List Nat
  | 0, l => l
  | k + 1, l =>
    match lowestRank merges l with
    | none => l
    | some r => mergePiece merges k (replacePair (merges.getD r (0, 0)) (256 + r) l)

/-- Output identifiers of a piece (R309, R311). -/
def pieceTokens (t : TokSet) (p : List TextUnit) : List Nat :=
  if p.any (fun u => !u.ok) then [t.repl]
  else
    let l := p.flatMap (·.bytes)
    (mergePiece t.merges l.length l).map (fun k => t.vocab.getD k 0)

/-- Tokens of a text with the damage of R309: (byte, token index) of each invalid byte. -/
def tokenise (t : TokSet) (bytes : List Nat) : List Nat × List (Nat × Nat) :=
  (piecesFrom (textUnits bytes.length 0 bytes) [] 0).foldl (fun acc p =>
    let bad := (p.filter (fun u => !u.ok)).map (fun u => (u.off, acc.1.length))
    (acc.1 ++ pieceTokens t p, acc.2 ++ bad)) ([], [])

/-- Offset of a register of tokeniser set `k`. -/
def tokReg (off k : Nat) : Nat := off + 0x20 * k

/-- Requester number of the unit that loads a set: the first tokeniser. -/
def tokReq : Nat := 0x0080

/-- Pairs of a merge table (R311). -/
def mergePairs (n : Nat) (b : List Byte) : List (Nat × Nat) := (List.range n).map (fun r => (leAt b (8 * r) 4, leAt b (8 * r + 4) 4))

/-- Are merge entries valid: tokens below 256 + r and no pair twice (R312). -/
def mergesOk (ms : List (Nat × Nat)) : Bool :=
  ((List.range ms.length).zip ms).all (fun e => decide (e.2.1 < 256 + e.1) && decide (e.2.2 < 256 + e.1)) && decide ms.Nodup

/-- Read and validate the tables of a set (R312). -/
def loadSet (k : Nat) (s : State) : MRes TokSet :=
  let n := s.rf 0 (tokReg Reg.TOK0_NMERGE k) 17 0
  let va := fun lo hi => (s.rf 0 (tokReg lo k) 31 12) * 4096 + 2 ^ 32 * s.rf 0 (tokReg hi k) 15 0
  if 261888 < n then (.error (mkFail .tableInvalid 0), s)
  else
    match vRead { rid := tokReq } .r (va Reg.TOK0_MERGE_LO Reg.TOK0_MERGE_HI) (8 * n) s with
    | (.error f, s1) => (.error f, s1)
    | (.ok mb, s1) =>
      match vRead { rid := tokReq } .r (va Reg.TOK0_VOCAB_LO Reg.TOK0_VOCAB_HI) (4 * (256 + n)) s1 with
      | (.error f, s2) => (.error f, s2)
      | (.ok vb, s2) =>
        let ms := mergePairs n mb
        if !mergesOk ms then (.error (mkFail .tableInvalid 0), s2)
        else (.ok ⟨ms, (List.range (256 + n)).map (fun i => leAt vb (4 * i) 4), (s.reg 0 (tokReg Reg.TOK0_REPL_ID k)).toNat⟩, s2)

/-- TOK_STATE after a load (R312). -/
def endLoad (k : Nat) (code : Status) (s : State) : State :=
  let s1 := (s.setRf 0 (tokReg Reg.TOK0_STATE k) 1 1 0).setRf 0 (tokReg Reg.TOK0_STATE k) 15 8 code.code
  if code = .ok then s1.setRf 0 (tokReg Reg.TOK0_STATE k) 0 0 1 else s1.setRf 0 Reg.MED_STATUS 3 3 1

/-- Is a text sample of a set admitted and not recorded (R312). -/
def setBusy (k : Nat) (s : State) : Bool :=
  s.med.any (fun e => e.2.samples.any (fun m =>
    let c := m.cfg.getD 0 0
    bits c 3 1 = 5 && bits c 24 24 = k && m.stage ≠ .queued && m.stage ≠ .done))

/-- TOK_LOAD_DONE: the load ends once no text sample of the set is being decoded; on success its tables are in force (R312). -/
def execTokLoadDone (set : Fin 2) (s : State) : Host.Outcome State Fault Refusal :=
  let k := set.val
  if s.rf 0 (tokReg Reg.TOK0_STATE k) 1 1 = 0 ∨ setBusy k s then .next s
  else .next (needClock .mclk tokReq (fun u =>
    match loadSet k u with
    | (.error f, s1) => endLoad k f.st s1
    | (.ok t, s1) => endLoad k .ok { s1 with toksets := SMap.put s1.toksets k t }) s)

/-- The rule of TOK_LOAD of a set: a load starts and is BUSY until it ends (R312). -/
def tokLoadRule (k : Nat) : WriteRule :=
  { effect := fun _ _ _ v s => if fld v 0 0 = 1 then s.setRf 0 (tokReg Reg.TOK0_STATE k) 1 1 1 else s }

end Sys2Proof.Machine
end

