-- ==== Sys2Proof/Machine/Media.lean ====
section
/-! DEFINITION. Machine/Media.lean: decode contexts and engines (R286 to R294), the header checks (R298, R299), output areas (R295, R297),
HEVC frame buffers (R305 to R308), and the med instructions (R314, R315). -/

namespace Sys2Proof.Machine

/-- A decode context. -/
def State.mctx (s : State) (c : Nat) : MCtx := SMap.getD s.med c MCtx.empty

/-- Store a decode context; INFLIGHT follows its samples. -/
def State.setMctx (s : State) (c : Nat) (x : MCtx) : State :=
  { s with med := SMap.set MCtx.empty s.med c x }.setRf c Reg.MED_CTX_STATE 6 0 x.samples.length

/-- A field of a context's control register. -/
def medF (s : State) (c hi lo : Nat) : Nat := s.rf c Reg.MED_CTX_CTRL hi lo
/-- EN of a context. -/
def medEn (s : State) (c : Nat) : Bool := medF s c 0 0 == 1
/-- BSTREAM of a context. -/
def medBs (s : State) (c : Nat) : Nat := medF s c 23 16

/-- A batch stream. -/
def State.bst (s : State) (n : Nat) : BStream := SMap.getD s.bstreams n BStream.empty

/-- Store a batch stream. -/
def State.setBst (s : State) (n : Nat) (x : BStream) : State := { s with bstreams := SMap.set BStream.empty s.bstreams n x }

/-- MTYPE of an admitted sample's context. -/
def MSample.mt (m : MSample) : Nat := bits (m.cfg.getD 0 0) 3 1
/-- BSTREAM at admission. -/
def MSample.bs (m : MSample) : Nat := bits (m.cfg.getD 0 0) 23 16

/-- Engine kind that serves an MTYPE (R286). -/
def engineOf (mt : Nat) : Nat := if mt ≤ 2 then mt else if mt ≤ 4 then 3 else 4

/-- Cores of an engine kind (R286). -/
def coresOf (e : Nat) : List Nat :=
  (List.range 72).filter (fun k => (if k < 24 then 0 else if k < 40 then 1 else if k < 56 then 2 else if k < 64 then 3 else 4) = e)

/-- Requester number of a core (R37, R286). -/
def coreReq (k : Nat) : Nat := 0x0040 + k

/-- The sample on a core. -/
def coreSample (s : State) (k : Nat) : Option MSample := s.med.findSome? (fun e => e.2.samples.find? (fun m => m.core = some k))

/-- Store an admitted sample. -/
def putSample (m : MSample) (s : State) : State :=
  let x := s.mctx m.ctx
  s.setMctx m.ctx { x with samples := x.samples.map (fun j => if j.order = m.order then m else j) }

/-- Set MED_STATUS.CFG_ERR. -/
def medCfgErr (s : State) : State := s.setRf 0 Reg.MED_STATUS 0 0 1

/-- Ring of the source of a context: first VA and size in bytes (R275, R289). -/
def srcRing (s : State) (c : Nat) : Nat × Nat :=
  let n := medF s c 15 8
  if medF s c 6 4 = 3 then
    (s.rf c Reg.MED_IN_RING_VA_LO 31 21 * 0x200000 + 2 ^ 32 * s.rf c Reg.MED_IN_RING_VA_HI 15 0,
      s.rf c Reg.MED_IN_RING_SIZE 11 0 * 0x200000)
  else (ringVa s (medF s c 6 4 - 1) n, ringBytes s (medF s c 6 4 - 1) n)

/-- Write offset of the source ring. -/
def srcWr (s : State) (c : Nat) : Nat :=
  if medF s c 6 4 = 3 then (s.reg c Reg.MED_IN_WR_PTR).toNat
  else (s.reg (256 * (medF s c 6 4 - 1) + medF s c 15 8) Reg.ITK_WR_PTR).toNat

/-- Read offset of the source ring. -/
def srcRd (s : State) (c : Nat) : Nat :=
  if medF s c 6 4 = 3 then (s.reg c Reg.MED_IN_RD_PTR).toNat
  else (s.reg (256 * (medF s c 6 4 - 1) + medF s c 15 8) Reg.ITK_RD_PTR).toNat

/-- Output ring of a context (R295). -/
def outRing (s : State) (c : Nat) : Nat × Nat :=
  (s.rf c Reg.MED_OUT_RING_VA_LO 31 21 * 0x200000 + 2 ^ 32 * s.rf c Reg.MED_OUT_RING_VA_HI 15 0,
    s.rf c Reg.MED_OUT_RING_SIZE 11 0 * 0x200000)

/-- Read `n` bytes of a ring from an offset, wrapping. -/
def ringRead (rid : Nat) (r : Nat × Nat) (off n : Nat) (s : State) : MRes (List Byte) :=
  let o := off % r.2
  let k := min n (r.2 - o)
  match vRead { rid := rid } .r (r.1 + o) k s with
  | (.error f, s1) => (.error f, s1)
  | (.ok d, s1) =>
    if n ≤ k then (.ok d, s1)
    else
      match vRead { rid := rid } .r r.1 (n - k) s1 with
      | (.ok e, s2) => (.ok (d ++ e), s2)
      | (.error f, s2) => (.error f, s2)

/-- Write bytes into a ring from an offset, wrapping (R76). -/
def ringPut (rid : Nat) (r : Nat × Nat) (off : Nat) (d : List Byte) (s : State) : MRes Unit :=
  let o := off % r.2
  match vWrite { rid := rid } (r.1 + o) (d.take (r.2 - o)) none s with
  | (.error f, s1) => (.error f, s1)
  | (.ok _, s1) => if d.length ≤ r.2 - o then (.ok (), s1) else vWrite { rid := rid } r.1 (d.drop (r.2 - o)) none s1

/-- Bytes from offset `o` of a sample's data (R289, R315). -/
def srcRead (rid : Nat) (m : MSample) (o n : Nat) (s : State) : MRes (List Byte) :=
  match m.src with
  | .ring va size off => ringRead rid (va, size) (off + o) n s
  | .desc d =>
    let v : View := ⟨Desc.ofWord d, 0, 0, 0⟩
    match mapM (fun i t => readLoc { rid := rid } (v.loc [o + i, 0, 0, 0, 0, 0]) 1 t) (List.range n) s with
    | (.ok ds, s1) => (.ok ds.flatten, s1)
    | (.error f, s1) => (.error f, s1)

/-- Slots of the composer that no stream holds (R317): those a disabled stream still holds are not free. -/
def slotsFree (s : State) : Nat := 4096 - ((List.range 64).map (fun n => s.rf n Reg.BAT_SLOTS_USED 12 0)).foldl (· + ·) 0

/-- Has the batch stream of a context a free slot (R292, R317). -/
def slotFree (s : State) (n : Nat) : Bool :=
  n = 0xFF || (s.rf n Reg.BAT_SCTRL 0 0 = 1 && decide (s.rf n Reg.BAT_SLOTS_USED 12 0 < s.rf n Reg.BAT_SLOT_QUOTA 12 0) &&
    decide (0 < slotsFree s))

/-- Context registers at admission. -/
def medCfg (s : State) (c : Nat) : List Nat :=
  [Reg.MED_CTX_CTRL, Reg.MED_LIM_WH, Reg.MED_LIM_PIX, Reg.MED_LIM_DUR_MS, Reg.MED_LIM_TOKENS, Reg.MED_RESERVE].map
    (fun o => (s.reg c o).toNat)

/-- Admit a sample: its slot, its tick and its place (R292, R320). [DEDUCED 53] -/
def admitSample (m : MSample) (s : State) : State :=
  let x := s.mctx m.ctx
  let s1 := ({ s with medCount := s.medCount + 1 }).setMctx m.ctx { x with samples := x.samples ++ [m] }
  if m.bs = 0xFF then s1
  else
    let b := s1.bst m.bs
    (s1.setBst m.bs { b with queue := b.queue ++ [⟨m.ctx, m.order, none, false, false, [], 0, false⟩] }).setRf m.bs
      Reg.BAT_SLOTS_USED 12 0 (s1.rf m.bs Reg.BAT_SLOTS_USED 12 0 + 1)

/-- A sample at its admission. -/
def newSample (s : State) (c id len mtype : Nat) (short : Bool) (src : MSrc) (tok : Option (Nat × Nat × Nat)) : MSample :=
  { order := s.medCount, ctx := c, id := id, src := src, len := len, mtype := mtype, tick := s.tb, cfg := medCfg s c, short := short, tok := tok,
    core := none, stage := .queued, hdr := none, area := none, length := 0, fb := none, refCon := false, bytes := [],
    read := false,
    fail := { st := .ok }, cause := 0, rec_ := [] }

/-- An access of a media core that fails writes the record of R30. -/
def coreFault (k : Nat) (f : Fail) (s : State) : State := unitFault (coreReq k) f.va f s

/-- The core that reads the source records of a context. -/
def frontCore (s : State) (c : Nat) : Nat := (coresOf (engineOf (medF s c 3 1))).headD 0

/-- Admission from a ring: the front end reads the record, of which it uses SAMPLE, MTYPE, FLAGS and LENGTH (R289, R294). -/
def admitRing (c : Nat) (s : State) : State :=
  let r := srcRing s c
  let x := s.mctx c
  if r.2 = 0 ∨ srcWr s c = x.next then s
  else
    match ringRead (coreReq (frontCore s c)) r x.next 64 s with
    | (.error f, s1) => coreFault (frontCore s c) f s1
    | (.ok d, s1) =>
      let len := leAt d 8 4
      let m := newSample s1 c (leAt d 0 4) len (leAt d 6 1) (bits (leAt d 7 1) 2 1 != 0) (.ring r.1 r.2 (x.next + 64)) none
      let e := (x.next + 64 + roundUp len 64) % r.2
      admitSample m (s1.setMctx c { x with next := e, ends := x.ends ++ [(m.order, e, false)] })

/-- Admission of the oldest med.submit (R315). -/
def admitSubmit (c : Nat) (s : State) : State :=
  let x := s.mctx c
  match x.submits with
  | [] => s
  | u :: r => admitSample (newSample s c u.id u.len (medF s c 3 1) false (.desc u.da) (some (u.a, u.thr, u.seq))) (s.setMctx c { x with submits := r })

/-- Does a sample wait at the source of a context. -/
def sourceWaits (s : State) (c : Nat) : Bool :=
  if medF s c 6 4 = 0 then (s.mctx c).submits != [] else (srcRing s c).2 != 0 && srcWr s c != (s.mctx c).next

/-- Can a context admit a sample (R292); a load of its tokeniser set holds it back (R312). -/
def mayAdmit (s : State) (c : Nat) : Bool :=
  medEn s c && sourceWaits s c && decide ((s.mctx c).samples.length < 64) && slotFree s (medBs s c) &&
    !(medF s c 3 1 == 5 && s.rf 0 (tokReg Reg.TOK0_STATE (medF s c 24 24)) 1 1 == 1)

/-- The contexts that contend with a context for its batch stream: it alone where it has none (R292). -/
def admitRivals (s : State) (c : Nat) : List Nat :=
  if medBs s c = 0xFF then [c] else (List.range 1024).filter (fun k => medBs s k = medBs s c && mayAdmit s k)

/-- Pointer of a batch stream over the contexts that can admit to it (R292). [DESIGN CHOICE 18] -/
def rrAdmit (n : Nat) : Nat := 0x17000 + n

/-- Admit the next sample of a context. -/
def admitFrom (c : Nat) (s : State) : State :=
  if medF s c 6 4 = 0 then admitSubmit c s
  else needClock .mclk (coreReq (frontCore s c)) (admitRing c) s

/-- SAMPLE_ADMIT (R292): of the contexts that can admit to a batch stream, the one its pointer chooses admits; a row that names another
leaves the state unchanged. [DESIGN CHOICE 18] -/
def execSampleAdmit (ctx : Fin 1024) (s : State) : Host.Outcome State Fault Refusal :=
  let c := ctx.val
  if !mayAdmit s c then .next s
  else if medBs s c = 0xFF then .next (admitFrom c s)
  else
    match rrGrant (rrAdmit (medBs s c)) (admitRivals s c) s with
    | some (w, s1) => if w = c then .next (admitFrom c s1) else .next s
    | none => .next s

/-- Frame buffers reserved for a context. -/
def ctxBufs (s : State) (c : Nat) : List (Nat × FrameBuf) := s.fbs.filter (fun e => e.2.ctx = c)

/-- A buffer without a mark. -/
def FrameBuf.free (b : FrameBuf) : Bool := !b.dec && !b.ref && !b.out

/-- May a core take a sample now (R293, R306). -/
def eligible (s : State) (m : MSample) : Bool :=
  m.core.isNone &&
  (if m.stage = .buffer then (ctxBufs s m.ctx).any (fun b => b.2.free)
   else m.stage = .queued && (m.mt ≠ 1 || (s.mctx m.ctx).samples.all (fun j => decide (m.order ≤ j.order) || j.stage = .done)))

/-- The oldest eligible sample of an engine kind (R293). -/
def oldestSample (s : State) (e : Nat) : Option MSample :=
  (s.med.flatMap (fun x => x.2.samples.filter (fun m => engineOf m.mt = e && eligible s m))).foldl
    (fun acc m => match acc with
      | none => some m
      | some b => if m.order < b.order then some m else some b) none

/-- A core begins on a sample, its gate open; an HEVC core that changes context counts a switch and shows it until it goes on (R293, R308). -/
def startOn (k : Nat) (m : MSample) (s : State) : State :=
  let s1 := putSample { m with core := some k, stage := if m.stage = .buffer then .buffer else .header } s
  let s2 := ({ s1 with pw := { s1.pw with gates := setDel s1.pw.gates k } }.setRf k Reg.MED_CORE_STATE 1 0 2).setRf k Reg.MED_CORE_STATE 25 16 m.ctx
  if m.mt ≠ 1 then s2
  else
    let s3 := if (SMap.get? s2.medLast k).any (fun c => c != m.ctx) then (s2.count k Reg.MED_SWITCHES 1).setRf k Reg.MED_CORE_STATE 1 0 3 else s2
    { s3 with medLast := SMap.put s3.medLast k m.ctx }

/-- DECODE_START: the lowest idle core of an engine takes the oldest eligible sample (R293). -/
def execDecodeStart (eng : Fin 5) (s : State) : Host.Outcome State Fault Refusal :=
  match (coresOf eng.val).find? (fun k => (coreSample s k).isNone), oldestSample s eng.val with
  | some k, some m => .next (needClock .mclk (coreReq k) (startOn k m) s)
  | _, _ => .next s

/-- A core that has saved one context and restored another decodes (R308). -/
def coreOn (k : Nat) (s : State) : State := s.setRf k Reg.MED_CORE_STATE 1 0 2

/-- A core is idle again. -/
def coreIdle (k : Nat) (s : State) : State := s.setRf k Reg.MED_CORE_STATE 1 0 1

/-- A context limit: 0 and values above it mean the device maximum (R288). -/
def medLim (v dev : Nat) : Nat := if v = 0 ∨ dev < v then dev else v

/-- Device maxima of width and height, and of pixels (R288). -/
def devMax (mt : Nat) : Nat × Nat := if mt = 1 then (8192, 35389440) else (16384, 268435456)

/-- Tokens that a text context permits (R288, R300). -/
def tokLim (m : MSample) : Nat := medLim (m.cfg.getD 4 0) 16777216

/-- Duration limit in ms (R288). -/
def durLim (m : MSample) : Nat := medLim (m.cfg.getD 3 0) 600000

/-- Bytes per value of an image (R297). -/
def imgBps (depth : Nat) : Nat := if depth ≤ 8 then 1 else 2

/-- Width and height of the planes of an image of a CHROMA code (R297). -/
def planes (chroma w h : Nat) : List (Nat × Nat) :=
  let c := if chroma = 1 then (ceilDiv w 2, ceilDiv h 2) else if chroma = 2 then (ceilDiv w 2, h) else (w, h)
  if chroma = 0 then [(w, h)] else [(w, h), c, c]

/-- Pitch of a plane (R297). -/
def pitch (w depth : Nat) : Nat := roundUp (w * imgBps depth) 64

/-- Bytes of planes stored one after another (R297). -/
def planeBytes (chroma w h depth : Nat) : Nat := ((planes chroma w h).map (fun p => pitch p.1 depth * p.2)).foldl (· + ·) 0

/-- Frames of sound that an area holds: those of the header, or those of the limit where it gives none (R300). -/
def areaFrames (m : MSample) (h : MedHdr) : Nat := if h.frames = 0 ∧ m.mt = 3 then durLim m * h.rate / 1000 else h.frames

/-- LENGTH of the area of an accepted sample (R295, R297, R300); an HEVC picture lies in its frame buffer. [DEDUCED 56] -/
def areaLength (m : MSample) (h : MedHdr) : Nat :=
  match m.mt with
  | 1 => 0
  | 3 | 4 => h.channels * roundUp (4 * areaFrames m h) 64
  | 5 => roundUp (4 * min m.len (tokLim m)) 64
  | _ => planeBytes h.chroma h.width h.height h.depth

/-- Check 5 of R298: width, height, pixels, duration. -/
def limitsOk (m : MSample) (h : MedHdr) : Bool :=
  let wh := m.cfg.getD 1 0
  let w := if m.mt = 1 then h.codedW else h.width
  let ht := if m.mt = 1 then h.codedH else h.height
  match m.mt with
  | 5 => true
  | 3 | 4 => decide (h.frames * 1000 ≤ durLim m * h.rate)
  | mt => decide (w ≤ medLim (wh % 65536) (devMax mt).1) && decide (ht ≤ medLim (wh / 65536) (devMax mt).1) &&
      decide (w * ht ≤ medLim (m.cfg.getD 2 0) (devMax mt).2)

/-- Check 6 of R298, HEVC alone. -/
def dpbOk (s : State) (m : MSample) (h : MedHdr) : Bool :=
  m.mt ≠ 1 || (decide (h.dpb + 1 ≤ bits (m.cfg.getD 5 0) 4 0 - 1) &&
    decide (planeBytes h.chroma h.codedW h.codedH h.depth ≤ s.rf 0 Reg.MED_FB_SIZE 6 0 * 0x200000))

/-- Bits of a PNG pixel. -/
def pngBits (h : MedHdr) : Nat := if h.chroma = 4 then 3 * h.depth else h.depth

/-- Check 7 of R298: the data bounds. -/
def dataOk (m : MSample) (h : MedHdr) : Bool :=
  match m.mt with
  | 0 => decide (ceilDiv h.blocks 8 ≤ h.dataBytes)
  | 2 => decide (h.height * (1 + ceilDiv (h.width * pngBits h) 8) ≤ h.dataBytes * 1032)
  | 3 => h.frames = 0 || decide (9 * ceilDiv h.frames h.maxBlock ≤ h.dataBytes)
  | 4 => decide (h.blocks ≤ h.dataBytes)
  | _ => true

/-- CAUSE codes of R299. -/
inductive Cause where
  | none | unsupported | limit | data | dpb | type | noHeader | noIrap | noRef | concealMax | zeroLength | notOutput
deriving DecidableEq, Repr

/-- Code of a cause (R299). -/
def Cause.code : Cause → Nat
  | .none => 0x00 | .unsupported => 0x01 | .limit => 0x02 | .data => 0x03 | .dpb => 0x04 | .type => 0x05 | .noHeader => 0x06
  | .noIrap => 0x07 | .noRef => 0x08 | .concealMax => 0x09 | .zeroLength => 0x0A | .notOutput => 0x0B

/-- STATUS of a cause (R299). -/
def Cause.status : Cause → Status
  | .none => .ok
  | .unsupported | .limit | .data | .dpb | .type => .rejectedLimit
  | _ => .empty

/-- The checks of R298 in order; HEVC pictures before the first IRAP and the RASL pictures of the CRA
or BLA picture at which decoding began come after them (R307). -/
def headerCause (s : State) (m : MSample) (h : MedHdr) : Cause :=
  if m.mtype ≠ m.mt then .type
  else if m.len = 0 then .zeroLength
  else if m.mt ≠ 5 ∧ !h.complete then .noHeader
  else if m.mt ≠ 5 ∧ !h.supported then .unsupported
  else if !limitsOk m h then .limit
  else if !dpbOk s m h then .dpb
  else if !dataOk m h then .data
  else if (outRing s m.ctx).2 - 192 < 128 + areaLength m h then .limit
  else if m.mt = 1 ∧ s.rf m.ctx Reg.MED_CTX_STATE 8 8 = 0 ∧ !h.irap then .noIrap
  else if m.mt = 1 ∧ h.rasl ∧ (s.mctx m.ctx).skipRasl then .noRef
  else .none

/-- The PCM subformat of WAVE_FORMAT_EXTENSIBLE. -/
def pcmGuid : List Nat := [0x01, 0, 0, 0, 0, 0, 0x10, 0, 0x80, 0, 0, 0xAA, 0, 0x38, 0x9B, 0x71]

/-- RIFF chunks as (identifier, offset of the data, size); `k` bounds their number. -/
def riffChunks (b : List Byte) : Nat → Nat → List (Nat × Nat × Nat)
  | 0, _ => []
  | k + 1, off =>
    if b.length < off + 8 then []
    else
      let n := leAt b (off + 4) 4
      (leAt b off 4, off + 8, n) :: riffChunks b k (off + 8 + n + n % 2)

/-- Parse a RIFF/WAVE sample: its header and the offset of its data (R287, R298). -/
def waveHdr (b : List Byte) : MedHdr × Nat :=
  let cs := riffChunks b (b.length / 8 + 1) 12
  let fm := cs.find? (fun c => c.1 = 0x20746D66)
  let dt := cs.find? (fun c => c.1 = 0x61746164)
  match fm, dt with
  | some f, some d =>
    let tag := leAt b f.2.1 2
    let ch := leAt b (f.2.1 + 2) 2
    let rate := leAt b (f.2.1 + 4) 4
    let depth := leAt b (f.2.1 + 14) 2
    let guid := (List.range 16).map (fun i => leAt b (f.2.1 + 24 + i) 1)
    let pcm := tag = 1 ∨ (tag = 0xFFFE ∧ 40 ≤ f.2.2 ∧ guid = pcmGuid)
    let riff := leAt b 0 4 = 0x46464952 ∧ leAt b 8 4 = 0x45564157 ∧ 16 ≤ f.2.2 ∧ f.2.1 + 16 ≤ b.length
    ({ MedHdr.zero with
        complete := decide riff
        supported := decide pcm && (depth = 16 || depth = 24) && decide (1 ≤ ch) && decide (ch ≤ 8) && decide (rate ≤ 384000)
        rate := rate
        channels := ch
        depth := depth
        frames := d.2.2 / (ch * (depth / 8))
        blocks := d.2.2
        dataBytes := b.length - d.2.1 }, d.2.1)
  | _, _ => (MedHdr.zero, 0)

/-- A sample ends before decoding: nothing more of it is read (R294, R298). [DEDUCED 53] -/
def rejectSample (m : MSample) (h : Option MedHdr) (f : Fail) (cause : Nat) : MSample :=
  { m with stage := .area, hdr := h, fail := f, cause := cause, read := true }

/-- The header that the bytes of a sample hold (R287, R298), read in the HEVC context it belongs to. [PRESUMED 54] -/
def headerOf (s : State) (m : MSample) (b : List Byte) : MedHdr :=
  match m.mt with
  | 0 => jpegHdr b
  | 1 =>
    let x := s.mctx m.ctx
    hevcHdr (addParams x.params (nalUnits b)) x.prevPoc (s.rf m.ctx Reg.MED_CTX_STATE 8 8 == 0) b
  | 2 => pngHdr b
  | 3 => flacHdr b
  | 4 => (waveHdr b).1
  | _ => MedHdr.zero

/-- What a core reads of a sample for its header: all of it, or where that fails the first `head` bytes, if it can read those and the header
lies in them. [DEDUCED 53] -/
def readHead (k head : Nat) (m : MSample) (s : State) : MRes (List Byte) :=
  match srcRead (coreReq k) m 0 m.len s with
  | (.ok b, s1) => (.ok b, s1)
  | (.error f, s1) =>
    match srcRead (coreReq k) m 0 (min head m.len) s with
    | (.ok b, t) => if (headerOf s m b).complete ∧ m.mt ≠ 4 then (.ok b, t) else (.error f, s1)
    | (.error _, _) => (.error f, s1)

/-- The parameter sets of a sample join those of its context (R298, R308). -/
def keepParams (m : MSample) (b : List Byte) (s : State) : State :=
  if m.mt ≠ 1 then s
  else
    let x := s.mctx m.ctx
    s.setMctx m.ctx { x with params := addParams x.params (nalUnits b) }

/-- What an accepted HEVC picture leaves for the pictures after it: decoding has begun, the picture order count goes on, and the RASL pictures of a CRA or BLA
picture at which decoding began will be skipped (R307). -/
def notePicture (m : MSample) (h : MedHdr) (s : State) : State :=
  if m.mt ≠ 1 then s
  else
    let x := s.mctx m.ctx
    let began := s.rf m.ctx Reg.MED_CTX_STATE 8 8 == 0
    (s.setMctx m.ctx { x with prevPoc := if h.tid0 then h.poc else x.prevPoc
                              skipRasl := if h.irap then began && h.cra else x.skipRasl }).setRf m.ctx Reg.MED_CTX_STATE 8 8 1

/-- Mark the source as passed by a sample (R294). [DEDUCED 57] -/
def markRead (m : MSample) (s : State) : State :=
  let x := s.mctx m.ctx
  s.setMctx m.ctx { x with ends := x.ends.map (fun e => if e.1 = m.order then (e.1, e.2.1, true) else e) }

/-- The samples at the front of a source that have been read. [DEDUCED 57] -/
def readPrefix (l : List (Nat × Nat × Bool)) : List (Nat × Nat × Bool) := l.takeWhile (fun e => e.2.2)

/-- The read pointer of the source moves past the samples that have been read, in order (R294). -/
def advanceSource (k c : Nat) (s : State) : State :=
  let x := s.mctx c
  match (readPrefix x.ends).getLast? with
  | none => s
  | some e =>
    let s1 := s.setMctx c { x with ends := x.ends.drop (readPrefix x.ends).length }
    let v := BitVec.ofNat 32 e.2.1
    if medF s c 6 4 = 3 then s1.setReg c Reg.MED_IN_RD_PTR v
    else if medF s c 6 4 = 0 then s1
    else deviceSetReg (coreReq k) (256 * (medF s c 6 4 - 1) + medF s c 15 8) Reg.ITK_RD_PTR v s1

/-- SAMPLE_HEADER_READ (R298). -/
def execSampleHeaderRead (core : Fin 72) (head : Nat) (s : State) : Host.Outcome State Fault Refusal :=
  let k := core.val
  match coreSample s k with
  | none => .next s
  | some m =>
    if m.stage ≠ .header then .next s
    else
      let s0 := coreOn k s
      let reject := fun (h : Option MedHdr) (f : Fail) (cause : Nat) (u : State) =>
        advanceSource k m.ctx (markRead m (putSample (rejectSample m h f cause) u))
      match readHead k head m s0 with
      | (.error f, s1) => .next (reject none f 0 (coreFault k f s1))
      | (.ok b, s1) =>
        let h := headerOf s1 m b
        let c := headerCause s1 m h
        let s2 := keepParams m b s1
        if c = .none then
          .next (notePicture m h (putSample { m with stage := .area, hdr := some h, length := areaLength m h } s2))
        else .next (reject (some h) { st := c.status } c.code s2)

/-- Bytes of the output ring in use up to the next area (R295). -/
def outUsed (s : State) (c : Nat) : Nat :=
  ((s.mctx c).head + (outRing s c).2 - (s.reg c Reg.MED_OUT_RD_PTR).toNat) % (outRing s c).2

/-- AREA_RESERVE: areas are taken in admission order, once the ring has space (R295). -/
def execAreaReserve (core : Fin 72) (s : State) : Host.Outcome State Fault Refusal :=
  match coreSample s core.val with
  | none => .next s
  | some m =>
    let x := s.mctx m.ctx
    let size := (outRing s m.ctx).2
    if m.stage ≠ .area ∨ m.area.isSome ∨ x.samples.any (fun j => decide (j.order < m.order) && j.area.isNone) ∨
        size < outUsed s m.ctx + 128 + m.length + 64 then .next s
    else
      let e := (x.head + 128 + m.length) % size
      let m1 := { m with area := some x.head, stage := if m.mt = 1 ∧ m.fail.st = .ok then .buffer else .decode }
      let s1 := s.setMctx m.ctx { x with head := e, areas := x.areas ++ [(m.order, e, false)] }
      .next (putSample m1 s1)

/-- Set the marks of a frame buffer. -/
def setFb (i : Nat) (f : FrameBuf → FrameBuf) (s : State) : State :=
  match SMap.get? s.fbs i with
  | some b => { s with fbs := SMap.put s.fbs i (f b) }
  | none => s

/-- Does a reference picture set name a picture (R306). -/
def keeps (l : List RefPoc) (poc : Int) : Bool := l.any (fun r => if r.mod = 0 then r.poc == poc else r.poc == poc % (r.mod : Int))

/-- Reference marking: of the pictures that a context holds as references, those that the reference picture set names stay (R306). -/
def markRefs (c : Nat) (l : List RefPoc) (s : State) : State :=
  { s with fbs := s.fbs.map (fun e => if e.2.ctx = c then (e.1, { e.2 with ref := e.2.ref && keeps l e.2.poc }) else e) }

/-- The reference picture of a POC that a context holds (R306, R307). -/
def refBuf (s : State) (c : Nat) (poc : Int) : Option (Nat × FrameBuf) := (ctxBufs s c).find? (fun b => b.2.ref && b.2.poc == poc)

/-- Does a picture predict from a picture that was generated, or in which damage was concealed (R307). -/
def usesConcealed (s : State) (c : Nat) (refs : List Int) : Bool :=
  refs.any (fun p => match refBuf s c p with
    | some b => b.2.dirty
    | none => true)

/-- FRAME_BUFFER_ACQUIRE: reference marking by the slice header, then the lowest unmarked buffer of the reservation; with none free the core
saves the context and takes other work (R306 to R308). -/
def execFrameBufferAcquire (core : Fin 72) (refs : List Int) (s : State) : Host.Outcome State Fault Refusal :=
  match coreSample s core.val with
  | none => .next s
  | some m =>
    if m.stage ≠ .buffer then .next s
    else
      let h := m.hdr.getD MedHdr.zero
      let s1 := markRefs m.ctx h.keep (coreOn core.val s)
      match (ctxBufs s1 m.ctx).find? (fun b => b.2.free) with
      | some b =>
        .next (putSample { m with fb := some b.1, stage := .decode, refCon := usesConcealed s1 m.ctx refs } (setFb b.1 (fun x => { x with dec := true, poc := h.poc, dirty := false }) s1))
      | none => .next (coreIdle core.val (putSample { m with core := none } s1))

/-- SOURCE_READ_DONE: the core has read the sample's last byte; a read error ends the sample with its status (R30, R294, R300). -/
def execSourceReadDone (core : Fin 72) (s : State) : Host.Outcome State Fault Refusal :=
  let k := core.val
  match coreSample s k with
  | none => .next s
  | some m =>
    if m.read ∨ m.stage = .header ∨ m.stage = .done then .next s
    else
      match srcRead (coreReq k) m 0 m.len s with
      | (.error f, s1) => .next (advanceSource k m.ctx (markRead m (putSample { m with read := true, fail := f } (coreFault k f s1))))
      | (.ok b, s1) => .next (advanceSource k m.ctx (markRead m (putSample { m with read := true, bytes := b } s1)))

/-- MED_FB_FREE follows the reservations. -/
def showFree (s : State) : State := s.setRf 0 Reg.MED_FB_FREE 10 0 (s.rf 0 Reg.MED_FB_COUNT 10 0 - s.fbs.length)

/-- A disabled context without samples in flight drops its marks; its reservation returns once no buffer is OUT (R291). -/
def retireCtx (c : Nat) (s : State) : State :=
  if medEn s c ∨ (s.mctx c).samples ≠ [] then s
  else
    let s1 := { s with fbs := s.fbs.map (fun e => if e.2.ctx = c then (e.1, { e.2 with dec := false, ref := false }) else e) }
    if (ctxBufs s1 c).any (fun b => b.2.out) then s1
    else showFree { s1 with fbs := s1.fbs.filter (fun e => e.2.ctx ≠ c) }

/-- Release a frame buffer by host or thread (R306). -/
def releaseFb (i : Nat) (s : State) : State :=
  match SMap.get? s.fbs i with
  | some b =>
    if b.out ∧ medBs s b.ctx = 0xFF then retireCtx b.ctx (setFb i (fun x => { x with out := false }) s)
    else s.setRf 0 Reg.MED_STATUS 2 2 1
  | none => s.setRf 0 Reg.MED_STATUS 2 2 1

/-- The rule of MED_FB_RELEASE. -/
def fbReleaseRule : WriteRule := { effect := fun _ _ _ v s => releaseFb (fld v 9 0) s }

/-- Is an Intake stream bound to another enabled context, as (port, stream) of R290. -/
def boundTo (s : State) (c src stream : Nat) : Bool :=
  (List.range 1024).any (fun k => k != c && medEn s k && medF s k 6 4 == src && medF s k 15 8 == stream)

/-- May a context be enabled with a control word (R290). -/
def ctxEnableOk (c : Nat) (w : W32) (s : State) : Bool :=
  let mt := fld w 3 1
  let src := fld w 6 4
  let bs := fld w 23 16
  let ring := fun off => let n := s.rf c off 11 0; decide (1 ≤ n) && decide (n ≤ 2048)
  decide (mt ≤ 5) && decide (src ≤ 3) && (decide (bs < 64) || bs == 255) && ring Reg.MED_OUT_RING_SIZE &&
    (src != 3 || ring Reg.MED_IN_RING_SIZE) && (!(src == 1 || src == 2) || !boundTo s c src (fld w 15 8)) &&
    (mt != 1 || (decide (2 ≤ s.rf c Reg.MED_RESERVE 4 0) && decide (s.rf c Reg.MED_RESERVE 4 0 ≤ s.rf 0 Reg.MED_FB_FREE 10 0))) &&
    (mt != 5 || s.rf 0 (tokReg Reg.TOK0_STATE (fld w 24 24)) 0 0 == 1)

/-- The lowest unreserved buffers of the pool, `n` of them. [DEDUCED 58] -/
def unreserved (s : State) (n : Nat) : List Nat :=
  ((List.range (s.rf 0 Reg.MED_FB_COUNT 10 0)).filter (fun i => (SMap.get? s.fbs i).isNone)).take n

/-- What enabling sets up: an HEVC reservation, and the pointers (R290, R305, R307). [DEDUCED 58] -/
def enableCtx (c : Nat) (s : State) : State :=
  let x := s.mctx c
  let s1 := s.setMctx c { x with prevPoc := 0, skipRasl := false, next := if x.ends = [] then srcRd s c else x.next,
                                 head := if x.samples = [] then (s.reg c Reg.MED_OUT_WR_PTR).toNat else x.head }
  if medF s c 3 1 ≠ 1 then s1
  else
    let bs := unreserved s1 (s1.rf c Reg.MED_RESERVE 4 0)
    (showFree { s1 with fbs := bs.foldl (fun m i => SMap.put m i ⟨c, false, false, false, 0, false⟩) s1.fbs }).setRf c Reg.MED_CTX_STATE 8 8 0

/-- The rule of a context's control register (R290, R291): while EN is 1 only EN may change. -/
def ctxCtrlRule : WriteRule :=
  { guard := fun c old cand s =>
      if fld old 0 0 = 1 then
        let w := setFld old 0 0 (fld cand 0 0)
        (w, if w = cand then s else medCfgErr s)
      else if fld cand 0 0 = 1 ∧ !ctxEnableOk c cand s then (setFld cand 0 0 0, medCfgErr s)
      else (cand, s)
    effect := fun c old new _ s =>
      if fld old 0 0 = 0 ∧ fld new 0 0 = 1 then enableCtx c s
      else if fld old 0 0 = 1 ∧ fld new 0 0 = 0 then retireCtx c s else s }

/-- The rule of the other context fields: ignored while EN is 1 (R290). -/
def ctxFieldRule : WriteRule := { guard := fun c old cand s => if medEn s c then (old, medCfgErr s) else (cand, s) }

/-- The rule of IN_WR_PTR: 64-byte aligned and inside the ring (R289). -/
def inWrRule : WriteRule :=
  { guard := fun c old cand s =>
      if cand.toNat % 64 ≠ 0 ∨ s.rf c Reg.MED_IN_RING_SIZE 11 0 * 0x200000 ≤ cand.toNat then (old, s) else (cand, s) }

/-- The rule of OUT_RD_PTR: refused while the composer consumes the ring (R295). -/
def outRdRule : WriteRule := { guard := fun c old cand s => if medBs s c = 0xFF then (cand, s) else (old, medCfgErr s) }

/-- The rule of the frame-buffer pool: fixed while an HEVC context is enabled (R305). -/
def fbPoolRule : WriteRule :=
  { guard := fun _ old cand s =>
      if (List.range 1024).any (fun c => medEn s c && medF s c 3 1 == 1) then (old, medCfgErr s) else (cand, s)
    effect := fun _ _ _ _ s => showFree s }

/-- The rule of ITK RD_PTR where a stream feeds an enabled context (R294). -/
def itkRdMedRule : WriteRule :=
  { guard := fun i old cand s => if boundTo s 1024 (i / 256 + 1) (i % 256) then (old, medCfgErr s) else itkRdRule.guard i old cand s }

/-- May a descriptor be the source of med.submit (R315). -/
def submitOk (d : Desc) : Bool := d.layout == 0 && d.fmt == 3 && d.rank == 1 && d.scale == 0

/-- med.submit as issued (R315). -/
def medSubmit (a t q c id : Nat) (da : BitVec 512) (s : State) : State :=
  let d := Desc.ofWord da
  if !medEn s c ∨ medF s c 6 4 ≠ 0 ∨ !submitOk d then opDone a t q (descFail .descriptorInvalid d.base) s
  else
    match descCheck (thrCtx s a t) a da .r s with
    | (.error f, s1) => opDone a t q f s1
    | (.ok _, s1) =>
      let x := s1.mctx c
      s1.setMctx c { x with submits := x.submits ++ [⟨a, t, q, id, da, d.dim 0⟩] }

/-- med.advance (R295, R315). -/
def medAdvance (a t q c : Nat) (v : W64) (s : State) : State :=
  if medBs s c ≠ 0xFF ∨ v.toNat % 64 ≠ 0 ∨ (outRing s c).2 ≤ v.toNat then opDone a t q (descFail .descriptorInvalid 0) s
  else opOk a t q (deviceSetReg (thrReq a t) c Reg.MED_OUT_RD_PTR (BitVec.ofNat 32 v.toNat) s)

/-- Issue of a med instruction, unit 9: 64 in flight per array (R314, R315). -/
def medIssue (func : Nat) (a : Fin 96) (t : Fin 64) (s : State) : State :=
  issue 0xE func (fun w ext u =>
    let x := u.th a.val t.val
    let c := iImm w % 1024
    if 64 ≤ unitBusy u a.val 9 then waitFor a.val t.val (.slot 9) u
    else
      issueAsync a.val t.val 9 w (fun q v =>
        if func = 0 then medSubmit a.val t.val q c (if iLong w then ext % 2 ^ 32 else q) (x.dreg (iRa w % 16)) v
        else if func = 1 then opOk a.val t.val q (releaseFb ((x.sreg (iRa w)).toNat % 1024) v)
        else medAdvance a.val t.val q c (x.sreg (iRa w)) v) u) a.val t.val s

/-- med.submit (R315). -/
def execMedSubmit (a : Fin 96) (t : Fin 64) (s : State) : Host.Outcome State Fault Refusal := .next (medIssue 0x0 a t s)
/-- med.release (R306, R315). -/
def execMedRelease (a : Fin 96) (t : Fin 64) (s : State) : Host.Outcome State Fault Refusal := .next (medIssue 0x1 a t s)
/-- med.advance (R315). -/
def execMedAdvance (a : Fin 96) (t : Fin 64) (s : State) : Host.Outcome State Fault Refusal := .next (medIssue 0x2 a t s)

end Sys2Proof.Machine
end

