-- ==== Sys2Proof/Machine/Composer.lean ====
section
/-! DEFINITION. Machine/Composer.lean: the batch composer: classification and positions (R316 to R325), pre-processing (R326 to R331), the
batch buffer and its header (R332, R333), and the rules of its registers (R335). -/

namespace Sys2Proof.Machine

/-- Requester number of the composer (R37). -/
def batReq : Nat := 0x0088

/-- Instance of a bucket window. -/
def bktInst (n k : Nat) : Nat := 16 * n + k

/-- A field of a bucket's control register. -/
def bktF (s : State) (n k hi lo : Nat) : Nat := s.rf (bktInst n k) Reg.BAT_BUCKET hi lo

/-- DIM0 and DIM1 of a bucket. -/
def bktDims (s : State) (n k : Nat) : Nat × Nat :=
  ((s.reg (bktInst n k) Reg.BAT_DIM0).toNat, s.rf (bktInst n k) Reg.BAT_DIM1 15 0)

/-- EN of a stream. -/
def bstEn (s : State) (n : Nat) : Bool := s.rf n Reg.BAT_SCTRL 0 0 == 1

/-- N of a stream. -/
def bstN (s : State) (n : Nat) : Nat := s.rf n Reg.BAT_N 12 0

/-- Set BAT_STATUS.CFG_ERR. -/
def batCfgErr (s : State) : State := s.setRf 0 Reg.BAT_STATUS 0 0 1

/-- Store a stream and show READY and OPEN: a flushed batch, which takes no position any more, is not shown as open (R323, R324). -/
def putBst (n : Nat) (b : BStream) (s : State) : State :=
  let open_ := ((b.batches.filter (fun x => !x.flushed)).map (·.bucket)).foldl (fun m k => m ||| 2 ^ k) 0
  ((s.setBst n b).setRf n Reg.BAT_SSTATE 6 0 (b.closed.length + b.offered.length)).setRf n Reg.BAT_SSTATE 31 16 open_

/-- Free a slot of a stream (R317). -/
def freeSlot (n : Nat) (s : State) : State := s.setRf n Reg.BAT_SLOTS_USED 12 0 (s.rf n Reg.BAT_SLOTS_USED 12 0 - 1)

/-- The output format of a stream's images and sound: which one the reserved OUT_FMT 3 gives is a free value. [DESIGN CHOICE 67] -/
def outFmt (s : State) (n : Nat) : Nat :=
  let f := s.rf n Reg.BAT_SCTRL 2 1
  if f = 3 then Config.reservedOutFmt % 3 else f

/-- Bytes of an element (R329). -/
def outBytes (s : State) (n k : Nat) : Nat :=
  if bktF s n k 2 1 = 2 then 4 else if outFmt s n = 2 then 2 else 1

/-- Elements of a sample's data (R329). -/
def bktElems (s : State) (n k : Nat) : Nat :=
  let d := bktDims s n k
  match bktF s n k 2 1 with
  | 0 => d.1 * d.2 * bktF s n k 11 8
  | 1 => d.1 * bktF s n k 11 8
  | _ => d.1

/-- SAMPLE_STRIDE (R329). -/
def sampleStride (s : State) (n k : Nat) : Nat := roundUp (bktElems s n k * outBytes s n k) 256

/-- Mask bytes of a position before rounding (R331). -/
def maskBytes (s : State) (n k : Nat) : Nat := if bktF s n k 2 1 = 0 then (bktDims s n k).1 * (bktDims s n k).2 else (bktDims s n k).1

/-- MASK_STRIDE (R331). -/
def maskStride (s : State) (n k : Nat) : Nat := if s.rf n Reg.BAT_SCTRL 4 4 = 1 then roundUp (maskBytes s n k) 256 else 0

/-- DATA_OFF (R332). -/
def dataOff (s : State) (n : Nat) : Nat := roundUp (64 + 128 * bstN s n) 4096

/-- MASK_OFF (R332). -/
def maskOff (s : State) (n k : Nat) : Nat := if s.rf n Reg.BAT_SCTRL 4 4 = 1 then dataOff s n + bstN s n * sampleStride s n k else 0

/-- First VA of a buffer (R332). -/
def bufVa (s : State) (n b : Nat) : Nat :=
  s.rf n Reg.BAT_BUF_VA_LO 31 21 * 0x200000 + 2 ^ 32 * s.rf n Reg.BAT_BUF_VA_HI 15 0 + b * s.rf n Reg.BAT_BUF_SIZE 9 0 * 0x200000

/-- KIND that an MTYPE matches (R318). -/
def kindOf (mt : Nat) : Nat := if mt ≤ 2 then 0 else if mt ≤ 4 then 1 else 2

/-- Does a sample fit a bucket by its record (R318). -/
def fits (s : State) (n k : Nat) (r : List Byte) : Bool :=
  let d := bktDims s n k
  let mode := bktF s n k 5 4
  bktF s n k 0 0 == 1 && bktF s n k 2 1 == kindOf (leAt r 6 1) &&
  (match kindOf (leAt r 6 1) with
   | 0 => (bktF s n k 11 8 == 3 || leAt r 36 1 == 0) && (mode != 0 || (decide (leAt r 32 2 ≤ d.1) && decide (leAt r 34 2 ≤ d.2)))
   | 1 => mode != 0 || decide (leAt r 40 4 ≤ d.1)
   | _ => mode != 0 || decide (leAt r 40 4 ≤ d.1))

/-- The lowest-numbered bucket that a sample fits (R319). -/
def bucketOf (s : State) (n : Nat) (r : List Byte) : Option Nat := (List.range 16).find? (fun k => fits s n k r)

/-- Does a record go to EMPTY_BUCKET for its status (R319): anything but OK, OK_CONCEALED, and EMPTY whose geometry is kept. [DEDUCED 62] -/
def placesEmpty (r : List Byte) : Bool :=
  let st := leAt r 7 1
  decide (2 < st) || (st == 2 && leNat (slice r 32 32) == 0)

/-- A sample classified by its record, or without one (R319). [DEDUCED 61] -/
def classifyBy (s : State) (n : Nat) (r : List Byte) (area : Nat) (lone : Bool) (c : CSample) : CSample :=
  let eb := s.rf n Reg.BAT_SCTRL 11 8
  let c1 := { c with rec_ := r, area := area, lone := lone }
  if lone ∨ placesEmpty r then { c1 with bucket := some eb, empty := true }
  else
    match bucketOf s n r with
    | some k => { c1 with bucket := some k, empty := leAt r 7 1 == 2 }
    | none => { c1 with bucket := some eb, empty := true, nobkt := true }

/-- Classify a sample of a stream when its record becomes visible (R319). -/
def classify (n ctx order : Nat) (r : List Byte) (area : Nat) (lone : Bool) (s : State) : State :=
  let b := s.bst n
  putBst n { b with queue := b.queue.map (fun c => if c.ctx = ctx ∧ c.order = order then classifyBy s n r area lone c else c) } s

/-- Buffers of a stream in use (R321, R325). -/
def usedBufs (b : BStream) : List Nat := b.batches.map (·.buf) ++ b.closed ++ b.offered.map (·.2)

/-- The lowest-numbered free buffer (R321). -/
def freeBuf (s : State) (n : Nat) : Option Nat :=
  (List.range (s.rf n Reg.BAT_NBUF 6 0)).find? (fun i => !(usedBufs (s.bst n)).contains i)

/-- The floor of a finite value. -/
def Fp.floor : Fp → Int
  | .fin n m e =>
    let v : Int := if n then -(m : Int) else m
    if 0 ≤ e then v * 2 ^ e.toNat else v / 2 ^ (-e).toNat
  | _ => 0

/-- FP32 value of an integer. -/
def fint (i : Int) : Fp := rnd32 (Fp.ofInt i)

/-- Correctly rounded FP32 quotient. -/
def quot32 (a b : Fp) : Fp := rnd32 (a.div b)

/-- The constants of R326, rounded to FP32: Kr and Kb of a MATRIX code. [DEDUCED 65] -/
def matrixK (m : Nat) : Fp × Fp :=
  let k := fun (n : Int) => rnd32 ((Fp.ofInt n).div (Fp.ofInt 10000))
  match m with
  | 0 => (k 2990, k 1140)
  | 1 => (k 2126, k 722)
  | _ => (k 2627, k 593)

/-- Clamp to [0, 1] (R326). -/
def clamp01 (v : Fp) : Fp := Fp.max Fp.zero (Fp.min (Fp.ofInt 1) v)

/-- Y′ of R326 for depth D and RANGE. -/
def lumaOf (range d : Nat) (y : Int) : Fp :=
  if range = 0 then quot32 (fint y) (fint (2 ^ d - 1)) else quot32 (fint (y - 16 * 2 ^ (d - 8))) (fint (219 * 2 ^ (d - 8)))

/-- Cb′ and Cr′ of R326. -/
def chromaOf (range d : Nat) (c : Int) : Fp :=
  quot32 (fint (c - 2 ^ (d - 1))) (if range = 0 then fint (2 ^ d - 1) else fint (224 * 2 ^ (d - 8)))

/-- R, G and B of R326. -/
def rgbOf (m : Nat) (y cb cr : Fp) : List Fp :=
  let k := matrixK m
  let one := Fp.ofInt 1
  let two := Fp.ofInt 2
  let r := add32 y (mul32 (mul32 two (sub32 one k.1)) cr)
  let b := add32 y (mul32 (mul32 two (sub32 one k.2)) cb)
  let g := quot32 (sub32 (sub32 y (mul32 k.1 r)) (mul32 k.2 b)) (sub32 (sub32 one k.1) k.2)
  [r, g, b]

/-- How a bucket converts: MATRIX, RANGE, RAW, channels, and what the record says of the sample: MTYPE, CHROMA, DEPTH. -/
structure Conv where
  matrix : Nat
  range  : Nat
  raw    : Bool
  ch     : Nat
  mt     : Nat
  chroma : Nat
  depth  : Nat
deriving DecidableEq, Repr

/-- The value of a stored sample of a plane (R297). [DEDUCED 64] -/
def planeAt (rows : List (List Byte)) (bps x y : Nat) : Nat := leAt (rows.getD y []) (x * bps) bps

/-- The components of a pixel in FP32 before they are spread over channels (R326). [DEDUCED 64] -/
def convert (c : Conv) (vs : List Nat) : List Fp :=
  let v := fun i => (vs.getD i 0 : Int)
  let unit := fun x => quot32 (fint x) (fint (2 ^ c.depth - 1))
  let l :=
    if c.chroma = 0 then
      (if c.raw then [fint (v 0)] else if c.mt = 2 then [unit (v 0)] else [lumaOf c.range c.depth (v 0)])
    else if c.chroma = 4 then [unit (v 0), unit (v 1), unit (v 2)]
    else rgbOf c.matrix (lumaOf c.range c.depth (v 0)) (chromaOf c.range c.depth (v 1)) (chromaOf c.range c.depth (v 2))
  if c.raw then l else l.map clamp01

/-- Channel values of a source pixel (R318, R326): chroma is replicated, grey fills every channel. -/
def pixelOf (c : Conv) (bps : Nat) (pl : List (List (List Byte))) (x y : Nat) : List Fp :=
  let cx := if c.chroma = 1 ∨ c.chroma = 2 then x / 2 else x
  let cy := if c.chroma = 1 then y / 2 else y
  let p := fun i => if i = 0 then planeAt (pl.getD 0 []) bps x y else planeAt (pl.getD i []) bps cx cy
  let comp := convert c (if c.chroma = 0 then [p 0] else [p 0, p 1, p 2])
  if comp.length = 1 then List.replicate c.ch (comp.headD Fp.zero) else comp

/-- Normalisation of a value of channel c (R328). -/
def normalise (s : State) (n k c : Nat) (x : Fp) : Fp :=
  mul32 (sub32 x (f32 (s.reg (bktInst n k) (Reg.BAT_MEAN0 + 4 * c)).toNat)) (f32 (s.reg (bktInst n k) (Reg.BAT_SCALE0 + 4 * c)).toNat)

/-- Sample coordinates of R265 for `n` outputs between box corners a and b. -/
def cropCoords (a b : Fp) (n : Nat) : List Fp :=
  let g := mul32 (sub32 b a) (rnd32 (Fp.rcp (fint n)))
  (List.range n).map (fun i => sub32 (fma32 (.fin false (2 * i + 1) (-1)) g a) (.fin false 1 (-1)))

/-- Is a coordinate finite and below 2^24 in magnitude (R266). -/
def coordOk (v : Fp) : Bool := v.isFin && Fp.lt v.abs (Fp.ofInt (2 ^ 24))

/-- Is the whole crop NaN (R266). [DEDUCED 66] -/
def cropNan (box : List Fp) (ys xs : List Fp) : Bool := !(box.all Fp.isFin && ys.all coordOk && xs.all coordOk)

/-- A corner under BOX_PAD (R255, R327): EDGE clamps, ZERO gives +0. -/
def cornerAt (edge : Bool) (w h ch : Nat) (px : Nat → Nat → List Fp) (x y : Int) : List Fp :=
  if !edge ∧ (x < 0 ∨ y < 0 ∨ (w : Int) ≤ x ∨ (h : Int) ≤ y) then List.replicate ch Fp.zero
  else px (max 0 (min ((w : Int) - 1) x)).toNat (max 0 (min ((h : Int) - 1) y)).toNat

/-- Interpolation of one channel (R266). -/
def interp (fx fy v00 v01 v10 v11 : Fp) : Fp :=
  let top := fma32 fx (sub32 v01 v00) v00
  let bot := fma32 fx (sub32 v11 v10) v10
  fma32 fy (sub32 bot top) top

/-- One output pixel of crop-and-resize (R266). -/
def cropPixel (edge : Bool) (w h ch : Nat) (px : Nat → Nat → List Fp) (x y : Fp) : List Fp :=
  let x0 := x.floor
  let y0 := y.floor
  let fx := x.add (Fp.ofInt (-x0))
  let fy := y.add (Fp.ofInt (-y0))
  let at_ := fun i j => cornerAt edge w h ch px i j
  let a := at_ x0 y0
  let b := at_ (x0 + 1) y0
  let c := at_ x0 (y0 + 1)
  let d := at_ (x0 + 1) (y0 + 1)
  (List.range ch).map (fun i => interp fx fy (a.getD i Fp.zero) (b.getD i Fp.zero) (c.getD i Fp.zero) (d.getD i Fp.zero))

/-- Normalised channels of a pixel (R328): a grey sample's values are of channel 0, those it fills a colour bucket with too. [DEDUCED 185] -/
def normPixel (s : State) (n k : Nat) (c : Conv) (vs : List Fp) : List Fp :=
  vs.mapIdx (fun q v => normalise s n k (if c.chroma = 0 then 0 else q) v)

/-- Elements of pixels in layout order (R329): `px i j` are the channel values of row i, column j. -/
def layOut (chw : Bool) (w h ch : Nat) (px : Nat → Nat → List Fp) : List Fp :=
  if chw then
    (List.range ch).flatMap (fun c => (List.range h).flatMap (fun i => (List.range w).map (fun j => (px i j).getD c Fp.zero)))
  else (List.range h).flatMap (fun i => (List.range w).flatMap (fun j => px i j))

/-- An extent of a record: KIND, START and COUNT (R302). -/
def extents (r : List Byte) : List (Nat × Nat × Nat) :=
  (List.range 4).map (fun i => (leAt r (68 + 16 * i) 1, leAt r (72 + 16 * i) 4, leAt r (76 + 16 * i) 4))

/-- Does an extent cover pixel (x, y) (R302, R331). -/
def extPixel (x y : Nat) (e : Nat × Nat × Nat) : Bool :=
  let x0 := e.2.1 % 65536
  let y0 := e.2.1 / 65536
  if e.1 = 1 then decide (x0 ≤ x) && decide (x < x0 + e.2.2 % 65536) && decide (y0 ≤ y) && decide (y < y0 + e.2.2 / 65536)
  else if e.1 = 2 then decide (e.2.1 ≤ y) && decide (y < e.2.1 + e.2.2)
  else false

/-- Does an extent cover a frame or token (R302, R331). -/
def extLinear (i : Nat) (e : Nat × Nat × Nat) : Bool :=
  (e.1 = 3 || e.1 = 4) && decide (e.2.1 ≤ i) && decide (i < e.2.1 + e.2.2)

/-- A good source pixel: inside the image and outside every extent (R331). -/
def goodPixel (r : List Byte) (w h : Nat) (x y : Int) : Bool :=
  decide (0 ≤ x) && decide (0 ≤ y) && decide (x < (w : Int)) && decide (y < (h : Int)) &&
    !((extents r).any (extPixel x.toNat y.toNat))

/-- What composing a sample gives: elements or token codes, the mask, VALID, CLIPPED and the box applied. -/
structure Piece where
  elems : List Fp
  codes : List Nat
  mask  : List Bool
  valid : Nat
  clip  : Bool
  box   : List Byte
deriving DecidableEq, Repr

/-- The conversion of a bucket for a record. -/
def convOf (s : State) (n k : Nat) (r : List Byte) : Conv :=
  ⟨bktF s n k 13 12, bktF s n k 14 14, bktF s n k 15 15 == 1, bktF s n k 11 8, leAt r 6 1, leAt r 36 1, leAt r 37 1⟩

/-- An image by MODE 0 or 1 (R327, R328, R331). -/
def placeImage (s : State) (n k : Nat) (r : List Byte) (pl : List (List (List Byte))) : Piece :=
  let d := bktDims s n k
  let w := leAt r 32 2
  let h := leAt r 34 2
  let c := convOf s n k r
  let px := fun i j =>
    if j < w ∧ i < h then normPixel s n k c (pixelOf c (leAt r 38 1) pl j i) else List.replicate c.ch Fp.zero
  { elems := layOut (bktF s n k 6 6 == 1) d.1 d.2 c.ch px
    codes := []
    mask := (List.range d.2).flatMap (fun i => (List.range d.1).map (fun j => goodPixel r w h j i))
    valid := min w d.1 % 65536 + min h d.2 * 65536
    clip := bktF s n k 5 4 == 1 && (decide (d.1 < w) || decide (d.2 < h))
    box := [] }

/-- An image by MODE 2 or 3 with a box (R264 to R266, R327, R331). -/
def resizeImage (s : State) (n k : Nat) (r : List Byte) (pl : List (List (List Byte))) (boxB : List Byte) : Piece :=
  let d := bktDims s n k
  let w := leAt r 32 2
  let h := leAt r 34 2
  let c := convOf s n k r
  let box := (List.range 4).map (fun i => f32 (leAt boxB (4 * i) 4))
  let ys := cropCoords (box.getD 0 .nan) (box.getD 2 .nan) d.2
  let xs := cropCoords (box.getD 1 .nan) (box.getD 3 .nan) d.1
  let bad := cropNan box ys xs
  let edge := s.rf n Reg.BAT_SCTRL 5 5 == 0
  let src := pixelOf c (leAt r 38 1) pl
  let px := fun i j =>
    if bad then List.replicate c.ch Fp.nan
    else normPixel s n k c (cropPixel edge w h c.ch src (xs.getD j .nan) (ys.getD i .nan))
  let good := fun (i j : Nat) =>
    let x0 := (xs.getD j .nan).floor
    let y0 := (ys.getD i .nan).floor
    !bad && goodPixel r w h x0 y0 && goodPixel r w h (x0 + 1) y0 && goodPixel r w h x0 (y0 + 1) && goodPixel r w h (x0 + 1) (y0 + 1)
  { elems := layOut (bktF s n k 6 6 == 1) d.1 d.2 c.ch px
    codes := []
    mask := (List.range d.2).flatMap (fun i => (List.range d.1).map (fun j => good i j))
    valid := d.1 % 65536 + d.2 * 65536
    clip := false
    box := boxB }

/-- Sound (R318, R328, R331): channels beyond CHANNELS are dropped, missing ones are zero. -/
def placeSound (s : State) (n k : Nat) (r data : List Byte) : Piece :=
  let d := (bktDims s n k).1
  let ch := bktF s n k 11 8
  let fr := leAt r 40 4
  let stride := leAt r 44 4
  let v := fun f c =>
    if f < fr ∧ c < leAt r 36 1 then
      normalise s n k c ((Fp.ofInt (toSigned 32 (leAt data (c * stride + 4 * f) 4))).scale (-((leAt r 37 1 : Int) - 1)))
    else Fp.zero
  { elems := if bktF s n k 6 6 = 1 then (List.range ch).flatMap (fun c => (List.range d).map (fun f => v f c))
             else (List.range d).flatMap (fun f => (List.range ch).map (fun c => v f c))
    codes := []
    mask := (List.range d).map (fun f => decide (f < fr) && !((extents r).any (extLinear f)))
    valid := min fr d
    clip := bktF s n k 5 4 == 1 && decide (d < fr)
    box := [] }

/-- Text (R328, R329, R331). -/
def placeText (s : State) (n k : Nat) (r data : List Byte) : Piece :=
  let d := (bktDims s n k).1
  let nt := leAt r 32 4
  { elems := []
    codes := (List.range d).map (fun t => if t < nt then leAt data (4 * t) 4 else (s.reg (bktInst n k) Reg.BAT_TOK_PAD).toNat)
    mask := (List.range d).map (fun t => decide (t < nt) && !((extents r).any (extLinear t)))
    valid := min nt d
    clip := bktF s n k 5 4 == 1 && decide (d < nt)
    box := [] }

/-- Zero data and mask: EMPTY and filler positions (R323, R333). -/
def Piece.zero : Piece := ⟨[], [], [], 0, false, []⟩

/-- Rows of the planes of an image from a reader of bytes at an offset (R297). -/
def readPlanes (rd : Nat → Nat → State → MRes (List Byte)) (r : List Byte) (s : State) : MRes (List (List (List Byte))) :=
  let bps := leAt r 38 1
  let ps := (planes (leAt r 36 1) (leAt r 32 2) (leAt r 34 2)).mapIdx (fun i p =>
    (leAt r (40 + 4 * i) 4, if i = 0 then leAt r 52 2 else leAt r 54 2, p.1 * bps, p.2))
  mapM (fun (p : Nat × Nat × Nat × Nat) t => mapM (fun y u => rd (p.1 + y * p.2.1) p.2.2.1 u) (List.range p.2.2.2) t) ps s

/-- First VA of a frame buffer (R305). -/
def fbVa (s : State) (i : Nat) : Nat :=
  s.rf 0 Reg.MED_FB_BASE_LO 31 21 * 0x200000 + 2 ^ 32 * s.rf 0 Reg.MED_FB_BASE_HI 15 0 + i * s.rf 0 Reg.MED_FB_SIZE 6 0 * 0x200000

/-- Reader of the data of a sample: an HEVC frame buffer, or its area in the output ring (R295, R297). -/
def dataReader (c : CSample) (s0 : State) (off n : Nat) (s : State) : MRes (List Byte) :=
  if leAt c.rec_ 6 1 = 1 then vRead { rid := batReq } .r (fbVa s0 (leAt c.rec_ 56 4) + off) n s
  else ringRead batReq (outRing s0 c.ctx) (c.area + 128 + off) n s

/-- The box of a context (R327). [DEDUCED 63] -/
def readBox (n ctx : Nat) (s : State) : MRes (List Byte) :=
  vRead { rid := batReq } .r (s.rf n Reg.BAT_BOX_VA_LO 31 14 * 0x4000 + 2 ^ 32 * s.rf n Reg.BAT_BOX_VA_HI 15 0 + 16 * ctx) 16 s

/-- The box of the whole image (R327). -/
def wholeBox (r : List Byte) : List Byte :=
  leBytes 8 0 ++ leBytes 4 (c32 (Fp.ofInt (leAt r 34 2))) ++ leBytes 4 (c32 (Fp.ofInt (leAt r 32 2)))

/-- Read and convert a sample (R326 to R331). -/
def composePiece (n k : Nat) (c : CSample) (s : State) : MRes Piece :=
  match bktF s n k 2 1 with
  | 0 =>
    match readPlanes (dataReader c s) c.rec_ s with
    | (.error f, s1) => (.error f, s1)
    | (.ok pl, s1) =>
      match bktF s n k 5 4 with
      | 2 => (.ok (resizeImage s n k c.rec_ pl (wholeBox c.rec_)), s1)
      | 3 =>
        match readBox n c.ctx s1 with
        | (.error f, s2) => (.error f, s2)
        | (.ok b, s2) => (.ok (resizeImage s n k c.rec_ pl b), s2)
      | _ => (.ok (placeImage s n k c.rec_ pl), s1)
  | 1 =>
    match dataReader c s 0 (leAt c.rec_ 12 4) s with
    | (.error f, s1) => (.error f, s1)
    | (.ok d, s1) => (.ok (placeSound s n k c.rec_ d), s1)
  | _ =>
    match dataReader c s 0 (leAt c.rec_ 12 4) s with
    | (.error f, s1) => (.error f, s1)
    | (.ok d, s1) => (.ok (placeText s n k c.rec_ d), s1)

/-- Generator of a quantiser lane (R66, R330). -/
def batLane (s : State) (l : Nat) : W64 :=
  SMap.getD s.batGen l (laneSeed (BitVec.ofNat 64 (s.reg64 0 Reg.BAT_SEED_LO)) l)

/-- One element of a sample's data through its lane: its code and the lanes after it (R330). -/
def laneCode (sr : Bool) (f : Option W64 → Nat × Option W64) (e : Nat) (s : State) : Nat × State :=
  if sr then
    match f (some (batLane s (e % 256))) with
    | (c, some g) => (c, { s with batGen := SMap.put s.batGen (e % 256) g })
    | (c, none) => (c, s)
  else ((f none).1, s)

/-- Codes of a run of elements from element number `e`. -/
def laneCodes (sr : Bool) (f : Fp → Option W64 → Nat × Option W64) : Nat → List Fp → State → List Nat × State
  | _, [], s => ([], s)
  | e, v :: r, s =>
    let (c, s1) := laneCode sr (f v) e s
    let (cs, s2) := laneCodes sr f (e + 1) r s1
    (c :: cs, s2)

/-- Write a quantised block with its scale; the buffer must lie in class A (R75, R330, R335). [DEDUCED 73] -/
def putBlock (va : Nat) (codes : List Nat) (sc : Nat) (s : State) : MRes Unit :=
  match translate { rid := batReq, va := va } va .w s with
  | (.error f, s1) => (.error { f with va := va }, s1)
  | (.ok pa, s1) =>
    if regionOf pa = .hbm ∧ isClassA s1 pa then vWrite { rid := batReq } va (codes.map (BitVec.ofNat 8)) (some sc) s1
    else (.error (descFail .descriptorInvalid va), s1)

/-- Quantise and write blocks of 32 elements (R330): `k` bounds the blocks. -/
def putBlocks (f : Fmt) (sat sr : Bool) : Nat → Nat → Nat → List Fp → State → MRes Unit
  | 0, _, _, _, s => (.ok (), s)
  | k + 1, va, e, l, s =>
    let b := l.take 32
    let sc := blockScale f b
    let (codes, s1) := laneCodes sr (fun v g => blockCode sat f sc g v) e b s
    match putBlock va codes sc s1 with
    | (.error x, s2) => (.error x, s2)
    | (.ok _, s2) => putBlocks f sat sr k (va + 32) (e + 32) (l.drop 32) s2

/-- Write the data of a position, +0 up to the stride (R329, R330). -/
def putData (n : Nat) (b : Batch) (va : Nat) (p : Piece) (s : State) : MRes Unit :=
  let stride := sampleStride s n b.bucket
  let c : Ctx := { rid := batReq }
  if bktF s n b.bucket 2 1 = 2 then vWrite c va (slice (p.codes.flatMap (leBytes 4)) 0 stride) none s
  else
    let count := stride / outBytes s n b.bucket
    let l := p.elems ++ List.replicate (count - p.elems.length) Fp.zero
    match outFmt s n with
    | 0 => putBlocks .e4m3 b.sat b.sr (count / 32) va 0 l s
    | 1 => putBlocks .e5m2 b.sat b.sr (count / 32) va 0 l s
    | _ =>
      let (codes, s1) := laneCodes b.sr (fun v g => encodeGen b.sat .bf16 g v) 0 l s
      vWrite c va (codes.flatMap (leBytes 2)) none s1

/-- Write one position: entry, data, mask (R329 to R332). -/
def putPosition (n : Nat) (b : Batch) (pos : Nat) (entry : List Byte) (p : Piece) (s : State) : MRes Unit :=
  let base := bufVa s n b.buf
  let c : Ctx := { rid := batReq }
  match vWrite c (base + 64 + 128 * pos) entry none s with
  | (.error f, s1) => (.error f, s1)
  | (.ok _, s1) =>
    match putData n b (base + dataOff s n + pos * sampleStride s n b.bucket) p s1 with
    | (.error f, s2) => (.error f, s2)
    | (.ok _, s2) =>
      let ms := maskStride s n b.bucket
      if ms = 0 then (.ok (), s2)
      else vWrite c (base + maskOff s n b.bucket + pos * ms) (slice (p.mask.map (fun g => BitVec.ofNat 8 (b2n g))) 0 ms) none s2

/-- The entry of a position (R332). -/
def entryBytes (c : CSample) (st : Nat) (p : Piece) : List Byte :=
  let r := c.rec_
  let mt := leAt r 6 1
  let good := decide (st ≤ 1)
  slice r 0 6 ++ leBytes 1 st ++ slice r 8 1 ++
  leBytes 1 (leAt r 9 1 % 16 + 16 * b2n c.nobkt + 32 * b2n (good && p.clip)) ++ leBytes 1 (b2n good) ++ slice r 10 2 ++
  leBytes 4 (if good then p.valid else 0) ++ slice r 16 8 ++ slice r 32 4 ++ (if kindOf mt = 0 then leBytes 4 0 else slice r 40 4) ++
  slice p.box 0 16 ++ leBytes 16 0 ++ slice r 64 64

/-- The entry of a filler (R323, R332). [DEDUCED 69] -/
def fillerEntry : List Byte :=
  leBytes 4 0xFFFFFFFF ++ leBytes 2 0xFFFF ++ leBytes 1 0x02 ++ leBytes 1 0 ++ leBytes 1 0x40 ++ leBytes 119 0

/-- The fixed header of a batch (R332). -/
def headerBytes (s : State) (n : Nat) (b : Batch) : List Byte :=
  let k := b.bucket
  leBytes 8 b.seq ++ leBytes 1 n ++ leBytes 1 k ++ leBytes 1 (if bktF s n k 2 1 = 2 then 3 else s.rf n Reg.BAT_SCTRL 2 1) ++
  leBytes 1 (b2n b.flushed + 2 * b2n b.sat + 4 * b2n b.sr) ++ leBytes 4 (bstN s n) ++ leBytes 4 b.valid ++
  leBytes 4 (bstN s n - b.valid) ++ leBytes 8 b.tick.toNat ++ leBytes 8 s.tb.toNat ++ leBytes 4 (dataOff s n) ++
  leBytes 4 (sampleStride s n k) ++ leBytes 4 (maskOff s n k) ++ leBytes 4 (maskStride s n k) ++ leBytes 8 0

/-- Is a batch the one that a buffer holds. -/
def Batch.isAt (b : Batch) (buf : Nat) : Bool := b.buf == buf

/-- Store a batch of a stream by its buffer. -/
def putBatch (n : Nat) (x : Batch) (s : State) : State :=
  let b := s.bst n
  putBst n { b with batches := b.batches.map (fun y => if y.isAt x.buf then x else y) } s

/-- A write fault of the composer (R333): the stream is disabled and the batch in the buffer is never offered. [DEDUCED 70] -/
def batchFault (n buf sample : Nat) (f : Fail) (s : State) : State :=
  let b := s.bst n
  let s1 := putBst n { b with batches := b.batches.map (fun y => if y.isAt buf then { y with dead := true } else y) } s
  let s2 := deviceSetReg batReq n Reg.BAT_SCTRL (setFld (s1.reg n Reg.BAT_SCTRL) 0 0 0) (s1.setRf 0 Reg.BAT_STATUS 1 1 1)
  let body := leBytes 8 f.va ++ leBytes 2 n ++ leBytes 1 3 ++ leBytes 1 0 ++ leBytes 4 sample
  raiseEvt .media (writeFault { cls := .mediaWrite, status := f.st, disp := .reported, req := batReq, root := f.root, body := body } s2)

/-- Write the filler positions of a batch (R323): `k` positions from `pos`; the first failure ends it. [DEDUCED 69] -/
def putFillers (n : Nat) (b : Batch) : Nat → Nat → State → MRes Unit
  | 0, _, s => (.ok (), s)
  | k + 1, pos, s =>
    match putPosition n b pos fillerEntry Piece.zero s with
    | (.error f, s1) => (.error f, s1)
    | (.ok _, s1) => putFillers n b k (pos + 1) (s1.count n Reg.BAT_EMPTIES 1)

/-- A batch whose positions are all composed closes (R321, R332): a dead one only frees its buffer. -/
def closeBatch (n : Nat) (x : Batch) (s : State) : State :=
  let drop := fun (t : State) => let b := t.bst n; { b with batches := b.batches.filter (fun y => !y.isAt x.buf) }
  if x.dead then putBst n (drop s) s
  else
    match vWrite { rid := batReq } (bufVa s n x.buf) (headerBytes s n x) none s with
    | (.error f, s1) => let s2 := batchFault n x.buf 0xFFFFFFFF f s1; putBst n (drop s2) s2
    | (.ok _, s1) =>
      let b := drop s1
      let s2 := (putBst n { b with closed := b.closed ++ [x.buf] } s1).count64 n Reg.BAT_BATCHES_LO 1
      if x.flushed then s2.count n Reg.BAT_FLUSHED 1 else s2

/-- The batch in a buffer. -/
def batchAt (s : State) (n buf : Nat) : Option Batch := (s.bst n).batches.find? (fun y => y.isAt buf)

/-- Close the batch in a buffer once every position is composed. -/
def tryClose (n buf : Nat) (s : State) : State :=
  match batchAt s n buf with
  | none => s
  | some x => if x.filled = bstN s n ∧ x.wait = [] then closeBatch n x s else s

/-- Flush a batch (R323): its remaining positions become fillers. [DEDUCED 69] -/
def flushBatch (n : Nat) (x : Batch) (s : State) : State :=
  if x.flushed then s
  else
    let y := { x with filled := bstN s n, flushed := true }
    let s1 := putBatch n y s
    if x.dead then tryClose n x.buf s1
    else
      match putFillers n x (bstN s n - x.filled) x.filled s1 with
      | (.ok _, s2) => tryClose n x.buf s2
      | (.error f, s2) => tryClose n x.buf (batchFault n x.buf 0xFFFFFFFF f s2)

/-- Flush every open batch of a stream (R323): one whose positions are all assigned gets no filler and closes FLUSHED too. -/
def flushAll (n : Nat) (s : State) : State := (s.bst n).batches.foldl (fun t x => flushBatch n x t) s

/-- A disabled stream whose samples are all placed flushes and, once nothing is open, is drained (R324). -/
def drain (n : Nat) (s : State) : State :=
  if bstEn s n ∨ (s.bst n).queue ≠ [] then s
  else
    let s1 := flushAll n s
    if (s1.bst n).batches = [] then s1.setRf n Reg.BAT_SCTRL 16 16 1 else s1

/-- Has the flush window of a batch ended (R12, R323, R426). [DEDUCED 72, 121] -/
def windowOver (s : State) (n : Nat) (x : Batch) : Bool :=
  s.rf n Reg.BAT_FLUSH_US 19 0 != 0 && !x.flushed && decide (x.since + s.rf n Reg.BAT_FLUSH_US 19 0 * 25 ≤ s.now)

/-- The open batch of a bucket: the one that takes positions, or the full one that has not closed (R321). -/
def openBatch (s : State) (n k : Nat) : Option Batch := (s.bst n).batches.find? (fun x => x.bucket = k && !x.flushed)

/-- Open a batch in a free buffer (R321, R330). -/
def openIn (n k buf : Nat) (s : State) : State :=
  let b := s.bst n
  let x : Batch :=
    { bucket := k, buf := buf, seq := b.seq + 1, tick := s.tb, since := s.now, sat := s.rf 0 Reg.BAT_CTRL 0 0 == 1,
      sr := s.rf 0 Reg.BAT_CTRL 1 1 == 1, wait := [], filled := 0, valid := 0, flushed := false, dead := false }
  putBst n { b with batches := b.batches ++ [x], seq := b.seq + 1 } s

/-- The head sample of a stream takes the next position of a batch; an EMPTY placement frees its slot (R317, R320). -/
def takePosition (n : Nat) (c : CSample) (x : Batch) (s : State) : State :=
  let s1 := putBatch n { x with filled := x.filled + 1, wait := x.wait ++ [(x.filled, c)] } s
  let b := s1.bst n
  let s2 := putBst n { b with queue := b.queue.drop 1 } s1
  if c.empty then freeSlot n s2 else s2

/-- Assign the head sample to its bucket (R320, R321). [DEDUCED 62] -/
def assignTo (n k : Nat) (c : CSample) (s : State) : State :=
  match openBatch s n k with
  | some x => if x.filled < bstN s n then takePosition n c x s else s
  | none =>
    match freeBuf s n with
    | none => s
    | some buf =>
      let s1 := openIn n k buf s
      match batchAt s1 n buf with
      | some x => takePosition n c x s1
      | none => s1

/-- POSITION_ASSIGN (R320, R321, R323): a batch whose window has ended takes no position. -/
def execPositionAssign (stream : Fin 64) (s : State) : Host.Outcome State Fault Refusal :=
  let n := stream.val
  match (s.bst n).queue with
  | [] => .next s
  | c :: _ =>
    match c.bucket with
    | none => .next s
    | some k =>
      .next (needClock .mclk batReq (fun u =>
        let u1 := match openBatch u n k with
          | some x => if windowOver u n x then flushBatch n x u else u
          | none => u
        drain n (assignTo n k c u1)) s)

/-- The composer advances OUT_RD_PTR of a context past the areas it has passed, in ring order (R295, R322). -/
def passAreas (ctx : Nat) (s : State) : State :=
  let x := s.mctx ctx
  let done := x.areas.takeWhile (fun e => e.2.2)
  match done.getLast? with
  | none => s
  | some e => deviceSetReg batReq ctx Reg.MED_OUT_RD_PTR (BitVec.ofNat 32 e.2.1) (s.setMctx ctx { x with areas := x.areas.drop done.length })

/-- The composer has done with a sample's area, and with the frame buffer of a record that has a picture (R306, R322). -/
def passSample (c : CSample) (s : State) : State :=
  if c.lone then s
  else
    let x := s.mctx c.ctx
    let s1 := passAreas c.ctx (s.setMctx c.ctx { x with areas := x.areas.map (fun e => if e.1 = c.order then (e.1, e.2.1, true) else e) })
    if leAt c.rec_ 6 1 = 1 ∧ leAt c.rec_ 32 2 ≠ 0 ∧ leAt c.rec_ 56 4 ≠ 0xFFFFFFFF then
      retireCtx c.ctx (setFb (leAt c.rec_ 56 4) (fun b => { b with out := false }) s1)
    else s1

/-- Status and content of a position: EMPTY placements hold no data, a read error gives its status (R319, R333). -/
def pieceOf (n : Nat) (k : Nat) (c : CSample) (s : State) : Nat × Piece × State :=
  if c.empty then (0x02, Piece.zero, s)
  else
    match composePiece n k c s with
    | (.ok p, s1) => (leAt c.rec_ 7 1, p, s1)
    | (.error f, s1) => (f.st.code, Piece.zero, s1)

/-- Compose the lowest position of a batch that waits (R322, R333). -/
def composeNext (n : Nat) (x : Batch) (s : State) : State :=
  match x.wait with
  | [] => s
  | (pos, c) :: r =>
    let y := { x with wait := r }
    let done := fun (t : State) => drain n (tryClose n x.buf (passSample c (if c.empty then t else freeSlot n t)))
    if x.dead then done (putBatch n y s)
    else
      let (st, p, s1) := pieceOf n x.bucket c s
      match putPosition n x pos (entryBytes c st p) p s1 with
      | (.error f, s2) => done (batchFault n x.buf (leAt c.rec_ 0 4) f (putBatch n y s2))
      | (.ok _, s2) =>
        let good := decide (st ≤ 1)
        let s3 := putBatch n { y with valid := y.valid + b2n good } s2
        done (if good then s3 else s3.count n Reg.BAT_EMPTIES 1)

/-- SAMPLE_COMPOSE_DONE: the bucket's oldest batch with waiting samples composes its next position (R322). -/
def execSampleComposeDone (stream : Fin 64) (bucket : Fin 16) (s : State) : Host.Outcome State Fault Refusal :=
  let n := stream.val
  match (s.bst n).batches.find? (fun x => x.bucket = bucket.val && !x.wait.isEmpty) with
  | none => .next s
  | some x => .next (needClock .mclk batReq (fun u => composeNext n x u) s)

/-- FLUSH_WINDOW_END (R323). -/
def execFlushWindowEnd (stream : Fin 64) (bucket : Fin 16) (s : State) : Host.Outcome State Fault Refusal :=
  let n := stream.val
  match openBatch s n bucket.val with
  | none => .next s
  | some x =>
    if windowOver s n x then .next (needClock .mclk batReq (fun u => drain n (flushBatch n x u)) s) else .next s

/-- Release a closed batch's buffer (R325). -/
def releaseBuf (n buf : Nat) (s : State) : State :=
  let b := s.bst n
  if b.closed.contains buf ∨ b.offered.any (fun e => e.2 == buf) then
    putBst n { b with closed := b.closed.filter (· ≠ buf), offered := b.offered.filter (fun e => e.2 ≠ buf) } s
  else batCfgErr s

/-- The rule of BAT_RELEASE. -/
def batReleaseRule : WriteRule := { effect := fun _ _ _ v s => releaseBuf (fld v 5 0) (fld v 13 8) s }

/-- Is an enabled bucket legal (R335). -/
def bktLegal (s : State) (n k : Nat) : Bool :=
  let kind := bktF s n k 2 1
  let ch := bktF s n k 11 8
  let d := bktDims s n k
  decide (0 < d.1) && (kind != 0 || decide (0 < d.2)) && kind != 3 && bktF s n k 13 12 != 3 &&
  (kind == 0 || decide (bktF s n k 5 4 < 2)) &&
  (match kind with | 0 => ch == 1 || ch == 3 | 1 => decide (1 ≤ ch) && decide (ch ≤ 8) | _ => true) &&
  decide (dataOff s n + bstN s n * (sampleStride s n k + maskStride s n k) ≤ s.rf n Reg.BAT_BUF_SIZE 9 0 * 0x200000)

/-- Sum of the quotas of the enabled streams, this one apart (R335). -/
def quotaSum (s : State) (n : Nat) : Nat :=
  (((List.range 64).filter (fun m => m != n && bstEn s m)).map (fun m => s.rf m Reg.BAT_SLOT_QUOTA 12 0)).foldl (· + ·) 0

/-- May a stream be enabled (R335): OUT_FMT is not among what is tested. -/
def batStreamOk (s : State) (n : Nat) : Bool :=
  let q := s.rf n Reg.BAT_SLOT_QUOTA 12 0
  let nb := s.rf n Reg.BAT_NBUF 6 0
  let on := (List.range 16).filter (fun k => bktF s n k 0 0 == 1)
  decide (1 ≤ bstN s n) && decide (bstN s n ≤ 4096) && decide (1 ≤ nb) && decide (nb ≤ 64) && decide (1 ≤ q) &&
  decide (quotaSum s n + q ≤ 4096) && on.contains (s.rf n Reg.BAT_SCTRL 11 8) &&
  on.all (fun k => bktLegal s n k)

/-- What EN = 1 sets up: buckets start with no open batch, BATCH_SEQ counts from 1, and offered batches are counted from 0 again (R324,
R332, R397); the batches offered before are found under no count of the new run. [DEDUCED 111] -/
def enableStream (n : Nat) (s : State) : State :=
  let s1 := flushAll n s
  let b := s1.bst n
  putBst n { b with seq := 0, count := 0, offered := b.offered.map (fun o => (o.1 + 2 ^ 32, o.2)) }
    { s1 with batchBase := SMap.del s1.batchBase n, released := s1.released.filter (fun x => x.1 ≠ n), relDue := s1.relDue.filter (fun x => x.1 ≠ n) }

/-- The rule of a stream's control register (R324, R335): while EN is 1 only EN changes, and DRAINED clears. [DEDUCED 68] -/
def streamCtrlRule : WriteRule :=
  { guard := fun n old cand s =>
      if fld old 0 0 = 1 then
        let w := setFld (setFld old 0 0 (fld cand 0 0)) 16 16 (fld cand 16 16)
        (w, if w = cand then s else batCfgErr s)
      else if fld cand 0 0 = 1 ∧ !batStreamOk (s.setReg n Reg.BAT_SCTRL cand) n then (setFld cand 0 0 0, batCfgErr s)
      else (cand, s)
    effect := fun n old new _ s =>
      if fld old 0 0 = 0 ∧ fld new 0 0 = 1 then enableStream n s
      else if fld old 0 0 = 1 ∧ fld new 0 0 = 0 then drain n s else s }

/-- The rule of the other fields of a stream window: ignored while EN is 1. -/
def streamFieldRule : WriteRule := { guard := fun n old cand s => if bstEn s n then (old, batCfgErr s) else (cand, s) }

/-- The rule of a bucket window: ignored while the stream's EN is 1. -/
def bucketFieldRule : WriteRule := { guard := fun i old cand s => if bstEn s (i / 16) then (old, batCfgErr s) else (cand, s) }

/-- The rule of FLUSH (R323). -/
def flushRule : WriteRule := { effect := fun n _ _ v s => if fld v 0 0 = 1 then flushAll n s else s }

/-- The rule of BAT_SEED: the lanes start again (R66). -/
def batSeedRule : PairRule := { effect := fun _ _ _ s => { s with batGen := [] } }

end Sys2Proof.Machine
end

