-- ==== Sys2Proof/Machine/HostQueue.lean ====
section
/-! DEFINITION. Machine/HostQueue.lean: submission and completion queues, doorbells, the entries of a queue other than work items,
completions and their interrupts (R441 to R449). -/

namespace Sys2Proof.Machine

/-- A completion queue. -/
def State.cq (s : State) (q : Nat) : HCq := SMap.getD s.cqs q HCq.empty

/-- Store a completion queue. -/
def State.setCq (s : State) (q : Nat) (x : HCq) : State := { s with cqs := SMap.set HCq.empty s.cqs q x }

/-- HST_STATUS.CFG_ERR (R441). -/
def hstCfgErr (s : State) : State := s.setRf 0 Reg.HST_STATUS 1 1 1

/-- SQ_CTRL.EN. -/
def sqEn (s : State) (q : Nat) : Bool := s.rf q Reg.SQ_CTRL 0 0 == 1
/-- CQ_CTRL.EN. -/
def cqEn (s : State) (q : Nat) : Bool := s.rf q Reg.CQ_CTRL 0 0 == 1
/-- SQ_SIZE. -/
def sqSize (s : State) (q : Nat) : Nat := s.rf q Reg.SQ_SIZE 16 0
/-- CQ_SIZE. -/
def cqSize (s : State) (q : Nat) : Nat := s.rf q Reg.CQ_SIZE 16 0
/-- The completion queue of a submission queue. -/
def sqCq (s : State) (q : Nat) : Nat := s.rf q Reg.SQ_CTRL 15 8
/-- Are requests to host memory sent (R432). [DEDUCED 95] -/
def upstream (s : State) : Bool := s.bme && !s.d3hot

/-- Free slots of a completion queue: of size − 1, those without an unread completion or a reservation (R443). -/
def cqFree (s : State) (c : Nat) : Nat :=
  let n := cqSize s c
  n - 1 - (s.rf c Reg.CQ_TAIL 15 0 + n - s.rf c Reg.CQ_HEAD 15 0) % n - s.rf c Reg.CQ_RESERVED 16 0

/-- Set the number of taken entries without a written completion of the device, and IDLE of a queue (R443, R448). -/
def showInflight (q : Nat) (s : State) : State :=
  let n := (s.sqs.map (fun e => e.2.ents.length)).foldl (· + ·) 0
  (s.setRf 0 Reg.HST_INFLIGHT 16 0 n).setRf q Reg.SQ_STATUS 0 0 (b2n ((s.sq q).ents.isEmpty))

/-- May an entry be taken from a queue (R432, R443, R448). [DEDUCED 93, 95] -/
def mayTake (s : State) (q : Nat) : Bool :=
  sqEn s q && !(s.sq q).stop && s.rf q Reg.SQ_HEAD 15 0 != s.rf q Reg.SQ_TAIL 15 0 &&
  !s.d3hot && (s.rf q Reg.SQ_CTRL 1 1 == 1 || s.bme) && cqEn s (sqCq s q) && decide (0 < cqFree s (sqCq s q))

/-- The HOST record of a queue (R470, R478): ITEM only where a work item is involved. [DEDUCED 32] -/
def hostRecord (q cid idx addr item : Nat) (f : Fail) : FaultIn :=
  let body := leBytes 2 q ++ leBytes 2 cid ++ leBytes 4 idx ++ leBytes 8 addr ++ leBytes 8 item
  { cls := .host, status := f.st, disp := .reported, req := hostRid, unit := q, root := f.root, body := body }

/-- Bus or device address of the entry at the head of a submission queue (R390, R441). -/
def headAddr (s : State) (q : Nat) : Nat := s.reg64 q Reg.SQ_BASE_LO + 128 * s.rf q Reg.SQ_HEAD 15 0

/-- Read the entry at the head of a queue: from host memory as the operand gives it, else from device memory (R441). -/
def readEntry (q : Nat) (entry : Option (List Byte)) (s : State) : MRes (List Byte) :=
  if s.rf q Reg.SQ_CTRL 1 1 = 1 then vRead { rid := hostRid } .r (headAddr s q) 128 s
  else
    match entry with
    | some l => (.ok (slice l 0 128), s)
    | none => (.error (mkFail .internal 0), s)

/-- A submission entry that could not be read stops the queue (R448). [DEDUCED 32, 94] -/
def fetchError (q : Nat) (f : Fail) (s : State) : State :=
  let x := s.sq q
  let addr := if s.rf q Reg.SQ_CTRL 1 1 = 1 then 0 else headAddr s q
  let s1 := (s.setSq q { x with stop := true }).setRf q Reg.SQ_STATUS 1 1 1
  raiseEvt .fault (writeFault (hostRecord q 0 x.count addr 0 f) s1)

/-- Does the common header have a defined opcode and zero reserved fields (R444). -/
def headerOk (raw : List Byte) : Bool := decide (leAt raw 0 1 ≤ 3) && leAt raw 1 3 == 0 && leAt raw 6 2 == 0

/-- Take an entry: the slot is reserved, SQ_HEAD advances; a bad header completes with DESCRIPTOR_INVALID (R443, R444). -/
def takeEntry (q : Nat) (raw : List Byte) (s : State) : State :=
  let x := s.sq q
  let c := sqCq s q
  let bad := !headerOk raw
  let e : HEntry := ⟨x.count, raw, c, bad, if bad then some .descriptorInvalid else none, 0⟩
  let s1 := s.setSq q { x with count := x.count + 1, ents := x.ents ++ [e] }
  let s2 := s1.setRf q Reg.SQ_HEAD 15 0 ((s.rf q Reg.SQ_HEAD 15 0 + 1) % sqSize s q)
  let s3 := s2.setRf c Reg.CQ_RESERVED 16 0 (s.rf c Reg.CQ_RESERVED 16 0 + 1)
  showInflight q (s3.count q Reg.SQ_TAKEN 1)

/-- Take one entry from the queue that R39 grants (R443). -/
def takeNext (entry : Option (List Byte)) (s : State) : State :=
  if s.rf 0 Reg.HST_INFLIGHT 16 0 ≥ 65536 then s
  else
    match rrGrant rrSq ((List.range 256).filter (mayTake s)) s with
    | none => s
    | some (q, s1) =>
      match readEntry q entry s1 with
      | (.ok raw, s2) => takeEntry q raw s2
      | (.error f, s2) => fetchError q f s2

/-- SUBMISSION_TAKE: one entry is taken from the queue that R39 grants; for a queue in host memory the operand is what the read
returned, none for a failed read (R443, R448). -/
def execSubmissionTake (entry : Option (List Byte)) (s : State) : Host.Outcome State Fault Refusal :=
  .next (takeNext entry s)

/-- Is an entry a BARRIER that has not completed (R444). -/
def HEntry.barrier (e : HEntry) : Bool := e.st.isNone && leAt e.raw 0 1 == 3

/-- The place of the oldest entry of an opcode that may start: none before it is an unfinished BARRIER (R444). [DEDUCED 96] -/
def startable (x : HSq) (op : Nat) : Option Nat :=
  match x.ents.findIdx? (fun e => !e.started && leAt e.raw 0 1 == op) with
  | none => none
  | some k => if (x.ents.take k).any HEntry.barrier then none else some k

/-- Change one entry of a queue. -/
def modEntry (q k : Nat) (f : HEntry → HEntry) (s : State) : State :=
  s.setSq q { s.sq q with ents := modAt (s.sq q).ents k f }

/-- An entry starts. -/
def HEntry.start (e : HEntry) : HEntry := { e with started := true }

/-- An entry is complete with a status. -/
def HEntry.done (st : Status) (e : HEntry) : HEntry := { e with started := true, st := some st }

/-- NOP_ENTRY: the oldest NOP that no BARRIER holds completes with OK (R444). -/
def execNopEntry (q : Fin 256) (s : State) : Host.Outcome State Fault Refusal :=
  match startable (s.sq q.val) 0 with
  | none => .next s
  | some k => .next (modEntry q.val k (HEntry.done .ok) s)

/-- BARRIER_ENTRY: the oldest BARRIER completes once every earlier entry of its queue has (R444). -/
def execBarrierEntry (q : Fin 256) (s : State) : Host.Outcome State Fault Refusal :=
  match startable (s.sq q.val) 3 with
  | none => .next s
  | some k =>
    if ((s.sq q.val).ents.take k).all (fun e => e.st.isSome) then .next (modEntry q.val k (HEntry.done .ok) s) else .next s

/-- Are the fields of a COPY entry legal (R445). [DEDUCED 97] -/
def copyOk (raw : List Byte) : Bool :=
  decide (leAt raw 16 8 < 2 ^ 48) && leAt raw 24 4 != 0 && decide (leAt raw 28 1 ≤ 1) && leAt raw 29 99 == 0

/-- COPY_ENTRY: the oldest COPY starts; it waits while no request is sent upstream; an illegal one completes with
DESCRIPTOR_INVALID (R432, R445). -/
def execCopyEntry (q : Fin 256) (s : State) : Host.Outcome State Fault Refusal :=
  match startable (s.sq q.val) 2 with
  | none => .next s
  | some k =>
    match (s.sq q.val).ents[k]? with
    | none => .next s
    | some e =>
      if !copyOk e.raw then .next (modEntry q.val k (HEntry.done .descriptorInvalid) s)
      else if upstream s then .next (modEntry q.val k HEntry.start s) else .next s

/-- Move the data of a COPY from host memory: what arrived is written, page by page (R445). -/
def copyIn (va n : Nat) (data : List Byte) (good : Bool) (s : State) : MRes Unit :=
  match vWrite { rid := hostRid } va (if good then slice data 0 n else data.take n) none s with
  | (.error f, s1) => (.error f, s1)
  | (.ok _, s1) => if good then (.ok (), s1) else (.error (mkFail .internal 0), s1)

/-- Move the data of a COPY to host memory, in requests that stay inside one 64 KiB page of the device side: `k` bounds them (R445). -/
def copyOut : Nat → Nat → Nat → Nat → State → MRes Unit
  | 0, _, _, _, s => (.ok (), s)
  | k + 1, va, ha, n, s =>
    if n = 0 then (.ok (), s)
    else
      let m := chunkLen va n
      match vRead { rid := hostRid } .r va m s with
      | (.error f, s1) => (.error f, s1)
      | (.ok d, s1) => copyOut k (va + m) (ha + m) (n - m) (s1.emit (.hostWrite ha d))

/-- Run the data transfer of a COPY. -/
def copyRun (raw data : List Byte) (good : Bool) (s : State) : MRes Unit :=
  let ha := leAt raw 8 8
  let va := leAt raw 16 8
  let n := leAt raw 24 4
  if leAt raw 28 1 = 0 then copyIn va n data good s
  else
    let m := if good then n else min n data.length
    match copyOut (m / 0x10000 + 2) va ha m s with
    | (.error f, s1) => (.error f, s1)
    | (.ok _, s1) => if good then (.ok (), s1) else (.error (mkFail .internal 0), s1)

/-- COPY_COMPLETE: the oldest running COPY of a queue ends: `data` is what the reads of host memory returned, and for the other
direction its length is what had been moved where the PCIe side failed (R445). [DEDUCED 96] -/
def execCopyComplete (q : Fin 256) (data : List Byte) (good : Bool) (s : State) : Host.Outcome State Fault Refusal :=
  match (s.sq q.val).ents.findIdx? (fun e => e.started && e.st.isNone && leAt e.raw 0 1 == 2) with
  | none => .next s
  | some k =>
    match (s.sq q.val).ents[k]? with
    | none => .next s
    | some e =>
      if !s.bme then .next s
      else
        match copyRun e.raw data good s with
        | (.ok _, s1) => .next (modEntry q.val k (HEntry.done .ok) s1)
        | (.error f, s1) =>
          .next (modEntry q.val k (HEntry.done f.st)
            (writeFault (hostRecord q.val (leAt e.raw 4 2) e.idx (leAt e.raw 8 8) 0 f) s1))

/-- The 32 bytes of a completion entry (R446). -/
def complBytes (q c : Nat) (e : HEntry) (st : Status) (s : State) : List Byte :=
  leBytes 2 (leAt e.raw 4 2) ++ leBytes 2 q ++ leBytes 1 st.code ++ leBytes 1 (s.rf c Reg.CQ_TAIL 16 16) ++
  leBytes 1 (min 255 e.replays) ++ leBytes 1 0 ++ leBytes 4 (s.rf q Reg.SQ_HEAD 15 0) ++ leBytes 4 0 ++
  leBytes 8 (itemId q e.idx) ++ leBytes 8 s.tb.toNat

/-- Write a completion entry at the tail of its queue (R447). -/
def putCompl (c : Nat) (bytes : List Byte) (good : Bool) (s : State) : MRes Unit :=
  let addr := s.reg64 c Reg.CQ_BASE_LO + 32 * s.rf c Reg.CQ_TAIL 15 0
  if s.rf c Reg.CQ_CTRL 1 1 = 1 then vWrite { rid := hostRid } addr bytes none s
  else if good then (.ok (), s.emit (.hostWrite addr bytes)) else (.error (mkFail .internal 0), s)

/-- A signal of a completion queue: the count of entries begins again (R449). -/
def signalCq (c : Nat) (s : State) : State :=
  sendMsix (s.rf c Reg.CQ_CTRL 26 16) (s.setCq c { s.cq c with coalN := 0 })

/-- Count an entry for coalescing; the signal at COUNT (R449). [DEDUCED 98] -/
def coalesce (c : Nat) (s : State) : State :=
  if s.rf c Reg.CQ_CTRL 2 2 = 0 then s
  else
    let x := s.cq c
    let n := x.coalN + 1
    let s1 := s.setCq c { x with coalN := n, coalAt := if x.coalN = 0 then s.now else x.coalAt }
    if n ≥ s.rf c Reg.CQ_COAL 15 0 then signalCq c s1 else s1

/-- The tail advances; the phase inverts when it wraps (R447). -/
def advanceTail (c : Nat) (s : State) : State :=
  let t := (s.rf c Reg.CQ_TAIL 15 0 + 1) % cqSize s c
  let s1 := s.setRf c Reg.CQ_TAIL 15 0 t
  if t = 0 then s1.setRf c Reg.CQ_TAIL 16 16 (1 - s.rf c Reg.CQ_TAIL 16 16) else s1

/-- The oldest entry of a queue leaves it with its reservation (R443). -/
def dropEntry (q c : Nat) (s : State) : State :=
  let s1 := s.setSq q { s.sq q with ents := (s.sq q).ents.drop 1 }
  showInflight q (s1.setRf c Reg.CQ_RESERVED 16 0 (s.rf c Reg.CQ_RESERVED 16 0 - 1))

/-- Is a completion queue able to be written (R432, R448). -/
def cqOpen (s : State) (c : Nat) : Bool :=
  cqEn s c && !(s.cq c).stop && (s.rf c Reg.CQ_CTRL 1 1 == 1 || upstream s)

/-- A completion that could not be written stops its queue (R448). [DEDUCED 94] -/
def writeError (q c : Nat) (e : HEntry) (f : Fail) (s : State) : State :=
  let addr := if s.rf c Reg.CQ_CTRL 1 1 = 1 then 0 else s.reg64 c Reg.CQ_BASE_LO + 32 * s.rf c Reg.CQ_TAIL 15 0
  let item := if leAt e.raw 0 1 = 1 then itemId q e.idx else 0
  let s1 := (s.setCq c { s.cq c with stop := true }).setRf c Reg.CQ_STATUS 0 0 1
  writeFault (hostRecord q (leAt e.raw 4 2) e.idx addr item f) s1

/-- COMPLETION_WRITE: the oldest taken entry of a submission queue, once complete, is written in its completion queue (R446, R447);
`good` is false where a write to host memory fails. -/
def execCompletionWrite (q : Fin 256) (good : Bool) (s : State) : Host.Outcome State Fault Refusal :=
  match (s.sq q.val).ents with
  | [] => .next s
  | e :: _ =>
    match e.st with
    | none => .next s
    | some st =>
      if !cqOpen s e.cq then .next s
      else
        match putCompl e.cq (complBytes q.val e.cq e st s) good s with
        | (.ok _, s1) => .next (coalesce e.cq (advanceTail e.cq (dropEntry q.val e.cq s1)))
        | (.error f, s1) => .next (writeError q.val e.cq e f s1)

/-- COALESCE_WINDOW_END: the window of a completion queue ends with entries counted: a signal (R449). -/
def execCoalesceWindowEnd (q : Fin 256) (s : State) : Host.Outcome State Fault Refusal :=
  let x := s.cq q.val
  let w := s.rf q.val Reg.CQ_COAL 31 16
  if x.coalN = 0 ∨ w = 0 ∨ s.now < x.coalAt + 25 * w then .next s else .next (signalCq q.val s)

/-- A doorbell that is ignored (R442). -/
def doorbellErr (q : Nat) (s : State) : State :=
  (s.setRf 0 Reg.HST_STATUS 0 0 1).setRf 0 Reg.HST_DB_ERR_Q 7 0 q

/-- What every BAR0 write meets first (R431, R456): nothing before configuration ready; a poisoned write is dropped and reported, a
partial one ignored. -/
def bar0Write (whole poison : Bool) (k : State → State) (s : State) : State :=
  if !(s.up.cfgReady && s.linkUp) then s
  else if poison then (s.setRf 0 Reg.HST_STATUS 4 4 1).emit .aer
  else if !whole then s.setRf 0 Reg.HST_STATUS 2 2 1
  else k s

/-- A tail doorbell (R442). -/
def tailDoorbell (q : Nat) (v : Nat) (s : State) : State :=
  if sqEn s q ∧ v < sqSize s q then s.setRf q Reg.SQ_TAIL 15 0 v else doorbellErr q s

/-- A head doorbell (R442). -/
def headDoorbell (q : Nat) (v : Nat) (s : State) : State :=
  if cqEn s q ∧ v < cqSize s q then s.setRf q Reg.CQ_HEAD 15 0 v else doorbellErr q s

/-- SQ_TAIL_DOORBELL (R442). -/
def execSqTailDoorbell (q : Fin 256) (val : W32) (whole poison : Bool) (s : State) : Host.Outcome State Fault Refusal :=
  .next (bar0Write whole poison (hostTurn (.tail q.val val.toNat) (tailDoorbell q.val val.toNat)) s)

/-- CQ_HEAD_DOORBELL (R442). -/
def execCqHeadDoorbell (q : Fin 256) (val : W32) (whole poison : Bool) (s : State) : Host.Outcome State Fault Refusal :=
  .next (bar0Write whole poison (hostTurn (.head q.val val.toNat) (headDoorbell q.val val.toNat)) s)

/-- May a queue of a size and place be enabled (R441); its base register holds only bits from 12 up. -/
def queueOk (s : State) (size loc : Nat) : Bool :=
  decide (2 ≤ size) && decide (size ≤ 65536) && (loc == 0 || s.rf 0 Reg.MMU_CTRL 0 0 == 1)

/-- Put EN of a control word back to a value. -/
def withEn (v : W32) (en : Nat) : W32 := setFld v 0 0 en

/-- A write to the control register of an enabled queue: only EN may change (R441). [DEDUCED 101] -/
def enabledCtrl (old cand : W32) (s : State) : W32 × State :=
  if withEn old 0 = withEn cand 0 then (cand, s) else (withEn old (fld cand 0 0), hstCfgErr s)

/-- The rule of SQ_CTRL (R441, R448). -/
def sqCtrlRule : WriteRule :=
  { guard := fun q old cand s =>
      if fld old 0 0 = 1 then enabledCtrl old cand s
      else if fld cand 0 0 = 0 then (cand, s)
      else if queueOk s (sqSize s q) (fld cand 1 1) ∧ cqEn s (fld cand 15 8) then (cand, s)
      else (withEn cand 0, hstCfgErr s)
    effect := fun q old new _ s =>
      if fld old 0 0 = 0 ∧ fld new 0 0 = 1 then
        (s.setSq q { s.sq q with count := 0, stop := false }).setRf q Reg.SQ_HEAD 15 0 0 |>.setRf q Reg.SQ_TAIL 15 0 0
      else s }

/-- Drop the completions of a queue's oldest entries that are complete and wait for completion queue `c` (R448). [DEDUCED 100] -/
def discardHeld (c q : Nat) : Nat → State → State
  | 0, s => s
  | k + 1, s =>
    match (s.sq q).ents with
    | e :: _ => if e.cq = c ∧ e.st.isSome then discardHeld c q k (dropEntry q c s) else s
    | [] => s

/-- Enable a completion queue: head and tail 0, phase 1, held completions discarded (R441, R448). [DEDUCED 100] -/
def startCq (c : Nat) (s : State) : State :=
  let s1 := s.sqs.foldl (fun t e => discardHeld c e.1 e.2.ents.length t) s
  let s2 := s1.setCq c HCq.empty
  ((s2.setRf c Reg.CQ_TAIL 15 0 0).setRf c Reg.CQ_TAIL 16 16 1).setRf c Reg.CQ_HEAD 15 0 0

/-- Does an enabled submission queue name a completion queue (R441). -/
def cqNamed (s : State) (c : Nat) : Bool := (List.range 256).any (fun q => sqEn s q && sqCq s q == c)

/-- The rule of CQ_CTRL (R441, R448). -/
def cqCtrlRule : WriteRule :=
  { guard := fun c old cand s =>
      if fld old 0 0 = 1 then
        if fld cand 0 0 = 0 ∧ cqNamed s c then (old, hstCfgErr s) else enabledCtrl old cand s
      else if fld cand 0 0 = 0 ∨ queueOk s (cqSize s c) (fld cand 1 1) then (cand, s)
      else (withEn cand 0, hstCfgErr s)
    effect := fun c old new _ s => if fld old 0 0 = 0 ∧ fld new 0 0 = 1 then startCq c s else s }

/-- The rule of the other registers of a submission queue: closed while EN is 1 (R441). -/
def sqFieldRule : WriteRule :=
  { guard := fun q old cand s => if sqEn s q then (old, hstCfgErr s) else (cand, s) }

/-- The rule of the other registers of a completion queue: closed while EN is 1 (R441). -/
def cqFieldRule : WriteRule :=
  { guard := fun q old cand s => if cqEn s q then (old, hstCfgErr s) else (cand, s) }

/-- The pair rule of SQ_BASE. -/
def sqBaseRule : PairRule := heldPair (fun q s => sqEn s q) (fun _ s => hstCfgErr s)

/-- The pair rule of CQ_BASE. -/
def cqBaseRule : PairRule := heldPair (fun q s => cqEn s q) (fun _ s => hstCfgErr s)

/-- CQ_STATUS.HELD: a completion for the queue is due and cannot be written (R432, R448). [DEDUCED 99] -/
def cqHeld (s : State) (c : Nat) : Bool :=
  !cqOpen s c && s.sqs.any (fun e => match e.2.ents with
    | x :: _ => x.cq == c && x.st.isSome
    | [] => false)

/-- The rule of HST_EVT_MASK: a write that exposes a set cause sends one message (R450). -/
def evtMaskRule : WriteRule :=
  { effect := fun _ old new _ s =>
      if (s.reg 0 Reg.HST_EVT_CAUSE).toNat &&& (new.toNat &&& (old.toNat ^^^ new.toNat)) ≠ 0 then
        sendMsix (s.rf 0 Reg.HST_EVT_VEC 10 0) s else s }

/-- Deliver the pending messages of vectors that are not masked (R432, R449). -/
def deliverPending (s : State) : State :=
  if !upstream s then s
  else
    (s.msixPend.filter (fun v => s.msixOn.contains v)).foldl (fun t v => t.emit (.msix v))
      { s with msixPend := s.msixPend.filter (fun v => !s.msixOn.contains v) }

/-- MSIX_UNMASK: a pending message of the vector is delivered (R449). -/
def execMsixUnmask (vec : Fin 2048) (s : State) : Host.Outcome State Fault Refusal :=
  if !s.up.cfgReady then .next s else .next (deliverPending { s with msixOn := setIns s.msixOn vec.val })

/-- BUS_MASTER_ENABLE_CHANGE (R432). -/
def execBusMasterEnableChange (on : Bool) (s : State) : Host.Outcome State Fault Refusal :=
  if !s.up.cfgReady then .next s else .next (deliverPending { s with bme := on })

/-- D3HOT_ENTRY (R432). -/
def execD3hotEntry (s : State) : Host.Outcome State Fault Refusal :=
  if !s.up.cfgReady then .next s else .next { s with d3hot := true }

/-- D0_RETURN: every register is kept; held messages are delivered (R432). -/
def execD0Return (s : State) : Host.Outcome State Fault Refusal := .next (deliverPending { s with d3hot := false })

end Sys2Proof.Machine
end

