-- ==== Sys2Proof/Machine/Dma.lean ====
section
/-! DEFINITION. Machine/Dma.lean: the dma instructions and the descriptor engine (R201 to R219). -/

namespace Sys2Proof.Machine

/-- Transfers waiting in a queue of an array. -/
def dmaQueue (s : State) (a q : Nat) : List DmaOp := SMap.getD s.dma (4 * a + q) []

/-- Set a queue. -/
def setDmaQueue (a q : Nat) (l : List DmaOp) (s : State) : State := { s with dma := SMap.put s.dma (4 * a + q) l }

/-- Issue of a dma instruction: registers are read now; a full queue makes the thread wait (R166, R205, R216). -/
def dmaIssue (func : Nat) (a : Fin 96) (t : Fin 64) (s : State) : State :=
  issue 0x8 func (fun w ext u =>
    let x := u.th a.val t.val
    let q := iImm w % 4
    if (dmaQueue u a.val q).length ≥ 64 then waitFor a.val t.val (.slot q) u
    else
      issueAsync a.val t.val q w (fun seq v =>
        setDmaQueue a.val q (dmaQueue v a.val q ++
          [⟨t.val, seq, func, x.dreg (iRa w % 16), x.dreg (iRb w % 16), x.dreg (bits (iImm w) 7 4), x.sreg (iRb w),
            (List.range 4).map (dmaOrg ext)⟩]) v) u) a.val t.val s

/-- dma.copy (R207). -/
def execDmaCopy (a : Fin 96) (t : Fin 64) (s : State) : Host.Outcome State Fault Refusal := .next (dmaIssue 0x0 a t s)
/-- dma.gather (R209). -/
def execDmaGather (a : Fin 96) (t : Fin 64) (s : State) : Host.Outcome State Fault Refusal := .next (dmaIssue 0x1 a t s)
/-- dma.scatter (R210). -/
def execDmaScatter (a : Fin 96) (t : Fin 64) (s : State) : Host.Outcome State Fault Refusal := .next (dmaIssue 0x2 a t s)
/-- dma.fill (R211). -/
def execDmaFill (a : Fin 96) (t : Fin 64) (s : State) : Host.Outcome State Fault Refusal := .next (dmaIssue 0x3 a t s)
/-- dma.prog (R212). -/
def execDmaProg (a : Fin 96) (t : Fin 64) (s : State) : Host.Outcome State Fault Refusal := .next (dmaIssue 0x4 a t s)

/-- May a source format be moved to a destination format (R208). -/
def dmaPairOk (src dst : Nat) : Bool :=
  src == dst || (decide (src ≤ 5) && (dst == 6 || dst == 7)) || (src == 6 && dst == 7) || (src == 7 && dst == 6) ||
    (src == 8 && dst == 7)

/-- The code an element takes in the destination format (R208). -/
def dmaConvert (src dst : Fmt) (e : Elem) : Nat := if src = dst then e.code else enc dst (e.value src)

/-- Stage 1 for one descriptor of a dma instruction (R213); an empty transfer translates nothing (R215). -/
def dmaCheck (c : Ctx) (a : Nat) (raw : BitVec 512) (need : Perm) (empty : Bool) (s : State) : MRes View :=
  let d := Desc.ofWord raw
  if d.sp24 || d.layout == 3 then (.error (descFail .descriptorInvalid d.base), s)
  else if empty && d.layout == 4 && d.codesOk && d.formOk && d.sizesOk raw.toNat then
    if d.base % 4 ≠ 0 then (.error (descFail .alignment d.base), s) else (.ok ⟨d, 0, 0, 0⟩, s)
  else descCheck c a raw need s

/-- Is an index descriptor as R209 states. -/
def indexOk (d : Desc) (rank : Nat) (drive : Desc) (org : List Int) : Bool :=
  d.layout == 0 && d.fmt == 8 && d.rank == 1 && d.scale == 0 && decide (drive.dim (rank - 1) ≤ d.dim 0) &&
    (decide (3 < rank - 1) || org.getD (rank - 1) 0 == 0)

/-- Offset of a dimension: zero at and above dimension 4 and RANK (R207). -/
def orgOf (op : DmaOp) (rank i : Nat) : Int := if i < 4 ∧ i < rank then op.org.getD i 0 else 0

/-- The index on the other side (R207, R209): the last dimension from the index list of a gather or scatter. -/
def otherIdx (op : DmaOp) (rank : Nat) (ix : List Int) (i : List Int) : List Int :=
  (List.range 6).map (fun d =>
    if (op.func = 1 ∨ op.func = 2) ∧ d + 1 = rank then ix.getD (i.getD d 0).toNat 0
    else i.getD d 0 + orgOf op rank d)

/-- The index list (R209): one INT32 element for each index of the driving dimension. -/
def readIndex (c : Ctx) (v : View) (n : Nat) (s : State) : MRes (List Int) :=
  mapM (fun i t =>
    match readElem c v [(i : Int), 0, 0, 0, 0, 0] t with
    | (.ok e, t1) => (.ok (toSigned 32 e.code), t1)
    | (.error f, t1) => (.error f, t1)) (List.range n) s

/-- One element of a copy or gather: the driving side is the destination (R207). -/
def pullElem (c : Ctx) (op : DmaOp) (sv dv : View) (ix : List Int) (l : Nat) (s : State) : MRes WElem :=
  let i := idxOf dv.d.dims l
  let j := otherIdx op dv.d.rank ix i
  match readElem c sv j s with
  | (.error f, s1) => (.error f, s1)
  | (.ok e, s1) =>
    (.ok ⟨l, i.map Int.toNat, dmaConvert sv.d.f dv.d.f e, sv.d.outside j,
      if e.mem ∧ sv.d.fmt = dv.d.fmt then some e.scale else none⟩, s1)

/-- One element of a scatter: the driving side is the source; an index outside the destination discards it (R207, R210). -/
def pushElem (c : Ctx) (op : DmaOp) (sv dv : View) (ix : List Int) (l : Nat) (s : State) : MRes (Option WElem) :=
  let i := idxOf sv.d.dims l
  let j := otherIdx op sv.d.rank ix i
  match readElem c sv i s with
  | (.error f, s1) => (.error f, s1)
  | (.ok e, s1) =>
    if dv.d.outside j then (.ok none, s1.count64 0 Reg.DMA_OOB_DISCARD_LO 1)
    else
      (.ok (some ⟨l, j.map Int.toNat, dmaConvert sv.d.f dv.d.f e, false,
        if sv.d.fmt = dv.d.fmt then some e.scale else none⟩), s1)

/-- Move the elements of a checked transfer (R191, R201 to R204, R207 to R210). [DESIGN CHOICE 38] -/
def dmaMove (c : Ctx) (op : DmaOp) (sv dv : View) (ix : List Int) (s : State) : MRes Unit :=
  let n := if op.func = 2 then sv.d.count else dv.d.count
  let pick := fun (l : Nat) (t : State) =>
    if op.func = 2 then pushElem c op sv dv ix l t
    else match pullElem c op sv dv ix l t with
      | (.ok e, t1) => (.ok (some e), t1)
      | (.error f, t1) => (.error f, t1)
  match mapM pick (List.range n) s with
  | (.error f, s1) =>
    let es := (readable pick (List.range n) s).filterMap id
    (.error f, landSome c dv es (blockScaleOf dv es) s s1)
  | (.ok es0, s1) =>
    let read := fun (e : WElem) (t : State) =>
      match pick e.l t with
      | (.ok (some x), _) => x
      | _ => e
    let (es, s2) := overlapReads c dv read (es0.filterMap id) s1
    writeOrLand c dv es (blockScaleOf dv es) s2

/-- Stage 2 of R213 for a copy, gather or scatter. -/
def dmaStage2 (op : DmaOp) (sd dd : Desc) (di : Option Desc) : Bool :=
  let drive := if op.func = 2 then sd else dd
  sd.rank == dd.rank && dmaPairOk sd.fmt dd.fmt && (di.all (fun d => indexOk d drive.rank drive op.org)) &&
    decide (drive.count ≤ 2 ^ 40)

/-- A copy, gather or scatter from its checks on (R213 to R215): an empty transfer completes after them. [DESIGN CHOICE 181] -/
def dmaCopyRun (c : Ctx) (a : Nat) (op : DmaOp) (s : State) : MRes Unit :=
  let drive := Desc.ofWord (if op.func = 2 then op.da else op.dd)
  let empty := decide (drive.count = 0)
  match dmaCheck c a op.da .r empty s with
  | (.error f, s1) => (.error f, s1)
  | (.ok sv, s1) =>
    match dmaCheck c a op.dd .w empty s1 with
    | (.error f, s2) => (.error f, s2)
    | (.ok dv, s2) =>
      if op.func = 0 then
        if !dmaStage2 op sv.d dv.d none then (.error (descFail .descriptorInvalid dv.d.base), s2)
        else if empty then (.ok (), s2) else dmaMove c op sv dv [] s2
      else
        match dmaCheck c a op.di .r empty s2 with
        | (.error f, s3) => (.error f, s3)
        | (.ok iv, s3) =>
          if !dmaStage2 op sv.d dv.d (some iv.d) then (.error (descFail .descriptorInvalid iv.d.base), s3)
          else if empty then (.ok (), s3)
          else
            match readIndex c iv (drive.dim (drive.rank - 1)) s3 with
            | (.error f, s4) => (.error f, s4)
            | (.ok ix, s4) => dmaMove c op sv dv ix s4

/-- A fill (R211): PADVAL into every element, scale code 127 for every block, PADWR ignored. -/
def dmaFillRun (c : Ctx) (a : Nat) (op : DmaOp) (s : State) : MRes Unit :=
  let d := Desc.ofWord op.dd
  match dmaCheck c a op.dd .w (decide (d.count = 0)) s with
  | (.error f, s1) => (.error f, s1)
  | (.ok v, s1) =>
    if d.count > 2 ^ 40 then (.error (descFail .descriptorInvalid d.base), s1)
    else if d.count = 0 then (.ok (), s1)
    else
      let es := (List.range d.count).map (fun l => WElem.mk l ((idxOf d.dims l).map Int.toNat) d.padCode false none)
      writeOrLand c { v with d := { v.d with padwr := false } } es (fun _ => 127) s1

/-- A loaded image whose range is touched no longer counts as loaded (R394). -/
def touchStore (a lo n : Nat) (s : State) : State :=
  { s with imgs := SMap.put s.imgs a ((SMap.getD s.imgs a []).filter (fun i =>
      decide (i.2.2 + i.2.1 ≤ lo) || decide (lo + n ≤ i.2.2))) }

/-- Read the bytes of a program image with X permission (R175, R212). -/
def progBytes (c : Ctx) (v : View) (ls : List Nat) (s : State) : MRes (List Byte) :=
  match mapM (fun l t =>
      let loc := v.loc ((idxOf v.d.dims l).map Int.toNat)
      if loc.va < 0 ∨ loc.va ≥ 2 ^ 48 then outOfSpace loc.va t
      else vRead c .x loc.va.toNat 1 t) ls s with
  | (.ok ds, s1) => (.ok ds.flatten, s1)
  | (.error f, s1) => (.error f, s1)

/-- Does da of a dma.prog have the form of R212. -/
def progOk (op : DmaOp) (d : Desc) : Bool :=
  d.layout == 0 && d.fmt == 3 && d.scale == 0 && d.count % 8 == 0 && decide (op.sb.toNat < 131072) &&
    decide (d.count ≤ 2 ^ 40) && decide (op.sb.toNat + d.count / 8 ≤ psWords)

/-- What is left of a failed dma.prog: of the words that can be read, any subset has landed (R214). [DESIGN CHOICE 39] -/
def landProg (c : Ctx) (v : View) (p lo : Nat) (before s : State) : State :=
  let (k, s1) := s.drawFree
  (List.range (v.d.count / 8)).foldl (fun u i =>
    if Config.landed k i then
      match progBytes c v ((List.range 8).map (8 * i + ·)) before with
      | (.ok d, _) => rawWrite u (psAddr p (lo + i)) d
      | (.error _, _) => u
    else u) { s1 with mem := before.mem }

/-- A dma.prog (R212). -/
def dmaProgRun (c : Ctx) (a : Nat) (op : DmaOp) (s : State) : MRes Unit :=
  match dmaCheck c a op.da .x (decide ((Desc.ofWord op.da).count = 0)) s with
  | (.error f, s1) => (.error f, s1)
  | (.ok v, s1) =>
    if !progOk op v.d then (.error (descFail .descriptorInvalid v.d.base), s1)
    else if v.d.count = 0 then (.ok (), s1)
    else
      let s0 := touchStore a op.sb.toNat (v.d.count / 8) s1
      match progBytes c v (List.range v.d.count) s0, physOf s0 a with
      | (.error f, s2), some p => (.error f, landProg c v p op.sb.toNat s0 s2)
      | (.error f, s2), none => (.error f, s2)
      | (.ok _, s2), none => (.error (mkFail .internal 0), s2)
      | (.ok d, s2), some p =>
        match physWrite c (psAddr p op.sb.toNat) d none s2 with
        | (.ok u, s3) => (.ok u, s3)
        | (.error f, s3) => (.error f, landProg c v p op.sb.toNat s2 s3)

/-- A transfer from its checks to its end. -/
def dmaRun (a : Nat) (op : DmaOp) (s : State) : State :=
  let c := thrCtx s a op.thr
  let r := match op.func with
    | 3 => dmaFillRun c a op s
    | 4 => dmaProgRun c a op s
    | _ => dmaCopyRun c a op s
  match if op.func = 4 then r else wroteAcc c a op.thr op.seq op.dd r with
  | (.ok _, s1) => opOk a op.thr op.seq s1
  | (.error f, s1) => opDone a op.thr op.seq f s1

/-- DMA_TRANSFER_START: the engine takes the oldest transfer of the queue its pointer chooses (R213, R216). -/
def execDmaTransferStart (a : Fin 96) (s : State) : Host.Outcome State Fault Refusal :=
  let qs := (List.range 4).filter (fun q => dmaQueue s a.val q ≠ [])
  match rrGrant (rrDma a.val) qs s with
  | none => .next s
  | some (q, s1) =>
    match dmaQueue s1 a.val q with
    | [] => .next s1
    | op :: r => .next (dmaRun a.val op (wakeSlot a.val q (setDmaQueue a.val q r s1)))

end Sys2Proof.Machine
end

