-- ==== Sys2Proof/Machine/Trans.lean ====
section
/-! DEFINITION. Machine/Trans.lean: the functions of R237 and R238: exp, expm1, sigmoid, tanh, softplus, elu, gelu, silu and the
activation derivatives. Exact results are computed in fixed point with 512 fraction bits; the answer is the nearest FP32 number
moved by the free offset of Config.actUlp as far as the bound of R238 allows. -/

namespace Sys2Proof.Machine

/-- The unit of the fixed-point numbers: 2^512. -/
def fxOne : Int := 2 ^ 512

/-- A finite value in fixed point, its magnitude limited to 150: beyond that every function below has reached its limit. -/
def toFx : Fp → Int
  | .fin n m e =>
    let v : Int := if 0 ≤ e + 512 then (m * 2 ^ (e + 512).toNat : Nat) else (m / 2 ^ (-(e + 512)).toNat : Nat)
    let w := min v (150 * fxOne)
    if n then -w else w
  | _ => 0

/-- A fixed-point number as a value. -/
def ofFx (i : Int) : Fp := .fin (decide (i < 0)) i.natAbs (-512)

/-- Product of fixed-point numbers. -/
def fxMul (a b : Int) : Int := a * b / fxOne

/-- Quotient of fixed-point numbers. -/
def fxDiv (a b : Int) : Int := a * fxOne / b

/-- Terms of the exponential series: `k` terms from term `i` on. -/
def expSeries (x : Int) : Nat → Nat → Int → Int → Int
  | 0, _, _, acc => acc
  | k + 1, i, t, acc => expSeries x k (i + 1) (fxMul t x / (i + 1)) (acc + t)

/-- Repeated squaring. -/
def fxSquares : Nat → Int → Int
  | 0, v => v
  | k + 1, v => fxSquares k (fxMul v v)

/-- e^x. -/
def fxExp (x : Int) : Int := fxSquares 16 (expSeries (x / 65536) 48 0 fxOne 0)

/-- Terms of the series of 2 artanh z. -/
def lnSeries (z2 : Int) : Nat → Nat → Int → Int → Int
  | 0, _, _, acc => acc
  | k + 1, i, t, acc => lnSeries z2 k (i + 1) (fxMul t z2) (acc + 2 * (t / (2 * i + 1)))

/-- ln (1 + u) for u from 0 to 1. -/
def fxLn1p (u : Int) : Int :=
  let z := fxDiv u (2 * fxOne + u)
  lnSeries (fxMul z z) 170 0 z 0

/-- 1 / (1 + e^-x). -/
def fxSigmoid (x : Int) : Int :=
  if x < 0 then let e := fxExp x; fxDiv e (fxOne + e) else fxDiv fxOne (fxOne + fxExp (-x))

/-- tanh x. -/
def fxTanh (x : Int) : Int :=
  let a := if x < 0 then -x else x
  let e := fxExp (-2 * (min a (75 * fxOne)))
  let v := fxDiv (fxOne - e) (fxOne + e)
  if x < 0 then -v else v

/-- π with 512 fraction bits, by Machin's formula. -/
def fxAtanInv (n : Nat) : Nat → Nat → Int → Int → Int
  | 0, _, _, acc => acc
  | k + 1, i, t, acc =>
    fxAtanInv n k (i + 1) (t / ((n * n : Nat) : Int)) (if i % 2 = 0 then acc + t / (2 * i + 1) else acc - t / (2 * i + 1))

/-- π in fixed point. -/
def fxPi : Int := 16 * fxAtanInv 5 120 0 (fxOne / 5) 0 - 4 * fxAtanInv 239 40 0 (fxOne / 239) 0

/-- √(2/π) in fixed point. -/
def fxC : Int := (isqrt ((2 * fxOne * fxOne * fxOne / fxPi).toNat) : Nat)

/-- A decimal constant n / 10^6 in fixed point. -/
def fxMicro (n : Nat) : Int := (n : Int) * fxOne / 1000000

/-- c (x + 0.044715 x³) of gelu (R237). -/
def fxGeluArg (x : Int) : Int :=
  max (-150 * fxOne) (min (150 * fxOne) (fxMul fxC (x + fxMul (fxMicro 44715) (fxMul x (fxMul x x)))))

/-- Exponent of the last place of a value in FP32. -/
def ulpExp : Fp → Int
  | .fin _ m e => if m = 0 then -149 else unitExp .fp32 m e
  | _ => 0

/-- Do two finite values differ by at most two units in the last place of the first (R238). -/
def within2 (v y : Fp) : Bool := !Fp.lt (.fin false 2 (ulpExp v)) (Fp.abs (v.add y.neg))

/-- The answer of a function whose exact result is `v`: the nearest FP32 number moved by the free offset where R238 allows it. [DESIGN CHOICE 12] -/
def jitter (k : Nat) (v : Fp) : Fp :=
  let c := enc .fp32 v
  let mag : Int := ((c % 2 ^ 31 : Nat) : Int) + ((k % 5 : Nat) : Int) - 2
  if mag < 0 ∨ mag > 0x7F7FFFFF ∨ c % 2 ^ 31 > 0x7F7FFFFF then f32 c
  else
    let y := f32 (c / 2 ^ 31 * 2 ^ 31 + mag.toNat)
    if within2 v y then y else f32 c

/-- Exact results of the functions at a finite operand that is not zero: 2 sigmoid, 3 tanh, 4 exp, 5 softplus, 6 the negative branch
of elu, 7 gelu, 8 silu, 9 expm1. Below -150 the products of gelu and silu have reached -0. -/
def fnExact (k : Nat) (x : Fp) : Fp :=
  let f := toFx x
  let y := if x.sign then ofFx f else x
  match k with
  | 2 => ofFx (fxSigmoid f)
  | 3 => ofFx (fxTanh f)
  | 4 => ofFx (fxExp f)
  | 5 => (if x.sign then Fp.zero else x).add (ofFx (fxLn1p (fxExp (if x.sign then f else -f))))
  | 7 => y.mul (ofFx (fxSigmoid (max (-150 * fxOne) (min (150 * fxOne) (2 * fxGeluArg f)))))
  | 8 => y.mul (ofFx (fxSigmoid f))
  | _ => ofFx (fxExp f - fxOne)

/-- 1.0. -/
def fpOne : Fp := .fin false 1 0
/-- 0.5. -/
def fpHalf : Fp := .fin false 1 (-1)

/-- The exact values of R238 at the zeros. -/
def fnZero (k : Nat) (x : Fp) : Fp :=
  match k with
  | 2 => fpHalf
  | 4 => fpOne
  | 5 => jitter (Config.actUlp 5 (BitVec.ofNat 32 (c32 x))) (ofFx (fxLn1p fxOne))
  | 6 => Fp.zero
  | _ => x

/-- The values of R238 at the infinities. -/
def fnInf (k : Nat) (neg : Bool) : Fp :=
  if neg then
    match k with
    | 3 | 6 | 9 => fpOne.neg
    | 7 | 8 => .fin true 0 0
    | _ => Fp.zero
  else
    match k with
    | 2 | 3 => fpOne
    | _ => .inf false

/-- A function of R237 and R238 at an FP32 operand. [DESIGN CHOICE 12] -/
def fn (k : Nat) (x : Fp) : Fp :=
  match x with
  | .nan => .nan
  | .inf n => fnInf k n
  | .fin _ m _ =>
    if m = 0 then fnZero k x else jitter (Config.actUlp k (BitVec.ofNat 32 (c32 x))) (fnExact k x)

/-- Is a value above zero. -/
def Fp.pos (x : Fp) : Bool := Fp.lt Fp.zero x

/-- The activation y = f(x) (R237). [DESIGN CHOICE 12] -/
def actFn (af : Nat) (k0 x : Fp) : Fp :=
  if x.isNan then .nan
  else match af with
    | 0 => Fp.max x Fp.zero
    | 1 => if x.pos then x else mul32 k0 x
    | 6 => if x.pos then x else fn 6 x
    | k => fn k x

/-- f′ from the saved output y (R237); every step rounded to FP32. [DESIGN CHOICE 12] -/
def actDerOut (af : Nat) (k0 y : Fp) : Fp :=
  if y.isNan then .nan
  else match af with
    | 0 => if y.pos then fpOne else Fp.zero
    | 1 => if y.pos then fpOne else k0
    | 2 => mul32 y (sub32 fpOne y)
    | 3 => sub32 fpOne (mul32 y y)
    | 4 => y
    | 5 => (fn 9 y.neg).neg
    | _ => if y.pos then fpOne else add32 y fpOne

/-- A decimal constant n / 10^6 rounded to FP32. -/
def micro32 (n : Nat) : Fp := rnd32 (Fp.div (.fin false n 0) (.fin false 1000000 0))

/-- √(2/π) rounded to FP32. -/
def c32gelu : Fp := rnd32 (ofFx fxC)

/-- f′ of gelu from the saved input (R237). -/
def geluDer (x : Fp) : Fp :=
  let x2 := mul32 x x
  let t := fn 3 (mul32 c32gelu (add32 x (mul32 (micro32 44715) (mul32 x2 x))))
  let p := mul32 fpHalf (add32 fpOne t)
  let q := mul32 (mul32 fpHalf x) (sub32 fpOne (mul32 t t))
  add32 p (mul32 (mul32 q c32gelu) (add32 fpOne (mul32 (micro32 134145) x2)))

/-- f′ from the saved input x (R237). [DESIGN CHOICE 12] -/
def actDerIn (af : Nat) (k0 x : Fp) : Fp :=
  if x.isNan then .nan
  else match af with
    | 0 => if x.pos then fpOne else Fp.zero
    | 1 => if x.pos then fpOne else k0
    | 2 => let g := fn 2 x; mul32 g (sub32 fpOne g)
    | 3 => let t := fn 3 x; sub32 fpOne (mul32 t t)
    | 4 => fn 4 x
    | 5 => fn 2 x
    | 6 => if x.pos then fpOne else fn 4 x
    | 7 => geluDer x
    | _ => let g := fn 2 x; mul32 g (add32 fpOne (mul32 x (sub32 fpOne g)))

end Sys2Proof.Machine
end

