-- ==== Sys2Proof/Machine/Vec.lean ====
section
/-! DEFINITION. Machine/Vec.lean: the vector unit: operand checks (R222 to R224), element-wise operations (R232, R233), quantisation
and stochastic rounding (R234, R236), reductions (R235) and activations (R237). -/

namespace Sys2Proof.Machine

/-- May an operand of a vec or row instruction lie at a physical address: own local memory or the Pool (R223). -/
def vecPlace (s : State) (a pa : Nat) : Bool := inPool pa || inOwnLocal s a pa

/-- Where the bytes of an operand's element must lie (R223); accumulator operands are placed by their descriptor. -/
def placeLoc (c : Ctx) (a : Nat) (need : Perm) (l : Loc) (s : State) : MRes Unit :=
  if l.phys then (.ok (), s)
  else if l.va < 0 ∨ l.va ≥ 2 ^ 48 then outOfSpace l.va s
  else
    match translate { c with va := l.va.toNat } l.va.toNat need s with
    | (.error f, s1) => (.error { f with va := l.va.toNat }, s1)
    | (.ok pa, s1) => if vecPlace s1 a pa then (.ok (), s1) else (.error (descFail .descriptorInvalid l.va.toNat), s1)

/-- Check one operand of a vec or row instruction (R213, R223): CMPR and 2:4 WROW are refused, and BASE must lie in reach. -/
def vecCheck (c : Ctx) (a : Nat) (raw : BitVec 512) (need : Perm) (empty : Bool) (s : State) : MRes View :=
  let d := Desc.ofWord raw
  if d.layout == 3 || d.sp24 then (.error (descFail .descriptorInvalid d.base), s)
  else if empty && d.layout == 4 && d.codesOk && d.formOk && d.sizesOk raw.toNat then (.ok ⟨d, 0, 0, 0⟩, s)
  else
    match descCheck c a raw need s with
    | (.error f, s1) => (.error f, s1)
    | (.ok v, s1) =>
      if empty ∨ d.layout = 4 then (.ok v, s1)
      else
        match placeLoc c a need ⟨d.base, false, none⟩ s1 with
        | (.error f, s2) => (.error f, s2)
        | (.ok _, s2) => (.ok v, s2)

/-- Where the scale of an operand's element must lie: in the same reach as its data (R223). -/
def placeScale (c : Ctx) (a : Nat) (need : Perm) (l : ScaleLoc) (s : State) : MRes Unit :=
  match l with
  | .byte va => placeLoc c a need ⟨va, false, none⟩ s
  | _ => (.ok (), s)

/-- Where the bytes of an operand's element and of its scale must lie (R223). -/
def placeElem (c : Ctx) (a : Nat) (v : View) (need : Perm) (idx : List Nat) (s : State) : MRes Unit :=
  match placeLoc c a need (v.loc idx) s with
  | (.error f, s1) => (.error f, s1)
  | (.ok _, s1) => if fmtScaled v.d.f then placeScale c a need (v.scaleLoc idx) s1 else (.ok (), s1)

/-- Read one element, in reach of the unit (R223). [DESIGN CHOICE 11] -/
def vecElem (c : Ctx) (a : Nat) (v : View) (idx : List Int) (s : State) : MRes Elem :=
  match v.d.src idx with
  | .konst k => (.ok ⟨k, 127, false⟩, s)
  | .elem i _ =>
    match placeElem c a v .r i s with
    | (.error f, s1) => (.error f, s1)
    | (.ok _, s1) =>
      match readElem c v idx s1 with
      | (.error f, s2) => (.error f, s2)
      | (.ok e, s2) =>
        if (v.loc i).phys && accOpen (· != .write) (v.loc i).va.toNat s2 then
          let (k, s3) := s2.drawFree
          (.ok { e with code := (Config.freeWord k).toNat % 2 ^ 32 }, s3)
        else (.ok e, s2)

/-- A source value widened to FP32; INT32 is converted by R56 (R45, R233). -/
def widen (f : Fmt) (e : Elem) : Fp := rnd32 (e.value f)

/-- Write elements that lie in reach of the unit (R223). -/
def vecWrite (c : Ctx) (a : Nat) (v : View) (es : List WElem) (scaleOf : WElem → Nat) (s : State) : MRes Unit :=
  let place := fun (e : WElem) t => placeElem c a v .w e.idx t
  match mapM place (padFilter v es) s with
  | (.error f, s1) =>
    let ok := es.filter (fun e => match place e s with
      | (.ok _, _) => true
      | (.error _, _) => false)
    (.error f, landSome c v ok scaleOf s s1)
  | (.ok _, s1) => writeOrLand c v es scaleOf s1

/-- A result element before its conversion: linear index, index vector, exact value, pad mark. -/
structure VElem where
  l   : Nat
  idx : List Nat
  val : Fp
  pad : Bool
deriving DecidableEq, Repr

/-- Scale of the destination block of an element (R47, R48, R234). -/
def vScale (v : View) (es : List VElem) (e : VElem) : Nat :=
  blockScale v.d.f ((es.filter (fun g => v.block g.idx == v.block e.idx)).map (·.val))

/-- Number of the generator of an element (R236). -/
def vGenKey (a l : Nat) : Nat := 256 * a + l % 256

/-- The generator of a lane (R66, R236). -/
def vGen (s : State) (k : Nat) : W64 :=
  match SMap.get? s.vecGen k with
  | some g => g
  | none => laneSeed (BitVec.ofNat 64 (s.reg64 0 Reg.VEC_SEED_LO)) k

/-- Convert one element to the destination format (R54, R56, R234, R236); the vector unit always propagates (R60). -/
def vConvert (a : Nat) (v : View) (sr : Bool) (es : List VElem) (e : VElem) (s : State) : WElem × State :=
  let k := vGenKey a e.l
  let gen := if sr then some (vGen s k) else none
  let sc := if fmtScaled v.d.f then vScale v es e else 127
  let (code, g) := if fmtScaled v.d.f then blockCode false v.d.f sc gen e.val else encodeGen false v.d.f gen e.val
  (⟨e.l, e.idx, code, e.pad, some sc⟩, match g with
    | some x => if sr then { s with vecGen := SMap.put s.vecGen k x } else s
    | none => s)

/-- Convert all elements, drawing in ascending linear index (R236). -/
def vConvertAll (a : Nat) (v : View) (sr : Bool) (es : List VElem) (s : State) : List WElem × State :=
  es.foldl (fun (acc : List WElem × State) e =>
    let (w, t) := vConvert a v sr es e acc.2
    (acc.1 ++ [w], t)) ([], s)

/-- Elements that PADWR leaves out are not formed (R203, R234). -/
def vFormed (v : View) (es : List VElem) : List VElem :=
  if !v.d.padwr then es
  else if fmtScaled v.d.f then es.filter (fun e => !e.pad || es.any (fun g => !g.pad && v.block g.idx == v.block e.idx))
  else es.filter (fun e => !e.pad)

/-- Convert and write the results of a vec or row operation. -/
def vStore (c : Ctx) (a : Nat) (v : View) (sr : Bool) (es0 : List VElem) (s : State) : MRes Unit :=
  let es := vFormed v es0
  let (ws, s1) := vConvertAll a v sr es s
  vecWrite c a v ws (fun e => e.scale.getD 127) s1

/-- What is left of a failed operation of the vector unit or row engine: any subset of the writes it had formed (R214, R224). [DESIGN CHOICE 39] -/
def vLand (c : Ctx) (a : Nat) (v : View) (sr : Bool) (es : List VElem) (before s : State) : State :=
  landSome c v (vConvertAll a v sr (vFormed v es) before).1 (fun e => e.scale.getD 127) before s

/-- The operands of an element-wise operation at one index: values and codes of a, b and c, and whether one of them is padding. -/
structure Ops3 where
  a   : Fp
  b   : Fp
  c   : Fp
  ia  : Int
  ib  : Int
  pad : Bool
deriving DecidableEq, Repr

/-- sign of R232: -1, ±0 or +1. -/
def vSign (x : Fp) : Fp := if x.isNan ∨ x.isZero then x else if x.sign then fpOne.neg else fpOne

/-- A comparison: NaN operands give NaN, else 1.0 or +0 (R232). -/
def vCmp (p : Bool) (a b : Fp) : Fp := if a.isNan || b.isNan then .nan else if p then fpOne else Fp.zero

/-- vec.alu before rounding: the exact result (R232). -/
def aluExact (sub : Nat) (k0 k1 : Fp) (o : Ops3) : Fp :=
  match sub with
  | 0x00 => o.a
  | 0x01 => o.a.add o.b
  | 0x02 => o.a.add o.b.neg
  | 0x03 => o.a.mul o.b
  | 0x04 => (o.a.mul o.b).add o.c
  | 0x05 => Fp.max o.a o.b
  | 0x06 => Fp.min o.a o.b
  | 0x07 => o.a.abs
  | 0x08 => o.a.neg
  | 0x09 => vSign o.a
  | 0x0A => if o.c.isZero then o.b else o.a
  | 0x0B => Fp.min (Fp.max o.a k0) k1
  | 0x0C => (o.a.mul k0).add k1
  | 0x0D => vCmp (Fp.lt o.b o.a) o.a o.b
  | 0x0E => vCmp (!Fp.lt o.a o.b) o.a o.b
  | _ => vCmp (Fp.eqv o.a o.b) o.a o.b

/-- The exact integer result of the INT32 path, clamped (R53, R233). -/
def aluInt (sub : Nat) (x y : Int) : Int :=
  clamp32 (match sub with
    | 0x00 => x
    | 0x01 => x + y
    | 0x02 => x - y
    | 0x05 => max x y
    | 0x06 => min x y
    | 0x07 => (x.natAbs : Int)
    | _ => -x)

/-- Is the INT32 path taken (R233). -/
def intPath (sub : Nat) (fs : List Nat) (dst : Nat) : Bool :=
  dst == 8 && fs.all (· == 8) && (decide (sub ≤ 2) || (decide (5 ≤ sub) && decide (sub ≤ 8)))

/-- Is the BF16 path taken (R233). -/
def bf16Path (sub : Nat) (fs : List Nat) (dst : Nat) : Bool :=
  dst == 6 && fs.all (· == 6) && decide (1 ≤ sub) && decide (sub ≤ 6)

/-- The value an element-wise operation converts: exact on the BF16 and INT32 paths, else rounded to FP32 (R232, R233, R237). -/
def vResult (func sub : Nat) (fs : List Nat) (dst : Nat) (k0 k1 : Fp) (o : Ops3) : Fp :=
  match func with
  | 0x0 =>
    if intPath sub fs dst then Fp.ofInt (aluInt sub o.ia o.ib)
    else if bf16Path sub fs dst then aluExact sub k0 k1 o
    else rnd32 (aluExact sub k0 k1 o)
  | 0x1 => rnd32 (match sub with | 0 => o.a.rcp | 1 => o.a.sqrt | _ => o.a.rsqrt)
  | 0x2 => rnd32 (actFn sub k0 o.a)
  | 0x3 => mul32 o.b (actDerOut sub k0 o.a)
  | _ => mul32 o.b (actDerIn sub k0 o.a)

/-- The decoded fields of a vec operation with its descriptors (R232). -/
structure VecOp where
  func : Nat
  sub  : Nat
  sr   : Bool
  ra   : BitVec 512
  rb   : BitVec 512
  rc   : BitVec 512
  dst  : BitVec 512
  k0   : Fp
  k1   : Fp
deriving DecidableEq, Repr

/-- Read the operands of one element (R233); a destination element is padding where any source it uses is out of bounds (R234). [DESIGN CHOICE 182] -/
def readOps (c : Ctx) (a : Nat) (op : VecOp) (va vb vc : View) (idx : List Int) (s : State) : MRes Ops3 :=
  match vecElem c a va idx s with
  | (.error f, s1) => (.error f, s1)
  | (.ok ea, s1) =>
    match if vUsesB op.func op.sub then vecElem c a vb idx s1 else (.ok ⟨0, 127, false⟩, s1) with
    | (.error f, s2) => (.error f, s2)
    | (.ok eb, s2) =>
      match if vUsesC op.func op.sub then vecElem c a vc idx s2 else (.ok ⟨0, 127, false⟩, s2) with
      | (.error f, s3) => (.error f, s3)
      | (.ok ec, s3) =>
        (.ok ⟨widen va.d.f ea, widen vb.d.f eb, widen vc.d.f ec, toSigned 32 ea.code, toSigned 32 eb.code,
          va.d.outside idx || (vUsesB op.func op.sub && vb.d.outside idx) || (vUsesC op.func op.sub && vc.d.outside idx)⟩, s3)

/-- Formats of the sources an operation uses. -/
def usedFmts (op : VecOp) (va vb vc : View) : List Nat :=
  [va.d.fmt] ++ (if vUsesB op.func op.sub then [vb.d.fmt] else []) ++ (if vUsesC op.func op.sub then [vc.d.fmt] else [])

/-- Checks that relate the operands of an element-wise operation: ranks (R233), SR formats (R236), derivative forms (R237). -/
def vecRelOk (op : VecOp) (va vb vc vd : View) : Bool :=
  va.d.rank == vd.d.rank && (!vUsesB op.func op.sub || vb.d.rank == vd.d.rank) &&
    (!vUsesC op.func op.sub || vc.d.rank == vd.d.rank) &&
    (!op.sr || vd.d.fmt == 0 || vd.d.fmt == 1 || vd.d.fmt == 6) &&
    (op.func != 3 || (decide (op.sub ≤ 6) && (op.sub != 1 || op.k0.pos)))

/-- Elements per cycle of an operation (R239). -/
def vecRate (op : VecOp) (fs : List Nat) (dst : Nat) : Nat :=
  if op.func = 0 ∧ bf16Path op.sub fs dst then 512
  else if op.func = 1 ∨ ((op.func = 2 ∨ op.func = 3 ∨ op.func = 4) ∧ 2 ≤ op.sub) then 128 else 256

/-- Cycles in which the unit wrote (VEC_BUSY, R239). [DESIGN CHOICE 17] -/
def countVec (a n rate : Nat) (s : State) : State :=
  match physOf s a with
  | some p => s.count p Reg.VEC_BUSY (ceilDiv n rate)
  | none => s

/-- Check the operands in the order of the encoding table: a, b, the destination, c (R224, R232). -/
def vecChecks (c : Ctx) (a : Nat) (op : VecOp) (s : State) : MRes (View × View × View × View) :=
  let empty := decide ((Desc.ofWord op.dst).count = 0)
  let none_ : View := ⟨Desc.ofWord 0, 0, 0, 0⟩
  match vecCheck c a op.ra .r empty s with
  | (.error f, s1) => (.error f, s1)
  | (.ok va, s1) =>
    match if vUsesB op.func op.sub then vecCheck c a op.rb .r empty s1 else (.ok none_, s1) with
    | (.error f, s2) => (.error f, s2)
    | (.ok vb, s2) =>
      match vecCheck c a op.dst .w empty s2 with
      | (.error f, s3) => (.error f, s3)
      | (.ok vd, s3) =>
        match if vUsesC op.func op.sub then vecCheck c a op.rc .r empty s3 else (.ok none_, s3) with
        | (.error f, s4) => (.error f, s4)
        | (.ok vc, s4) => (.ok (va, vb, vc, vd), s4)

/-- One element of an element-wise operation (R233). -/
def vecOne (c : Ctx) (a : Nat) (op : VecOp) (va vb vc vd : View) (l : Nat) (s : State) : MRes VElem :=
  let idx := idxOf vd.d.dims l
  match readOps c a op va vb vc idx s with
  | (.error f, t1) => (.error f, t1)
  | (.ok o, t1) =>
    (.ok ⟨l, idx.map Int.toNat, vResult op.func op.sub (usedFmts op va vb vc) vd.d.fmt op.k0 op.k1 o, o.pad⟩, t1)

/-- The results of an operation in linear order, written; a failure leaves any subset of its writes (R214, R224). Every source is read before
any write, so an overlapping source gives its old values (R204, R236). [DESIGN CHOICE 183] -/
def vecThrough (c : Ctx) (a : Nat) (v : View) (sr : Bool) (count : List VElem → State → State) (f : Nat → State → MRes VElem) (n : Nat)
    (s : State) : MRes Unit :=
  match mapM f (List.range n) s with
  | (.error e, s1) => (.error e, vLand c a v sr (readable f (List.range n) s) s s1)
  | (.ok es, s1) => vStore c a v sr es (count es s1)

/-- An element-wise operation. -/
def vecMap (c : Ctx) (a : Nat) (op : VecOp) (s : State) : MRes Unit :=
  match vecChecks c a op s with
  | (.error f, s1) => (.error f, s1)
  | (.ok (va, vb, vc, vd), s1) =>
    if !vecRelOk op va vb vc vd then (.error (descFail .descriptorInvalid vd.d.base), s1)
    else if vd.d.count = 0 then (.ok (), s1)
    else
      vecThrough c a vd op.sr (fun es u => countVec a es.length (vecRate op (usedFmts op va vb vc) vd.d.fmt) u)
        (vecOne c a op va vb vc vd) vd.d.count s1

/-- One step of a reduction, rounded to FP32 (R235). -/
def redStep (sub : Nat) (x y : Fp) : Fp :=
  match sub with
  | 1 => Fp.max x y
  | 2 => Fp.min x y
  | _ => add32 x y

/-- The identity of a reduction (R235). -/
def redIdentity (sub : Nat) : Fp :=
  match sub with
  | 1 => .inf true
  | 2 => .inf false
  | _ => Fp.zero

/-- The partial of one lane: its elements in ascending order, the identity where it has none (R235). -/
def lanePartial (sub : Nat) (xs : List Fp) (lane : Nat) : Fp :=
  let mine := (List.range ((xs.length + 255 - lane) / 256)).filterMap (fun i => xs[lane + 256 * i]?)
  match mine with
  | [] => redIdentity sub
  | x :: r => r.foldl (redStep sub) x

/-- One level of the tree: partial 2i is combined with partial 2i + 1 (R235). -/
def treeLevel (sub : Nat) : List Fp → List Fp
  | x :: y :: r => redStep sub x y :: treeLevel sub r
  | l => l

/-- The reduction of a row of FP32 values in the fixed order of R235. -/
def treeReduce (sub : Nat) (xs0 : List Fp) : Fp :=
  let xs := if sub = 3 then xs0.map (fun x => mul32 x x) else xs0
  let ps := (List.range 256).map (lanePartial sub xs)
  ((List.range 8).foldl (fun l _ => treeLevel sub l) ps).headD Fp.zero

/-- NaN and infinite elements of a row (R232). -/
def countNonFinite (xs : List Fp) : Nat := (xs.filter (fun x => !x.isFin)).length

/-- Read dimension 0 of a source at the other indices of a vector. -/
def readRow (c : Ctx) (a : Nat) (v : View) (n : Nat) (rest : List Int) (s : State) : MRes (List Fp) :=
  mapM (fun i t =>
    match vecElem c a v ((i : Int) :: rest) t with
    | (.ok e, t1) => (.ok (widen v.d.f e), t1)
    | (.error f, t1) => (.error f, t1)) (List.range n) s

/-- One element of a vec.red. -/
def redElem (c : Ctx) (a : Nat) (op : VecOp) (va vd : View) (l : Nat) (s : State) : MRes VElem :=
  let idx := idxOf vd.d.dims l
  match readRow c a va (va.d.dim 0) (idx.drop 1) s with
  | (.error f, s1) => (.error f, s1)
  | (.ok xs, s1) =>
    let r := if op.sub = 4 then Fp.ofInt (countNonFinite xs) else treeReduce op.sub xs
    (.ok ⟨l, idx.map Int.toNat, r, va.d.outside (0 :: idx.drop 1)⟩, s1)

/-- vec.red (R235). -/
def vecRed (c : Ctx) (a : Nat) (op : VecOp) (s : State) : MRes Unit :=
  match vecChecks c a op s with
  | (.error f, s1) => (.error f, s1)
  | (.ok (va, _, _, vd), s1) =>
    if vd.d.dim 0 ≠ 1 ∨ (op.sub = 4 ∧ vd.d.fmt ≠ 8) ∨ (op.sr ∧ ¬(vd.d.fmt = 0 ∨ vd.d.fmt = 1 ∨ vd.d.fmt = 6)) then
      (.error (descFail .descriptorInvalid vd.d.base), s1)
    else if vd.d.count = 0 then (.ok (), s1)
    else
      vecThrough c a vd op.sr (fun es u => countVec a (es.length * va.d.dim 0) 256 u) (redElem c a op va vd) vd.d.count s1

/-- The fields of a vec instruction, its registers read (R166, R232). -/
def vecOpOf (x : Thread) (w ext : Nat) : VecOp :=
  let imm := iImm w
  { func := iFunc w, sub := vSub w, sr := bit imm 16, ra := x.dreg (iRa w % 16), rb := x.dreg (iRb w % 16),
    rc := x.dreg (bits imm 7 4), dst := x.dreg (bits imm 3 0), k0 := f32 ext, k1 := f32 (ext / 2 ^ 32) }

/-- End an operation: its token may complete, or it failed. -/
def finish (a t q : Nat) (r : MRes Unit) : State :=
  match r with
  | (.ok _, s) => opOk a t q s
  | (.error f, s) => opDone a t q f s

/-- A vec operation holds its accumulator elements until its token completes (R225). -/
def vecWrote (a t q : Nat) (op : VecOp) (r : MRes Unit) : MRes Unit :=
  if (Desc.ofWord op.dst).layout = 4 then wroteAcc (thrCtx r.2 a t) a t q op.dst r else r

/-- Issue of a vec instruction: a full queue of 64 makes the thread wait (R224); the operation runs in issue order. [DEDUCED 37] -/
def vecIssue (func : Nat) (a : Fin 96) (t : Fin 64) (s : State) : State :=
  issue 0xB func (fun w ext u =>
    let op := vecOpOf (u.th a.val t.val) w ext
    if unitBusy u a.val 6 ≥ 64 then waitFor a.val t.val (.slot 6) u
    else
      issueAsync a.val t.val 6 w (fun q v =>
        finish a.val t.val q (vecWrote a.val t.val q op (if func = 5 then vecRed (thrCtx v a.val t.val) a.val op v
          else vecMap (thrCtx v a.val t.val) a.val op v))) u) a.val t.val s

/-- vec.alu (R232, R233). -/
def execVecAlu (a : Fin 96) (t : Fin 64) (s : State) : Host.Outcome State Fault Refusal := .next (vecIssue 0x0 a t s)
/-- vec.math (R232). -/
def execVecMath (a : Fin 96) (t : Fin 64) (s : State) : Host.Outcome State Fault Refusal := .next (vecIssue 0x1 a t s)
/-- vec.act (R237). -/
def execVecAct (a : Fin 96) (t : Fin 64) (s : State) : Host.Outcome State Fault Refusal := .next (vecIssue 0x2 a t s)
/-- vec.dact.out (R237). -/
def execVecDactOut (a : Fin 96) (t : Fin 64) (s : State) : Host.Outcome State Fault Refusal := .next (vecIssue 0x3 a t s)
/-- vec.dact.in (R237). -/
def execVecDactIn (a : Fin 96) (t : Fin 64) (s : State) : Host.Outcome State Fault Refusal := .next (vecIssue 0x4 a t s)
/-- vec.red (R235). -/
def execVecRed (a : Fin 96) (t : Fin 64) (s : State) : Host.Outcome State Fault Refusal := .next (vecIssue 0x5 a t s)

end Sys2Proof.Machine
end

