-- ==== Sys2Proof/Machine/Row.lean ====
section
/-! DEFINITION. Machine/Row.lean: the row engine: normalisation, softmax and their gradients (R241), top-k (R242), and the statistics
memory with its tags and spill region (R243 to R247). -/

namespace Sys2Proof.Machine

/-- Statistics memory of a logical array. -/
def State.rs (s : State) (a : Nat) : RowStat := SMap.getD s.rowst a RowStat.empty

/-- Store the statistics memory of a logical array. -/
def State.setRs (s : State) (a : Nat) (r : RowStat) : State := { s with rowst := SMap.set RowStat.empty s.rowst a r }

/-- Rows of an operand: dimensions 1 to 5 (R241). -/
def rowCount (d : Desc) : Nat := (d.dims.drop 1).foldl (· * ·) 1

/-- A row length as a value. -/
def lenFp (n : Nat) : Fp := .fin false n 0

/-- Correctly rounded quotient. -/
def div32 (a b : Fp) : Fp := rnd32 (Fp.div a b)

/-- Reciprocal correctly rounded (R57). -/
def rcp32 (x : Fp) : Fp := rnd32 x.rcp

/-- A sum by R235. -/
def sum32 (xs : List Fp) : Fp := treeReduce 0 xs

/-- row.norm of one row: results and statistics (R241). -/
def normRow (rms : Bool) (eps : Fp) (xs : List Fp) : List Fp × Fp × Fp :=
  let n := lenFp xs.length
  let mu := if rms then Fp.zero else div32 (sum32 xs) n
  let ds := xs.map (fun x => sub32 x mu)
  let v := div32 (sum32 (ds.map (fun d => mul32 d d))) n
  let r := rnd32 (add32 v eps).rsqrt
  (ds.map (fun d => mul32 d r), mu, r)

/-- row.dnorm of one row (R241). -/
def dnormRow (rms : Bool) (r : Fp) (gs hs : List Fp) : List Fp :=
  let n := lenFp gs.length
  let a := if rms then Fp.zero else div32 (sum32 gs) n
  let b := div32 (sum32 (List.zipWith mul32 gs hs)) n
  List.zipWith (fun g h => mul32 r (fma32 h.neg b (sub32 g a))) gs hs

/-- Is a value -∞. -/
def isNegInf (x : Fp) : Bool := x == .inf true

/-- row.softmax of one row: results and statistics; a row of -∞ alone gives zeros (R241). -/
def softmaxRow (xs : List Fp) : List Fp × Fp × Fp :=
  if xs.all isNegInf then (xs.map (fun _ => Fp.zero), .inf true, Fp.zero)
  else
    let m := treeReduce 1 xs
    let es := xs.map (fun x => fn 4 (sub32 x m))
    let t := sum32 es
    (es.map (fun e => mul32 e (rcp32 t)), m, t)

/-- The y that row.dsoftmax recomputes from saved x and statistics (R241). -/
def resoftRow (m t : Fp) (xs : List Fp) : List Fp := xs.map (fun x => mul32 (fn 4 (sub32 x m)) (rcp32 t))

/-- row.dsoftmax of one row from y (R241). -/
def dsoftmaxRow (m t : Fp) (gs ys : List Fp) : List Fp :=
  if isNegInf m ∧ t.isZero then gs.map (fun _ => Fp.zero)
  else
    let c := sum32 (List.zipWith mul32 gs ys)
    List.zipWith (fun g y => mul32 y (sub32 g c)) gs ys

/-- Does element i come before element j in the order of R242. -/
def topBefore (x y : Nat × Fp) : Bool :=
  if x.2.isNan then !y.2.isNan || decide (x.1 < y.1)
  else if y.2.isNan then false
  else if Fp.lt y.2 x.2 then true
  else if Fp.lt x.2 y.2 then false
  else decide (x.1 < y.1)

/-- Insert in the order of R242. -/
def topInsert (x : Nat × Fp) : List (Nat × Fp) → List (Nat × Fp)
  | [] => [x]
  | y :: r => if topBefore x y then x :: y :: r else y :: topInsert x r

/-- The K largest elements with their indices (R242). -/
def topk (k : Nat) (xs : List Fp) : List (Nat × Fp) :=
  (((List.range xs.length).zip xs).foldl (fun l x => topInsert x l) []).take k

/-- Gate weights over the selected elements (R242). -/
def gateWeights (sel : List (Nat × Fp)) : List Fp :=
  match sel with
  | [] => []
  | v0 :: _ =>
    let es := sel.map (fun v => fn 4 (sub32 v.2 v0.2))
    let t := sum32 es
    es.map (fun e => mul32 e (rcp32 t))

/-- Where the statistics of a row lie (R243, R245, R247). -/
inductive StatLoc where
  | side (a slot : Nat)
  | spill (va : Nat)
  | desc (v : View)
deriving DecidableEq, Repr

/-- Does the spill region reach class A HBM at an address (R245). -/
def spillPa (c : Ctx) (va : Nat) (need : Perm) (s : State) : MRes Nat :=
  if va + 8 > 2 ^ 48 then (.error (descFail .translationFault va), s)
  else
    match translate { c with va := va } va need s with
    | (.error f, s1) => (.error { f with va := va }, s1)
    | (.ok pa, s1) =>
      if regionOf pa = .hbm ∧ isClassA s1 pa then (.ok pa, s1) else (.error (descFail .descriptorInvalid va), s1)

/-- Read the statistics of a row. -/
def readStat (c : Ctx) (a : Nat) (l : StatLoc) (row : Nat) (s : State) : MRes (Fp × Fp) :=
  let both := fun (d : List Byte) => (f32 (leAt d 0 4), f32 (leAt d 4 4))
  match l with
  | .side p slot =>
    match physRead c (windowOf p + 0x1C00000 + 8 * (slot + row)) 8 s with
    | (.ok d, s1) => (.ok (both d), s1)
    | (.error f, s1) => (.error f, s1)
  | .spill va =>
    match spillPa c (va + 8 * row) .r s with
    | (.error f, s1) => (.error f, s1)
    | (.ok pa, s1) =>
      match physRead { c with va := va + 8 * row } pa 8 s1 with
      | (.ok d, s2) => (.ok (both d), s2)
      | (.error f, s2) => (.error f, s2)
  | .desc v =>
    match vecElem c a v [0, (row : Int), 0, 0, 0, 0] s with
    | (.error f, s1) => (.error f, s1)
    | (.ok e0, s1) =>
      match vecElem c a v [1, (row : Int), 0, 0, 0, 0] s1 with
      | (.error f, s2) => (.error f, s2)
      | (.ok e1, s2) => (.ok (f32 e0.code, f32 e1.code), s2)

/-- Write the statistics of a row. -/
def writeStat (c : Ctx) (a : Nat) (l : StatLoc) (row : Nat) (m r : Fp) (s : State) : MRes Unit :=
  let d := leBytes 4 (c32 m) ++ leBytes 4 (c32 r)
  match l with
  | .side p slot => physWrite c (windowOf p + 0x1C00000 + 8 * (slot + row)) d none s
  | .spill va =>
    match spillPa c (va + 8 * row) .w s with
    | (.error f, s1) => (.error f, s1)
    | (.ok pa, s1) => physWrite { c with va := va + 8 * row } pa d none s1
  | .desc v =>
    vecWrite c a v [⟨0, [0, row, 0, 0, 0, 0], c32 m, false, none⟩, ⟨1, [1, row, 0, 0, 0, 0], c32 r, false, none⟩]
      (fun _ => 127) s

/-- The decoded fields of a row instruction of FUNC 0x0 to 0x4 with its descriptors (R240). -/
structure RowOp where
  func : Nat
  ra   : BitVec 512
  rb   : BitVec 512
  aux  : BitVec 512
  stat : BitVec 512
  sx   : Bool
  vari : Bool
  tag  : Nat
  row0 : Nat
  eps  : Fp
  k    : Nat
  gate : Bool
deriving DecidableEq, Repr

/-- The fields of a row instruction, its registers read (R166, R240). -/
def rowOpOf (x : Thread) (w ext : Nat) : RowOp :=
  let imm := iImm w
  { func := iFunc w, ra := x.dreg (iRa w % 16), rb := x.dreg (iRb w % 16), aux := x.dreg (bits imm 3 0),
    stat := x.dreg (bits imm 7 4), sx := bit imm 8, vari := bit imm 9, tag := bits imm 17 10, row0 := bits ext 55 32,
    eps := f32 (bits ext 31 0), k := bits imm 15 8, gate := bit imm 16 }

/-- The statistics of an operation: the tag's slots or STAT; none where R247 refuses it. -/
def statLoc (c : Ctx) (a : Nat) (op : RowOp) (rows : Nat) (need : Perm) (s : State) : MRes StatLoc :=
  if op.sx then
    match vecCheck c a op.stat need false s with
    | (.error f, s1) => (.error f, s1)
    | (.ok v, s1) =>
      if v.d.layout = 0 ∧ v.d.fmt = 7 ∧ v.d.rank = 2 ∧ v.d.dim 0 = 2 ∧ op.row0 + rows ≤ v.d.dim 1 then (.ok (.desc v), s1)
      else (.error (descFail .descriptorInvalid v.d.base), s1)
  else
    match SMap.get? (s.rs a).tags op.tag, physOf s a with
    | some g, some p =>
      if op.row0 + rows > g.rows then (.error (mkFail .descriptorInvalid 0), s)
      else if g.spill then
        match (s.rs a).region with
        | some (va, _) => (.ok (.spill (va + 8 * g.first)), s)
        | none => (.error (mkFail .descriptorInvalid 0), s)
      else (.ok (.side p g.first), s)
    | _, _ => (.error (mkFail .descriptorInvalid 0), s)

/-- Do two operands have one rank and one set of sizes, dimension 0 compared to a length (R241). -/
def sameShape (d e : Desc) (n0 : Nat) : Bool := d.rank == e.rank && e.dim 0 == n0 && d.dims.drop 1 == e.dims.drop 1

/-- Are the row length and the number of rows in the range of R241. -/
def rowShapeOk (d : Desc) : Bool := decide (1 ≤ d.dim 0) && decide (d.dim 0 ≤ 65536) && decide (rowCount d ≤ 2 ^ 24)

/-- The index vector of an element of a row. -/
def rowIdx (d : Desc) (i row : Nat) : List Int := (i : Int) :: idxOf (d.dims.drop 1) row

/-- Read one row. -/
def rowOf (c : Ctx) (a : Nat) (v : View) (row : Nat) (s : State) : MRes (List Fp) :=
  readRow c a v (v.d.dim 0) (idxOf (v.d.dims.drop 1) row) s

/-- The results of one row as elements of a destination. -/
def rowElems (d : Desc) (row : Nat) (ys : List Fp) : List VElem :=
  ((List.range ys.length).zip ys).map (fun p =>
    ⟨p.1 + d.dim 0 * row, (rowIdx d p.1 row).map Int.toNat, p.2, false⟩)

/-- Times a row is read (R248). -/
def rowPasses (op : RowOp) (n : Nat) : Nat :=
  if n ≤ 8192 then 1
  else match op.func with
    | 0 | 2 => 3
    | 1 => 2
    | 3 => if op.vari then 3 else 2
    | _ => 1

/-- Cycles in which the row engine read (ROW_BUSY). [DESIGN CHOICE 17] -/
def countRow (a : Nat) (op : RowOp) (d : Desc) (s : State) : State :=
  match physOf s a with
  | some p => s.count p Reg.ROW_BUSY (rowCount d * rowPasses op (d.dim 0) * ceilDiv (d.dim 0) 256)
  | none => s

/-- One row of FUNC 0x0 to 0x3: reads, the function of R241, and the statistics of the forward operations. -/
def rowStep (c : Ctx) (a : Nat) (op : RowOp) (va vx : View) (l : StatLoc) (row : Nat) (s : State) : MRes (List Fp) :=
  match rowOf c a va row s with
  | (.error f, s1) => (.error f, s1)
  | (.ok xs, s1) =>
    if op.func = 0 ∨ op.func = 2 then
      let (ys, m, r) := if op.func = 0 then normRow op.vari op.eps xs else softmaxRow xs
      match writeStat c a l (op.row0 + row) m r s1 with
      | (.error f, s2) => (.error f, s2)
      | (.ok _, s2) => (.ok ys, s2)
    else
      match rowOf c a vx row s1 with
      | (.error f, s2) => (.error f, s2)
      | (.ok hs, s2) =>
        match readStat c a l (op.row0 + row) s2 with
        | (.error f, s3) => (.error f, s3)
        | (.ok (m, r), s3) =>
          if op.func = 1 then (.ok (dnormRow op.vari r xs hs), s3)
          else (.ok (dsoftmaxRow m r xs (if op.vari then resoftRow m r hs else hs)), s3)

/-- row.norm, row.dnorm, row.softmax and row.dsoftmax (R240, R241, R247). [DESIGN CHOICE 39] -/
def rowRun (c : Ctx) (a : Nat) (op : RowOp) (s : State) : MRes Unit :=
  let empty := decide ((Desc.ofWord op.ra).count = 0)
  let back := op.func = 1 ∨ op.func = 3
  match vecCheck c a op.ra .r empty s with
  | (.error f, s1) => (.error f, s1)
  | (.ok va, s1) =>
    if empty then (.ok (), s1)
    else
      match vecCheck c a op.rb .w false s1 with
      | (.error f, s2) => (.error f, s2)
      | (.ok vb, s2) =>
        match if back then vecCheck c a op.aux .r false s2 else (.ok va, s2) with
        | (.error f, s3) => (.error f, s3)
        | (.ok vx, s3) =>
          if !rowShapeOk va.d || !sameShape va.d vb.d (va.d.dim 0) || !sameShape va.d vx.d (va.d.dim 0) then
            (.error (descFail .descriptorInvalid vb.d.base), s3)
          else
            match statLoc c a op (rowCount va.d) (if back then .r else .w) s3 with
            | (.error f, s4) => (.error f, s4)
            | (.ok l, s4) =>
              match mapM (rowStep c a op va vx l) (List.range (rowCount va.d)) s4 with
              | (.error f, s5) =>
                let one := fun row t => match rowStep c a op va vx l row t with
                  | (.ok ys, t1) => (.ok (rowElems vb.d row ys), t1)
                  | (.error e, t1) => (.error e, t1)
                (.error f, vLand c a vb false (readable one (List.range (rowCount va.d)) s4).flatten s4 s5)
              | (.ok rows, s5) =>
                let es := ((List.range rows.length).zip rows).flatMap (fun p => rowElems vb.d p.1 p.2)
                vStore c a vb false es (countRow a op va.d s5)

/-- One row of row.topk: values or weights, and indices (R242). -/
def topkRow (op : RowOp) (xs : List Fp) : List Fp × List Int :=
  let sel := topk op.k xs
  let vs := if op.gate then gateWeights sel else sel.map (·.2)
  let pad := op.k - sel.length
  (vs ++ List.replicate pad Fp.zero, sel.map (fun p => (p.1 : Int)) ++ List.replicate pad (-1))

/-- row.topk (R242). [DESIGN CHOICE 39] -/
def topkRun (c : Ctx) (a : Nat) (op : RowOp) (s : State) : MRes Unit :=
  let empty := decide ((Desc.ofWord op.ra).count = 0)
  match vecCheck c a op.ra .r empty s with
  | (.error f, s1) => (.error f, s1)
  | (.ok va, s1) =>
    if empty then (.ok (), s1)
    else
      match vecCheck c a op.rb .w false s1 with
      | (.error f, s2) => (.error f, s2)
      | (.ok vb, s2) =>
        match vecCheck c a op.aux .w false s2 with
        | (.error f, s3) => (.error f, s3)
        | (.ok vi, s3) =>
          if op.k = 0 ∨ op.k > 64 ∨ vi.d.fmt ≠ 8 ∨ !rowShapeOk va.d ∨ !sameShape va.d vb.d op.k ∨ !sameShape va.d vi.d op.k then
            (.error (descFail .descriptorInvalid vb.d.base), s3)
          else
            match mapM (rowOf c a va) (List.range (rowCount va.d)) s3 with
            | (.error f, s4) =>
              let one := fun row t => match rowOf c a va row t with
                | (.ok xs, t1) => (.ok (row, topkRow op xs), t1)
                | (.error e, t1) => (.error e, t1)
              let rs := readable one (List.range (rowCount va.d)) s3
              let s5 := vLand c a vb false (rs.flatMap (fun p => rowElems vb.d p.1 p.2.1)) s3 s4
              (.error f, vLand c a vi false (rs.flatMap (fun p => rowElems vi.d p.1 (p.2.2.map Fp.ofInt))) s5 s5)
            | (.ok rows, s4) =>
              let rs := (List.range rows.length).zip (rows.map (topkRow op))
              match vStore c a vb false (rs.flatMap (fun p => rowElems vb.d p.1 p.2.1)) (countRow a op va.d s4) with
              | (.error f, s5) => (.error f, s5)
              | (.ok _, s5) => vStore c a vi false (rs.flatMap (fun p => rowElems vi.d p.1 (p.2.2.map Fp.ofInt))) s5

/-- row.tag (R244). -/
def tagRun (a tag : Nat) (v : W64) (s : State) : MRes Unit :=
  let r := v.toNat
  let t := s.rs a
  let bad : MRes Unit := (.error (mkFail .descriptorInvalid 0), s)
  if r = 0 ∨ r ≥ 2 ^ 25 then bad
  else
    match SMap.get? t.tags tag with
    | some g => if g.rows = r then (.ok (), s) else bad
    | none =>
      if t.side + r ≤ 262144 then
        (.ok (), s.setRs a { t with tags := SMap.put t.tags tag ⟨r, t.side, false⟩, side := t.side + r })
      else
        match t.region with
        | some (_, size) =>
          if 8 * (t.spill + r) ≤ size then
            (.ok (), s.setRs a { t with tags := SMap.put t.tags tag ⟨r, t.spill, true⟩, spill := t.spill + r })
          else bad
        | none => bad

/-- row.spill (R245). -/
def spillRun (a : Nat) (va size : W64) (s : State) : MRes Unit :=
  let t := s.rs a
  if va.toNat % 0x200000 ≠ 0 then (.error (descFail .alignment va.toNat), s)
  else if size.toNat % 0x200000 ≠ 0 ∨ t.tags.any (fun e => e.2.spill) then (.error (descFail .descriptorInvalid va.toNat), s)
  else (.ok (), s.setRs a { t with region := if size = 0 then none else some (va.toNat, size.toNat), spill := 0 })

/-- row.treset: every earlier operation has run, as operations run in issue order (R246). -/
def tresetRun (a : Nat) (s : State) : MRes Unit :=
  (.ok (), s.setRs a { s.rs a with tags := [], side := 0, spill := 0 })

/-- Issue of a row instruction: a full queue of 64 makes the thread wait (R224). [DEDUCED 37] -/
def rowIssue (func : Nat) (run : Thread → Ctx → Nat → Nat → State → MRes Unit) (a : Fin 96) (t : Fin 64) (s : State) : State :=
  issue 0xC func (fun w ext u =>
    let x := u.th a.val t.val
    if unitBusy u a.val 7 ≥ 64 then waitFor a.val t.val (.slot 7) u
    else issueAsync a.val t.val 7 w (fun q v => finish a.val t.val q (run x (thrCtx v a.val t.val) w ext v)) u)
    a.val t.val s

/-- FUNC 0x0 to 0x3. -/
def rowMath (func : Nat) (a : Fin 96) (t : Fin 64) (s : State) : State :=
  rowIssue func (fun x c w ext u => rowRun c a.val (rowOpOf x w ext) u) a t s

/-- row.norm (R241). -/
def execRowNorm (a : Fin 96) (t : Fin 64) (s : State) : Host.Outcome State Fault Refusal := .next (rowMath 0x0 a t s)
/-- row.dnorm (R241). -/
def execRowDnorm (a : Fin 96) (t : Fin 64) (s : State) : Host.Outcome State Fault Refusal := .next (rowMath 0x1 a t s)
/-- row.softmax (R241). -/
def execRowSoftmax (a : Fin 96) (t : Fin 64) (s : State) : Host.Outcome State Fault Refusal := .next (rowMath 0x2 a t s)
/-- row.dsoftmax (R241). -/
def execRowDsoftmax (a : Fin 96) (t : Fin 64) (s : State) : Host.Outcome State Fault Refusal := .next (rowMath 0x3 a t s)
/-- row.topk (R242). -/
def execRowTopk (a : Fin 96) (t : Fin 64) (s : State) : Host.Outcome State Fault Refusal :=
  .next (rowIssue 0x4 (fun x c w ext u => topkRun c a.val (rowOpOf x w ext) u) a t s)
/-- row.tag (R244). -/
def execRowTag (a : Fin 96) (t : Fin 64) (s : State) : Host.Outcome State Fault Refusal :=
  .next (rowIssue 0x5 (fun x _ w _ u => tagRun a.val (iImm w % 256) (x.sreg (iRa w)) u) a t s)
/-- row.treset (R246). -/
def execRowTreset (a : Fin 96) (t : Fin 64) (s : State) : Host.Outcome State Fault Refusal :=
  .next (rowIssue 0x6 (fun _ _ _ _ u => tresetRun a.val u) a t s)
/-- row.spill (R245). -/
def execRowSpill (a : Fin 96) (t : Fin 64) (s : State) : Host.Outcome State Fault Refusal :=
  .next (rowIssue 0x7 (fun x _ w _ u => spillRun a.val (x.sreg (iRa w)) (x.sreg (iRb w)) u) a t s)

end Sys2Proof.Machine
end

