-- ==== Sys2Proof/Machine/Pool.lean ====
section
/-! DEFINITION. Machine/Pool.lean: one cycle of a Pool bank: arbitration, merging, atomics, semaphores and vector reductions
(R88 to R91, R174). -/

namespace Sys2Proof.Machine

/-- The sum of R89: one rounding for floating point, clamped for INT32. -/
def poolAdd (f : Fmt) (old v : Nat) : Nat :=
  if f = .i32 then ofSigned 32 (clamp32 (toSigned 32 old + toSigned 32 v)) else enc f ((decode f old).add (decode f v))

/-- max of R89. -/
def poolMax (f : Fmt) (old v : Nat) : Nat :=
  if f = .i32 then ofSigned 32 (max (toSigned 32 old) (toSigned 32 v)) else enc f (Fp.max (decode f old) (decode f v))

/-- min of R89. -/
def poolMin (f : Fmt) (old v : Nat) : Nat :=
  if f = .i32 then ofSigned 32 (min (toSigned 32 old) (toSigned 32 v)) else enc f (Fp.min (decode f old) (decode f v))

/-- Split a list into runs of k bytes as numbers. -/
def elems (k : Nat) (d : List Byte) : List Nat := (List.range (d.length / k)).map (fun i => leAt d (k * i) k)

/-- An element-wise reduction of 256 bytes (R90). -/
def redElems (f : Fmt) (g : Nat → Nat → Nat) (old d : List Byte) : List Byte :=
  let k := fmtBits f / 8
  (List.zipWith g (elems k old) (elems k d)).flatMap (leBytes k)

/-- A pair of R90 as 8 bytes: head low, tail high. -/
def pairCode (old v : Nat) : Nat :=
  let r := pairAdd (f32 old) (f32 (old / 2 ^ 32)) (f32 v) (f32 (v / 2 ^ 32))
  c32 r.1 + 2 ^ 32 * c32 r.2

/-- What an operation writes given the old bytes; none writes nothing (R89, R90, R174). -/
def poolNew (op : PoolOp) (old : List Byte) : Option (List Byte) :=
  let o := leNat old
  match op with
  | .read _ => none
  | .write d => some d
  | .add f v => some (leBytes (fmtBits f / 8) (poolAdd f o v))
  | .max f v => some (leBytes (fmtBits f / 8) (poolMax f o v))
  | .min f v => some (leBytes (fmtBits f / 8) (poolMin f o v))
  | .swap w v => some (leBytes w v)
  | .cas c n => if o = c then some (leBytes 8 n) else none
  | .semP => if o = 0 then none else some (leBytes 4 (o - 1))
  | .semV => some (leBytes 4 (min 0xFFFFFFFF (o + 1)))
  | .redAdd f d => some (redElems f (poolAdd f) old d)
  | .redMax f d => some (redElems f (poolMax f) old d)
  | .redMin f d => some (redElems f (poolMin f) old d)
  | .redPair d => some (redElems64 old d)
where redElems64 (old d : List Byte) : List Byte := (List.zipWith pairCode (elems 8 old) (elems 8 d)).flatMap (leBytes 8)

/-- Is the operation an atomic or semaphore operation. -/
def isAtomic : PoolOp → Bool
  | .add _ _ | .max _ _ | .min _ _ | .swap _ _ | .cas _ _ | .semP | .semV => true
  | _ => false

/-- Is the operation a vector reduction. -/
def isRed : PoolOp → Bool
  | .redAdd _ _ | .redMax _ _ | .redMin _ _ | .redPair _ => true
  | _ => false

/-- Array and thread number of the requester number of a thread (R150). -/
def ridThread (rid : Nat) : Nat × Nat := ((rid - 0x1000) / 64, (rid - 0x1000) % 64)

/-- Does the thread of a requester number wait for the result of an atomic or semaphore operation. -/
def awaitsPool (rid : Nat) (s : State) : Bool :=
  let x := s.th (ridThread rid).1 (ridThread rid).2
  decide (0x1000 ≤ rid) && decide (rid < 0x2800) && x.st == .wait && (match x.wait with
    | .atom _ | .semP _ => true
    | _ => false)

/-- Who accesses at a bank: a thread with its work item, or a unit. -/
def bankCtx (q : PoolReq) (s : State) : Ctx :=
  if 0x1000 ≤ q.rid ∧ q.rid < 0x2800 then { thrCtx s (ridThread q.rid).1 (ridThread q.rid).2 with va := q.va }
  else { rid := q.rid, va := q.va }

/-- The requester gets its result: a token for red, the waiting thread for an atomic, a reply for any other access. -/
def poolReply (q : PoolReq) (f : Fail) (old : List Byte) (s : State) : State :=
  if isRed q.op ∧ q.tok ≠ 0 then opDone (ridThread q.rid).1 (ridThread q.rid).2 (q.tok - 1) f s
  else if isAtomic q.op ∧ awaitsPool q.rid s then { s with poolDone := SMap.put s.poolDone q.rid (f, leNat old) }
  else s.emit (.memReply q.rid f.st (if f.st = .ok then old else []))

/-- Serve one request: a sem.p that finds 0 stays, parked (R174); an uncorrected word fails the request (R88). -/
def poolServe (q : PoolReq) (s : State) : State :=
  let c := bankCtx q s
  let n := poolWidth q.op
  match servedRead c q.pa (if isAtomic q.op ∨ isRed q.op ∨ q.op = .read n then n else 0) s with
  | (.error f, s1) => poolReply q f [] s1
  | (.ok old, s1) =>
    if q.op = .semP ∧ leNat old = 0 then
      let b := poolBank q.pa
      { s1 with pool := SMap.put s1.pool b (SMap.getD s1.pool b [] ++ [{ q with parked := true }]) }
    else
      match poolNew q.op old with
      | none => poolReply q { st := .ok } old s1
      | some d =>
        match servedWrite c q.pa d none s1 with
        | (.error f, s2) => poolReply q f [] s2
        | (.ok _, s2) => poolReply q { st := .ok } old s2

/-- Insert a request in ascending requester number. -/
def byRid (q : PoolReq) : List PoolReq → List PoolReq
  | [] => [q]
  | r :: l => if q.rid < r.rid then q :: r :: l else r :: byRid q l

/-- Does a waiting request take part in the winner's cycle (R91): atomics to one address and width, reductions to one target, and
plain writes to one address that arrived in one cycle; a parked sem.p is retried when its word is written. Reductions to one target join
whatever their operation and element width. [DESIGN CHOICE 166] -/
def joins (w q : PoolReq) : Bool :=
  (isAtomic w.op && isAtomic q.op && q.pa == w.pa && poolWidth q.op == poolWidth w.op) ||
  (isRed w.op && isRed q.op && q.pa == w.pa)

/-- The winner of the pointer, or the lowest requester of the plain writes to its address that arrived with it (R13, R91). -/
def fixWrites (w : PoolReq) (l : List PoolReq) : PoolReq :=
  let same := l.filter (fun q => match w.op, q.op with
    | .write _, .write _ => q.pa == w.pa && q.cyc == w.cyc
    | _, _ => false)
  match (same.map (·.rid)).min? with
  | some r => (same.find? (fun q => q.rid == r)).getD w
  | none => w

/-- One bank cycle: the winner, the requests applied with it, and those that wait on (R91). -/
def bankCycle (b : Nat) (s : State) : Option (PoolReq × List PoolReq × List PoolReq × State) :=
  let l := SMap.getD s.pool b []
  let cs := l.filter (fun q => !q.parked)
  match rrGrant (rrPool b) (cs.map (·.rid)) s with
  | none => none
  | some (r, s1) =>
    match cs.find? (fun q => q.rid == r) with
    | none => none
    | some w0 =>
      let w := fixWrites w0 cs
      let i := l.idxOf w
      let rest := l.eraseIdx i
      some (w, rest.filter (joins w), rest.filter (fun q => !joins w q), s1)

/-- A sem.p that was served in a cycle and found 0 waits again, whatever the cycle wrote after it (R174). -/
def repark (b : Nat) (served : List PoolReq) (s : State) : State :=
  { s with pool := SMap.put s.pool b ((SMap.getD s.pool b []).map (fun q =>
      if q.op = .semP ∧ served.any (fun r => r.rid = q.rid ∧ r.op = .semP ∧ r.pa = q.pa) then { q with parked := true } else q)) }

/-- Run the cycle: the winner and the requests that join it in ascending requester number; the others wait (R91). -/
def runCycle (b : Nat) (w : PoolReq) (js ws : List PoolReq) (s : State) : State :=
  let order := (w :: js).foldl (fun l q => byRid q l) []
  let s1 := { s with pool := SMap.put s.pool b ws, poolCyc := s.poolCyc + 1 }
  let s2 := s1.count b Reg.POOL_BANK_MERGED js.length
  let s3 := if ws.any (fun q => !q.parked) then s2.count b Reg.POOL_BANK_WAIT 1 else s2
  repark b order (order.foldl (fun t q => poolServe q t) s3)

/-- What an atomic, semaphore operation or reduction of a unit breaks: outside the Pool, or not aligned to its element (R89, R90). -/
def poolWrong (q : PoolReq) : Option Status :=
  if !(isAtomic q.op || isRed q.op) then none
  else if !inPool q.pa then some .protectionFault
  else if q.pa % poolWidth q.op ≠ 0 then some .alignment
  else none

/-- One request arrives at a bank: a wrong one fails with a fault record (R89), one for this bank is queued. -/
def arriveOne (b : Nat) (q : PoolReq) (s : State) : State :=
  match poolWrong q with
  | some st => poolReply { q with tok := 0 } { st := st, va := q.va } [] (unitFault q.rid q.va { st := st, va := q.va } s)
  | none =>
    if inPool q.pa ∧ poolBank q.pa = b ∧ q.pa % 512 + poolWidth q.op ≤ 512 ∧ poolWidth q.op ≠ 0 then
      poolPush { q with parked := false, tok := 0 } s
    else s

/-- Requests that arrive at a bank. -/
def poolArrive (b : Nat) (arrive : List PoolReq) (s : State) : State := arrive.foldl (fun t q => arriveOne b q t) s

/-- What the winner's word meets. [DEDUCED 41] -/
def poolEvent (ev : BitErr) (w : PoolReq) (s : State) : State := applyBitErr ev w.pa s

/-- One cycle of a bank whose winner satisfies a test; without one, only the arrivals are queued. -/
def bankStep (b : Nat) (arrive : List PoolReq) (ev : BitErr) (p : PoolOp → Bool) (s : State) : State :=
  let s1 := poolArrive b arrive s
  if !unitsOn s then s
  else match bankCycle b s1 with
  | none => s1
  | some (w, js, ws, s2) => if p w.op then runCycle b w js ws (poolEvent ev w s2) else s1

/-- POOL_ACCESS (R91). -/
def execPoolAccess (bank : Fin 64) (arrive : List PoolReq) (ev : BitErr) (s : State) : Host.Outcome State Fault Refusal :=
  .next (bankStep bank.val arrive ev (fun _ => true) s)

/-- POOL_ATOMIC (R89). -/
def execPoolAtomic (bank : Fin 64) (arrive : List PoolReq) (ev : BitErr) (s : State) : Host.Outcome State Fault Refusal :=
  .next (bankStep bank.val arrive ev isAtomic s)

/-- POOL_VECTOR_REDUCTION (R90). -/
def execPoolVectorReduction (bank : Fin 64) (arrive : List PoolReq) (ev : BitErr) (s : State) :
    Host.Outcome State Fault Refusal :=
  .next (bankStep bank.val arrive ev isRed s)

end Sys2Proof.Machine
end

