-- ==== Sys2Proof/Machine/Sync.lean ====
section
/-! DEFINITION. Machine/Sync.lean: token waits, fences, barriers and semaphores (R171, R173, R174). -/

namespace Sys2Proof.Machine

/-- sync.wait with the edge cases of R171. -/
def syncWait (a t w : Nat) (s : State) : State :=
  let x := s.th a t
  let v := (x.sreg (iRa w)).toNat % 2 ^ 32
  let ret := fun (c : Status) => advance a t w (s.setTh a t (x.setS (iRd w) (BitVec.ofNat 64 c.code)))
  match tokState x v with
  | .done st => ret st
  | .old => ret x.fail
  | .running => waitFor a t (.tok (iRd w) v) s
  | .future => progFault a t 0x06 s

/-- sync.wait (R171). -/
def execSyncWait (a : Fin 96) (t : Fin 64) (s : State) : Host.Outcome State Fault Refusal :=
  .next (issue 0x6 0x0 (fun w _ u => syncWait a.val t.val w u) a.val t.val s)

/-- Does sync.test read a token as completed (R171). -/
def tokTest (x : Thread) (v : Nat) : Bool :=
  match tokState x v with
  | .done _ | .old => true
  | _ => false

/-- sync.test (R171). -/
def execSyncTest (a : Fin 96) (t : Fin 64) (s : State) : Host.Outcome State Fault Refusal :=
  .next (issue 0x6 0x1 (fun w _ u =>
    let x := u.th a.val t.val
    let v := tokTest x ((x.sreg (iRa w)).toNat % 2 ^ 32)
    advance a.val t.val w (u.setTh a.val t.val { x with p := predWrite x.p (iRd w % 8) v })) a.val t.val s)

/-- sync.waitall (R171). -/
def execSyncWaitall (a : Fin 96) (t : Fin 64) (s : State) : Host.Outcome State Fault Refusal :=
  .next (issue 0x6 0x2 (fun w _ u =>
    let x := u.th a.val t.val
    if x.pending = 0 then
      advance a.val t.val w (u.setTh a.val t.val (x.setS (iRd w) (BitVec.ofNat 64 x.fail.code)))
    else waitFor a.val t.val (.all (iRd w)) u) a.val t.val s)

/-- Units selected by a fence mask; 0 selects all (R171). [DEDUCED 50] -/
def fenceMask (imm : Nat) : Nat := if imm % 4096 = 0 then 4095 else imm % 4096

/-- sync.fence: scalar stores and atomics have taken effect when the next instruction issues, so unit 11 never waits (R165, R171). -/
def execSyncFence (a : Fin 96) (t : Fin 64) (s : State) : Host.Outcome State Fault Refusal :=
  .next (issue 0x6 0x3 (fun w _ u =>
    let x := u.th a.val t.val
    let m := fenceMask (iImm w)
    if x.toks.all (fun k => k.fin.isSome || !m.testBit k.unit) then advance a.val t.val w u
    else waitFor a.val t.val (.fence m) u) a.val t.val s)

/-- Release every thread that has arrived at a barrier. -/
def releaseBar (a : Nat) (ts : List Nat) (s : State) : State :=
  ts.foldl (fun u j =>
    let x := u.th a j
    match x.wait with
    | .bar _ => if x.st = .wait then resume a j 0 0 u else u
    | _ => u) s

/-- Store or clear a barrier. -/
def setBar (k : Nat) (b : Option Barrier) (s : State) : State :=
  { s with bars := match b with
      | some v => SMap.put s.bars k v
      | none => SMap.del s.bars k }

/-- An arrival at a barrier (R173). -/
def barArrive (a t k n : Nat) (b : Barrier) (s : State) : State :=
  let arrived := b.arrived ++ [t]
  let s1 := waitFor a t (.bar k) s
  if arrived.length ≥ n then releaseBar a arrived (setBar (16 * a + k) none s1)
  else setBar (16 * a + k) (some { b with arrived := arrived }) s1

/-- sync.bar: an arrival with another count halts with cause 0x07 before the owner of the barrier is looked at (R173). [DESIGN CHOICE 167] -/
def syncBar (a t w : Nat) (s : State) : State :=
  let id := (s.th a t).item
  let k := iImm w % 16
  let n := bits (iImm w) 11 4
  if n = 0 ∨ n > 64 then progFault a t 0x07 s
  else
    match SMap.get? s.bars (16 * a + k) with
    | none => barArrive a t k n ⟨id, n, []⟩ s
    | some b =>
      if n ≠ b.count then progFault a t 0x07 s
      else if b.item ≠ id then progFault a t 0x08 s
      else barArrive a t k n b s

/-- sync.bar (R173). -/
def execSyncBar (a : Fin 96) (t : Fin 64) (s : State) : Host.Outcome State Fault Refusal :=
  .next (issue 0x6 0x4 (fun w _ u => syncBar a.val t.val w u) a.val t.val s)

/-- sync.sem.p (R174). -/
def execSyncSemP (a : Fin 96) (t : Fin 64) (s : State) : Host.Outcome State Fault Refusal :=
  .next (issue 0x6 0x5 (fun w _ u => poolIssue a.val t.val w 4 .semP (.semP (iRd w)) u) a.val t.val s)

/-- sync.sem.v (R174). -/
def execSyncSemV (a : Fin 96) (t : Fin 64) (s : State) : Host.Outcome State Fault Refusal :=
  .next (issue 0x6 0x6 (fun w _ u => poolIssue a.val t.val w 4 .semV (.semP (iRd w)) u) a.val t.val s)

/-- SEM_RETRY: the parked sem.p of a thread contends for its bank again (R174). -/
def execSemRetry (a : Fin 96) (t : Fin 64) (s : State) : Host.Outcome State Fault Refusal :=
  .next { s with pool := s.pool.map (fun e =>
    (e.1, e.2.map (fun q => if q.rid = thrReq a.val t.val ∧ q.op = .semP then { q with parked := false } else q))) }

end Sys2Proof.Machine
end

