-- ==== Sys2Proof/Machine/Sedge.lean ====
section
/-! DEFINITION. Machine/Sedge.lean: the mxm and mv instructions (R226 to R231), partitions and their owners (R113, R115), the order
and the checks in which grid and Rush path operations begin (R99 to R105, R126, R128), and tile loads (R98 to R101). -/

namespace Sys2Proof.Machine

/-- The number of the Rush path among the partitions of a command. -/
def rush : Nat := 16

/-- Partitions of a mode (R113). -/
def partCount (mode : Nat) : Nat := if mode = 0 then 1 else if mode = 1 then 4 else 16

/-- Output rows that one descriptor row of weights gives: f of R228; 1 on the Rush path (R231). -/
def partF (mode part : Nat) : Nat := if part = rush then 1 else if mode = 0 then 1 else if mode = 1 then 2 else 4

/-- Lanes of a tile: PM of R227; 4 on the Rush path. -/
def partPm (mode part : Nat) : Nat := if part = rush then 4 else 256 / partF mode part

/-- K-rows of a tile: TK of R227 and R231. -/
def tileTk (mode part tmode : Nat) : Nat :=
  (if tmode = 0 then 256 else if tmode = 3 then 1024 else 512) / partF mode part

/-- May a tile have a format in a TMODE (R227). -/
def tileFmtOk (tmode : Nat) (f : Nat) : Bool := if tmode % 2 = 1 then f == 4 || f == 5 else decide (f ≤ 5)

/-- Do weights pair with a tile of a TMODE and format (R107, R227, R229). -/
def weightsOk (tmode : Nat) (tile : Fmt) (dw : Desc) : Bool :=
  let t4 := fmtBits tile == 4
  pairOk tile dw.f && dw.sp24 == decide (2 ≤ tmode) && (if tmode % 2 = 1 then t4 && dw.four else !(t4 && dw.four))

/-- Elements and scale codes of a K-row, lane by lane, as they stand under their scales. -/
def rowTerms (f : Fmt) (pm : Nat) (x sc : List Nat) (k : Nat) : List Fp :=
  (List.range pm).map (fun m => decodeScaled f (x.getD (k * pm + m) 0) (sc.getD (k / 32 * pm + m) 127))

/-- A tile with its checksum column, formed while it loads: for each K-row the FP32 sums, in ascending lane order, of its elements and of their
magnitudes under their scales, and the exact sum of its unscaled integers (R101, R116). [DESIGN CHOICE 43] -/
def mkTile (tmode : Nat) (f : Fmt) (tk pm : Nat) (x sc : List Nat) : Tile :=
  let ks := List.range tk
  ⟨tmode, f, tk, pm, x, sc, ks.map (fun k => c32 ((rowTerms f pm x sc k).foldl add32 Fp.zero)),
    ks.map (fun k => c32 (((rowTerms f pm x sc k).map Fp.abs).foldl add32 Fp.zero)),
    ks.map (fun k => if fmtIsFloat f then 0 else ((List.range pm).map (fun m => decodeInt f (x.getD (k * pm + m) 0))).foldl (· + ·) 0)⟩

/-- A tile of +0 elements with scale code 127, whose checksum column is +0. [DESIGN CHOICE 43] -/
def plainTile (tmode : Nat) (f : Fmt) (tk pm : Nat) : Tile :=
  ⟨tmode, f, tk, pm, List.replicate (tk * pm) 0, List.replicate (tk / 32 * pm) 127, List.replicate tk 0, List.replicate tk 0, List.replicate tk 0⟩

/-- The tile of a buffer that has never been loaded: TMODE and a format that pair with the weights (R99, R229, R231). -/
def zeroTile (mode part : Nat) (dw : Desc) : Tile :=
  let tm := if dw.sp24 then (if dw.four then 3 else 2) else if dw.four then 1 else 0
  let f := if dw.four then dw.f else if fmtIsFloat dw.f then Fmt.e4m3 else Fmt.i8s
  plainTile tm f (tileTk mode part tm) (partPm mode part)

/-- A buffer whose load failed (R99). -/
def failedTile (mode part tmode : Nat) (f : Fmt) : Tile :=
  plainTile tmode f (tileTk mode part tmode) (partPm mode part)

/-- Key of a tile buffer. -/
def tileKey (part buf : Nat) : Nat := 2 * part + buf

/-- Partition mode that an operation issued now will find in force (R115). -/
def Grid.nextMode (g : Grid) : Nat :=
  match (g.ops.filter (fun o => o.kind = .part)).getLast? with
  | some o => o.mode
  | none => g.mode

/-- An operation at its issue. -/
def newOp (kind : GKind) (t seq item part : Nat) : GOp :=
  { kind := kind, thr := t, seq := seq, item := item, part := part, buf := 0, mode := 0, da := 0, dc := 0, accum := false,
    xint := false, kchunk := 0, row0 := 0, begun := false, tile := none, r0 := 0, l0 := 0, lanes := 0, total := 0,
    entered := 0, fetched := 0, raw := [], look := [], pend := [], keep := [], passed := 0, dmg := 0, fail := { st := .ok },
    recomp := false, inj := none }

/-- Append an operation; its thread takes an unowned partition that exists (R115). -/
def Grid.add (g : Grid) (o : GOp) : Grid :=
  let own := if o.kind = .part ∨ o.part = rush ∨ o.part ≥ partCount g.nextMode ∨ (SMap.get? g.own o.part).isSome then g.own
    else SMap.put g.own o.part o.thr
  { g with own := own, ops := g.ops ++ [o] }

/-- Replace the operation of a thread and sequence number. -/
def Grid.setOp (g : Grid) (o : GOp) : Grid :=
  { g with ops := g.ops.map (fun p => if p.thr = o.thr ∧ p.seq = o.seq then o else p) }

/-- Operations issued before another one. -/
def Grid.before (g : Grid) (o : GOp) : List GOp := g.ops.takeWhile (fun p => !(p.thr = o.thr ∧ p.seq = o.seq))

/-- Every weight row of a stream has entered. -/
def GOp.allIn (o : GOp) : Bool := o.begun && decide (o.total ≤ o.entered)

/-- Do the accumulator windows of two streams that have begun share an element (R105). -/
def overlaps (r0 l0 n lanes : Nat) (p : GOp) : Bool :=
  p.kind = .stream && p.begun && decide (r0 < p.r0 + p.total) && decide (p.r0 < r0 + n) &&
    decide (l0 < p.l0 + p.lanes) && decide (p.l0 < l0 + lanes)

/-- May an operation begin as far as the operations issued before it are concerned (R99, R105, R115, R120, R128, R231); the loads of the grid
use the one X port in issue order (R227). [DEDUCED 45] -/
def mayBegin (g : Grid) (o : GOp) : Bool :=
  let b := g.before o
  if o.begun ∨ o.kind = .part then false
  else if o.part = rush then b.all (fun p => p.part ≠ rush)
  else
    b.all (fun p => p.kind ≠ .part) && g.ops.all (fun p => !(p.part = o.part && p.recomp)) &&
    (if o.kind = .load then b.all (fun p => !(p.part = o.part && p.buf = o.buf) && !(p.kind = .load && p.part ≠ rush))
     else b.all (fun p => !(p.part = o.part && ((p.kind = .load && p.buf = o.buf) || (p.kind = .stream && !p.allIn)))))

/-- End an operation of the grid or the Rush path: its work is done. -/
def endOp (a : Nat) (o : GOp) (f : Fail) (s : State) : State :=
  let g := s.gr a
  let s1 := if o.begun then s else dropAcc a o.thr o.seq s
  opDone a o.thr o.seq f (s1.setGr a { g with
    ops := g.ops.filter (fun p => !(p.thr = o.thr ∧ p.seq = o.seq))
    lanes := g.lanes.filter (fun e => !(e.2.thr = o.thr ∧ e.2.seq = o.seq)) })

/-- DESCRIPTOR_INVALID at an address. -/
def badDesc (va : Nat) : Fail := descFail .descriptorInvalid va

/-- Begin a tile load: its checks (R100, R227, R231); the tile is read by TILE_LOAD_DONE. -/
def beginLoad (a : Nat) (o : GOp) (s : State) : Except Fail GOp × State :=
  let d := Desc.ofWord o.da
  let g := s.gr a
  match descCheck (thrCtx s a o.thr) a o.da .r s with
  | (.error f, s1) => (.error f, s1)
  | (.ok _, s1) =>
    if d.layout ≠ 1 ∨ !tileFmtOk o.mode d.fmt ∨ (o.part = rush ∧ ¬(1 ≤ d.dim 0 ∧ d.dim 0 ≤ 4)) ∨
        (o.part ≠ rush ∧ partCount g.mode ≤ o.part) then (.error (badDesc d.base), s1)
    else (.ok { o with begun := true }, s1)

/-- The table list of an item holds an address with a generation (R140). -/
def itemTable (s : State) (id va gen : Nat) : Bool :=
  match s.item? id with
  | some i => i.tabs.contains (va, gen)
  | none => false

/-- Table address of a CMPR descriptor (R195). -/
def cmprTable (w : BitVec 512) : Nat := bits w.toNat 293 256 * 1024

/-- Table generation that a CMPR descriptor expects (R195). -/
def cmprGen (w : BitVec 512) : Nat := bits w.toNat 255 224

/-- Coded size of a CMPR descriptor in bytes (R130, R195). -/
def cmprSize (w : BitVec 512) : Nat := [64, 80, 96, 112, 128, 160, 192, 256].getD (bits w.toNat 298 296) 64

/-- The cached table that an array holds for an address and generation (R142, R143). -/
def tableOf (s : State) (a va gen : Nat) : Option CodeTab :=
  (List.range 16).findSome? (fun e =>
    match SMap.get? s.tabs (16 * a + e) with
    | some t => if t.va = va ∧ t.gen = gen then some t else none
    | none => none)

/-- Is the table of a CMPR descriptor on its item's list, and of its format (R140). -/
def cmprBound (s : State) (a id : Nat) (w : BitVec 512) : Bool :=
  itemTable s id (cmprTable w) (cmprGen w) &&
    (match tableOf s a (cmprTable w) (cmprGen w) with
      | some t => t.fmt = (Desc.ofWord w).f
      | none => false)

/-- The tile a stream reads: its buffer's, or the zero tile. -/
def streamTile (g : Grid) (o : GOp) (dw : Desc) : Tile :=
  match SMap.get? g.tiles (tileKey o.part o.buf) with
  | some t => t
  | none => zeroTile g.mode o.part dw

/-- K positions of the pass that a stream would reach (R104). [DEDUCED 46] -/
def passCount (g : Grid) (o : GOp) (tk : Nat) : Nat := (if o.accum then SMap.getD g.kcnt o.part 0 else 0) + tk

/-- R229 over the descriptors of a stream, their codes checked. -/
def streamOk (g : Grid) (o : GOp) (dw dc : Desc) (t : Tile) : Bool :=
  dc.layout == 4 && dc.accLanes && decide (1 ≤ dc.dim 0) && decide (dc.dim 0 ≤ partPm g.mode o.part) &&
  (if o.xint then dc.fmt == 8 && !fmtIsFloat dw.f && !fmtIsFloat t.fmt else dc.fmt == 7) &&
  (dw.layout == 2 || dw.layout == 3) && !(dw.layout == 3 && dw.sp24) && !(o.part == rush && dw.sp24) &&
  weightsOk t.tmode t.fmt dw && (!o.xint || decide (passCount g o t.tk ≤ 32768)) &&
  (o.part == rush || decide (o.part < partCount g.mode))

/-- Begin a stream: descriptors in encoding order, then R229, R103, R104 and R140. -/
def beginStream (a : Nat) (o : GOp) (s : State) : Except Fail GOp × State :=
  let c := thrCtx s a o.thr
  let g := s.gr a
  match descCheck c a o.da .r s with
  | (.error f, s1) => (.error f, s1)
  | (.ok vw, s1) =>
    match descCheck c a o.dc (if o.accum then .rw else .w) s1 with
    | (.error f, s2) => (.error f, s2)
    | (.ok vc, s2) =>
      let t := streamTile g o vw.d
      if !streamOk g o vw.d vc.d t then (.error (badDesc vw.d.base), s2)
      else if vw.d.layout = 3 ∧ !cmprBound s2 a o.item o.da then (.error (badDesc vw.d.base), s2)
      else (.ok { o with begun := true, tile := some t, r0 := vc.row, l0 := vc.lane, lanes := vc.d.dim 0, total := vc.d.dim 1 }, s2)

/-- Does a stream ready to begin overlap a stream in flight on another partition (R105). -/
def blockedByOverlap (g : Grid) (o : GOp) : Bool :=
  g.ops.any (fun p => p.part ≠ o.part && overlaps o.r0 o.l0 o.total o.lanes p)

/-- The K count of a partition after a stream began (R104). [DEDUCED 46] -/
def noteCount (o : GOp) (g : Grid) : Grid :=
  match o.tile with
  | some t => { g with kcnt := SMap.put g.kcnt o.part (if o.xint then passCount g o t.tk else if o.accum then SMap.getD g.kcnt o.part 0 else 0) }
  | none => g

/-- Store the tile of a buffer. -/
def putTile (a : Nat) (o : GOp) (t : Tile) (s : State) : State :=
  s.setGr a { s.gr a with tiles := SMap.put (s.gr a).tiles (tileKey o.part o.buf) t }

/-- A load that fails leaves +0 elements and scale code 127 in its buffer, where the mode has the partition (R99). -/
def loadFails (a : Nat) (o : GOp) (f : Fail) (s : State) : State :=
  let mode := (s.gr a).mode
  endOp a o f (if o.part = rush ∨ o.part < partCount mode then putTile a o (failedTile mode o.part o.mode (Desc.ofWord o.da).f) s else s)

/-- Try to begin one operation: unchanged where it must wait. A stream of no rows neither starts nor continues a pass in the K count (R103,
R104). [DESIGN CHOICE 174] -/
def tryBegin (a : Nat) (o : GOp) (s : State) : State :=
  if !mayBegin (s.gr a) o then s
  else
    match (if o.kind = .load then beginLoad a o s else beginStream a o s) with
    | (.error f, s1) => if o.kind = .load then loadFails a o f s1 else endOp a o f s1
    | (.ok p, s1) =>
      if o.kind = .load then s1.setGr a ((s1.gr a).setOp p)
      else if p.total = 0 then endOp a o { st := .ok } s1
      else if blockedByOverlap (s1.gr a) p then s
      else s1.setGr a (noteCount p ((s1.gr a).setOp p))

/-- The first operation of a kind on a partition that has not begun and may. -/
def waitingOp (g : Grid) (kind : GKind) (part : Nat) : Option GOp :=
  g.ops.find? (fun o => o.kind = kind && o.part = part && mayBegin g o)

/-- A stream's accumulator elements count from its issue until its token completes (R225). [DESIGN CHOICE 11] -/
def noteStream (a : Nat) (o : GOp) (s : State) : State :=
  if o.kind = .stream then
    noteAcc ⟨a, o.thr, o.seq, if o.accum then .add else .fresh, accRuns (thrCtx s a o.thr) a o.dc .w s⟩ s
  else s

/-- Take an operation into the grid's order and begin it if nothing holds it back. -/
def takeOp (a : Nat) (o : GOp) (s : State) : State := tryBegin a o (noteStream a o (s.setGr a ((s.gr a).add o)))

/-- Is a partition owned by another thread (R115). -/
def ownedByOther (g : Grid) (part t : Nat) : Bool :=
  match SMap.get? g.own part with
  | some u => u != t
  | none => false

/-- The fields of a stream instruction, its descriptor registers read now (R166, R226). -/
def streamFields (x : Thread) (w ext : Nat) (o : GOp) : GOp :=
  { o with
    accum := bit (iImm w) 5
    xint := bit (iImm w) 6
    kchunk := bits (iImm w) 23 8
    row0 := ext % 2 ^ 32
    da := x.dreg (iRa w % 16)
    dc := x.dreg (iRb w % 16) }

/-- Issue of mxm.load, mxm.stream and mxm.part, unit 4: an owner's partition halts any other thread (R115). -/
def mxmIssue (func : Nat) (a : Fin 96) (t : Fin 64) (s : State) : State :=
  issue 0x9 func (fun w ext u =>
    let x := u.th a.val t.val
    let imm := iImm w
    let part := imm % 16
    let refused := if func = 2 then (u.gr a.val).own.any (fun e => e.2 ≠ t.val) else ownedByOther (u.gr a.val) part t.val
    if refused then progFault a.val t.val 0x09 u
    else
      issueAsync a.val t.val 4 w (fun q v =>
        let o := newOp (if func = 0 then .load else if func = 1 then .stream else .part) t.val q x.item (if func = 2 then 0 else part)
        if func = 2 then
          if imm % 4 = 3 then opDone a.val t.val q (badDesc 0) v
          else v.setGr a.val ((v.gr a.val).add { o with mode := imm % 4 })
        else if func = 0 then
          takeOp a.val { o with buf := bits imm 4 4, mode := bits imm 9 8, da := x.dreg (iRa w % 16) } v
        else
          takeOp a.val (streamFields x w ext { o with buf := bits imm 4 4 }) v) u) a.val t.val s

/-- Issue of mv.load and mv.stream, unit 5 (R231). -/
def mvIssue (func : Nat) (a : Fin 96) (t : Fin 64) (s : State) : State :=
  issue 0xA func (fun w ext u =>
    let x := u.th a.val t.val
    let imm := iImm w
    issueAsync a.val t.val 5 w (fun q v =>
      let o := newOp (if func = 0 then .load else .stream) t.val q x.item rush
      if func = 0 then takeOp a.val { o with mode := bits imm 8 8, da := x.dreg (iRa w % 16) } v
      else
        takeOp a.val (streamFields x w ext o) v) u) a.val t.val s

/-- mxm.load (R226, R227). -/
def execMxmLoad (a : Fin 96) (t : Fin 64) (s : State) : Host.Outcome State Fault Refusal := .next (mxmIssue 0x0 a t s)
/-- mxm.stream (R226, R228, R229). -/
def execMxmStream (a : Fin 96) (t : Fin 64) (s : State) : Host.Outcome State Fault Refusal := .next (mxmIssue 0x1 a t s)
/-- mxm.part (R115, R230). -/
def execMxmPart (a : Fin 96) (t : Fin 64) (s : State) : Host.Outcome State Fault Refusal := .next (mxmIssue 0x2 a t s)
/-- mv.load (R231). -/
def execMvLoad (a : Fin 96) (t : Fin 64) (s : State) : Host.Outcome State Fault Refusal := .next (mvIssue 0x0 a t s)
/-- mv.stream (R231). -/
def execMvStream (a : Fin 96) (t : Fin 64) (s : State) : Host.Outcome State Fault Refusal := .next (mvIssue 0x1 a t s)

/-- TILE_LOAD_BEGIN: a load whose buffer is free starts (R99, R128). -/
def execTileLoadBegin (a : Fin 96) (part : Fin 17) (s : State) : Host.Outcome State Fault Refusal :=
  match waitingOp (s.gr a.val) .load part.val with
  | some o => .next (tryBegin a.val o s)
  | none => .next s

/-- STREAM_BEGIN: a stream that waited for a load or another stream starts (R99, R105). -/
def execStreamBegin (a : Fin 96) (part : Fin 17) (s : State) : Host.Outcome State Fault Refusal :=
  match waitingOp (s.gr a.val) .stream part.val with
  | some o => .next (tryBegin a.val o s)
  | none => .next s

/-- One element of a tile, from own local memory or the Pool (R100); lanes beyond a Rush tile's count read as pads. -/
def tileElem (c : Ctx) (a : Nat) (v : View) (k m : Nat) (s : State) : MRes Elem := vecElem c a v [(m : Int), (k : Int), 0, 0, 0, 0] s

/-- The scale code of 32 K positions of a lane: that of the first element read from memory, else 127 (R100, R198). -/
def runScale (es : List Elem) : Nat :=
  match es.find? (·.mem) with
  | some e => e.scale
  | none => 127

/-- The scale codes of a tile, run of 32 K positions by run, each lane in turn. -/
def tileScales (tk pm : Nat) (es : List Elem) : List Nat :=
  (List.range (tk / 32)).flatMap (fun r => (List.range pm).map (fun m =>
    runScale ((List.range 32).map (fun k => es.getD ((32 * r + k) * pm + m) ⟨0, 127, false⟩))))

/-- Read a tile K-row by K-row (R98, R100, R227). -/
def readTile (c : Ctx) (a mode : Nat) (o : GOp) (s : State) : MRes Tile :=
  let d := Desc.ofWord o.da
  let tk := tileTk mode o.part o.mode
  let pm := partPm mode o.part
  match mapM (fun i t => tileElem c a ⟨d, 0, 0, 0⟩ (i / pm) (i % pm) t) (List.range (tk * pm)) s with
  | (.error f, s1) => (.error f, s1)
  | (.ok es, s1) => (.ok (mkTile o.mode d.f tk pm (es.map (·.code)) (tileScales tk pm es)), s1)

/-- TILE_LOAD_DONE: the tile and its checksum column are in place, or the load failed and the buffer holds zeros (R99 to R101). -/
def execTileLoadDone (a : Fin 96) (part : Fin 17) (buf : Fin 2) (s : State) : Host.Outcome State Fault Refusal :=
  let g := s.gr a.val
  match g.ops.find? (fun o => o.kind = .load && o.part = part.val && o.buf = buf.val && o.begun) with
  | none => .next s
  | some o =>
    match readTile (thrCtx s a.val o.thr) a.val g.mode o s with
    | (.error f, s1) => .next (loadFails a.val o f s1)
    | (.ok t, s1) => .next (endOp a.val o { st := .ok } (putTile a.val o t s1))

/-- PART_MODE_CHANGE: the oldest accepted change takes effect once the operations before it have completed; it leaves every partition unowned
(R115, R230). -/
def execPartModeChange (a : Fin 96) (s : State) : Host.Outcome State Fault Refusal :=
  let g := s.gr a.val
  match g.ops.find? (fun o => o.kind = .part) with
  | none => .next s
  | some o =>
    if (g.before o).any (fun p => p.part ≠ rush || p.thr = o.thr) then .next s
    else
      let rest := g.ops.filter (fun p => !(p.thr = o.thr ∧ p.seq = o.seq))
      let g1 : Grid := { g with mode := o.mode, own := [], tiles := g.tiles.filter (fun e => e.1 = tileKey rush 0),
                                kcnt := g.kcnt.filter (fun e => e.1 = rush), ops := rest }
      .next (opOk a.val o.thr o.seq (s.setGr a.val g1))

end Sys2Proof.Machine
end

