-- ==== Sys2Proof/Machine/Expander.lean ====
section
/-! DEFINITION. Machine/Expander.lean: the blocks of a CMPR tensor (R130 to R132), canonical codes (R134), decoding and damage checks
(R136 to R138), fetch ahead of decoding (R139, R144 to R147), and the cached tables that a flush empties (R142). -/

namespace Sys2Proof.Machine

/-- The grid or Rush stream of a partition that has begun and has rows to enter: the oldest. -/
def rowStream (g : Grid) (part : Nat) : Option GOp :=
  g.ops.find? (fun o => o.kind = .stream && o.part = part && o.begun && decide (o.entered < o.total))

/-- K-rows of a stream's tile. -/
def GOp.tk (o : GOp) : Nat :=
  match o.tile with
  | some t => t.tk
  | none => 256

/-- Blocks that a stream takes in all (R114, R132). -/
def GOp.blocks (o : GOp) : Nat := ceilDiv (o.total * o.tk) 256

/-- Block that the next row of a stream starts in. -/
def GOp.headBlock (o : GOp) : Nat := o.entered * o.tk / 256

/-- Weight row and block column of the i-th block of a stream in a partition mode (R114, R130, R132, R228). -/
def blockPos (mode : Nat) (o : GOp) (i : Nat) : Nat × Nat :=
  let cb := partF mode o.part * o.tk / 256
  (o.row0 + i / cb, o.kchunk * cb + i % cb)

/-- Virtual address of a block, none outside the tensor (R130, R228). -/
def blockVa (d : Desc) (w : BitVec 512) (p : Nat × Nat) : Option Nat :=
  let kb := d.dim 0 / 256
  if p.1 < d.dim 1 ∧ p.2 < kb then some (d.base + (p.1 * kb + p.2) * cmprSize w) else none

/-- A stream meets a failure: the first one stays (R15, R139). -/
def GOp.failed (o : GOp) (f : Fail) : GOp := if o.fail.st.completes then { o with fail := f } else o

/-- Rows from `n` on are not written: the stream ends there (R139). -/
def GOp.stopAt (o : GOp) (n : Nat) (f : Fail) : GOp := { o.failed f with total := min o.total n }

/-- Store a stream; it completes once every row has passed its checks (R105). -/
def putStream (a : Nat) (o : GOp) (s : State) : State :=
  if o.total ≤ o.passed then endOp a o o.fail s else s.setGr a ((s.gr a).setOp o)

/-- Fetch the i-th block: address and bytes, nothing outside the tensor (R130, R139). -/
def fetchBlock (a : Nat) (o : GOp) (i : Nat) (s : State) : MRes (Nat × Nat × List Byte) :=
  let d := Desc.ofWord o.da
  match blockVa d o.da (blockPos (s.gr a).mode o i) with
  | none => (.ok (0, 0, []), s)
  | some va =>
    let c := { thrCtx s a o.thr with va := va }
    match vRead c .r va (cmprSize o.da) s with
    | (.error f, s1) => (.error f, s1)
    | (.ok b, s1) =>
      match translate c va .r s1 with
      | (.ok pa, _) => (.ok (va, pa, b), s1)
      | (.error _, _) => (.ok (va, 0, b), s1)

/-- Symbols in the order of R134 with their lengths: by length, then by number; the escape is symbol NSYM. -/
def symOrder (t : CodeTab) : List (Nat × Nat) :=
  let all := (List.range t.lens.length).zip t.lens ++ (if t.esc = 0 then [] else [(t.lens.length, t.esc)])
  (List.range 16).flatMap (fun l => all.filter (fun x => x.2 = l + 1))

/-- Canonical codes of R134: (symbol, length, code). -/
def canonCodes (t : CodeTab) : List (Nat × Nat × Nat) :=
  ((symOrder t).foldl (fun (acc : List (Nat × Nat × Nat) × Nat × Nat) x =>
    let code := if acc.1 = [] then 0 else acc.2.1 <<< (x.2 - acc.2.2)
    (acc.1 ++ [(x.1, x.2, code)], code + 1, x.2)) ([], 0, 0)).1

/-- Payload as bits in reading order: bit 7 of byte 8 first (R136). -/
def payloadBits (b : List Byte) : List Bool :=
  (b.drop 8).flatMap (fun (x : Byte) => (List.range 8).map (fun i => x.toNat.testBit (7 - i)))

/-- The value of bits, the first one highest. -/
def bitsNat (l : List Bool) : Nat := l.foldl (fun n b => 2 * n + b2n b) 0

/-- The code that starts a bit string, if one is assigned (R136). -/
def matchCode (codes : List (Nat × Nat × Nat)) (l : List Bool) : Option (Nat × Nat) :=
  codes.findSome? (fun c => if c.2.1 ≤ l.length ∧ bitsNat (l.take c.2.1) = c.2.2 then some (c.1, c.2.1) else none)

/-- Is a bit string shorter than some code and its beginning. -/
def codePrefix (codes : List (Nat × Nat × Nat)) (l : List Bool) : Bool :=
  codes.any (fun c => decide (l.length < c.2.1) && bitsNat l == c.2.2 >>> (c.2.1 - l.length))

/-- What decoding a block gives: the element codes, the escapes met, and the failed check of R137 with its bit offset (R138). -/
structure Decoded where
  codes : List Nat
  esc   : Nat
  bad   : Option (Nat × Nat)
deriving DecidableEq, Repr

/-- Decode `n` more symbols from the bits at offset `pos`; the table's symbol values come with the canonical codes (R136 to R138). Of a damaged
block the escapes decoded before the damage count, and the one that fails check 3; one whose raw field is cut off does not. [DESIGN CHOICE 177] -/
def decodeFrom (t : CodeTab) (cs : List (Nat × Nat × Nat)) (four : Bool) : Nat → Nat → List Bool → Decoded → Decoded
  | 0, pos, l, r =>
    match firstIdx id l with
    | some i => { r with bad := some (4, pos + i) }
    | none => r
  | n + 1, pos, l, r =>
    match matchCode cs l with
    | none => { r with bad := some (if codePrefix cs l then 1 else 2, pos) }
    | some (sym, len) =>
      if sym < t.lens.length then
        decodeFrom t cs four n (pos + len) (l.drop len) { r with codes := r.codes ++ [t.vals.getD sym 0] }
      else
        let l1 := l.drop len
        let raw := bitsNat (l1.take 8)
        if l1.length < 8 then { r with bad := some (1, pos + len) }
        else if four ∧ raw ≥ 16 then { r with esc := r.esc + 1, bad := some (3, pos + len) }
        else decodeFrom t cs four n (pos + len + 8) (l1.drop 8) { r with codes := r.codes ++ [raw], esc := r.esc + 1 }

/-- Decode a block (R131, R136, R137). -/
def decodeBlock (t : CodeTab) (b : List Byte) : Decoded :=
  decodeFrom t (canonCodes t) (fmtBits t.fmt == 4) 256 0 (payloadBits b) ⟨[], 0, none⟩

/-- 256 values of +0 with scale code 127 (R132, R138). -/
def zeroBlock : List Nat × List Nat := (List.replicate 8 127, List.replicate 256 0)

/-- The record of a damaged block (R138, R478). -/
def damagedRecord (a phys va pa : Nat) (o : GOp) (e : Nat × Nat) : FaultIn :=
  { cls := .damagedBlock, status := .damagedBlock, disp := .reported, req := thrReq a o.thr, unit := phys, pa := pa,
    body := leBytes 8 va ++ leBytes 4 e.1 ++ leBytes 4 e.2 ++ leBytes 8 o.item }

/-- Count a damaged block and write its record, or count that none was written (R138). -/
def noteDamage (a phys va pa : Nat) (o : GOp) (e : Nat × Nat) (s : State) : GOp × State :=
  let s1 := ((s.count 0 Reg.EXP_DAMAGED 1).count phys Reg.EXP_ARR_DAMAGED 1).setReg64 phys Reg.EXP_LAST_DMG_VA_LO va
  if o.dmg < 8 then
    let (q, s2) := writeFaultId (damagedRecord a phys va pa o e) s1
    ({ o.failed { st := .damagedBlock, root := q, va := va } with dmg := o.dmg + 1 }, s2)
  else ({ o with dmg := o.dmg + 1 }, s1.count phys Reg.EXP_DMG_REC_DROPPED 1)

/-- May a stream take the weight port: between grid and Rush path it switches only at group boundaries, oldest first; a stream that has not begun
holds back none (R128). [DESIGN CHOICE 175] -/
def portFree (g : Grid) (o : GOp) : Bool :=
  let rival := fun (p : GOp) => p.kind = .stream && p.begun && decide (p.entered < p.total) && ((p.part = rush) != (o.part = rush))
  if o.entered % 256 ≠ 0 then true
  else g.ops.all (fun p => !(rival p && p.entered % 256 != 0)) && (g.before o).all (fun p => !rival p)

/-- Streams of the side of the weight port, grid or Rush path, that a stream belongs to. -/
def Grid.side (g : Grid) (o : GOp) : List GOp := g.ops.filter (fun p => p.kind = .stream && p.begun && ((p.part = rush) == (o.part = rush)))

/-- Blocks that the expander has fetched ahead of decoding: 64 at most, counted over the streams of one side of the port (R144). [DESIGN CHOICE 176] -/
def Grid.fetchedAhead (g : Grid) (o : GOp) : Nat := (g.side o).foldl (fun n p => n + p.raw.length) 0

/-- Rows in the look-ahead buffer: 8 at most, counted over the streams of one side of the port (R146). [DESIGN CHOICE 176] -/
def Grid.lookRows (g : Grid) (o : GOp) : Nat := (g.side o).foldl (fun n p => n + p.look.length) 0

/-- The stream of a lane's block. -/
def Grid.ofLane (g : Grid) (l : Lane) : Option GOp := g.ops.find? (fun o => o.thr = l.thr && o.seq = l.seq)

/-- Number of the next block of a stream that enters the look-ahead buffer (R146). -/
def GOp.nextLook (o : GOp) : Nat := o.headBlock + o.look.length

/-- The lowest lane with a finished block whose turn to enter the look-ahead buffer it is (R146). -/
def Grid.readyLane (g : Grid) : Option (Nat × Lane × GOp × (List Nat × List Nat)) :=
  g.lanes.findSome? (fun e => match e.2.done, g.ofLane e.2 with
    | some b, some o => if e.2.idx = o.nextLook ∧ g.lookRows o < 8 then some (e.1, e.2, o, b) else none
    | _, _ => none)

/-- Finished blocks enter the look-ahead buffer in stream order and free their lanes (R146); `k` bounds them. -/
def Grid.enterLook : Nat → Grid → Grid
  | 0, g => g
  | k + 1, g =>
    match g.readyLane with
    | none => g
    | some (n, _, o, b) => Grid.enterLook k { g.setOp { o with look := o.look ++ [b] } with lanes := SMap.del g.lanes n }

/-- The lowest-numbered free lane of 32 (R144). -/
def Grid.freeLane (g : Grid) : Option Nat := (List.range 32).find? (fun n => (SMap.get? g.lanes n).isNone)

/-- Partitions whose stream has a fetched block for a lane and may take the weight port (R128, R144). -/
def Grid.laneTurns (g : Grid) : List Nat :=
  (List.range 17).filter (fun p => match rowStream g p with
    | some o => o.raw ≠ [] && portFree g o
    | none => false)

/-- A fetched block of a stream goes into a lane. -/
def Grid.toLane (g : Grid) (n : Nat) (o : GOp) : Grid :=
  match o.raw with
  | [] => g
  | b :: r => { g.setOp { o with raw := r } with
      lanes := SMap.put g.lanes n ⟨o.thr, o.seq, o.fetched - o.raw.length, b.1, b.2.1, b.2.2, none⟩ }

/-- Free lanes take the next blocks, from the stream whose turn it is (R144); `k` bounds them. -/
def takeBlocks (a : Nat) : Nat → State → State
  | 0, s => s
  | k + 1, s =>
    let g := s.gr a
    match g.freeLane with
    | none => s
    | some n =>
      match rrGrant (rrExp a) g.laneTurns s with
      | none => s
      | some (p, s1) =>
        match rowStream g p with
        | none => s
        | some o => takeBlocks a k (s1.setGr a (g.toLane n o))

/-- The lanes and the look-ahead buffer of an array after a change. -/
def settleLanes (a : Nat) (s : State) : State := takeBlocks a 32 (s.setGr a ((s.gr a).enterLook 32))

/-- EXPANDER_FETCH: the next block of a CMPR stream arrives, at most 64 ahead of decoding (R139, R144). -/
def execExpanderFetch (a : Fin 96) (part : Fin 17) (s : State) : Host.Outcome State Fault Refusal :=
  let g := s.gr a.val
  match rowStream g part.val with
  | none => .next s
  | some o =>
    if (Desc.ofWord o.da).layout ≠ 3 ∨ 64 ≤ g.fetchedAhead o ∨ o.blocks ≤ o.fetched then .next s
    else
      match fetchBlock a.val o o.fetched s with
      | (.ok b, s1) => .next (settleLanes a.val (putStream a.val { o with fetched := o.fetched + 1, raw := o.raw ++ [b] } s1))
      | (.error f, s1) => .next (putStream a.val (o.stopAt (o.fetched * 256 / o.tk) f) s1)

/-- A block is decoded: what leaves the lane, zeros for a damaged block, with the counters and the record (R136 to R138). -/
def decodeLane (a phys : Nat) (t : CodeTab) (o : GOp) (l : Lane) (s : State) : (List Nat × List Nat) × GOp × State :=
  if l.raw = [] then (zeroBlock, o, s)
  else
    let r := decodeBlock t l.raw
    let s1 := (s.count64 phys Reg.EXP_BLOCKS_LO 1).count phys Reg.EXP_ESCAPES r.esc
    match r.bad with
    | none => (((List.range 8).map (fun i => leAt l.raw i 1), r.codes), o, s1)
    | some e => (zeroBlock, noteDamage a phys l.va l.pa o e s1)

/-- BLOCK_DECODE: a lane finishes its block, which it holds until the blocks ahead of it have entered the look-ahead buffer (R138, R144 to
R146). -/
def execBlockDecode (a : Fin 96) (lane : Fin 32) (s : State) : Host.Outcome State Fault Refusal :=
  let g := s.gr a.val
  match SMap.get? g.lanes lane.val, physOf s a.val with
  | some l, some p =>
    match g.ofLane l with
    | none => .next s
    | some o =>
      match l.done, tableOf s a.val (cmprTable o.da) (cmprGen o.da) with
      | none, some t =>
        let x := decodeLane a.val p t o l s
        let g1 := (x.2.2.gr a.val).setOp x.2.1
        .next (settleLanes a.val (x.2.2.setGr a.val { g1 with lanes := SMap.put g1.lanes lane.val { l with done := some x.1 } }))
      | _, _ => .next s
  | _, _ => .next s

/-- Empty every table-cache entry that is not pinned, on every array (R142). -/
def flushTables (s : State) : State := { s with tabs := s.tabs.filter (fun e => e.2.pins ≠ []) }

/-- The rule of EXP_CTRL. -/
def expCtrlRule : WriteRule := { effect := fun _ _ _ v s => if fld v 0 0 = 1 then flushTables s else s }

/-- Logical number that a physical array carries, none for a spare, a retired or a defective one (R17). -/
def logicalOf (s : State) (phys : Nat) : Option Nat := (List.range 96).find? (fun a => physOf s a = some phys)

/-- Arm an injection for the next block of a partition; it replaces one that waits (R122). -/
def armInject (phys : Nat) (v : W32) (s : State) : State :=
  match logicalOf s phys with
  | none => s
  | some a => if fld v 1 0 = 0 then s else s.setGr a { s.gr a with inj := some (fld v 7 4, fld v 1 0) }

/-- The rule of ARR_INJECT. -/
def injectRule : WriteRule := { effect := fun i _ _ v s => armInject i v s }

end Sys2Proof.Machine
end

