-- ==== Sys2Proof/Machine/Stream.lean ====
section
/-! DEFINITION. Machine/Stream.lean: weight rows entering the grid or the Rush path (R106, R110, R111, R114, R128, R228), output rows
(R102 to R105), the checks of every block (R116 to R119, R127), corrections, recomputes and check events (R119, R120, R122, R123). -/

namespace Sys2Proof.Machine

/-- Is a partition recomputing a block (R120). -/
def partHeld (g : Grid) (part : Nat) : Bool := g.ops.any (fun p => p.part = part && p.recomp)

/-- Group a list into runs of 32 K positions, each with its scale. -/
def wrowOf (vals : List (Nat × Nat)) (tk : Nat) (scale : Nat → Nat) : WRow :=
  (List.range (tk / 32)).map (fun r => (scale r, (vals.filter (fun v => v.1 / 32 = r))))

/-- A dense WROW row: K positions kb onward of weight row `row`, with padding (R194, R197, R228). -/
def denseRow (c : Ctx) (v : View) (row kb tk : Nat) (s : State) : MRes WRow :=
  match mapM (fun k t => readElem c v [((kb + k : Nat) : Int), (row : Int), 0, 0, 0, 0] t) (List.range tk) s with
  | (.error f, s1) => (.error f, s1)
  | (.ok es, s1) =>
    (.ok (wrowOf ((List.range tk).zip (es.map (·.code))) tk (fun r => runScale ((es.drop (32 * r)).take 32))), s1)

/-- K position and code of stored value v of a 2:4 record (R110, R194): values and indices as bytes of the record. -/
def sparseValue (four : Bool) (rec_ : List Byte) (v : Nat) : Nat × Nat :=
  let scales := if four then 32 else 16
  let stored := leAt rec_ (scales + (if four then v / 2 else v)) 1
  let code := if four then (if v % 2 = 1 then stored / 16 else stored % 16) else stored
  let ix := leAt rec_ (scales + 256 + v / 4) 1 >>> (2 * (v % 4)) % 4
  (4 * (v / 2) + ix, code)

/-- A 2:4 WROW row: the part of its record that the K positions name; zero values outside the tensor (R110, R111, R194, R228). -/
def sparseRow (c : Ctx) (d : Desc) (row kb tk : Nat) (s : State) : MRes WRow :=
  let ck := wrowCk d.four true
  if d.dim 1 ≤ row ∨ d.dim 0 ≤ kb then (.ok (wrowOf [] tk (fun _ => 127)), s)
  else
    match vRead c .r (wrowRec d kb row) (wrowRs d.four true) s with
    | (.error f, s1) => (.error f, s1)
    | (.ok b, s1) =>
      let off := kb % ck
      let vs := (List.range (ck / 2)).map (sparseValue d.four b)
      let mine := (vs.filter (fun v => decide (off ≤ v.1) && decide (v.1 < off + tk))).map (fun v => (v.1 - off, v.2))
      (.ok (wrowOf mine tk (fun r => leAt b (off / 32 + r) 1)), s1)

/-- A row from decoded blocks: `look` begins with the block the row starts in (R114, R132). -/
def blockRow (o : GOp) (tk : Nat) : WRow :=
  let off := o.entered * tk % 256
  let codes := (o.look.flatMap (·.2)).drop off
  let scales := (o.look.flatMap (·.1)).drop (off / 32)
  wrowOf ((List.range tk).map (fun k => (k, codes.getD k 0))) tk (fun r => scales.getD r 127)

/-- Blocks the next row needs. -/
def blocksNeeded (o : GOp) (tk : Nat) : Nat := ((o.entered + 1) * tk - 1) / 256 - o.headBlock + 1

/-- Injection that the next block of its partition takes (R122); where the fault lies is a free value. [DEDUCED 42] -/
def takeInjection (g : Grid) (o : GOp) (s : State) : GOp × Grid × State :=
  match g.inj with
  | none => (o, g, s)
  | some (part, m) =>
    if part ≠ o.part ∨ o.entered % 256 ≠ 0 then (o, g, s)
    else
      let (k, s1) := s.drawFree
      let v := (Config.freeWord k).toNat
      let rows := min 256 (o.total - o.entered)
      ({ o with inj := some ⟨o.entered / 256, o.entered + v % rows, v / 256 % (partPm g.mode o.part), v / 65536 % 32, bit m 0, bit m 1⟩ },
        { g with inj := none }, s1)

/-- A weight row enters (R106): it waits in the grid for its output; blocks it used up leave the look-ahead, and others enter it. -/
def enterRow (a phys : Nat) (o0 : GOp) (w : WRow) (s0 : State) : State :=
  let (o, g, s) := takeInjection (s0.gr a) o0 s0
  let n := o.entered + 1
  let drop := n * o.tk / 256 - o.headBlock
  let o1 := { o with entered := n, pend := o.pend ++ [(o.entered, w)], look := o.look.drop drop }
  settleLanes a (((s.setGr a (g.setOp o1)).count64 phys Reg.ARR_ROWS_LO 1).count64 phys Reg.ARR_BUSY_CYCLES_LO 1)

/-- Is a stream's source a CMPR tensor. -/
def GOp.cmpr (o : GOp) : Bool := (Desc.ofWord o.da).layout == 3

/-- Has the look-ahead buffer the blocks of a stream's next row; a WROW stream takes its row from memory. -/
def rowReady (o : GOp) : Bool := !o.cmpr || decide (blocksNeeded o o.tk ≤ o.look.length)

/-- The stream of a partition that could take a row in this cycle: no recompute holds the partition, and the port is free for it. -/
def portStream (g : Grid) (part : Nat) : Option GOp :=
  match rowStream g part with
  | some o => if partHeld g part ∨ !portFree g o then none else some o
  | none => none

/-- Partitions with a row ready, in one cycle of the weight port (R114). -/
def readyParts (g : Grid) : List Nat :=
  (List.range 17).filter (fun p => match portStream g p with
    | some o => rowReady o
    | none => false)

/-- Count the cycle once where a stream could take a row but the look-ahead buffer holds none for it: as a memory stall where a block of the
row has not arrived, else as a decode stall (R148); of several streams that wait the lowest partition decides. [DESIGN CHOICE 178] -/
def countStall (g : Grid) (phys : Nat) (s : State) : State :=
  match (List.range 17).findSome? (fun p => (portStream g p).bind (fun o => if rowReady o then none else some o)) with
  | none => s
  | some o => s.count64 phys (if o.fetched < o.headBlock + blocksNeeded o o.tk then Reg.EXP_STALL_MEM_LO else Reg.EXP_STALL_DECODE_LO) 1

/-- The weights of the next row of a WROW stream. -/
def readWeights (a : Nat) (o : GOp) (s : State) : MRes WRow :=
  let d := Desc.ofWord o.da
  let f := partF (s.gr a).mode o.part
  let row := o.row0 + o.entered / f
  let kb := o.kchunk * (f * o.tk) + o.entered % f * o.tk
  if d.sp24 then sparseRow (thrCtx s a o.thr) d row kb o.tk s
  else denseRow (thrCtx s a o.thr) ⟨d, 0, 0, 0⟩ row kb o.tk s

/-- The row of a stream that has won the port enters, or its failed read ends the stream before that row (R139). -/
def takeRow (a phys : Nat) (o : GOp) (s : State) : State :=
  if o.cmpr then enterRow a phys o (blockRow o o.tk) s
  else
    match readWeights a o s with
    | (.ok w, s1) => enterRow a phys o w s1
    | (.error f, s1) => putStream a (o.stopAt o.entered f) s1

/-- WEIGHT_ROW_ENTRY: one cycle of the weight port, in which the row of a partition enters: of the partitions with rows ready the one that wins
the pointer of the port (R39, R106, R114); a row that is not decoded counts a stall cycle (R147, R148). [DESIGN CHOICE 18] -/
def execWeightRowEntry (a : Fin 96) (part : Fin 17) (s : State) : Host.Outcome State Fault Refusal :=
  let g := s.gr a.val
  match physOf s a.val with
  | none => .next s
  | some p =>
    let s1 := countStall g p s
    match rrGrant (rrPort a.val) (readyParts g) s1, portStream g part.val with
    | some (w, s2), some o => .next (if w = part.val then takeRow a.val p o s2 else s1)
    | _, _ => .next s1

/-- Codes and scale of lane m of a tile against one run of a weight row: the tile element of each weight value. -/
def laneRun (t : Tile) (m r : Nat) (vs : List (Nat × Nat)) : List Nat × Nat :=
  (vs.map (fun v => t.x.getD (v.1 * t.pm + m) 0), t.sc.getD (r * t.pm + m) 127)

/-- Block partials of one output element, blocks in ascending K order (R50, R98, R111). -/
def lanePartials (t : Tile) (wf : Fmt) (w : WRow) (m : Nat) : List Fp :=
  ((List.range w.length).zip w).map (fun b =>
    let l := laneRun t m b.1 b.2.2
    blockPartial wf t.fmt (b.2.2.map (·.2)) l.1 b.2.1 l.2)

/-- Exact integer sum of one output element (R52, R98). -/
def laneInt (t : Tile) (wf : Fmt) (w : WRow) (m : Nat) : Int :=
  (((List.range w.length).zip w).map (fun b => blockIntSum wf t.fmt (b.2.2.map (·.2)) (laneRun t m b.1 b.2.2).1)).foldl (· + ·) 0

/-- The wrong bits of a lane in a row, none where it is right. -/
def errMask (err : Option (Nat × W32)) (m : Nat) : Option W32 :=
  match err with
  | some e => if e.1 = m then some e.2 else none
  | none => none

/-- What an output element adds to its accumulator and to the check sums: its block partials, or where a fault flips bits the FP32 value that
they form, flipped (R50, R122). [DEDUCED 42] -/
def outPartials (t : Tile) (wf : Fmt) (w : WRow) (err : Option (Nat × W32)) (m : Nat) : List Fp :=
  match errMask err m with
  | some k => [f32 ((BitVec.ofNat 32 (c32 ((lanePartials t wf w m).foldl add32 Fp.zero)) ^^^ k).toNat)]
  | none => lanePartials t wf w m

/-- Integer sum of an output element with its fault (R52, R122). -/
def outInt (t : Tile) (wf : Fmt) (w : WRow) (err : Option (Nat × W32)) (m : Nat) : Int :=
  match errMask err m with
  | some k => toSigned 32 ((BitVec.ofNat 32 (ofSigned 32 (laneInt t wf w m)) ^^^ k).toNat)
  | none => laneInt t wf w m

/-- The accumulator code of an element after its output (R50, R53, R102): `old` is +0 or 0 in a stream that starts a pass. [DEDUCED 44] -/
def accCode (o : GOp) (t : Tile) (wf : Fmt) (w : WRow) (err : Option (Nat × W32)) (m old : Nat) : Nat :=
  if o.xint then ofSigned 32 (clamp32 (toSigned 32 old + outInt t wf w err m))
  else c32 ((outPartials t wf w err m).foldl add32 (f32 old))

/-- Physical address of the accumulator elements of output row n (R102, R103). -/
def accRow (phys : Nat) (o : GOp) (n : Nat) : Nat := accBase phys + (o.r0 + n) * 1024 + o.l0 * 4

/-- The bytes of an output row over the old ones. -/
def rowBytes (o : GOp) (t : Tile) (w : WRow) (err : Option (Nat × W32)) (old : List Byte) : List Byte :=
  let wf := (Desc.ofWord o.da).f
  (List.range o.lanes).flatMap (fun m => leBytes 4 (accCode o t wf w err m (if o.accum then leAt old (4 * m) 4 else 0)))

/-- The fault of a row: the injected one, else the one that the command brings (R121, R122). -/
def rowFault (o : GOp) (n : Nat) (flt : Option (Fin 256 × W32)) : Option (Nat × W32) :=
  match o.inj with
  | some i => if i.elem ∧ i.row = n then some (i.lane, 1#32 <<< i.bitNo) else flt.map (fun x => (x.1.val, x.2))
  | none => flt.map (fun x => (x.1.val, x.2))

/-- The grid or Rush stream of a partition with rows in the grid: the oldest. -/
def pendStream (g : Grid) (part : Nat) : Option GOp :=
  g.ops.find? (fun o => o.kind = .stream && o.part = part && o.pend ≠ [])

/-- Does an earlier stream of the partition still hold an unchecked row over the same accumulator elements (R105). -/
def rowHeld (g : Grid) (o : GOp) (n : Nat) : Bool :=
  (g.before o).any (fun p => p.part = o.part && decide (o.l0 < p.l0 + p.lanes) && decide (p.l0 < o.l0 + o.lanes) &&
    (p.keep.any (fun k => p.r0 + k.n = o.r0 + n) || p.pend.any (fun k => p.r0 + k.1 = o.r0 + n)))

/-- Write one output row; an error of the accumulator memory ends the stream before the row (R88, R102, R105). [DESIGN CHOICE 11] -/
def writeRow (a phys : Nat) (o : GOp) (n : Nat) (w : WRow) (rest : List (Nat × WRow)) (err : Option (Nat × W32)) (s : State) : State :=
  match o.tile with
  | none => s
  | some t =>
    let c := thrCtx s a o.thr
    match physRead c (accRow phys o n) (4 * o.lanes) s with
    | (.error f, s1) => putStream a { o.stopAt n f with pend := [] } s1
    | (.ok old, s1) =>
      let (new, s1) := if o.accum then freeElems (· == .write) (accRow phys o n) (rowBytes o t w err old) s1
        else (rowBytes o t w err old, s1)
      match physWrite c (accRow phys o n) new none s1 with
      | (.error f, s2) => putStream a { o.stopAt n f with pend := [] } s2
      | (.ok _, s2) => s2.setGr a ((s2.gr a).setOp { o with pend := rest, keep := o.keep ++ [⟨n, w, old, err, false, false, false⟩] })

/-- OUTPUT_ROW_WRITE: the oldest row in a partition is written or added; `flt` is a single fault of the grid (R102, R105, R121). -/
def execOutputRowWrite (a : Fin 96) (part : Fin 17) (flt : Option (Fin 256 × W32)) (s : State) : Host.Outcome State Fault Refusal :=
  let g := s.gr a.val
  match pendStream g part.val, physOf s a.val with
  | some o, some p =>
    match o.pend with
    | [] => .next s
    | (n, w) :: r =>
      if partHeld g part.val ∨ rowHeld g o n then .next s
      else .next (writeRow a.val p o n w r (rowFault o n flt) s)
  | _, _ => .next s

/-- The values of a weight row under its scales, each with its K position. -/
def rowVals (wf : Fmt) (w : WRow) : List (Nat × Fp) := w.flatMap (fun b => b.2.map (fun v => (v.1, decodeScaled wf v.2 b.1)))

/-- The unscaled integers of a weight row, each with its K position. -/
def rowInts (wf : Fmt) (w : WRow) : List (Nat × Int) := w.flatMap (fun b => b.2.map (fun v => (v.1, decodeInt wf v.2)))

/-- The row reference w·(X·e) of a weight row and its magnitude reference |w|·(|X|·e), in FP32 (R116). [DESIGN CHOICE 43] -/
def rowRefs (t : Tile) (wf : Fmt) (w : WRow) : Fp × Fp :=
  let l := rowVals wf w
  (l.foldl (fun a v => fma32 v.2 (f32 (t.xe.getD v.1 0)) a) Fp.zero, l.foldl (fun a v => fma32 (Fp.abs v.2) (f32 (t.xa.getD v.1 0)) a) Fp.zero)

/-- The row reference of an exact integer row (R116). -/
def rowRefInt (t : Tile) (wf : Fmt) (w : WRow) : Int := ((rowInts wf w).map (fun v => v.2 * t.xi.getD v.1 0)).foldl (· + ·) 0

/-- eᵀW and eᵀ|W| of a group's rows at one K position, in FP32 (R117). [DESIGN CHOICE 43] -/
def colVals (wf : Fmt) (ws : List WRow) (k : Nat) : Fp × Fp :=
  let l := (ws.flatMap (fun w => rowVals wf ((w.drop (k / 32)).take 1))).filter (fun v => v.1 = k)
  (l.foldl (fun a v => add32 a v.2) Fp.zero, l.foldl (fun a v => add32 a (Fp.abs v.2)) Fp.zero)

/-- eᵀW of a group's rows at one K position in exact integer mode (R117). -/
def colInt (wf : Fmt) (ws : List WRow) (k : Nat) : Int :=
  ((ws.flatMap (fun w => rowInts wf ((w.drop (k / 32)).take 1))).filter (fun v => v.1 = k)).foldl (fun a v => a + v.2) 0

/-- The column reference (eᵀW)·x of lane m and its magnitude reference, in FP32 (R117). [DESIGN CHOICE 43] -/
def colRefs (t : Tile) (wf : Fmt) (ws : List WRow) (m : Nat) : Fp × Fp :=
  (List.range t.tk).foldl (fun a k =>
    let c := colVals wf ws k
    let x := decodeScaled t.fmt (t.x.getD (k * t.pm + m) 0) (t.sc.getD (k / 32 * t.pm + m) 127)
    (fma32 c.1 x a.1, fma32 c.2 (Fp.abs x) a.2)) (Fp.zero, Fp.zero)

/-- The column reference of lane m in exact integer mode (R117). -/
def colRefInt (t : Tile) (wf : Fmt) (ws : List WRow) (m : Nat) : Int :=
  ((List.range t.tk).map (fun k => colInt wf ws k * decodeInt t.fmt (t.x.getD (k * t.pm + m) 0))).foldl (· + ·) 0

/-- Does a check mismatch in a float mode (R118): an output sum formed in FP32 against a reference, τ × A bounding the difference of two finite
values. [DESIGN CHOICE 43] -/
def sumMismatch (tau : Nat) (out : List Fp) (ref : Fp × Fp) : Bool :=
  let x := out.foldl add32 Fp.zero
  if x.isFin && ref.1.isFin then
    if !ref.2.isFin then false else Fp.lt (ref.2.scale (-(tau : Int))) (Fp.abs (x.add ref.1.neg))
  else x.isFin != ref.1.isFin

/-- Difference of a row's output sum from its reference in exact integer mode (R118). -/
def rowDelta (o : GOp) (t : Tile) (k : KRow) : Int :=
  let wf := (Desc.ofWord o.da).f
  ((List.range t.pm).map (outInt t wf k.w k.err)).foldl (· + ·) 0 - rowRefInt t wf k.w

/-- Does a row check mismatch (R118). -/
def rowWrong (tau : Nat) (o : GOp) (t : Tile) (k : KRow) : Bool :=
  let wf := (Desc.ofWord o.da).f
  if o.xint then decide (rowDelta o t k ≠ 0)
  else sumMismatch tau ((List.range t.pm).flatMap (outPartials t wf k.w k.err)) (rowRefs t wf k.w)

/-- Difference of a lane's output sum over a group from its reference in exact integer mode (R118). -/
def laneDelta (o : GOp) (t : Tile) (ks : List KRow) (m : Nat) : Int :=
  let wf := (Desc.ofWord o.da).f
  (ks.map (fun k => outInt t wf k.w k.err m)).foldl (· + ·) 0 - colRefInt t wf (ks.map (·.w)) m

/-- Does a lane's column check mismatch (R118). -/
def laneWrong (tau : Nat) (o : GOp) (t : Tile) (ks : List KRow) (m : Nat) : Bool :=
  let wf := (Desc.ofWord o.da).f
  if o.xint then decide (laneDelta o t ks m ≠ 0)
  else sumMismatch tau (ks.flatMap (fun k => outPartials t wf k.w k.err m)) (colRefs t wf (ks.map (·.w)) m)

/-- Group that a stream checks next. -/
def GOp.group (o : GOp) : Nat := o.passed / 256

/-- Rows of the group that a stream checks next, as far as they are written. -/
def GOp.groupRows (o : GOp) : List KRow := o.keep.filter (fun k => k.n / 256 = o.group)

/-- Is the injection of a stream in the group it checks next. -/
def GOp.injected (o : GOp) : Bool :=
  match o.inj with
  | some i => i.grp == o.group
  | none => false

/-- Is a checksum-column entry of the group wrong (R122). -/
def GOp.ckcol (o : GOp) : Bool :=
  match o.inj with
  | some i => i.grp == o.group && i.ckcol
  | none => false

/-- PART of a check record: 16 for the Rush path. -/
def checkBody (o : GOp) (a row lane action prev : Nat) : List Byte :=
  leBytes 1 o.part ++ leBytes 1 action ++ leBytes 1 a ++ leBytes 1 0xFF ++ leBytes 4 row ++ leBytes 2 lane ++ leBytes 2 0 ++
    leBytes 2 0 ++ leBytes 2 0 ++ leBytes 8 prev

/-- A second check event within 2,500,000 ticks: the array is failing (R123). -/
def noteEvent (phys : Nat) (s : State) : State :=
  let near := (SMap.get? s.lastEvt phys).any (fun t => decide (s.now < t + 2500000))
  let s1 := { s with lastEvt := SMap.put s.lastEvt phys s.now }
  if near && (SMap.get? s.failing phys).isNone then { s1 with failing := SMap.put s1.failing phys s.now } else s1

/-- A check event: record, counters, event history (R119, R123); an injected block makes none (R122). -/
def checkEvent (a phys : Nat) (o : GOp) (row lane action : Nat) (s : State) : State :=
  if o.injected then s
  else
    let prev := s.reg64 phys Reg.ARR_LAST_EVT_TICK_LO
    let r : FaultIn := { cls := .arrCheck, status := .ok, disp := .masked, req := thrReq a 0, unit := phys, body := checkBody o a row lane action prev }
    let (q, s1) := writeFaultId r s
    let s2 := { s1 with faults := { s1.faults with arrRoot := SMap.put s1.faults.arrRoot phys q } }
    noteEvent phys ((s2.count 0 Reg.ARR_EVT_COUNT 1).setReg64 phys Reg.ARR_LAST_EVT_TICK_LO s2.tb.toNat)

/-- Give the accumulator rows of kept rows their contents before them, the latest first (R120). -/
def restoreRows (phys : Nat) (o : GOp) (s : State) : State :=
  o.keep.reverse.foldl (fun u k => rawWrite u (accRow phys o k.n) k.old) s

/-- Begin a recompute of the group in check: its rows and those written after it are restored (R119, R120). -/
def startRecompute (a phys : Nat) (o : GOp) (s : State) : State :=
  let row := o.r0 + 256 * o.group
  let s1 := checkEvent a phys o row 0xFFFF 1 (restoreRows phys o (s.count phys Reg.ARR_RECOMPUTES 1))
  s1.setGr a ((s1.gr a).setOp { o with recomp := true })

/-- TAU_EXP (R118). -/
def tauExp (s : State) : Nat := s.rf 0 Reg.ARR_CTRL 4 0

/-- The stream of a partition that has a row to check: the oldest. -/
def checkStream (g : Grid) (part : Nat) : Option GOp :=
  g.ops.find? (fun o => o.kind = .stream && o.part = part && o.groupRows ≠ [])

/-- ROW_CHECK: the oldest unchecked row of the group; in a float mode a mismatch starts a recompute (R118 to R121). -/
def execRowCheck (a : Fin 96) (part : Fin 17) (bad : Bool) (s : State) : Host.Outcome State Fault Refusal :=
  match checkStream (s.gr a.val) part.val, physOf s a.val with
  | some o, some p =>
    match o.groupRows.find? (fun k => !k.chk), o.tile with
    | some k, some t =>
      if o.recomp then .next s
      else
        let mism := bad || o.ckcol || rowWrong (tauExp s) o t k
        let o1 := { o with keep := o.keep.map (fun j => if j.n = k.n then { j with chk := true, bad := bad || o.ckcol, mism := mism } else j) }
        let s1 := (if mism then s.count p Reg.ARR_ROW_MISMATCH 1 else s).setGr a.val ((s.gr a.val).setOp o1)
        if mism ∧ !o.xint then .next (startRecompute a.val p o1 s1) else .next s1
    | _, _ => .next s
  | _, _ => .next s

/-- The single element that the checks of an exact block name, its row, its lane and the difference, where it may be corrected: one row and one
lane, both by the same difference, and no clamp in the addition of the element (R119). -/
def correctable (o : GOp) (t : Tile) (ks : List KRow) (lanes : List Nat) : Option (KRow × Nat × Int) :=
  match ks.filter (·.mism), lanes with
  | [k], [m] =>
    let d := rowDelta o t k
    let v := (if o.accum then toSigned 32 (leAt k.old (4 * m) 4) else 0) + outInt t (Desc.ofWord o.da).f k.w k.err m
    if !k.bad ∧ d = laneDelta o t ks m ∧ (m ≥ o.lanes ∨ clamp32 v = v) then some (k, m, d) else none
  | _, _ => none

/-- Subtract the difference from one element in place (R119); the difference of two INT32 values clamps as their sum does (R53). -/
def correctElem (phys : Nat) (o : GOp) (k : KRow) (m : Nat) (d : Int) (s : State) : State :=
  let pa := accRow phys o k.n + 4 * m
  let s1 := if m < o.lanes then rawWrite s pa (leBytes 4 (ofSigned 32 (clamp32 (toSigned 32 (leNat (rawRead s pa 4)) - d)))) else s
  s1.count phys Reg.ARR_INT_CORRECTED 1

/-- The group has passed: its rows leave the replay copy, and the stream may complete (R105). [DESIGN CHOICE 43] -/
def passGroup (a : Nat) (o : GOp) (s : State) : State :=
  let g := o.group
  putStream a { o with keep := o.keep.filter (fun k => k.n / 256 ≠ g), passed := min o.total (256 * (g + 1)),
                       recomp := false, inj := if o.injected then none else o.inj } s

/-- Are all rows of the group in check written. -/
def GOp.groupWhole (o : GOp) : Bool := decide (o.groupRows.length = min o.total (256 * (o.group + 1)) - 256 * o.group)

/-- COLUMN_CHECK: every lane of the group whose rows are all written and checked; the block passes, is corrected, or is recomputed
(R117 to R119). -/
def execColumnCheck (a : Fin 96) (part : Fin 17) (bad : Option (Fin 256)) (s : State) : Host.Outcome State Fault Refusal :=
  match checkStream (s.gr a.val) part.val, physOf s a.val with
  | some o, some p =>
    match o.tile with
    | none => .next s
    | some t =>
      let ks := o.groupRows
      if o.recomp ∨ !o.groupWhole ∨ ks.any (fun k => !k.chk) then .next s
      else
        let lanes := (List.range t.pm).filter (fun m => laneWrong (tauExp s) o t ks m || bad.any (fun b => b.val == m))
        let s1 := s.count p Reg.ARR_COL_MISMATCH lanes.length
        if lanes = [] ∧ ks.all (fun k => !k.mism) then .next (passGroup a.val o s1)
        else if !o.xint ∨ bad.isSome then .next (startRecompute a.val p o s1)
        else
          match correctable o t ks lanes with
          | some (k, m, d) =>
            .next (passGroup a.val o (checkEvent a.val p o (o.r0 + k.n) (o.l0 + m) 0 (correctElem p o k m d s1)))
          | none => .next (startRecompute a.val p o s1)
  | _, _ => .next s

/-- Write the kept rows again from the replay copy: the block's without faults (R120). -/
def replayRows (phys : Nat) (o : GOp) (t : Tile) (s : State) : State :=
  o.keep.foldl (fun u k =>
    rawWrite u (accRow phys o k.n) (rowBytes o t k.w (if k.n / 256 = o.group then none else k.err) k.old)) s

/-- Do the checks of the rows of a group mismatch. -/
def groupWrong (tau : Nat) (o : GOp) (t : Tile) (ks : List KRow) : Bool :=
  ks.any (rowWrong tau o t) || (List.range t.pm).any (laneWrong tau o t ks)

/-- RECOMPUTE_DONE: the block runs again without the fault and is checked again; a second mismatch, of the checks or by a fault that `again` tells
of, is another event (R120, R123). A block that passes ends; one whose rows are not all written goes on. -/
def execRecomputeDone (a : Fin 96) (part : Fin 17) (again : Bool) (s : State) : Host.Outcome State Fault Refusal :=
  let g := s.gr a.val
  match g.ops.find? (fun o => o.part = part.val && o.recomp), physOf s a.val with
  | some o, some p =>
    match o.tile with
    | none => .next s
    | some t =>
      let o1 := { o with keep := o.keep.map (fun k => if k.n / 256 = o.group then { k with err := none, chk := true, bad := false, mism := false } else k) }
      if again ∨ groupWrong (tauExp s) o1 t o1.groupRows then
        .next (checkEvent a.val p { o with inj := none } (o.r0 + 256 * o.group) 0xFFFF 1 (s.count p Reg.ARR_RECOMPUTES 1))
      else
        let s1 := replayRows p o t s
        if o1.groupWhole then .next (passGroup a.val o1 s1)
        else .next (s1.setGr a.val ((s1.gr a.val).setOp { o1 with recomp := false, inj := if o.injected then none else o.inj }))
  | _, _ => .next s

end Sys2Proof.Machine
end

