-- ==== Sys2Proof/Machine/Remap.lean ====
section
/-! DEFINITION. Machine/Remap.lean: replacing a failing array (R17, R19, R123, R124, R521) and the arrival of an array in RUN. -/

namespace Sys2Proof.Machine

/-- Free spares, lowest first (R17, R123). -/
def freeSpares (s : State) : List Nat :=
  [96, 97, 98, 99].filter (fun p => (logicalOf s p).isNone && !s.defective.contains p && !s.pretired.contains p)

/-- Keys of a table by logical array, `w` entries each, without those of array `a`. -/
def dropArray {α : Type} (w a : Nat) (m : SMap α) : SMap α := m.filter (fun e => e.1 / w ≠ a)

/-- Is an item's attempt under way on an array, its threads started. -/
def Item.runsOn (i : Item) (a : Nat) : Bool := i.phase = .run && i.arr = a

/-- Is an item placed on an array, its threads not started. -/
def Item.startsOn (i : Item) (a : Nat) : Bool := (i.phase = .bind || i.phase = .load) && i.arr = a

/-- Every thread of an array stops without a record; its tokens are gone with it (R124, R471). -/
def fenceThreads (a : Nat) (s : State) : State :=
  (List.range 64).foldl (fun u t =>
    let x := u.th a t
    if x.st = .free then u
    else withdrawSem (thrReq a t) (u.setTh a t { x with st := .done, wait := .none, toks := [], faulted := true })) s

/-- The items that a fence interrupts take INTERNAL unless their attempt failed before; a remap is a reason of R472. [DEDUCED 47] -/
def fenceItems (a root : Nat) (s : State) : State :=
  { s with items := s.items.map (fun i =>
      if i.runsOn a ∧ i.fail.st.completes then { i with fail := mkFail .internal root, reason := true } else i) }

/-- What a unit of an array holds is gone (R20, R124, R142). -/
def clearArray (a : Nat) (s : State) : State :=
  { s with
    grid := SMap.del s.grid a
    dma := dropArray 4 a s.dma
    bars := dropArray 16 a s.bars
    rowst := SMap.del s.rowst a
    tabs := dropArray 16 a s.tabs
    imgs := SMap.del s.imgs a
    vecGen := dropArray 256 a s.vecGen
    accUse := s.accUse.filter (fun u => u.a ≠ a) }

/-- ARRAY_FENCE: the failing array's streams stop and its threads halt; no further write issues (R124). -/
def execArrayFence (phys : Fin 100) (s : State) : Host.Outcome State Fault Refusal :=
  match logicalOf s phys.val with
  | none => .next s
  | some a =>
    if (SMap.get? s.failing phys.val).isNone ∨ s.fencedArr.contains phys.val then .next s
    else
      let s1 := fenceItems a (SMap.getD s.faults.arrRoot phys.val 0) (fenceThreads a s)
      .next { s1 with grid := SMap.del s1.grid a, dma := dropArray 4 a s1.dma, fencedArr := setIns s1.fencedArr phys.val }

/-- May an interrupted item run again (R472, R473). -/
def Item.willReplay (s : State) (i : Item) : Bool := i.replayable && i.reason && decide (i.replays < s.rf 0 Reg.FLT_CTRL 2 0)

/-- Bytes 32 to 63 of an ARR_REMAP or ARR_RETIRED record (R478). -/
def remapBody (action a new replayed failed prev : Nat) : List Byte :=
  leBytes 1 0 ++ leBytes 1 action ++ leBytes 1 a ++ leBytes 1 new ++ leBytes 4 0 ++ leBytes 2 0xFFFF ++ leBytes 2 replayed ++
    leBytes 2 failed ++ leBytes 2 0 ++ leBytes 8 prev

/-- A retired physical array goes to OFF and its SRAM is lost (R123, R521). -/
def powerGate (phys : Nat) (s : State) : State :=
  let s1 := zeroRange (windowOf phys) 0x2000000 s
  { s1 with
    pstate := SMap.put s1.pstate phys .off
    pretired := setIns s1.pretired phys
    waking := SMap.del s1.waking phys
    failing := SMap.del s1.failing phys
    fencedArr := setDel s1.fencedArr phys
    bad := s1.bad.filter (fun b => !(decide (windowOf phys ≤ b) && decide (b < windowOf phys + 0x2000000))) }

/-- Items whose threads had not started load and bind on the spare again (R124). -/
def restartLoads (a : Nat) (s : State) : State :=
  { s with items := s.items.map (fun i => if i.startsOn a then { i with phase := if leAt i.raw 126 1 = 0 then .load else .bind, tabs := [] } else i) }

/-- The logical number moves to a spare, whose SRAM starts zeroed, program store and statistics memory included (R17, R19, R20, R123, R124,
R175, R246). [DEDUCED 48] -/
def moveTo (phys a spare : Nat) (s : State) : State :=
  let runs := s.items.filter (·.runsOn a)
  let re := (runs.filter (Item.willReplay s)).length
  let s1 := writeFault { cls := .arrRemap, status := .internal, disp := .masked, replay := decide (re > 0), req := thrReq a 0,
                         unit := phys, root := SMap.getD s.faults.arrRoot phys 0,
                         body := remapBody 2 a spare re (runs.length - re) (s.reg64 phys Reg.ARR_LAST_EVT_TICK_LO) } s
  let s2 := zeroRange (windowOf spare) 0x2000000 (restartLoads a (clearArray a (powerGate phys s1)))
  let s3 := { s2 with
    lmap := SMap.put s2.lmap a spare
    redir := SMap.put s2.redir phys spare
    sramWait := SMap.put (SMap.del s2.sramWait phys) spare (SMap.getD s2.sramWait spare [] ++ SMap.getD s2.sramWait phys []) }
  beginWake spare ((s3.count 0 Reg.ARR_REMAP_COUNT 1).setReg64 0 Reg.ARR_REMAP_TICK_LO s3.tb.toNat)

/-- Accesses that waited for an array that no longer answers. -/
def failSramWait (phys : Nat) (s : State) : State :=
  (SMap.getD s.sramWait phys []).foldl (fun u q => unbacked q u)
    { s with sramWait := SMap.del s.sramWait phys }

/-- The logical number is retired: every item on it fails with INTERNAL (R17, R470). [DEDUCED 29] -/
def retireLogical (phys a : Nat) (s : State) : State :=
  let on := s.items.filter (fun i => i.runsOn a || i.startsOn a)
  let root := SMap.getD s.faults.arrRoot phys 0
  let s1 := writeFault { cls := .arrRetired, status := .internal, disp := .reported, req := thrReq a 0, unit := phys, root := root,
                         body := remapBody 3 a 0xFF 0 on.length (s.reg64 phys Reg.ARR_LAST_EVT_TICK_LO) } s
  let s2 := failSramWait phys (clearArray a (powerGate phys s1))
  { s2 with
    lretired := setIns s2.lretired a
    shares := SMap.del s2.shares a
    items := s2.items.map (fun i =>
      if i.runsOn a || i.startsOn a then
        { i with phase := .run, reason := false, fail := if i.fail.st.completes then mkFail .internal root else i.fail }
      else i) }

/-- ARRAY_REMAP: a fenced array's logical number moves to the lowest free spare, or is retired (R17, R123, R124). -/
def execArrayRemap (phys : Fin 100) (s : State) : Host.Outcome State Fault Refusal :=
  if !s.fencedArr.contains phys.val then .next s
  else
    match logicalOf s phys.val, freeSpares s with
    | some a, p :: _ => .next (moveTo phys.val a p s)
    | some a, [] => .next (retireLogical phys.val a s)
    | none, _ => .next s

/-- Serve the accesses that waited for an array, by the round-robin pointer of its SRAM (R39); `k` bounds them. -/
def serveWaiting (phys : Nat) : Nat → List MemReq → State → State
  | 0, _, s => s
  | k + 1, l, s =>
    match rrGrant (rrSram phys) (l.map (·.rid)) s with
    | none => s
    | some (w, s1) =>
      match l.findIdx? (fun q => q.rid = w) with
      | none => s1
      | some i =>
        match l[i]? with
        | none => s1
        | some q => serveWaiting phys k (l.eraseIdx i) (serveMem q s1)

/-- An array arrives in RUN and serves the accesses that waited for it (R18, R22, R410). -/
def wakeDone (phys : Nat) (s : State) : State :=
  let q := SMap.getD s.sramWait phys []
  serveWaiting phys q.length q
    { s with pstate := SMap.put s.pstate phys .run, waking := SMap.del s.waking phys, sramWait := SMap.del s.sramWait phys,
             pw := { s.pw with arrSince := SMap.put s.pw.arrSince phys s.now } }

/-- Is an array on its way to RUN with its clock running. -/
def mayWake (phys : Nat) (s : State) : Bool := (SMap.get? s.waking phys).isSome && s.aclk.on

end Sys2Proof.Machine
end

