-- ==== Sys2Proof/Machine/Tier2.lean ====
section
/-! DEFINITION. Machine/Tier2.lean: tier-2 packages with their self-refresh and fill (R84 to R87), accesses to array SRAM windows
(R18, R521), the MMU's invalidations and walks (R33, R92), and the checkpoint engine (R95 to R97). -/

namespace Sys2Proof.Machine

/-- No package that a tier-2 range touches is in self-refresh (R86). -/
def t2Awake (q : MemReq) (s : State) : Bool := (t2Pkgs s q.pa q.len).all (fun p => !s.selfRef.contains p)

/-- Can a waiting tier-2 access be served now: the fill has ended and no package it touches is in self-refresh (R86, R87). -/
def t2Ready (q : MemReq) (s : State) : Bool := (s.rf 0 Reg.T2_STATUS 1 1 == 1) && t2Awake q s

/-- What a tier-2 read met (R84). -/
def applyT2Event (ev : HbmEvent) (pa : Nat) (s : State) : State :=
  match ev with
  | .oneSymbol => s.count (t2Pkg s pa) Reg.T2_PKG_CE 1
  | .manySymbols => markBad pa s
  | .silent => silentError pa s
  | .clean | .parity => s

/-- An access is admitted at the package of its first address: it counts for its class (R35), and its packages note it (R86). -/
def admitT2 (q : MemReq) (s : State) : State :=
  let p := t2Pkg s q.pa
  noteT2 q.pa q.len { s with t2Counts := SMap.put s.t2Counts p (countAdmission (SMap.getD s.t2Counts p noCounts) (reqClass q.rid)) }

/-- Serve a tier-2 access. -/
def serveT2 (q : MemReq) (ev : HbmEvent) (s : State) : State :=
  let s1 := admitT2 q s
  if q.wdata.isNone ∨ partWrite s1 q.pa q.len then serveMem q (applyT2Event ev (readWord q s1) s1) else serveMem q s1

/-- An access waits for tier 2. -/
def holdT2 (q : MemReq) (s : State) : State := { s with t2Wait := s.t2Wait ++ [q] }

/-- A request to tier 2 (R84 to R87): served, or waiting for a self-refresh exit or, where its address is not yet filled, for the fill; with
packages missing it fails (R465); beyond the configuration nothing answers (R29). [DESIGN CHOICE 171] -/
def t2Req (q : MemReq) (ev : HbmEvent) (s : State) : State :=
  if (backing s q.pa).isNone then unbacked q s
  else if t2Short s then serveMem q s
  else if !t2Awake q s then holdT2 q s
  else if s.rf 0 Reg.T2_STATUS 1 1 = 1 then serveT2 q ev s
  else
    let (k, s1) := s.drawFree
    if Config.t2Filled k then serveT2 q ev s1 else holdT2 q s1

/-- TIER2_ACCESS (R84 to R87). -/
def execTier2Access (q : MemReq) (ev : HbmEvent) (s : State) : Host.Outcome State Fault Refusal :=
  if !unitsOn s ∨ regionOf q.pa ≠ .tier2 ∨ q.len = 0 then .next s else .next (t2Req q ev s)

/-- Serve the waiting accesses that can be served: at each package by class shares and then by its pointers (R34, R35, R39); `k` bounds them. -/
def drainT2Aux : Nat → State → State
  | 0, s => s
  | k + 1, s =>
    match s.t2Wait.find? (fun q => t2Ready q s) with
    | none => s
    | some q0 =>
      let p := t2Pkg s q0.pa
      let cs := s.t2Wait.filter (fun q => t2Ready q s && t2Pkg s q.pa == p)
      match pickWaiting (SMap.getD s.t2Counts p noCounts) (rrT2 p) cs s with
      | none => s
      | some (_, i, s1) =>
        match cs[i]? with
        | none => s
        | some q => drainT2Aux k (serveT2 q .clean { s1 with t2Wait := s1.t2Wait.erase q })

/-- Serve the waiting accesses that can be served. -/
def drainT2 (s : State) : State := drainT2Aux s.t2Wait.length s

/-- SELF_REFRESH_ENTRY: a package without an access for 100 µs, 2,500 ticks (R86). -/
def execSelfRefreshEntry (pkg : Fin 32) (s : State) : Host.Outcome State Fault Refusal :=
  if s.selfRef.contains pkg.val ∨ s.now < SMap.getD s.t2Last pkg.val 0 + 2500 ∨ s.t2Count ≤ pkg.val ∨
     s.t2Wait.any (fun q => (t2Pkgs s q.pa q.len).contains pkg.val) ∨ s.rf 0 Reg.T2_STATUS 1 1 = 0 then .next s
  else .next { s with selfRef := setIns s.selfRef pkg.val }

/-- Does a warm start hold every package in self-refresh (R86). -/
def t2Held (s : State) : Bool :=
  match s.up.boot with
  | some b => b.kind == 2 && b.failed.isNone
  | none => false

/-- A package leaves self-refresh and what waited for it is served; the hold of a warm start keeps it there (R86). -/
def leaveSelfRefresh (pkg : Nat) (s : State) : State :=
  if t2Held s then s else drainT2 { s with selfRef := setDel s.selfRef pkg }

/-- The fill ends: T2_STATUS.READY, unless packages are missing (R87, R465). -/
def t2FillDone (s : State) : State :=
  if s.rf 0 Reg.T2_STATUS 1 0 ≠ 1 ∨ t2Short s then s else drainT2 (s.setRf 0 Reg.T2_STATUS 1 1 1)

/-- What an SRAM read met: a single wrong bit is corrected and counted, two are an error (R470). -/
def applySramEvent (ev : BitErr) (pa : Nat) (s : State) : State :=
  match ev with
  | .one => s.count 0 Reg.FLT_SRAM_CE 1
  | .two => markBad ((backing s pa).getD pa) s
  | .none => s

/-- Serve an access to array SRAM. -/
def serveSram (q : MemReq) (ev : BitErr) (s : State) : State :=
  if q.wdata.isNone then serveMem q (applySramEvent ev q.pa s) else serveMem q s

/-- A request to an array SRAM window (R18, R19, R521): served by the array that carries it; an array not in RUN is woken first and
the request waits; the window of an OFF array is a reserved range. -/
def sramReq (q : MemReq) (ev : BitErr) (s : State) : State :=
  match regionOf q.pa with
  | .sram n _ =>
    match servingArray s n with
    | none => unbacked q s
    | some m =>
      if s.pst m = .run then serveSram q ev (arrayUp m s)
      else if s.aclk.on then beginWake m { s with sramWait := SMap.put s.sramWait m (SMap.getD s.sramWait m [] ++ [q]) }
      else waitClock .aclk (.sram q) s
  | _ => s

/-- SRAM_ACCESS (R18, R19, R521). -/
def execSramAccess (q : MemReq) (ev : BitErr) (s : State) : Host.Outcome State Fault Refusal :=
  if unitsOn s then .next (sramReq q ev s) else .next s

/-- Effect of MMU_INV_CTRL: GO starts the invalidation of the selected range, or sets REJECTED while one runs (R33). -/
def invGo (val : W32) (s : State) : State :=
  if fld val 0 0 = 0 then s
  else if s.inval.isSome then s.setRf 0 Reg.MMU_INV_STATUS 2 2 1
  else
    let va := s.reg64 0 Reg.MMU_INV_VA_LO % 2 ^ 48
    let n := (s.reg 0 Reg.MMU_INV_SIZE).toNat
    { s with inval := some (if n = 0 then (0, 2 ^ 48) else (va, n * 0x10000)) }.setRf 0 Reg.MMU_INV_STATUS 0 0 1

/-- The rule of MMU_INV_CTRL (R33). -/
def invRule : WriteRule := { effect := fun _ _ _ v s => invGo v s }

/-- MMU_INV_GO (R33). -/
def execMmuInvGo (port : Port) (val : W32) (rid : W16) (s : State) : Host.Outcome State Fault Refusal :=
  .next (portWrite invRule ⟨port, Reg.MMU_INV_CTRL, val, rid.toNat⟩ s)

/-- MMU_INVALIDATION_DONE: the range's cached translations are gone, BUSY clears, DONE sets (R33). -/
def execMmuInvalidationDone (s : State) : Host.Outcome State Fault Refusal :=
  match s.inval with
  | none => .next s
  | some (va, n) =>
    let keep := fun (e : TlbEntry) => decide (e.va + e.size ≤ va) || decide (va + n ≤ e.va)
    .next (({ s with tlb := s.tlb.filter keep, inval := none }.setRf 0 Reg.MMU_INV_STATUS 0 0 0).setRf 0
      Reg.MMU_INV_STATUS 1 1 1)

/-- Is a requester number that of a thread (R37): its failures are told by the THREAD record. -/
def isThreadRid (rid : Nat) : Bool := decide (0x1000 ≤ rid) && decide (rid < 0x2800)

/-- TABLE_WALK: the walk of an access that missed the translation cache; its requester gets the physical address or the fault,
which a unit other than a thread records (R30, R31, R92 to R94). -/
def execTableWalk (va : Fin 281474976710656) (need : Perm) (rid : W16) (s : State) : Host.Outcome State Fault Refusal :=
  if !unitsOn s ∨ (tlbFind s va.val).isSome then .next s
  else
    match translate { rid := rid.toNat, va := va.val } va.val need s with
    | (.ok pa, s1) => .next (s1.emit (.memReply rid.toNat .ok (leBytes 8 pa)))
    | (.error f, s1) =>
      .next ((if isThreadRid rid.toNat then s1 else unitFault rid.toNat va.val f s1).emit (.memReply rid.toNat f.st []))

/-- The 32 bytes of checkpoint entry `i` (R95). -/
def ckpEntry (va i : Nat) (s : State) : MRes (List Byte) := vRead { rid := ckpRid } .r (va + 32 * i) 32 s

/-- End a checkpoint list (R96). -/
def ckpEnd (code : Status) (s : State) : State :=
  let s1 := { s with ckp := none }
  let s2 := ((s1.setRf 0 Reg.CKP_STATUS 7 0 code.code).setRf 0 Reg.CKP_STATUS 8 8 0).setRf 0 Reg.CKP_STATUS 9 9 0
  raiseEvt .ckpt (s2.setReg64 0 Reg.CKP_TICK_LO s2.tb.toNat)

/-- The HBM source pages of 64 KiB of one 2 MiB unit of an entry, on which Lode writes are held (R25, R97). -/
def heldUnit (src entry unit : Nat) (s : State) : List (Nat × Nat × Nat) :=
  (List.range 32).filterMap (fun j =>
    match (translate { rid := ckpRid } (src + unit * 0x200000 + j * 0x10000) .r s).1 with
    | .ok pa => if regionOf pa = .hbm then some (pa, entry, unit) else none
    | .error _ => none)

/-- The held pages of one entry: those of its source, when it copies from HBM (R25, R97). -/
def heldEntry (entry : Nat) (e : List Byte) (s : State) : List (Nat × Nat × Nat) :=
  if bit (leAt e 20 1) 0 then []
  else (List.range (leAt e 16 4)).flatMap (fun u => heldUnit (leAt e 0 6) entry u s)

/-- The held pages of a list. -/
def ckpHeld (va count : Nat) (s : State) : List (Nat × Nat × Nat) :=
  (List.range count).flatMap (fun i =>
    match (ckpEntry va i s).1 with
    | .ok e => heldEntry i e s
    | .error _ => [])

/-- Start a list of `n` entries at `va` (R97): a bad count ends it at once, and so does a tier 2 short of packages (R465). -/
def ckpBegin (va n : Nat) (s : State) : State :=
  let s1 := (({ s with ckpArmed := none }.setRf 0 Reg.CKP_STATUS 9 9 0).setReg 0 Reg.CKP_DONE 0)
  if n = 0 ∨ n > 4096 then ckpEnd .descriptorInvalid s1
  else if t2Short s1 then ckpEnd .memUncorrectable s1
  else { s1 with ckp := some ⟨va, n, 0, 0, ckpHeld va n s1⟩ }.setRf 0 Reg.CKP_STATUS 8 8 1

/-- The list that the CKP registers name: its address and its count (R97). [DEDUCED 172] -/
def ckpList (s : State) : Nat × Nat := (s.reg64 0 Reg.CKP_LIST_LO % 2 ^ 48, s.rf 0 Reg.CKP_COUNT 12 0)

/-- Effect of a write to CKP_CTRL; ARM takes the address and the count as they stand (R97). [DEDUCED 172] -/
def ckpCtrl (val : W32) (s : State) : State :=
  let busy := s.rf 0 Reg.CKP_STATUS 8 8 = 1
  let armed := s.rf 0 Reg.CKP_STATUS 9 9 = 1
  let reject := s.setRf 0 Reg.CKP_STATUS 10 10 1
  match fld val 0 0, fld val 1 1 with
  | 0, 0 => s
  | 1, 1 => reject
  | 1, _ => if busy ∨ armed then reject else { s with ckpArmed := some (ckpList s) }.setRf 0 Reg.CKP_STATUS 9 9 1
  | _, _ => if busy ∨ armed ∨ s.rf 0 Reg.DSP_STATUS 1 1 = 1 then reject else ckpBegin (ckpList s).1 (ckpList s).2 s

/-- A write to CKP_CTRL. -/
def ckpRule : WriteRule := { effect := fun _ _ _ v s => ckpCtrl v s }

/-- CKP_ARM (R97). -/
def execCkpArm (port : Port) (val : W32) (rid : W16) (s : State) : Host.Outcome State Fault Refusal :=
  .next (portWrite ckpRule ⟨port, Reg.CKP_CTRL, val ||| 1, rid.toNat⟩ s)

/-- CKP_START (R97). -/
def execCkpStart (port : Port) (val : W32) (rid : W16) (s : State) : Host.Outcome State Fault Refusal :=
  .next (portWrite ckpRule ⟨port, Reg.CKP_CTRL, val ||| 2, rid.toNat⟩ s)

/-- Is a source address allowed: class W HBM, or tier 2 when DIR is 1 (R95). -/
def ckpSrcOk (dir : Bool) (pa : Nat) (s : State) : Bool :=
  if dir then regionOf pa = .tier2 else regionOf pa = .hbm && !isClassA s pa

/-- Is a destination address allowed: the other tier (R95). -/
def ckpDstOk (dir : Bool) (pa : Nat) : Bool := if dir then regionOf pa = .hbm else regionOf pa = .tier2

/-- Copy one 64 KiB page of a frame: translations, tiers, the source's errors, then the data, each transfer admitted
in the CKPT class (R34, R95, R96). -/
def ckpPage (dir : Bool) (src dst : Nat) (s : State) : MRes Unit :=
  match translate { rid := ckpRid, va := src } src .r s with
  | (.error f, s1) => (.error f, s1)
  | (.ok ps, s1) =>
    match translate { rid := ckpRid, va := dst } dst .w s1 with
    | (.error f, s2) => (.error f, s2)
    | (.ok pd, s2) =>
      if !ckpSrcOk dir ps s2 || !ckpDstOk dir pd then (.error (mkFail .descriptorInvalid 0), s2)
      else
        match refusedAt s2 ps 0x10000, refusedAt s2 pd 0x10000 with
        | some (g, r), _ => (.error (mkFail .memUncorrectable r), countUe s2 g)
        | none, some (g, r) => (.error (mkFail .memUncorrectable r), countUe s2 g)
        | none, none =>
          match firstBad s2 ps 0x10000 with
          | some w =>
            let rec_ := errRecord { rid := ckpRid, va := src } s2 w
            let (q, s3) := writeFaultId rec_ (countUe s2 w)
            (.error (mkFail rec_.status q), s3)
          | none =>
            let s3 := copyRange ps pd 0x10000 (unitReach { rid := ckpRid } pd 0x10000 (unitReach { rid := ckpRid } ps 0x10000 s2).2).2
            (.ok (), { s3 with scales := s3.scales.filter (fun e => e.1 < pd / 32 || (pd + 0x10000) / 32 ≤ e.1) })

/-- Copy one 2 MiB frame, page by page. [DEDUCED 36] -/
def ckpCopyPages (dir : Bool) (src dst : Nat) : Nat → State → MRes Unit
  | 0, s => (.ok (), s)
  | k + 1, s =>
    match ckpPage dir src dst s with
    | (.error f, s1) => (.error f, s1)
    | (.ok _, s1) => ckpCopyPages dir (src + 0x10000) (dst + 0x10000) k s1

/-- Move on to the next entry, ending the list after the last (R96). -/
def ckpNextEntry (r : CkpRun) (s : State) : State :=
  let s1 := s.setReg 0 Reg.CKP_DONE (BitVec.ofNat 32 (r.entry + 1))
  if r.entry + 1 ≥ r.count then ckpEnd .ok s1
  else { s1 with ckp := some { r with entry := r.entry + 1, frame := 0 } }

/-- End the list at a failure (R96, R97). [DEDUCED 36] -/
def ckpFail (va : Nat) (f : Fail) (s : State) : State := ckpEnd f.st (unitFault ckpRid va f s)

/-- One frame of an entry has been copied: its hold ends (R25, R96). -/
def ckpFrameDone (r : CkpRun) (frames : Nat) (s : State) : State :=
  let r1 := { r with frame := r.frame + 1, held := r.held.filter (fun h => h.2 ≠ (r.entry, r.frame)) }
  if r1.frame ≥ frames then ckpNextEntry r1 s else { s with ckp := some r1 }

/-- The next frame of the current entry (R95, R96). -/
def ckpStep (r : CkpRun) (e : List Byte) (s : State) : State :=
  let src := leAt e 0 6
  let dst := leAt e 8 6
  let n := leAt e 16 4
  let dir := bit (leAt e 20 1) 0
  if n = 0 then ckpNextEntry r s
  else if src % 0x200000 ≠ 0 ∨ dst % 0x200000 ≠ 0 then ckpFail src (mkFail .descriptorInvalid 0) s
  else
    let o := r.frame * 0x200000
    match ckpCopyPages dir (src + o) (dst + o) 32 s with
    | (.error f, s1) => ckpFail (src + o) f s1
    | (.ok _, s1) => ckpFrameDone r n s1

/-- CHECKPOINT_FRAME_COPY: the next frame of the running list (R95, R96). -/
def execCheckpointFrameCopy (s : State) : Host.Outcome State Fault Refusal :=
  match s.ckp with
  | none => .next s
  | some r =>
    match ckpEntry r.va r.entry s with
    | (.error f, s1) => .next (ckpFail (r.va + 32 * r.entry) f s1)
    | (.ok e, s1) => .next (ckpStep r e s1)

end Sys2Proof.Machine
end

