-- ==== Sys2Proof/Machine/Dispatcher.lean ====
section
/-! DEFINITION. Machine/Dispatcher.lean: taking work items (R391), placing and starting them (R394, R399 to R402), binding their tables
(R135, R140 to R143), their end and replay (R177, R472, R473), and enabling the dispatcher (R409, R522). -/

namespace Sys2Proof.Machine

/-- Requester number of the dispatcher (R37). -/
def dspReq : Nat := 0x0003

/-- DSP_STATUS.CFG_ERR. -/
def dspCfgErr (s : State) : State := s.setRf 0 Reg.DSP_STATUS 0 0 1

/-- DSP_CTRL.EN. -/
def dspEn (s : State) : Bool := s.rf 0 Reg.DSP_CTRL 0 0 == 1

/-- Logical arrays in service: those whose number is not retired (R17, R409). -/
def inService (s : State) : List Nat := (List.range 96).filter (fun a => !s.lretired.contains a)

/-- Is the physical array of a logical number OFF. -/
def arrOff (s : State) (a : Nat) : Bool :=
  match physOf s a with
  | some p => s.pst p == .off
  | none => true

/-- Logical arrays in service and not OFF. -/
def usable (s : State) : List Nat := (inService s).filter (fun a => !arrOff s a)

/-- Reserved bits and fields of a work item, PLACE 3 and NTAB (R390, R391). -/
def reservedBad (i : Item) : Bool :=
  decide (2 ^ 48 ≤ i.imgVa) || decide (2 ^ 18 ≤ i.words) || decide (2 ^ 17 ≤ i.load) || decide (2 ^ 17 ≤ i.entry) ||
  decide (64 ≤ leAt i.raw 96 1) || decide (64 ≤ leAt i.raw 98 1) || bit (leAt i.raw 102 1) 7 || leAt i.raw 127 1 != 0 ||
  i.place == 3 || decide (16 < i.ntab)

/-- The checks of R391 on the fields of one entry. [DEDUCED 109] -/
def fieldsBad (i : Item) : Bool :=
  reservedBad i || decide (64 < i.nthr) ||
  (i.nthr != 0 && !i.noload &&
    (decide (psWords < i.load + i.words) || decide (i.entry < i.load) || decide (i.load + i.words ≤ i.entry))) ||
  (i.place == 1 && decide (95 < i.parr)) || (i.place == 2 && i.dep0 == 0xFFFF) ||
  (!i.eval && i.deps.any (fun d => decide (i.gidx ≤ d)))

/-- Is the GIDX of an entry taken in its step (R391). -/
def gidxTaken (s : State) (i : Item) : Bool := !i.eval && (stepItem s i.step i.gidx).isSome

/-- Does the STEP of an entry lie below the open step, or not above the last closed one while none is open (R391). -/
def stepBad (s : State) (i : Item) : Bool :=
  !i.eval &&
  (match s.openStep, s.lastStep with
   | some n, _ => decide (i.step < n)
   | none, some m => decide (i.step ≤ m)
   | none, none => false)

/-- The smallest waiting STEP above the last closed one (R395). -/
def nextStep (s : State) : Option Nat :=
  ((s.items.filter (fun i => !i.eval && (match s.lastStep with
    | some m => decide (m < i.step)
    | none => true))).map (·.step)).min?

/-- A step opens where none is open and one is waiting (R395). -/
def openNext (s : State) : State :=
  if s.openStep.isSome ∨ !dspEn s then s else showStep { s with openStep := nextStep s }

/-- Batches that the open step names, each once, as stream and count (R397). -/
def stepBatches (s : State) (n : Nat) : List (Nat × Nat) :=
  (((s.items.filter (fun i => i.inStep n && i.usesBatch)).map (fun i => (i.bstream, batchNo s i)))).dedup

/-- The dispatcher releases an offered batch by its count; one that the host has released already is free (R325, R397). -/
def releaseCount (x : Nat × Nat) (s : State) : State :=
  match ((SMap.getD s.bstreams x.1 BStream.empty).offered.find? (fun o => o.1 = x.2)).map (·.2) with
  | some b => releaseBuf x.1 b s
  | none => batCfgErr s

/-- Has a batch been offered (R321, R397). -/
def wasOffered (s : State) (x : Nat × Nat) : Bool := decide (x.2 < (s.bst x.1).count)

/-- Release an offered batch of the open step, once, when every item of the closed graph that names it has completed (R397). -/
def releaseBatch (n : Nat) (x : Nat × Nat) (s : State) : State :=
  if s.released.contains x ∨ !wasOffered s x ∨
      !s.items.all (fun i => !(i.inStep n && i.usesBatch && decide ((i.bstream, batchNo s i) = x)) || i.phase == .done) then s
  else releaseCount x { s with released := x :: s.released }

/-- Release what the open step no longer needs, and what closed steps left (R397). -/
def releaseBatches (s : State) : State :=
  let due := s.relDue.filter (wasOffered s)
  let s1 := due.foldl (fun t x => releaseCount x t) { s with relDue := s.relDue.filter (fun x => !wasOffered s x) }
  match s1.openStep with
  | some n => if stepClosed s1 n then (stepBatches s1 n).foldl (fun t x => releaseBatch n x t) s1 else s1
  | none => s1

/-- What follows a change among the items: they become ready or complete, batches are released (R396, R397). -/
def afterItems (s : State) : State := releaseBatches (showStep (settleItems s))

/-- BATCH_OFFER: the oldest closed batch is offered to the dispatcher: items that waited for it become ready, and one that no item needs any more
is released (R321, R396, R397). -/
def execBatchOffer (stream : Fin 64) (s : State) : Host.Outcome State Fault Refusal :=
  let n := stream.val
  let b := s.bst n
  match b.closed with
  | [] => .next s
  | buf :: r => .next (afterItems (putBst n { b with closed := r, offered := b.offered ++ [(b.count, buf)], count := b.count + 1 } s))

/-- An entry that a check rejects completes with DESCRIPTOR_INVALID; unless it belongs to no step it counts as a completed item of its
step (R391). [DEDUCED 110] -/
def rejectItem (i : Item) (noStep : Bool) (s : State) : State :=
  let s1 := finishEntry i.queue i.index .descriptorInvalid 0 (s.count i.branch Reg.DSP_ITEMS 1)
  if noStep then s1 else { s1 with items := s1.items ++ [{ i with phase := .done, fail := mkFail .descriptorInvalid 0 }] }

/-- The dispatcher takes an entry (R391, R395). -/
def takeItem (i : Item) (s : State) : State :=
  let s1 :=
    if stepBad s i ∨ (i.eval ∧ fieldsBad i) then rejectItem i true s
    else if gidxTaken s i ∨ fieldsBad i then rejectItem i false s
    else { s with items := s.items ++ [i] }
  afterItems (openNext s1)

/-- WORK_ENTRY: the oldest WORK entry of a queue that no BARRIER holds is taken by the dispatcher while it is enabled (R391, R522). -/
def execWorkEntry (q : Fin 256) (s : State) : Host.Outcome State Fault Refusal :=
  if !dspEn s then .next s
  else
    match startable (s.sq q.val) 1 with
    | none => .next s
    | some k =>
      match (s.sq q.val).ents[k]? with
      | none => .next s
      | some e => .next (takeItem (Item.fresh (itemId q.val e.idx) e.raw) (modEntry q.val k HEntry.start s))

/-- Is an item placed on an array, its threads starting, running or waiting for their replay. -/
def Item.holds (i : Item) (a : Nat) : Bool :=
  i.arr == a && (i.phase == .bind || i.phase == .load || i.phase == .run || i.phase == .replay)

/-- Does an array hold an item. -/
def arrHeld (s : State) (a : Nat) : Bool := s.items.any (fun i => i.holds a)

/-- FREE threads of a logical array (R151). -/
def freeList (s : State) (a : Nat) : List Nat := (List.range 64).filter (fun t => (s.th a t).st == .free)

/-- Threads of an array that starting items have received (R150). -/
def takenThreads (s : State) (a : Nat) : List Nat :=
  (s.items.filter (fun i => i.arr == a && (i.phase == .bind || i.phase == .load))).flatMap (·.threads)

/-- FREE threads of an array that no starting item has received (R150, R399). -/
def openThreads (s : State) (a : Nat) : List Nat := (freeList s a).filter (fun t => !(takenThreads s a).contains t)

/-- How many threads of an array a new item could receive (R399). -/
def freeThreads (s : State) (a : Nat) : Nat := (openThreads s a).length

/-- Does the store range of an item on the array overlap the range of a new item with a different image (R394). -/
def imageClash (s : State) (a : Nat) (i : Item) : Bool :=
  !i.noload && s.items.any (fun o => o.id != i.id && o.holds a && o.phase != .replay && !o.noload &&
    !(o.imgVa == i.imgVa && o.words == i.words && o.load == i.load) &&
    decide (o.load < i.load + i.words) && decide (i.load < o.load + o.words))

/-- May an item start on an array (R394, R399, R402). -/
def arrayFits (s : State) (a : Nat) (i : Item) : Bool :=
  decide (i.nthr ≤ freeThreads s a) && !imageClash s a i && (i.eval || !evalHolds s a)

/-- The array with the most free threads, ties to the lower number (R399). -/
def mostFree (s : State) (l : List Nat) : Option Nat :=
  l.foldl (fun b a => match b with
    | none => some a
    | some c => if freeThreads s c < freeThreads s a then some a else some c) none

/-- Where an item goes: an array, and whether it borrows (R399, R401, R402). -/
def placeItem (s : State) (i : Item) : Option (Nat × Bool) :=
  match fixedArray s i with
  | some a => if arrayFits s a i then some (a, false) else none
  | none =>
    let own := if i.eval then usable s else (usable s).filter (fun a => SMap.get? s.shares a = some i.branch)
    if own = [] then (((usable s).filter (fun a => arrayFits s a i)).getLast?).map (fun a => (a, true))
    else (mostFree s (own.filter (fun a => arrayFits s a i))).map (fun a => (a, false))

/-- The batch an evaluation item binds: the oldest offered one of its stream that no step or other evaluation item holds (R402). -/
def evalBatch (s : State) (i : Item) : Option Nat :=
  let base := SMap.getD s.batchBase i.bstream 0
  let step := fun (n : Nat) => s.items.any (fun j => !j.eval && s.openStep == some j.step && j.usesBatch && j.phase != .done &&
    j.bstream == i.bstream && base + j.bindex == n)
  let other := fun (b : Nat) => s.items.any (fun j => j.eval && j.phase != .done && j.batch == some (i.bstream, b))
  (((SMap.getD s.bstreams i.bstream BStream.empty).offered.find? (fun o => !step o.1 && !other o.2))).map (·.2)

/-- The batch of an item that starts; none where it must wait for one. -/
def startBatch (s : State) (i : Item) : Option (Option (Nat × Nat)) :=
  if !i.usesBatch then some none
  else ((if i.eval then evalBatch s i else batchOf s i)).map (fun b => some (i.bstream, b))

/-- Wake the array of a starting item; with the PLL stopped the item waits for the clock, and with a PLL marked failed it fails at
once (R410, R418, R419). -/
def wakeFor (id a : Nat) (s : State) : State :=
  match physOf s a with
  | none => s
  | some p =>
    if s.pst p = .run then s
    else
      let s1 := if s.aclk.on then s else waitClock .aclk (.item id) s
      if s1.aclk.failed then s1 else beginWake p s1

/-- Entry `k` of a table list as read: address, generation, and whether its reserved bytes are zero (R390). -/
def tableListEntry (l : List Byte) (k : Nat) : (Nat × Nat) × Bool :=
  ((leAt l (16 * k) 8, leAt l (16 * k + 8) 4), leAt l (16 * k + 12) 4 == 0)

/-- Read the table list of an item (R140, R390). [DEDUCED 113] -/
def readTables (c : Ctx) (i : Item) (s : State) : MRes (List (Nat × Nat)) :=
  if i.tabVa % 16 ≠ 0 then (.error (mkFail .alignment 0), s)
  else
    match vRead c .r i.tabVa (16 * i.ntab) s with
    | (.error f, s1) => (.error f, s1)
    | (.ok l, s1) =>
      let es := (List.range i.ntab).map (tableListEntry l)
      if es.all (·.2) then (.ok (es.map (·.1)), s1) else (.error (mkFail .descriptorInvalid 0), s1)

/-- Who reads for the binding of an item on an array (R141): the lowest-numbered thread that it receives. -/
def bindCtx (i : Item) (a : Nat) (s : State) : Ctx :=
  { rid := thrReq a (i.threads.headD 0), item := i.id, replay := mayReplay s i.id }

/-- The first read of the GEN word of each table (R135, R141): 0 where it fails. -/
def readGens (c : Ctx) : List (Nat × Nat) → State → List (Nat × Fail) × State
  | [], s => ([], s)
  | t :: r, s =>
    let x : (Nat × Fail) × State :=
      if t.1 % 1024 ≠ 0 then ((0, mkFail .alignment 0), s)
      else
        match vRead c .r (t.1 + 4) 4 s with
        | (.error f, s1) => ((0, f), s1)
        | (.ok w, s1) => ((leNat w, { st := .ok }), s1)
    let y := readGens c r x.2
    (x.1 :: y.1, y.2)

/-- The binding of an item begins: its list and the GEN word of every table on it are read (R141). [DEDUCED 112] -/
def beginBind (i : Item) (a : Nat) (s : State) : State :=
  let c := bindCtx i a s
  match readTables c i s with
  | (.error f, s1) => s1.modItem i.id (fun j => { j with listed := f })
  | (.ok ts, s1) =>
    let g := readGens c ts s1
    g.2.modItem i.id (fun j => { j with tabs := ts, gens := g.1 })

/-- An attempt of an item begins on an array: it receives its threads, its binding begins, and the array is woken (R141, R150, R400). -/
def beginAttempt (i : Item) (a : Nat) (borrow : Bool) (batch : Option (Nat × Nat)) (s : State) : State :=
  let mine := (openThreads s a).take i.nthr
  let s1 := { s.modItem i.id (fun j => { j with
      phase := if j.ntab = 0 then .load else .bind, order := s.readyCount, arr := a, borrow := borrow, batch := batch, threads := mine,
      tabs := [], listed := { st := .ok }, gens := [], fail := { st := .ok }, reason := false, haltAt := none }) with
    readyCount := s.readyCount + 1 }
  let s2 := if i.ntab = 0 then s1 else beginBind { i with threads := mine } a s1
  wakeFor i.id a (if borrow then s2.count i.branch Reg.DSP_BORROWED 1 else s2)

/-- Is an item the one that may start: the first ready item of its branch, or the first evaluation item while those may start (R400,
R402). -/
def itemMayStart (s : State) (i : Item) : Bool :=
  dspEn s &&
  (if i.eval then s.evalOk && i.phase == .held && s.items.all (fun j => !(j.eval && j.phase == .held) || decide (i.id ≤ j.id))
   else i.phase == .ready &&
     s.items.all (fun j => !(!j.eval && j.phase == .ready && j.branch == i.branch) || decide (i.order ≤ j.order)))

/-- Placement on a fixed array that is retired or OFF completes the item (R399). [DEDUCED 117] -/
def placeFail (s : State) (i : Item) : Option Status :=
  match fixedArray s i with
  | some a => if (physOf s a).isNone then some .internal else if arrOff s a then some .descriptorInvalid else none
  | none => none

/-- An evaluation item that completes releases its batch and leaves nothing behind (R402). -/
def dropEval (i : Item) (s : State) : State :=
  if !i.eval then s
  else
    let s1 := match i.batch with
      | some (n, b) => releaseBuf n b s
      | none => s
    { s1 with items := s1.items.filter (fun j => j.id != i.id) }

/-- An item completes with the status of its last attempt (R473). -/
def finishItem (i : Item) (s : State) : State := afterItems (dropEval i (endItem i.id i.fail.st s))

/-- ITEM_START: a ready item is placed, its array is woken, its binding or image load begins (R399 to R402); an evaluation item that is a join
completes (R393). [DEDUCED 112] -/
def execItemStart (item : W64) (s : State) : Host.Outcome State Fault Refusal :=
  match s.item? item.toNat with
  | none => .next s
  | some i =>
    if !itemMayStart s i then .next s
    else if i.nthr = 0 then .next (finishItem i s)
    else
      match placeFail s i with
      | some st => .next (afterItems (endItem i.id st s))
      | none =>
        match placeItem s i, startBatch s i with
        | some (a, b), some batch => .next (beginAttempt i a b batch s)
        | _, _ => .next s

/-- A failed start of an attempt: it ends with its failure, replayed only for a reason of R472. [DEDUCED 117] -/
def startFail (id : Nat) (f : Fail) (reason : Bool) (s : State) : State :=
  (itemFail id f s).modItem id (fun i => { i with phase := .run, reason := reason })

/-- Is a table of 1,024 bytes valid (R133 to R135): MAGIC, CHECK, NSYM, FMT, ESC_LEN, LEN, VALUE, and the Kraft sum. -/
def tableOk (b : List Byte) : Bool :=
  let n := leAt b 8 2
  let fmt := leAt b 10 1
  let esc := leAt b 11 1
  let lens := (List.range n).map (fun k => leAt b (272 + k) 1)
  let all := if esc = 0 then lens else esc :: lens
  leAt b 0 4 == 0x41485431 && leAt b 12 4 == crcReflected 0xEDB88320 (slice b 0 12 ++ leBytes 4 0 ++ slice b 16 1008) &&
  decide (1 ≤ n) && decide (n ≤ 256) && decide (fmt ≤ 5) && decide (esc ≤ 16) &&
  lens.all (fun l => decide (1 ≤ l) && decide (l ≤ 16)) && (List.range (256 - n)).all (fun k => leAt b (272 + n + k) 1 == 0) &&
  (decide (fmt < 4) || (List.range n).all (fun k => decide (leAt b (16 + k) 1 < 16))) &&
  decide ((all.map (fun l => 2 ^ (16 - l))).foldl (· + ·) 0 ≤ 2 ^ 16)

/-- The element format of a table's FMT code (R133). -/
def tableFmt (k : Nat) : Fmt :=
  match k with
  | 0 => .e4m3 | 1 => .e5m2 | 2 => .i8s | 3 => .i8u | 4 => .i4s | _ => .i4u

/-- The cache entry of a valid table (R142). -/
def tableEntry (va gen : Nat) (b : List Byte) (pins : List Nat) (used : Nat) : CodeTab :=
  let n := leAt b 8 2
  ⟨va, gen, tableFmt (leAt b 10 1), (List.range n).map (fun k => leAt b (16 + k) 1), (List.range n).map (fun k => leAt b (272 + k) 1),
    leAt b 11 1, pins, used⟩

/-- The cache entry of an array that holds a table (R142). -/
def cacheFind (s : State) (a va gen : Nat) : Option Nat :=
  (List.range 16).find? (fun e => match SMap.get? s.tabs (16 * a + e) with
    | some t => t.va == va && t.gen == gen
    | none => false)

/-- The entry a miss takes: a free one, else the least recently bound that is not pinned (R142). -/
def cacheVictim (s : State) (a : Nat) : Option Nat :=
  match (List.range 16).find? (fun e => (SMap.get? s.tabs (16 * a + e)).isNone) with
  | some e => some e
  | none =>
    (List.range 16).foldl (fun (b : Option Nat) e =>
      match SMap.get? s.tabs (16 * a + e) with
      | some t =>
        if t.pins ≠ [] then b
        else match b with
          | none => some e
          | some c => if t.used < ((SMap.get? s.tabs (16 * a + c)).map (·.used)).getD 0 then some e else b
      | none => b) none

/-- What binding one table came to: bound, failed, or no entry can be freed. -/
inductive Bound where
  | ok (s : State)
  | fail (f : Fail) (got : Nat) (s : State)
  | full
deriving DecidableEq, Repr

/-- A cached entry is bound to an item (R142). [DEDUCED 114] -/
def pinEntry (a e id : Nat) (s : State) : State :=
  match SMap.get? s.tabs (16 * a + e) with
  | some t => { s with tabs := SMap.put s.tabs (16 * a + e) { t with pins := setIns t.pins id, used := s.binds }, binds := s.binds + 1 }
  | none => s

/-- A table not in the cache: read whole, its GEN read a second time, validated and placed (R135, R141, R143). [DEDUCED 112] -/
def bindMiss (c : Ctx) (a id va gen : Nat) (s : State) : Bound :=
  match cacheVictim s a with
  | none => .full
  | some e =>
    match vRead c .r va 1024 s with
    | (.error f, s1) => .fail f gen s1
    | (.ok b, s1) =>
      let g := leAt b 4 4
      if g ≠ gen then .fail (mkFail .tableStale 0) g (s1.count 0 Reg.EXP_STALE 1)
      else if !tableOk b then .fail (mkFail .tableInvalid 0) g (s1.count 0 Reg.EXP_INVALID 1)
      else .ok { s1 with tabs := SMap.put s1.tabs (16 * a + e) (tableEntry va gen b [id] s1.binds), binds := s1.binds + 1 }

/-- Bind one table of an item's list, whose GEN word was read when the item started (R135, R141, R142). EXP_BINDS counts a binding that goes past
the first read of GEN, also one that then fails. [DESIGN CHOICE 188] -/
def bindOne (c : Ctx) (a phys id : Nat) (t : Nat × Nat) (g : Nat × Fail) (s : State) : Bound :=
  if !g.2.st.completes then .fail g.2 0 s
  else if g.1 ≠ t.2 then .fail (mkFail .tableStale 0) g.1 (s.count 0 Reg.EXP_STALE 1)
  else
    let s1 := s.count phys Reg.EXP_BINDS 1
    match cacheFind s1 a t.1 t.2 with
    | some e => .ok (pinEntry a e id (s1.count phys Reg.EXP_BIND_HITS 1))
    | none => bindMiss c a id t.1 t.2 s1

/-- The record of a failed binding (R141, R478). -/
def tableRecord (c : Ctx) (phys id va gen got : Nat) (f : Fail) : FaultIn :=
  { cls := .table, status := f.st, disp := .reported, replay := f.replayReason && c.replay, req := c.rid, unit := phys, root := f.root,
    body := leBytes 8 va ++ leBytes 4 gen ++ leBytes 4 got ++ leBytes 8 id }

/-- Bind the tables of a list in order; the first failure decides (R141). [DEDUCED 114] -/
def bindAll (c : Ctx) (a phys id : Nat) : List ((Nat × Nat) × (Nat × Fail)) → State → Bound
  | [], s => .ok s
  | (t, g) :: r, s =>
    match bindOne c a phys id t g s with
    | .ok s1 => bindAll c a phys id r s1
    | .full => .full
    | .fail f got s1 => .fail f got (writeFault (tableRecord c phys id t.1 t.2 got f) s1)

/-- Tables of a list that no pinned cache entry of an array holds (R142). -/
def needsEntry (s : State) (a : Nat) (ts : List (Nat × Nat)) : List (Nat × Nat) :=
  ts.filter (fun t => !(List.range 16).any (fun e => match SMap.get? s.tabs (16 * a + e) with
    | some x => x.va == t.1 && x.gen == t.2 && x.pins != []
    | none => false))

/-- Must a binding leave the last entries of the cache to items of the array that started before it and have not bound yet (R143). -/
def entriesShort (i : Item) (a : Nat) (s : State) : Bool :=
  let before := s.items.filter (fun j => j.phase == .bind && j.arr == a && decide (j.order < i.order))
  let pinned := ((List.range 16).filter (fun e => match SMap.get? s.tabs (16 * a + e) with
    | some x => x.pins != []
    | none => false)).length
  let own := needsEntry s a i.tabs
  !own.isEmpty && decide (16 - pinned < ((needsEntry s a (before.flatMap (·.tabs)) ++ own).dedup).length) && !before.isEmpty

/-- Bind the tables of an item that is starting on an array. -/
def bindItem (i : Item) (a phys : Nat) (s : State) : State :=
  let c := bindCtx i a s
  if !i.listed.st.completes then
    startFail i.id i.listed i.listed.replayReason (writeFault (tableRecord c phys i.id i.tabVa 0 0 i.listed) s)
  else if entriesShort i a s then s
  else
    match bindAll c a phys i.id (i.tabs.zip i.gens) s with
    | .ok s1 => s1.modItem i.id (fun j => { j with phase := .load })
    | .full => s
    | .fail f _ s1 => startFail i.id f f.replayReason s1

/-- TABLE_BIND_DONE: the tables of a starting item are read, validated and bound, or the item fails with the first failing status; it
waits while no cache entry can be freed (R135, R141, R142). [DEDUCED 112] -/
def execTableBindDone (item : W64) (s : State) : Host.Outcome State Fault Refusal :=
  match s.item? item.toNat with
  | none => .next s
  | some i =>
    match physOf s i.arr with
    | none => .next s
    | some p => if i.phase ≠ .bind ∨ s.pst p ≠ .run then .next s else .next (bindItem i i.arr p s)

/-- The record of a failed image load (R394, R478). -/
def imageRecord (phys va id : Nat) (f : Fail) : FaultIn :=
  { cls := .imageLoad, status := f.st, disp := .reported, req := dspReq, unit := phys, root := f.root,
    body := leBytes 8 va ++ leBytes 8 0 ++ leBytes 8 id }

/-- Does the store already hold the image of an item (R394). -/
def imageHeld (s : State) (i : Item) : Bool := (SMap.getD s.imgs i.arr []).contains (i.imgVa, i.words, i.load)

/-- Load the image of an item into the program store of its array (R175, R394). -/
def loadImage (i : Item) (phys : Nat) (s : State) : MRes Unit :=
  if i.nthr = 0 ∨ i.noload ∨ imageHeld s i then (.ok (), s)
  else if i.imgVa % 8 ≠ 0 then (.error { st := .alignment, va := i.imgVa }, s)
  else
    let c : Ctx := { rid := dspReq, item := i.id }
    match vRead c .x i.imgVa (8 * i.words) s with
    | (.error f, s1) => (.error f, s1)
    | (.ok b, s1) =>
      match physWrite c (psAddr phys i.load) b none (touchStore i.arr i.load i.words s1) with
      | (.error f, s2) => (.error f, s2)
      | (.ok _, s2) =>
        (.ok (), { s2 with imgs := SMap.put s2.imgs i.arr ((i.imgVa, i.words, i.load) :: SMap.getD s2.imgs i.arr []) })

/-- ARG7 as a thread sees it: the batch buffer's address where the item reads a batch (R397). -/
def lastArg (s : State) (i : Item) : Nat :=
  match i.batch with
  | some (n, b) => s.rf n Reg.BAT_BUF_VA_LO 31 21 * 0x200000 + 2 ^ 32 * s.rf n Reg.BAT_BUF_VA_HI 15 0 +
      b * s.rf n Reg.BAT_BUF_SIZE 9 0 * 0x200000
  | none => i.arg 7

/-- A thread as the dispatcher starts it (R154). -/
def startedThread (s : State) (i : Item) : Thread :=
  let args := (List.range 7).map i.arg ++ [lastArg s i]
  { Thread.free with
    st := .ready
    pc := i.entry
    s := (List.range 8).foldl (fun m k => SMap.set 0 m (k + 1) (BitVec.ofNat 64 (args.getD k 0))) []
    startAt := s.now
    item := i.id }

/-- The threads of an item start: the NTHR lowest that were FREE when it started (R150, R154). -/
def startThreads (i : Item) (s : State) : State :=
  let x := startedThread s i
  i.threads.foldl (fun t k => t.setTh i.arr k x) (s.modItem i.id (fun j => { j with phase := .run }))

/-- IMAGE_LOAD_DONE: the image is in place and the threads start, once the array runs and HBM is ready; or the load fails (R394, R458). [DEDUCED 112] -/
def execImageLoadDone (item : W64) (s : State) : Host.Outcome State Fault Refusal :=
  match s.item? item.toNat with
  | none => .next s
  | some i =>
    match physOf s i.arr with
    | none => .next s
    | some p =>
      if i.phase ≠ .load ∨ s.pst p ≠ .run ∨ s.rf 0 Reg.MEM_STATUS 1 1 = 0 ∨ !i.threads.all (fun k => (s.th i.arr k).st == .free) then .next s
      else
        match loadImage i p s with
        | (.ok _, s1) => .next (startThreads i s1)
        | (.error f, s1) => .next (startFail i.id f false (writeFault (imageRecord p f.va i.id f) s1))

/-- What an ended attempt gives back: its threads, its pins in the table cache, its barriers (R142, R151, R173). [DEDUCED 122] -/
def endAttempt (i : Item) (s : State) : State :=
  let s1 := (List.range 64).foldl (fun t k => if (t.th i.arr k).st ≠ .free ∧ (t.th i.arr k).item = i.id then t.setTh i.arr k Thread.free else t) s
  { s1 with tabs := s1.tabs.map (fun e => (e.1, if e.1 / 16 = i.arr then { e.2 with pins := setDel e.2.pins i.id } else e.2))
            bars := s1.bars.filter (fun e => !(decide (e.1 / 16 = i.arr) && e.2.item == i.id))
            pw := match physOf s1 i.arr with
              | some p => { s1.pw with arrSince := SMap.put s1.pw.arrSince p s1.now }
              | none => s1.pw }

/-- Does a requester have an operation queued at a Pool bank (R91). -/
def atPool (s : State) (rid : Nat) : Bool := s.pool.any (fun e => e.2.any (fun q => q.rid == rid))

/-- Are all threads of an item DONE, and the operations that they left at Pool banks served (R177). -/
def threadsDone (s : State) (i : Item) : Bool :=
  (List.range 64).all (fun k => (s.th i.arr k).st == .free || (s.th i.arr k).item != i.id ||
    ((s.th i.arr k).st == .done && !atPool s (thrReq i.arr k)))

/-- WORK_ITEM_COMPLETE: with all its threads DONE the item completes, or waits for its replay (R177, R472). -/
def execWorkItemComplete (item : W64) (s : State) : Host.Outcome State Fault Refusal :=
  match s.item? item.toNat with
  | none => .next s
  | some i =>
    if i.phase ≠ .run ∨ !threadsDone s i then .next s
    else
      let s1 := endAttempt i s
      if i.willReplay s then .next (s1.modItem i.id (fun j => { j with phase := .replay }))
      else .next (finishItem i s1)

/-- REPLAY_START: the replay begins on the same logical array; on one retired since, the item fails with INTERNAL (R17, R473). [DEDUCED 116] -/
def execReplayStart (item : W64) (s : State) : Host.Outcome State Fault Refusal :=
  match s.item? item.toNat with
  | none => .next s
  | some i =>
    if i.phase ≠ .replay then .next s
    else if (physOf s i.arr).isNone then
      let f := mkFail .internal 0
      .next (finishItem { i with fail := f } (s.modItem i.id (fun j => { j with fail := f })))
    else if i.nthr ≤ freeThreads s i.arr ∧ !imageClash s i.arr i then
      .next (beginAttempt i i.arr false i.batch
        ((s.modItem i.id (fun j => { j with replays := j.replays + 1 })).count 0 Reg.FLT_REPLAYS 1))
    else .next s

/-- PIN_COUNT of a branch (R409). -/
def pinCount (s : State) (b : Nat) : Nat := s.rf b Reg.DSP_SHARE 14 8

/-- The shares at enable: PIN_COUNT arrays for each branch in order, over the arrays in service that are not OFF (R409). -/
def enableShares (s : State) : SMap Nat :=
  let want := (List.range 64).flatMap (fun b => List.replicate (pinCount s b) b)
  (usable s).zip want

/-- Does a write of EN = 1 enable rather than resume: no step open, no item running, taken or ready (R522). -/
def isEnable (s : State) : Bool := s.openStep.isNone && s.items.all (fun i => i.phase == .done)

/-- The counting of windows begins again (R404, R406). -/
def restartCounts (s : State) : State := { s with cost := [], winCount := 0, winFrom := s.tb.toNat }

/-- The dispatcher is enabled with the shares of R409; enable counts as a boundary for evaluation items (R402). -/
def enableDsp (s : State) : State :=
  let w := s.rf 0 Reg.DSP_WIN_TICKS 21 0
  { restartCounts s with
    shares := enableShares s
    winTicks := w
    winK := s.tb.toNat / w
    winCost := []
    lastWin := []
    evalOk := true }.setReg 0 Reg.DSP_REBALANCES 0

/-- The rule of DSP_CTRL (R409, R522). -/
def dspCtrlRule : WriteRule :=
  { guard := fun _ old cand s =>
      let n := ((List.range 64).map (pinCount s)).foldl (· + ·) 0
      if fld old 0 0 = 0 ∧ fld cand 0 0 = 1 ∧ isEnable s ∧ (n = 0 ∨ n > (usable s).length) then (setFld cand 0 0 0, dspCfgErr s)
      else (cand, s)
    effect := fun _ old new _ s =>
      if fld old 0 0 = 0 ∧ fld new 0 0 = 1 then afterItems (openNext (if isEnable s then enableDsp s else s)) else s }

end Sys2Proof.Machine
end

