-- ==== Sys2Proof/Machine/Balance.lean ====
section
/-! DEFINITION. Machine/Balance.lean: charges and measurement windows (R403, R404), shares and their changes (R405 to R408), and the step
boundary (R23, R97, R398). -/

namespace Sys2Proof.Machine

/-- A common multiple of 1 to 64, so that 1/k of it is whole for every number of branches. -/
def chargeUnit : Nat := 1182266884102822267511361600

/-- Parts of an array-cycle: M_b counts 1 for each (R403). [DEDUCED 120] -/
def cycleParts : Nat := 4 * chargeUnit

/-- Branches whose items hold threads of a logical array, each once (R403). -/
def arrBranches (s : State) (a : Nat) : List Nat :=
  ((s.items.filter (fun i => i.phase == .run && i.arr == a &&
    (List.range 64).any (fun k => (s.th a k).st != .free && (s.th a k).item == i.id))).map (·.branch)).dedup

/-- Charge the branches of a logical array for one tick: 20 + 1.25 c cycles of ACLK (R403, R413). -/
def chargeArray (a : Nat) (s : State) : State :=
  match physOf s a with
  | none => s
  | some p =>
    if s.pst p ≠ .run then s
    else
      let bs := arrBranches s a
      let part := (80 + 5 * s.rf 0 Reg.PWR_ACLK 4 0) * (chargeUnit / max 1 bs.length)
      let k := 64 * (s.tb.toNat / max 1 s.winTicks)
      bs.foldl (fun t b => { t with winCost := SMap.put t.winCost (k + b) (SMap.getD t.winCost (k + b) 0 + part) }) s

/-- Charge every array that holds an item for one tick (R403). -/
def chargeTick (s : State) : State :=
  (((s.items.filter (fun i => i.phase == .run)).map (·.arr)).dedup).foldl (fun t a => chargeArray a t) s

/-- Sum two tables of charges. [DEDUCED 120] -/
def addCosts (a b : SMap Nat) : SMap Nat := b.foldl (fun m e => SMap.put m e.1 (SMap.getD m e.1 0 + e.2)) a

/-- Charges of a window by branch. -/
def windowCosts (s : State) (k : Nat) : SMap Nat :=
  (s.winCost.filter (fun e => e.1 / 64 = k)).map (fun e => (e.1 % 64, e.2))

/-- Close one window: it counts when it started at or after the tick from which windows count (R404). -/
def closeWindow (k : Nat) (s : State) : State :=
  let c := windowCosts s k
  let s1 := { s with winCost := s.winCost.filter (fun e => e.1 / 64 ≠ k), winK := k + 1, lastWin := c }
  if s.winFrom ≤ k * s.winTicks then { s1 with cost := addCosts s1.cost c, winCount := s1.winCount + 1 } else s1

/-- Close every window that has ended (R404). [DEDUCED 121, 160] -/
def closeWindows (s : State) : State :=
  (List.range (s.tb.toNat / max 1 s.winTicks - s.winK)).foldl (fun t _ => closeWindow t.winK t) s

/-- MEASUREMENT_WINDOW_END: the windows that have ended are closed (R404). -/
def execMeasurementWindowEnd (s : State) : Host.Outcome State Fault Refusal := .next (closeWindows s)

/-- Arrays of a branch, ascending. -/
def heldBy (sh : SMap Nat) (b : Nat) : List Nat := (sh.filter (fun e => e.2 = b)).map (·.1)

/-- Usable arrays in no share, ascending (R399). -/
def unassigned (s : State) (sh : SMap Nat) : List Nat := (usable s).filter (fun a => (SMap.get? sh a).isNone)

/-- Is PIN of a branch set (R407). -/
def pinned (s : State) (b : Nat) : Bool := s.rf b Reg.DSP_SHARE 15 15 == 1

/-- Give arrays to a branch. -/
def giveTo (sh : SMap Nat) (b : Nat) (l : List Nat) : SMap Nat := l.foldl (fun m a => SMap.put m a b) sh

/-- Arrays of unpinned branches, highest number first (R407). -/
def unpinnedArrays (s : State) (sh : SMap Nat) : List Nat := ((sh.filter (fun e => !pinned s e.2)).map (·.1)).reverse

/-- A pinned branch moves to PIN_COUNT arrays (R407). -/
def pinBranch (s : State) (b : Nat) (sh : SMap Nat) : SMap Nat :=
  let own := heldBy sh b
  let n := pinCount s b
  if n ≤ own.length then (own.drop n).foldl SMap.del sh
  else
    let free := (unassigned s sh).take (n - own.length)
    giveTo sh b (free ++ (unpinnedArrays s sh).take (n - own.length - free.length))

/-- Pinned branches move, in ascending branch number (R407). [DEDUCED 118] -/
def applyPins (s : State) (sh : SMap Nat) : SMap Nat :=
  ((List.range 64).filter (pinned s)).foldl (fun m b => pinBranch s b m) sh

/-- What a branch has cost and holds. -/
structure Load where
  b    : Nat
  m    : Nat
  held : Nat
deriving DecidableEq, Repr

/-- COST of the open step's items of a branch (R405, EST). [DEDUCED 110] -/
def stepEst (s : State) (b : Nat) : Nat :=
  match s.openStep with
  | some n => ((s.items.filter (fun i => i.inStep n && i.branch == b)).map (·.cost)).foldl (· + ·) 0
  | none => 0

/-- M_b, or the sum of COST while too few windows count (R405). -/
def branchCost (s : State) (b : Nat) : Nat :=
  if s.winCount < s.rf 0 Reg.DSP_BAL 19 16 then stepEst s b else SMap.getD s.cost b 0

/-- The unpinned branches with M_b > 0 (R405). -/
def loads (s : State) (sh : SMap Nat) : List Load :=
  (((List.range 64).filter (fun b => !pinned s b)).map (fun b => ⟨b, branchCost s b, (heldBy sh b).length⟩)).filter
    (fun (l : Load) => decide (0 < l.m))

/-- Of two branches, the one that keeps a target of 1 at the cut: the larger M_b, then the lower number (R405). -/
def costlier (x y : Load) : Bool := decide (y.m < x.m) || (x.m == y.m && decide (x.b ≤ y.b))

/-- Take the excess from the largest target, ties to the higher branch number, no target below 1: `k` arrays (R405). -/
def trimTargets : Nat → List (Load × Nat) → List (Load × Nat)
  | 0, ts => ts
  | k + 1, ts =>
    match ts.foldl (fun (b : Option (Load × Nat)) t =>
        if t.2 ≤ 1 then b
        else match b with
          | none => some t
          | some c => if c.2 < t.2 ∨ (c.2 = t.2 ∧ c.1.b < t.1.b) then some t else b) none with
    | none => ts
    | some x => trimTargets k (ts.map (fun t => if t.1.b = x.1.b then (t.1, t.2 - 1) else t))

/-- The remaining arrays go by largest remainder, ties to the lower branch number (R405). -/
def addRemainders (avail sum k : Nat) (ts : List (Load × Nat)) : List (Load × Nat) :=
  let rem := fun (l : Load) => avail * l.m % sum
  let order := sortBy (fun x y => decide (rem y.1 < rem x.1) || (rem x.1 == rem y.1 && decide (x.1.b ≤ y.1.b))) ts
  let up := (order.take k).map (fun t => t.1.b)
  ts.map (fun t => if up.contains t.1.b then (t.1, t.2 + 1) else t)

/-- Targets of the unpinned branches over the arrays that remain (R405). [DEDUCED 119] -/
def targets (avail : Nat) (ls : List Load) : List (Load × Nat) :=
  if avail < ls.length then
    let keep := ((sortBy costlier ls).take avail).map (·.b)
    ls.map (fun l => (l, if keep.contains l.b then 1 else 0))
  else
    let sum := (ls.map (·.m)).foldl (· + ·) 0
    let ts := ls.map (fun l => (l, max 1 (avail * l.m / max 1 sum)))
    let total := (ts.map (·.2)).foldl (· + ·) 0
    if avail < total then trimTargets (total - avail) ts else addRemainders avail (max 1 sum) (avail - total) ts

/-- The imbalance in parts per `den`: I = (max L_b − min L_b) ÷ max L_b, scaled; `den` for an infinite load (R405). [DEDUCED 119] -/
def imbalance (den : Nat) (ls : List Load) : Nat :=
  if ls.any (fun l => l.held = 0) then den
  else
    match ls with
    | [] => 0
    | l :: r =>
      let big := r.foldl (fun (x : Load) (y : Load) => if x.m * y.held < y.m * x.held then y else x) l
      let small := r.foldl (fun (x : Load) (y : Load) => if y.m * x.held < x.m * y.held then y else x) l
      (den * (big.m * small.held - small.m * big.held)) / max 1 (big.m * small.held)

/-- Is the imbalance at least HYST_PCT percent (R405). -/
def reaches (pct : Nat) (ls : List Load) : Bool :=
  if ls.any (fun l => l.held = 0) then true
  else
    match ls with
    | [] => pct == 0
    | l :: r =>
      let big := r.foldl (fun (x : Load) (y : Load) => if x.m * y.held < y.m * x.held then y else x) l
      let small := r.foldl (fun (x : Load) (y : Load) => if y.m * x.held < x.m * y.held then y else x) l
      decide (pct * (big.m * small.held) ≤ 100 * (big.m * small.held - small.m * big.held))

/-- Arrays that a change of shares moves (R405). -/
def moveCount (ts : List (Load × Nat)) : Nat := (ts.map (fun t => t.2 - t.1.held)).foldl (· + ·) 0

/-- Target of a branch; unpinned branches without cost have 0 (R406). -/
def targetOf (ts : List (Load × Nat)) (b : Nat) : Nat := ((ts.find? (fun t => t.1.b = b)).map (·.2)).getD 0

/-- Move arrays to the targets: the arrays that were unassigned go first, then those given up, each in ascending order (R406). -/
def moveShares (s : State) (ts : List (Load × Nat)) (sh : SMap Nat) : SMap Nat :=
  let bs := (List.range 64).filter (fun b => !pinned s b)
  let sh1 := bs.foldl (fun m b => ((heldBy m b).drop (targetOf ts b)).foldl SMap.del m) sh
  let old := unassigned s sh
  let pool := old ++ (unassigned s sh1).filter (fun a => !old.contains a)
  bs.foldl (fun m b => giveTo m b ((pool.filter (fun a => (SMap.get? m a).isNone)).take (targetOf ts b - (heldBy m b).length))) sh1

/-- The shares of the next step, and I in units of 0.1 % where it was computed (R405 to R407). -/
def nextShares (s : State) : SMap Nat × Option Nat :=
  let sh := applyPins s s.shares
  if s.rf 0 Reg.DSP_CTRL 1 1 = 0 then (sh, none)
  else
    let ls := loads s sh
    let avail := (usable s).length - (((List.range 64).filter (pinned s)).map (fun b => (heldBy sh b).length)).foldl (· + ·) 0
    let ts := targets avail ls
    let go := reaches (s.rf 0 Reg.DSP_BAL 5 0) ls && decide (s.rf 0 Reg.DSP_BAL 11 8 ≤ moveCount ts) && !ls.isEmpty
    (if go then moveShares s ts sh else sh, some (imbalance 1000 ls))

/-- Change the shares at a boundary (R405 to R407); the counting begins again after a change. [DEDUCED 119] -/
def changeShares (s : State) : State :=
  let (sh, imb) := nextShares s
  let s1 := match imb with
    | some i => s.setReg 0 Reg.DSP_LAST_IMBAL (BitVec.ofNat 32 (min 1000 i))
    | none => s
  if sh = s.shares then s1
  else restartCounts ({ s1 with shares := sh }.setReg 0 Reg.DSP_REBALANCES (s1.reg 0 Reg.DSP_REBALANCES + 1))

/-- A new WIN_TICKS comes into force at the boundary: its windows count from the first that starts there or later, beside those of the old length
since the last share change (R404). -/
def changeWindow (s : State) : State :=
  let w := s.rf 0 Reg.DSP_WIN_TICKS 21 0
  if w = s.winTicks then s
  else { s with winTicks := w, winK := s.tb.toNat / max 1 w, winCost := [], winFrom := s.tb.toNat }

/-- Each stream's base count advances by one more than the largest J the step named; a named batch that is not offered yet is released when it
is (R397). -/
def advanceBases (n : Nat) (s : State) : State :=
  let named := stepBatches s n
  { s with
    relDue := s.relDue ++ named.filter (fun x => !s.released.contains x)
    released := []
    batchBase := (List.range 64).foldl (fun m k =>
      match (named.filter (fun x => x.1 = k)).map (·.2) |>.max? with
      | some j => SMap.set 0 m k (j + 1)
      | none => m) s.batchBase }

/-- Start an armed checkpoint list (R97). -/
def startArmed (s : State) : State := if s.rf 0 Reg.CKP_STATUS 9 9 = 1 then (match s.ckpArmed with
    | some l => ckpBegin l.1 l.2 s
    | none => ckpBegin (ckpList s).1 (ckpList s).2 s) else s

/-- Has the open step reached its boundary: its graph is closed, its items have completed, every collective plan has ended, every Lode
update is written (R23, R395). -/
def atBoundary (s : State) (n : Nat) : Bool :=
  stepClosed s n && s.items.all (fun i => !i.inStep n || i.phase == .done) &&
  s.plans.isEmpty && s.planReqs.isEmpty && s.lodeQ.isEmpty && s.lodeHeld.isEmpty && s.lodeRun.isNone && s.lodeParts.isEmpty

/-- The boundary of step n (R384, R398): recorded, shares changed, the armed copy started, then the next step opens. -/
def recordBoundary (n : Nat) (s : State) : State :=
  let s1 := raiseEvt .boundary ((s.setReg 0 Reg.DSP_STEP (BitVec.ofNat 32 n)).setReg64 0 Reg.DSP_BOUNDARY_TICK_LO s.tb.toNat)
  let s2 := advanceBases n (changeWindow (changeShares (closeWindows s1)))
  let s3 := { s2 with
    items := s2.items.filter (fun i => !i.inStep n)
    openStep := none
    lastStep := some n
    evalOk := true
    aborts := []
    planEnded := [] }
  afterItems (openNext (startArmed (showStep s3)))

/-- STEP_BOUNDARY (R398). -/
def execStepBoundary (s : State) : Host.Outcome State Fault Refusal :=
  match s.openStep with
  | none => .next s
  | some n => if atBoundary s n then .next (recordBoundary n s) else .next s

/-- The rule of DSP_WIN_TICKS (R404). -/
def winTicksRule : WriteRule :=
  { guard := fun _ old cand s =>
      if 2500 ≤ fld cand 21 0 ∧ fld cand 21 0 ≤ 2500000 then (cand, s) else (old, dspCfgErr s) }

/-- The rule of PIN and PIN_COUNT: refused when the pinned counts would exceed the arrays in service (R407). -/
def pinRule : WriteRule :=
  { guard := fun b old cand s =>
      let t := s.setReg b Reg.DSP_SHARE cand
      let n := (((List.range 64).filter (pinned t)).map (pinCount t)).foldl (· + ·) 0
      if n ≤ (inService s).length then (cand, s) else (old, dspCfgErr s) }

end Sys2Proof.Machine
end

