-- ==== Sys2Proof/Machine/Links.lean ====
section
/-! DEFINITION. Machine/Links.lean: what every user of the Causeway ports shares: the destination table and routes (R344), messages queued for a
virtual channel (R343), and messages taken from a receive buffer with the credits they return (R341). -/

namespace Sys2Proof.Machine

/-- A Causeway port. -/
def State.cport (s : State) (p : Nat) : CPort := SMap.getD s.cports p CPort.empty

/-- Store a Causeway port. -/
def State.setCport (s : State) (p : Nat) (x : CPort) : State := { s with cports := SMap.set CPort.empty s.cports p x }

/-- STATE of a port: 0 OFF, 1 TRAIN, 2 INIT, 3 UP, 4 DEGRADED, 5 DOWN. -/
def portState (s : State) (p : Nat) : Nat := s.rf p Reg.CWY_PSTATE 2 0

/-- Change STATE of a port; the LINK cause is raised (R450). -/
def setPortState (p st : Nat) (s : State) : State :=
  if portState s p = st then s else raiseEvt .link (s.setRf p Reg.CWY_PSTATE 2 0 st)

/-- A port carries flits. -/
def portUp (s : State) (p : Nat) : Bool := portState s p == 3 || portState s p == 4

/-- A port takes new messages (R344, R354). -/
def portOpen (s : State) (p : Nat) : Bool := decide (p < 12) && portUp s p && s.rf p Reg.CWY_PCTRL 0 0 == 1

/-- MODULE_NUM (R344). -/
def moduleNum (s : State) : Nat := s.rf 0 Reg.CWY_MODULE 11 0

/-- The port that a message for a module takes now: PORT when it is usable, else ALT (R344). [DEDUCED 74] -/
def routeTo (s : State) (dest : Nat) : Option Nat :=
  let p := s.rf dest Reg.CWY_DT_DATA 3 0
  let q := s.rf dest Reg.CWY_DT_DATA 7 4
  if portOpen s p then some p else if portOpen s q then some q else none

/-- Payloads of the flits of a message (R338): `k` bounds their number. -/
def flitParts : Nat → List Byte → List (List Byte)
  | 0, _ => []
  | k + 1, l => if l.length ≤ 240 then [l] else l.take 240 :: flitParts k (l.drop 240)

/-- Put a message on a port. -/
def putMsg (p : Nat) (m : CMsg) (s : State) : State :=
  let x := s.cport p
  s.setCport p { x with msgs := x.msgs ++ [m] }

/-- HOPS_INIT of a module (R344). -/
def hopsInit (s : State) (dest : Nat) : Nat := s.rf dest Reg.CWY_DT_DATA 11 8

/-- Queue a message that starts here, which takes its port when its first flit is sent; none when neither port can carry it now (R344). [DEDUCED 74] -/
def queueMsg (vc dest rid : Nat) (plan : Option (Nat × Nat)) (data : List Byte) (s : State) : Option (Nat × State) :=
  match routeTo s dest with
  | none => none
  | some _ =>
    let m : CMsg := { id := s.msgCount, vc := vc, dest := dest, src := moduleNum s, rid := rid, from_ := none, plan := plan,
                      data := (flitParts (data.length / 240 + 1) data).map (fun d => (d, hopsInit s dest)), fin := true, begun := false }
    some (s.msgCount, { s with msgCount := s.msgCount + 1, outbox := s.outbox ++ [m] })

/-- Requester number of the collective engine (R37). -/
def collReq : Nat := 0x0020
/-- Requester number of Lode (R37). -/
def lodeReq : Nat := 0x0021

/-- Queue a control message of the collective engine on VC 2; a module that cannot be reached gets none (R344, R360). -/
def sendCtl (dest : Nat) (data : List Byte) (s : State) : State :=
  match queueMsg 2 dest collReq none (slice data 0 24) s with
  | some (_, s1) => s1
  | none => s

/-- Return credits of a channel: `n` flits have left the receive buffer (R341). [DEDUCED 75] -/
def returnCred (p vc n : Nat) (s : State) : State :=
  let x := s.cport p
  s.setCport p { x with ret := modAt x.ret vc (· + n) }

/-- The first control message of a type that waits at a port (R360). -/
def ctlOf (s : State) (p ty : Nat) : Option CIn := (s.cport p).ctl.find? (fun m => leAt m.data 0 1 = ty)

/-- Take the first control message of a type from a port. -/
def takeCtl (p ty : Nat) (s : State) : State :=
  let x := s.cport p
  match x.ctl.findIdx? (fun m => leAt m.data 0 1 = ty) with
  | some i => returnCred p 2 ((x.ctl[i]?.map (·.flits)).getD 1) (s.setCport p { x with ctl := x.ctl.eraseIdx i })
  | none => s

/-- Take the first whole message of VC 0 from a port. -/
def takeChunk (p : Nat) (s : State) : State :=
  let x := s.cport p
  match x.inbox with
  | [] => s
  | m :: r => returnCred p 0 m.flits (s.setCport p { x with inbox := r })

/-- Is a message still queued, or unacknowledged on some port (R359). -/
def msgOut (s : State) (id : Nat) : Bool :=
  s.outbox.any (fun m => m.id = id) ||
  s.cports.any (fun e => e.2.msgs.any (fun m => m.id = id) || e.2.retry.any (fun f => f.msg = id))

end Sys2Proof.Machine
end

