-- ==== Sys2Proof/Machine/Plans.lean ====
section
/-! DEFINITION. Machine/Plans.lean: plans and steps as records (R355, R356), elements on the wire and in local buffers (R363, R364, R367), and
how a plan ends (R383 to R386). -/

namespace Sys2Proof.Machine

/-- PLAN_ID (R355). -/
def Plan.id (p : Plan) : Nat := leAt p.hdr 0 2
/-- KIND: 0 REDUCE, 1 GATHER (R355). -/
def Plan.kind (p : Plan) : Nat := leAt p.hdr 2 1
/-- TIMEOUT_US (R355). -/
def Plan.timeout (p : Plan) : Nat := leAt p.hdr 8 4
/-- PREFETCH (R355). -/
def Plan.dist (p : Plan) : Nat := leAt p.hdr 14 2
/-- A step record. -/
def Plan.step (p : Plan) (i : Nat) : List Byte := p.steps.getD i []
/-- A step as it runs. -/
def Plan.stAt (p : Plan) (i : Nat) : StepSt := p.st.getD i ⟨.idle, 0, 1, [], false, false, false, 0⟩
/-- Change a step as it runs. -/
def Plan.modSt (p : Plan) (i : Nat) (f : StepSt → StepSt) : Plan := { p with st := modAt p.st i f }

/-- OP (R356). -/
def sOp (r : List Byte) : Nat := leAt r 0 1
/-- WIRE_IN (R356). -/
def sWin (r : List Byte) : Nat := leAt r 1 1 % 16
/-- WIRE_OUT (R356). -/
def sWout (r : List Byte) : Nat := leAt r 1 1 / 16
/-- Format of the local buffer (R356). -/
def sFmt (r : List Byte) : Nat := leAt r 2 1 % 16
/-- ROP (R356). -/
def sRop (r : List Byte) : Nat := bits (leAt r 2 1) 5 4
/-- FLAGS (R356): 0 KEEP, 1 HOLD, 2 REL, 3 VEXP. -/
def sFlag (r : List Byte) (i : Nat) : Bool := (leAt r 3 1).testBit i
/-- SRC (R356). -/
def sSrc (r : List Byte) : Nat := leAt r 4 2
/-- DEST (R356). -/
def sDest (r : List Byte) : Nat := leAt r 6 2
/-- TAG (R356). -/
def sTag (r : List Byte) : Nat := leAt r 8 2
/-- DEP (R356). -/
def sDep (r : List Byte) : Nat := leAt r 10 2
/-- COUNT (R356). -/
def sCount (r : List Byte) : Nat := leAt r 12 4
/-- ADDR (R356). -/
def sAddr (r : List Byte) : Nat := leAt r 16 8
/-- OFFSET (R356). -/
def sOff (r : List Byte) : Nat := leAt r 24 4
/-- GROUP (R356). -/
def sGroup (r : List Byte) : Nat := leAt r 28 2

/-- Steps that receive a chunk (R356). -/
def recvOp (op : Nat) : Bool := decide (1 ≤ op) && decide (op ≤ 5)
/-- Steps that use SRC (R356). -/
def usesSrc (op : Nat) : Bool := decide (1 ≤ op) && decide (op ≤ 6)
/-- Steps that use DEST (R356). -/
def usesDest (op : Nat) : Bool := op == 0 || op == 3 || op == 5
/-- Update steps (R357). -/
def updOp (op : Nat) : Bool := op == 4 || op == 7

/-- A plan that runs in a slot. -/
def State.plan? (s : State) (k : Nat) : Option Plan := SMap.get? s.plans k

/-- Store a plan. -/
def putPlan (k : Nat) (p : Plan) (s : State) : State := { s with plans := SMap.put s.plans k p }

/-- The slot of a running plan by PLAN_ID. -/
def planSlot (s : State) (id : Nat) : Option Nat := (s.plans.find? (fun e => e.2.id = id)).map (·.1)

/-- The factor last received from a module (R382). -/
def peerF (s : State) (m : Nat) : Nat := s.rf m Reg.COL_PEER_FACTOR 3 0

/-- A pair of FP32 values (R90). -/
abbrev Pair := Fp × Fp

/-- Bytes of an element of a local buffer (R356). -/
def locBytes (fmt : Nat) : Nat := if fmt = 0 then 8 else if fmt = 1 then 4 else 2

/-- Bytes of a chunk's elements on the wire (R363). -/
def wireBytes (w count : Nat) : Nat :=
  match w with
  | 0 => 8 * count | 1 => 4 * count | 2 => 2 * count | _ => count / 256 * 264

/-- An element of formats PAIR, FP32 and BF16, widened (R363). -/
def pairAt (fmt : Nat) (b : List Byte) (i : Nat) : Pair :=
  match fmt with
  | 0 => (f32 (leAt b (8 * i) 4), f32 (leAt b (8 * i + 4) 4))
  | 1 => (f32 (leAt b (4 * i) 4), Fp.zero)
  | _ => (decodeFloat .bf16 (leAt b (2 * i) 2), Fp.zero)

/-- Format of an FP8 wire code. -/
def wireFmt (w : Nat) : Fmt := if w = 3 then .e4m3 else .e5m2

/-- The elements of a chunk, widened exactly (R363): FP8 comes in records of 8 scales and 256 codes (R194). -/
def wirePairs (w count : Nat) (b : List Byte) : List Pair :=
  if w ≤ 2 then (List.range count).map (pairAt w b)
  else
    (List.range count).map (fun i =>
      let r := i / 256 * 264
      let j := i % 256
      (rnd32 (decodeScaled (wireFmt w) (leAt b (r + 8 + j) 1) (leAt b (r + j / 32) 1)), Fp.zero))

/-- A pair in a local or plain wire format (R364). -/
def pairBytes (fmt : Nat) (p : Pair) : List Byte :=
  match fmt with
  | 0 => leBytes 4 (c32 p.1) ++ leBytes 4 (c32 p.2)
  | 1 => leBytes 4 (c32 p.1)
  | _ => leBytes 2 (enc .bf16 p.1)

/-- Combine the local and the incoming pair (R364, R366). -/
def combine (rop : Nat) (a b : Pair) : Pair :=
  match rop with
  | 0 => pairAdd a.1 a.2 b.1 b.2
  | 1 => (Fp.max a.1 b.1, Fp.zero)
  | _ => (Fp.min a.1 b.1, Fp.zero)

/-- Generator of a lane of a set (R66). -/
def laneOf (gens : SMap W64) (seed l : Nat) : W64 := SMap.getD gens l (laneSeed (BitVec.ofNat 64 seed) l)

/-- Codes of elements from number `e` on, each through its lane of `n` when `sr` (R64 to R66). -/
def drawCodes (sr : Bool) (seed n : Nat) (f : Fp → Option W64 → Nat × Option W64) : Nat → List Fp → SMap W64 → List Nat × SMap W64
  | _, [], g => ([], g)
  | e, v :: r, g =>
    let (c, o) := f v (if sr then some (laneOf g seed (e % n)) else none)
    let g1 := match o with | some x => (if sr then SMap.put g (e % n) x else g) | none => g
    let (cs, g2) := drawCodes sr seed n f (e + 1) r g1
    (c :: cs, g2)

/-- One record of the packer (R367): 256 heads give 8 scales and 256 codes. -/
def packRecord (f : Fmt) (sat sr : Bool) (seed e : Nat) (hs : List Fp) (g : SMap W64) : List Byte × SMap W64 :=
  let blocks := (List.range 8).map (fun k => (hs.drop (32 * k)).take 32)
  let scs := blocks.map (blockScale f)
  let res := (List.range 8).foldl (fun (acc : List Nat × SMap W64) k =>
    let r := drawCodes sr seed 256 (fun v o => blockCode sat f (scs.getD k 127) o v) (e + 32 * k) (blocks.getD k []) acc.2
    (acc.1 ++ r.1, r.2)) ([], g)
  (scs.map (BitVec.ofNat 8) ++ res.1.map (BitVec.ofNat 8), res.2)

/-- The elements of a chunk in a wire format (R364, R367). -/
def encodeWire (w : Nat) (ps : List Pair) (s : State) : List Byte × State :=
  if w ≤ 2 then (ps.flatMap (pairBytes w), s)
  else
    let seed := s.reg64 0 Reg.COL_SEED_LO
    let res := (List.range (ps.length / 256)).foldl (fun (acc : List Byte × SMap W64) k =>
      let r := packRecord (wireFmt w) (s.rf 0 Reg.COL_CTRL 0 0 = 1) (s.rf 0 Reg.COL_CTRL 1 1 = 1) seed (256 * k)
        (((ps.drop (256 * k)).take 256).map (·.1)) acc.2
      (acc.1 ++ r.1, r.2)) ([], s.colGen)
    (res.1, { s with colGen := res.2 })

/-- Header of a chunk (R360). -/
def chunkHdr (id tag kind wire count ver : Nat) : List Byte :=
  leBytes 2 id ++ leBytes 2 tag ++ leBytes 1 kind ++ leBytes 1 wire ++ leBytes 2 0 ++ leBytes 4 count ++ leBytes 4 ver

/-- The registers of a plan slot follow its steps. -/
def showPlan (k : Nat) (s : State) : State :=
  match s.plan? k with
  | some p => s.setRf k Reg.COL_STEPS_DONE 12 0 (p.st.filter (fun x => x.ph = .done)).length
  | none => s

/-- Count chunks discarded (R361). -/
def orphans (n : Nat) (s : State) : State := s.count 0 Reg.COL_ORPHANS n

/-- Remove chunks from the early-arrival region; COL_EARLY_USED follows. -/
def setEarly (l : List Early) (s : State) : State :=
  ({ s with early := l }).setReg 0 Reg.COL_EARLY_USED (BitVec.ofNat 32 ((l.map (fun (x : Early) => x.len)).foldl (· + ·) 0))

/-- Chunks of an ended plan are discarded and counted (R361). -/
def dropEarly (id : Nat) (s : State) : State :=
  let gone := s.early.filter (fun e => e.plan = id)
  orphans gone.length (setEarly (s.early.filter (fun e => e.plan ≠ id)) s)

/-- First VA of the early-arrival region (R361). -/
def earlyVa (s : State) : Nat := s.rf 0 Reg.COL_EARLY_VA_LO 31 21 * 0x200000 + 2 ^ 32 * s.rf 0 Reg.COL_EARLY_VA_HI 15 0

/-- Bytes of a chunk by its header (R360, R363). -/
def chunkBytes (b : List Byte) : Nat := 16 + wireBytes (leAt b 5 1) (leAt b 8 4)

/-- Ranges of the early-arrival region that hold a chunk or are kept for one that is arriving (R361). -/
def earlyTaken (s : State) : List (Nat × Nat) :=
  s.early.map (fun e => (e.off, e.len)) ++ s.cports.flatMap (fun e =>
    e.2.rx.filterMap (fun r => r.2.place.map (fun o => (o, chunkBytes r.2.data))) ++
    e.2.inbox.filterMap (fun m => m.place.map (fun o => (o, chunkBytes m.data))))

/-- The first free offset of the early-arrival region for `n` bytes. [DEDUCED 83] -/
def earlyFit (s : State) (n : Nat) : Option Nat :=
  let size := s.rf 0 Reg.COL_EARLY_SIZE 9 0 * 0x200000
  let taken := earlyTaken s
  let starts := 0 :: taken.map (fun e => e.1 + e.2)
  (starts.filter (fun o => decide (o + n ≤ size) && taken.all (fun e => decide (o + n ≤ e.1) || decide (e.1 + e.2 ≤ o)))).min?

/-- The receiving step of a running plan that a chunk matches (R361). -/
def recvStep (p : Plan) (src tag : Nat) : Option Nat :=
  p.steps.findIdx? (fun r => recvOp (sOp r) && sSrc r == src && sTag r == tag)

/-- Must a message of VC 0 go to the early-arrival region: a chunk whose step is not ready or whose plan has not started (R361). -/
def goesEarly (s : State) (src : Nat) (b : List Byte) : Bool :=
  let id := leAt b 0 2
  let tag := leAt b 2 2
  leAt b 4 1 == 0 && (match planSlot s id with
    | none => !s.planEnded.contains id
    | some k => match s.plan? k with
      | none => false
      | some pl => match recvStep pl src tag with
        | none => true
        | some i => (pl.stAt i).ph == .idle && !s.early.any (fun e => e.src == src && e.plan == id && e.tag == tag))

/-- An arriving message of VC 0 leaves the receive buffer of its port as far as there is a place for it: its step, which waits for it, or the
early-arrival region; without room the port withholds the credits (R341, R361). -/
def settleRx (p : Nat) (m : CRx) (s : State) : CRx × State :=
  let taken : CRx := { m with flits := 0 }
  if m.data.length < 16 then (m, s)
  else if m.place.isSome ∨ !goesEarly s m.src m.data then (taken, returnCred p 0 m.flits s)
  else
    match earlyFit s (chunkBytes m.data) with
    | some o => ({ taken with place := some o }, returnCred p 0 m.flits s)
    | none => (m, s.setRf 0 Reg.COL_STATUS 0 0 1)

/-- Messages that are arriving on VC 0 are looked at again: a step is ready, or room is free (R361). -/
def drainRx (s : State) : State :=
  (List.range 12).foldl (fun t p =>
    match SMap.get? (t.cport p).rx 0 with
    | none => t
    | some m =>
      if m.mode ≠ .local_ ∨ m.flits = 0 then t
      else
        let r := settleRx p m t
        r.2.setCport p { r.2.cport p with rx := SMap.put (r.2.cport p).rx 0 r.1 }) s

/-- LOD_HELD and HELD of a group follow the held steps. -/
def showHeld (g : Nat) (s : State) : State :=
  (s.setReg 0 Reg.LOD_HELD (BitVec.ofNat 32 s.lodeHeld.length)).setRf g Reg.LOD_GSTATE 0 0 (b2n (s.lodeHeld.any (fun u => u.group = g)))

/-- Update steps of a plan run for a group that Lode is writing (R25, R376). -/
def beingDone (run g : Nat) (s : State) : Nat :=
  let mine := fun (u : Upd) => u.run == run && u.group == g
  b2n (s.lodeRun.any (fun x => mine x.u)) + (s.lodeParts.filter (fun x => mine x.run.u)).length

/-- Mark the groups that a plan leaves mixed (R385): one whose remaining steps are all being written gets them all, and its VER advances
(R381). -/
def markPartial (run : Nat) (s : State) : State :=
  let ends := fun (e : Nat × Nat × Nat) => e.1 / 4096 == run && beingDone run (e.1 % 4096) s != e.2.2
  let s1 := { s with lodeCnt := s.lodeCnt.filter (fun e => !ends e) }
  (s.lodeCnt.filter ends).foldl (fun t e => if e.2.2 < e.2.1 then t.setRf (e.1 % 4096) Reg.LOD_GSTATE 2 2 1 else t) s1

/-- Update steps of an ended plan that have not started are discarded (R385). -/
def dropUpdates (run : Nat) (s : State) : State :=
  let gs := (s.lodeHeld.filter (fun u => u.run = run)).map (·.group)
  let s1 := { s with lodeHeld := s.lodeHeld.filter (fun u => u.run ≠ run), lodeQ := s.lodeQ.filter (fun u => u.run ≠ run) }
  markPartial run (gs.foldl (fun t g => showHeld g t) s1)

/-- Messages of a plan that have not begun are not sent (R385). -/
def dropMsgs (k : Nat) (s : State) : State :=
  { s with outbox := s.outbox.filter (fun m => !(m.plan.any (fun q => q.1 == k))) }

/-- A slot is free again: a thread that waits for one issues again (R359). -/
def wakePlan (s : State) : State :=
  match s.thr.find? (fun e => e.2.st = .wait && e.2.wait = .slot 8) with
  | some e => reissue (e.1 / 64) (e.1 % 64) s
  | none => s

/-- Waiting coll.slot operations of a slot end (R387). -/
def endSlotWaits (k : Nat) (f : Fail) (s : State) : State :=
  let l := s.slotWait.filter (fun w => w.2.2.2.1 = k)
  l.foldl (fun t w => opDone w.1 w.2.1 w.2.2.1 f t) { s with slotWait := s.slotWait.filter (fun w => w.2.2.2.1 ≠ k) }

/-- A plan leaves its slot with a status. -/
def leaveSlot (k : Nat) (p : Plan) (f : Fail) (s : State) : State :=
  let s1 := ({ s with plans := SMap.del s.plans k, planEnded := s.planEnded ++ [p.id] }).setRf k Reg.COL_SLOT 16 16 0
  let s2 := dropEarly p.id (s1.setRf k Reg.COL_CODE 7 0 f.st.code)
  wakePlan (endSlotWaits k f (opDone p.a p.t p.seq f (drainRx s2)))

/-- How a plan ends with a failure: the module awaited or the sender of ABORT, the step, and whether ABORT goes out. -/
structure PlanEnd where
  fail : Fail
  mod_ : Nat := 0
  step : Nat := 0
  tell : Bool := true

/-- Body of a PLAN_END record (R478). -/
def planBody (p : Plan) (e : PlanEnd) (s : State) : List Byte :=
  leBytes 2 p.id ++ leBytes 2 e.mod_ ++ leBytes 4 e.step ++ leBytes 1 p.kind ++ leBytes 1 (peerF s e.mod_) ++ leBytes 6 0 ++ leBytes 8 p.item

/-- Send ABORT to the participants of a plan (R360, R384). [DEDUCED 86] -/
def sendAborts (p : Plan) (st : Status) (s : State) : State :=
  (p.parts.filter (· ≠ moduleNum s)).foldl (fun t m => sendCtl m (leBytes 1 1 ++ leBytes 1 st.code ++ leBytes 2 p.id) t) s

/-- A plan ends with a failure (R383 to R385). [DEDUCED 86] -/
def endPlan (k : Nat) (e : PlanEnd) (s : State) : State :=
  match s.plan? k with
  | none => s
  | some p =>
    let (q, s1) := writeFaultId { cls := .planEnd, status := e.fail.st, disp := .reported, req := thrReq p.a p.t, root := e.fail.root,
                                  body := planBody p e s } s
    let f : Fail := { e.fail with root := if e.fail.root = 0 then q else e.fail.root }
    let s2 := if p.kind = 0 ∧ e.tell then sendAborts p e.fail.st s1 else s1
    leaveSlot k p f (dropUpdates p.run (dropMsgs k s2))

/-- A plan completes (R359, R368). [DEDUCED 87] -/
def completePlan (k : Nat) (s : State) : State :=
  match s.plan? k with
  | none => s
  | some p => leaveSlot k p { st := .ok } (s.count 0 Reg.COL_PLANS 1)

/-- Plans whose messages a port cut end with PEER_TIMEOUT (R352, R383); `root` is the record of the port. [DEDUCED 81] -/
def cutPlans (root : Nat) (l : List (Nat × Nat × Nat)) (s : State) : State :=
  l.foldl (fun t e => endPlan e.1 { fail := { st := .peerTimeout, root := root }, mod_ := e.2.2, step := e.2.1 } t) s

/-- The status of a code; a reserved code counts as INTERNAL (R14, R16). -/
def statusOfCode (c : Nat) : Status :=
  ([.ok, .okConcealed, .empty, .translationFault, .protectionFault, .descriptorInvalid, .alignment, .damagedBlock, .tableStale,
    .tableInvalid, .memUncorrectable, .memDetected, .clkTimeout, .peerTimeout, .planAborted, .programFault, .watchdog,
    .rejectedLimit].find? (fun (x : Status) => x.code == c)).getD .internal

end Sys2Proof.Machine
end

