-- ==== Sys2Proof/Machine/Lode.lean ====
section
/-! DEFINITION. Machine/Lode.lean: the update engine: group entries and checks (R370, R373), programs (R371, R372), curves (R377), versions, readers
and holds (R378 to R381), and running an update step (R374 to R376). -/

namespace Sys2Proof.Machine

/-- A requester reads the entry of a group (R369, R370). -/
def groupEntry (rid g : Nat) (s : State) : MRes (List Byte) :=
  vRead { rid := rid } .r (s.rf 0 Reg.LOD_GTAB_VA_LO 31 12 * 4096 + 2 ^ 32 * s.rf 0 Reg.LOD_GTAB_VA_HI 15 0 + 128 * g) 128 s

/-- NELEM (R370). -/
def gNelem (e : List Byte) : Nat := leAt e 64 4
/-- NSTATE (R370). -/
def gNstate (e : List Byte) : Nat := leAt e 69 1 % 16
/-- State is BF16 (R370). -/
def gBf16 (e : List Byte) : Bool := (leAt e 69 1).testBit 4
/-- SSR (R370). -/
def gSsr (e : List Byte) : Bool := (leAt e 69 1).testBit 5
/-- TWOVER (R370). -/
def gTwo (e : List Byte) : Bool := (leAt e 70 1).testBit 0
/-- WRNE (R370). -/
def gWrne (e : List Byte) : Bool := (leAt e 70 1).testBit 1
/-- FROZEN (R370). -/
def gFrozen (e : List Byte) : Bool := (leAt e 70 1).testBit 2
/-- NSCHED (R370). -/
def gNsched (e : List Byte) : Nat := leAt e 71 1
/-- PROG (R370). -/
def gProg (e : List Byte) : Nat := leAt e 68 1
/-- Address of the weights of a version (R370, R380). -/
def gWeights (e : List Byte) (ver : Nat) : Nat := if gTwo e ∧ ver % 2 = 1 then leAt e 8 8 else leAt e 0 8

/-- The 32 words of a program (R371). -/
def progWords (n : Nat) (s : State) : List Nat := (List.range 32).map (fun i => (s.reg (32 * n + i) Reg.LOD_PROG_DATA).toNat)

/-- The words of a program before its END word (R371, R376). -/
def progBody (ws : List Nat) : List Nat := ws.takeWhile (fun w => w % 64 ≠ 0x3F)

/-- OP codes of R372. -/
def lodeOpOk (op : Nat) : Bool := decide (op ≤ 0x0C) || op == 0x10 || op == 0x11 || op == 0x3F

/-- May a ld name this SEL (R373). -/
def ldOk (e : List Byte) (sel : Nat) : Bool :=
  decide (sel ≤ 3) || (decide (0x08 ≤ sel) && decide (sel ≤ 0x0F)) || (decide (0x10 ≤ sel) && decide (sel < 0x10 + min 4 (gNsched e))) ||
  (decide (0x20 ≤ sel) && decide (sel ≤ 0x2B))

/-- May a st name this SEL (R373). -/
def stOk (e : List Byte) (sel : Nat) : Bool := sel == 2 || (decide (0x08 ≤ sel) && decide (sel < 0x08 + min 8 (gNstate e)))

/-- Is a program word legal for a group (R371 to R373). -/
def wordOk (e : List Byte) (w : Nat) : Bool :=
  bits w 31 28 == 0 && lodeOpOk (bits w 5 0) && (bits w 5 0 != 0x10 || ldOk e (bits w 27 22)) && (bits w 5 0 != 0x11 || stOk e (bits w 27 22))

/-- The words whose legality matters: up to and with the END word. -/
def checkedWords (ws : List Nat) : List Nat := ws.take ((progBody ws).length + 1)

/-- The checks under Lode programs (R358, R370, R373). -/
def updateOk (e : List Byte) (off count : Nat) (s : State) : Bool :=
  decide (1 ≤ gNelem e) && decide (off + count ≤ gNelem e) && decide (gProg e < 64) && decide (gNstate e ≤ 8) && decide (gNsched e ≤ 4) &&
  decide (leAt e 69 1 < 64) && decide (leAt e 70 1 < 8) && leAt e 72 8 == 0 && (!gTwo e || leAt e 8 8 != 0) &&
  (checkedWords (progWords (gProg e) s)).all (wordOk e)

/-- Version of a group (R378). -/
def groupVer (s : State) (g : Nat) : Nat := (s.reg g Reg.LOD_VER).toNat

/-- Reader count of the parity of a version (R378). -/
def readers (s : State) (g ver : Nat) : Nat := if ver % 2 = 0 then s.rf g Reg.LOD_READERS 15 0 else s.rf g Reg.LOD_READERS 31 16

/-- Set the reader count of the parity of a version. -/
def setReaders (g ver n : Nat) (s : State) : State :=
  if ver % 2 = 0 then s.setRf g Reg.LOD_READERS 15 0 n else s.setRf g Reg.LOD_READERS 31 16 n

/-- Is an update of a group held now (R379, R380). -/
def updHeld (e : List Byte) (g : Nat) (s : State) : Bool :=
  let v := groupVer s g
  decide (0 < readers s g (if gTwo e then v + 1 else v))

/-- Mark the update of a plan step as written or held (R359). -/
def stepUpdated (u : Upd) (s : State) : State :=
  match s.plan? u.slot with
  | some p => if p.run = u.run then putPlan u.slot (p.modSt u.step (fun x => { x with upd := true })) s else s
  | none => s

/-- Hold an update step: readers of the version it would overwrite are left (R379, R380). -/
def holdUpd (u : Upd) (s : State) : State := showHeld u.group (stepUpdated u { s with lodeHeld := s.lodeHeld ++ [u] })

/-- Hand an update step to Lode: it is held, or runnable (R376, R379, R380). [DEDUCED 88] -/
def pushUpd (u : Upd) (s : State) : State :=
  match groupEntry lodeReq u.group s with
  | (.error f, s1) => endPlan u.slot { fail := f, step := u.step } s1
  | (.ok e, s1) =>
    if updHeld e u.group s1 then holdUpd u s1
    else { s1 with lodeQ := s1.lodeQ ++ [u] }

/-- Held steps whose readers are gone run, in the order in which they were held (R379, R380): `k` bounds their number. -/
def wakeHeld : Nat → List Upd → State → State
  | 0, _, s => s
  | _, [], s => s
  | k + 1, u :: r, s =>
    match groupEntry lodeReq u.group s with
    | (.error _, s1) => wakeHeld k r s1
    | (.ok e, s1) =>
      if updHeld e u.group s1 then wakeHeld k r s1
      else wakeHeld k r (showHeld u.group { s1 with lodeHeld := s1.lodeHeld.erase u, lodeQ := s1.lodeQ ++ [u] })

/-- Release one reader of a version (R378). -/
def releaseReader (g ver : Nat) (s : State) : State :=
  let n := readers s g ver
  if n = 0 then s.count 0 Reg.LOD_REL_UNDERFLOW 1
  else
    let s1 := setReaders g ver (n - 1) s
    wakeHeld s1.lodeHeld.length s1.lodeHeld s1

/-- A knot of a curve: step and value (R377). -/
def knots (n : Nat) (b : List Byte) : List (Nat × Nat) := (List.range n).map (fun i => (leAt b (8 * i) 4, leAt b (8 * i + 4) 4))

/-- Do steps ascend strictly (R377). -/
def ascends : List (Nat × Nat) → Bool
  | a :: b :: r => decide (a.1 < b.1) && ascends (b :: r)
  | _ => true

/-- Value of a curve at n (R377). -/
def curveAt (ks : List (Nat × Nat)) (n : Nat) : Fp :=
  match ks with
  | [] => Fp.zero
  | (s0, v0) :: r =>
    if n < s0 then f32 v0
    else
      match r with
      | [] => f32 v0
      | (s1, v1) :: _ =>
        if n < s1 then
          let q := rnd32 ((Fp.ofInt ((n : Int) - s0)).div (Fp.ofInt ((s1 : Int) - s0)))
          fma32 (sub32 (f32 v1) (f32 v0)) q (f32 v0)
        else curveAt r n
termination_by structural ks

/-- Read a curve: NKNOT from 1 to 65, steps ascending, else DESCRIPTOR_INVALID (R377). -/
def readCurve (va n : Nat) (s : State) : MRes Nat :=
  match vRead { rid := lodeReq } .r va 8 s with
  | (.error f, s1) => (.error f, s1)
  | (.ok h, s1) =>
    let k := leAt h 0 4
    if k = 0 ∨ 65 < k then (.error (mkFail .descriptorInvalid 0), s1)
    else
      match vRead { rid := lodeReq } .r (va + 8) (8 * k) s1 with
      | (.error f, s2) => (.error f, s2)
      | (.ok b, s2) =>
        if ascends (knots k b) then (.ok (c32 (curveAt (knots k b) n)), s2) else (.error (mkFail .descriptorInvalid 0), s2)

/-- Read the curves of a group (R370, R377). -/
def readCurves (e : List Byte) (n : Nat) : List Nat → State → MRes (List Nat)
  | [], s => (.ok [], s)
  | i :: r, s =>
    match readCurve (leAt e (32 + 8 * i) 8) n s with
    | (.error f, s1) => (.error f, s1)
    | (.ok v, s1) =>
      match readCurves e n r s1 with
      | (.error f, s2) => (.error f, s2)
      | (.ok vs, s2) => (.ok (v :: vs), s2)

/-- What the start of an update step takes (R63, R370, R371, R377). -/
def takeRun (u : Upd) (s : State) : MRes LodeRun :=
  match groupEntry lodeReq u.group s with
  | (.error f, s1) => (.error f, s1)
  | (.ok e, s1) =>
    if !updateOk e u.off u.count s1 then (.error (mkFail .descriptorInvalid 0), s1)
    else
      match readCurves e (groupVer s1 u.group) (List.range (gNsched e)) s1 with
      | (.error f, s2) => (.error f, s2)
      | (.ok vs, s2) =>
        (.ok ⟨u, e, groupVer s2 u.group, progWords (gProg e) s2, vs, s2.rf 0 Reg.LOD_CTRL 0 0 == 1⟩, s2)

/-- Bytes of a state slot element (R370). -/
def slotBytes (e : List Byte) : Nat := if gBf16 e then 2 else 4

/-- Address of element i of state slot k (R370). -/
def slotVa (e : List Byte) (k i : Nat) : Nat := leAt e 16 8 + (k * gNelem e + i) * slotBytes e

/-- What an update step reads: gradients, weights, state by slot, mask bytes from the first element's byte on. -/
structure LodeData where
  grad  : List Byte
  w     : List Byte
  st    : List (List Byte)
  mask  : List Byte
deriving DecidableEq, Repr

/-- Does a run's program load state slot k (R373). -/
def loadsSlot (r : LodeRun) (k : Nat) : Bool := (progBody r.prog).any (fun w => bits w 5 0 == 0x10 && bits w 27 22 == 8 + k)

/-- Read the state slots that a run's program loads. -/
def readSlots (r : LodeRun) : List Nat → State → MRes (List (List Byte))
  | [], s => (.ok [], s)
  | k :: l, s =>
    match vRead { rid := lodeReq } .r (slotVa r.ent k r.u.off) (if loadsSlot r k then r.u.count * slotBytes r.ent else 0) s with
    | (.error f, s1) => (.error f, s1)
    | (.ok b, s1) =>
      match readSlots r l s1 with
      | (.error f, s2) => (.error f, s2)
      | (.ok bs, s2) => (.ok (b :: bs), s2)

/-- Read the mask bytes; an address of 0 updates every element (R370). -/
def readMask (r : LodeRun) (s : State) : MRes (List Byte) :=
  let va := leAt r.ent 24 8
  if va = 0 then (.ok [], s)
  else vRead { rid := lodeReq } .r (va + r.u.off / 8) ((r.u.off + r.u.count - 1) / 8 + 1 - r.u.off / 8) s

/-- Read all that an update step needs (R374). -/
def readRun (r : LodeRun) (s : State) : MRes LodeData :=
  match vRead { rid := lodeReq } .r r.u.addr (r.u.count * locBytes r.u.fmt) s with
  | (.error f, s1) => (.error f, s1)
  | (.ok g, s1) =>
    match vRead { rid := lodeReq } .r (gWeights r.ent r.ver + 2 * r.u.off) (2 * r.u.count) s1 with
    | (.error f, s2) => (.error f, s2)
    | (.ok w, s2) =>
      match readSlots r (List.range 8) s2 with
      | (.error f, s3) => (.error f, s3)
      | (.ok st, s3) =>
        match readMask r s3 with
        | (.error f, s4) => (.error f, s4)
        | (.ok m, s4) => (.ok ⟨g, w, st, m⟩, s4)

/-- Is element j of a run updated: its mask bit is 1 and the group is not frozen (R374). -/
def elemOn (r : LodeRun) (d : LodeData) (j : Nat) : Bool :=
  !gFrozen r.ent && (leAt r.ent 24 8 == 0 || (leAt d.mask ((r.u.off + j) / 8 - r.u.off / 8) 1).testBit ((r.u.off + j) % 8))

/-- Value of a ld source for element j (R373, R374). [DEDUCED 89] -/
def lodeSrc (r : LodeRun) (d : LodeData) (j sel : Nat) : Fp :=
  if sel = 0 then (pairAt r.u.fmt d.grad j).1
  else if sel = 1 then (pairAt r.u.fmt d.grad j).2
  else if sel = 2 then decodeFloat .bf16 (leAt d.w (2 * j) 2)
  else if sel = 3 then rnd32 (Fp.ofInt r.ver)
  else if sel < 0x10 then
    let b := d.st.getD (sel - 8) []
    if gBf16 r.ent then decodeFloat .bf16 (leAt b (2 * j) 2) else f32 (leAt b (4 * j) 4)
  else if sel < 0x20 then f32 (r.sched.getD (sel - 0x10) 0)
  else f32 (leAt r.ent (80 + 4 * (sel - 0x20)) 4)

/-- sign of R372: −1, ±0 or +1. -/
def signOf (x : Fp) : Fp := if x.isNan then .nan else if x.isZero then x else .fin x.sign 1 0

/-- The result of an arithmetic operation of R372. -/
def lodeAlu (op : Nat) (a b c : Fp) : Fp :=
  match op with
  | 0x00 => add32 a b
  | 0x01 => sub32 a b
  | 0x02 => mul32 a b
  | 0x03 => fma32 a b c
  | 0x04 => rnd32 a.rcp
  | 0x05 => rnd32 a.sqrt
  | 0x06 => rnd32 a.rsqrt
  | 0x07 => Fp.max a b
  | 0x08 => Fp.min a b
  | 0x09 => a.abs
  | 0x0A => signOf a
  | 0x0B => if c.isZero then b else a
  | _ => Fp.min (Fp.max a b) c

/-- Run a program on element j: the registers and the stores collected, the last one of a target winning (R372, R374). -/
def lodeRunWords (r : LodeRun) (d : LodeData) (j : Nat) : List Nat → SMap Fp → SMap Fp → SMap Fp
  | [], _, st => st
  | w :: ws, u, st =>
    let g := fun hi lo => SMap.getD u (bits w hi lo) Fp.zero
    let op := bits w 5 0
    if op = 0x10 then lodeRunWords r d j ws (SMap.put u (bits w 9 6) (lodeSrc r d j (bits w 27 22))) st
    else if op = 0x11 then lodeRunWords r d j ws u (SMap.put st (bits w 27 22) (g 13 10))
    else lodeRunWords r d j ws (SMap.put u (bits w 9 6) (lodeAlu op (g 13 10) (g 17 14) (g 21 18))) st

/-- Is a store to a target stochastic (R375). [DEDUCED 89] -/
def storeDraws (e : List Byte) (sel : Nat) : Bool := if sel = 2 then !gWrne e else gBf16 e && gSsr e

/-- Code of a BF16 store: a stochastic one draws once whatever the value is (R64, R376). [DEDUCED 187] -/
def storeCode (sat : Bool) (v : Fp) (gen : Option W64) : Nat × Option W64 :=
  match gen with
  | some g => if v.draws then encodeGen sat .bf16 gen v else (encode .nearest sat .bf16 v, some (next16 g).2)
  | none => encodeGen sat .bf16 none v

/-- Code of an FP32 slot store: the value as it is, an infinity clamped in saturating mode (R61, R375). -/
def slotCode (sat : Bool) (v : Fp) : Nat :=
  match v with
  | .inf n => overflowCode .fp32 sat n
  | _ => c32 v

/-- Convert one store through its lane (R375, R376): address, bytes, and the lanes after it. -/
def lodeStore (r : LodeRun) (seed j sel : Nat) (v : Fp) (g : SMap W64) : (Nat × List Byte) × SMap W64 :=
  let i := r.u.off + j
  let va := if sel = 2 then gWeights r.ent (if gTwo r.ent then r.ver + 1 else r.ver) + 2 * i else slotVa r.ent (sel - 8) i
  if sel ≠ 2 ∧ !gBf16 r.ent then ((va, leBytes 4 (slotCode r.sat v)), g)
  else
    let c := drawCodes (storeDraws r.ent sel) seed 1024 (fun x o => storeCode r.sat x o) j [v] g
    ((va, leBytes 2 (c.1.headD 0)), c.2)

/-- What element j writes (R374): its stores in order of target, or its weight copied with TWOVER. -/
def lodeElem (r : LodeRun) (d : LodeData) (seed j : Nat) (g : SMap W64) : List (Nat × List Byte) × SMap W64 :=
  let st := if elemOn r d j then lodeRunWords r d j (progBody r.prog) [] [] else []
  let copy := if gTwo r.ent ∧ (SMap.get? st 2).isNone then [(gWeights r.ent (r.ver + 1) + 2 * (r.u.off + j), slice d.w (2 * j) 2)] else []
  st.foldl (fun acc e => let x := lodeStore r seed j e.1 e.2 acc.2; (acc.1 ++ [x.1], x.2)) (copy, g)

/-- All writes of an update step, element by element (R374, R376). -/
def lodeWrites (r : LodeRun) (d : LodeData) (seed : Nat) (g : SMap W64) : List (Nat × List Byte) × SMap W64 :=
  (List.range r.u.count).foldl (fun acc j => let x := lodeElem r d seed j acc.2; (acc.1 ++ x.1, x.2)) ([], g)

/-- Write a list of pieces; the first failure ends it. -/
def putPieces : List (Nat × List Byte) → State → MRes Unit
  | [], s => (.ok (), s)
  | (va, b) :: r, s =>
    match vWrite { rid := lodeReq } va b none s with
    | (.error f, s1) => (.error f, s1)
    | (.ok _, s1) => putPieces r s1

/-- Is the 64 KiB page of an address held by a checkpoint list. -/
def CkpRun.holds (c : CkpRun) (pa : Nat) : Bool := c.held.any (fun h => h.1 / 0x10000 = pa / 0x10000)

/-- A Lode write waits while the checkpoint engine holds its frame (R25). -/
def pieceHeld (s : State) (e : Nat × List Byte) : Bool :=
  match s.ckp with
  | none => false
  | some c => match tlbFind s e.1 with
    | some t => c.holds (t.pa + (e.1 - t.va))
    | none => match (translate { rid := lodeReq } e.1 .w s).1 with
      | .ok pa => c.holds pa
      | .error _ => false

/-- One more update step of a plan's group is written; the last advances VER (R381, R385). -/
def countWritten (u : Upd) (s : State) : State :=
  let key := 4096 * u.run + u.group
  match SMap.get? s.lodeCnt key with
  | none => s.setRf u.group Reg.LOD_GSTATE 2 2 1
  | some (n, left) =>
    if left ≤ 1 then
      let s1 := { s with lodeCnt := SMap.del s.lodeCnt key }
      let s2 := s1.setReg u.group Reg.LOD_VER (s1.reg u.group Reg.LOD_VER + 1)
      let s3 := s2.setReg64 u.group Reg.LOD_VER_TICK_LO s2.tb.toNat
      wakeHeld s3.lodeHeld.length s3.lodeHeld s3
    else { s with lodeCnt := SMap.put s.lodeCnt key (n, left - 1) }

/-- Is an update step of a group running, or left with writes that wait (R25, R376). -/
def groupBusy (g : Nat) (s : State) : Bool :=
  s.lodeRun.any (fun x => x.u.group == g) || s.lodeParts.any (fun x => x.run.u.group == g)

/-- BUSY, and UPDATING of a group, follow the update steps that are being written. -/
def showLode (g : Nat) (s : State) : State :=
  (s.setRf 0 Reg.LOD_STATUS 0 0 (b2n (s.lodeRun.isSome || !s.lodeParts.isEmpty))).setRf g Reg.LOD_GSTATE 1 1 (b2n (groupBusy g s))

/-- No update step runs. -/
def lodeIdle (u : Upd) (s : State) : State := showLode u.group { s with lodeRun := none }

/-- An update step fails: its plan ends, and a plan that has completed leaves its group mixed (R373, R383, R385). -/
def updFails (u : Upd) (f : Fail) (s : State) : State :=
  match s.plan? u.slot with
  | some p => if p.run = u.run then endPlan u.slot { fail := f, step := u.step } s else markPartial u.run s
  | none => markPartial u.run s

/-- The first runnable update step starts; one whose version has readers by now is held instead (R376, R379, R380): `k` bounds the steps. -/
def startNext : Nat → State → State
  | 0, s => s
  | k + 1, s =>
    match s.lodeQ with
    | [] => s
    | u :: r =>
      match takeRun u { s with lodeQ := r } with
      | (.error f, s1) => updFails u f s1
      | (.ok x, s1) => if updHeld x.ent u.group s1 then startNext k (holdUpd u s1) else showLode u.group { s1 with lodeRun := some x }

/-- LODE_UPDATE_START (R376): update steps run one after another. [DEDUCED 88] -/
def execLodeUpdateStart (s : State) : Host.Outcome State Fault Refusal :=
  if s.lodeRun.isSome then .next s else .next (startNext s.lodeQ.length s)

/-- An update step is written. -/
def updDone (u : Upd) (s : State) : State := countWritten u (stepUpdated u ((showLode u.group s).count64 0 Reg.LOD_UPDATES_LO 1))

/-- The writes of a run that has read its data: those that reach an uncopied frame wait, the others are made (R25). -/
def writeRun_ (x : LodeRun) (d : LodeData) (s : State) : State :=
  let w := lodeWrites x d (s.reg64 0 Reg.LOD_SEED_LO) s.lodeGen
  let wait := w.1.filter (pieceHeld s)
  match putPieces (w.1.filter (fun e => !pieceHeld s e)) { s with lodeGen := w.2 } with
  | (.error f, s1) => updFails x.u f (lodeIdle x.u s1)
  | (.ok _, s1) =>
    if wait = [] then updDone x.u (lodeIdle x.u s1)
    else showLode x.u.group { lodeIdle x.u s1 with lodeParts := s1.lodeParts ++ [⟨x, wait⟩] }

/-- A step with waiting writes makes those whose frames have been copied (R25). -/
def flushPart (x : LodePart) (s : State) : State :=
  let wait := x.left.filter (pieceHeld s)
  match putPieces (x.left.filter (fun e => !pieceHeld s e)) { s with lodeParts := s.lodeParts.erase x } with
  | (.error f, s1) => updFails x.run.u f (showLode x.run.u.group s1)
  | (.ok _, s1) => if wait = [] then updDone x.run.u s1 else { s1 with lodeParts := s1.lodeParts ++ [{ x with left := wait }] }

/-- LODE_UPDATE_WRITTEN (R374, R381): the running step's writes are made, and waiting ones whose frames have been copied (R25); a step of a group
with waiting writes follows them. [DEDUCED 88] -/
def execLodeUpdateWritten (s : State) : Host.Outcome State Fault Refusal :=
  let s0 := s.lodeParts.foldl (fun t x => flushPart x t) s
  match s0.lodeRun with
  | none => .next s0
  | some x =>
    if s0.lodeParts.any (fun y => y.run.u.group = x.u.group) then .next s0
    else
      match readRun x s0 with
      | (.error f, s1) => .next (updFails x.u f (lodeIdle x.u s1))
      | (.ok d, s1) => .next (writeRun_ x d s1)

/-- The rule of VER: ignored while a step of the group is held or running (R378). -/
def verRule : WriteRule :=
  { guard := fun g old cand s =>
      if s.lodeHeld.any (fun u => u.group = g) || s.lodeQ.any (fun u => u.group = g) || groupBusy g s then
        (old, s.setRf 0 Reg.LOD_STATUS 1 1 1)
      else (cand, s) }

/-- The rule of LOD_SEED: the lanes start again (R66). -/
def lodSeedRule : PairRule := { effect := fun _ _ _ s => { s with lodeGen := [] } }

end Sys2Proof.Machine
end

