-- ==== Sys2Proof/Machine/Collective.lean ====
section
/-! DEFINITION. Machine/Collective.lean: the collective engine: the coll instructions (R387, R388), checks and start of plans (R358, R359), steps
(R357, R359), arriving chunks (R361, R362), gathers (R368, R369), slowdown, timeouts and aborts (R382 to R386). -/

namespace Sys2Proof.Machine

/-- Issue of a coll instruction, unit 8 (R387). -/
def collIssue (func : Nat) (body : Nat → Nat → Nat → W64 → W64 → State → State) (a : Fin 96) (t : Fin 64) (s : State) : State :=
  issue 0xD func (fun w _ u =>
    let x := u.th a.val t.val
    if func = 0 ∧ 64 ≤ u.plans.length + u.planReqs.length then waitFor a.val t.val (.slot 8) u
    else issueAsync a.val t.val 8 w (fun q v => body a.val t.val q (x.sreg (iRa w)) (x.sreg (iRb w)) v) u) a.val t.val s

/-- coll.plan (R358, R387): every slot busy makes the thread wait. -/
def execCollPlan (a : Fin 96) (t : Fin 64) (s : State) : Host.Outcome State Fault Refusal :=
  .next (collIssue 0x0 (fun a t q va _ v => { v with planReqs := v.planReqs ++ [⟨a, t, q, va.toNat, (v.th a t).item⟩] }) a t s)

/-- The GATHER plan and index that coll.slot and coll.done name (R388). -/
def gatherAt (id idx : Nat) (s : State) : Option (Nat × Plan) :=
  match planSlot s id with
  | none => none
  | some k =>
    match s.plan? k with
    | some p => if p.kind = 1 ∧ idx < p.steps.length then some (k, p) else none
    | none => none

/-- coll.slot (R387, R388). -/
def execCollSlot (a : Fin 96) (t : Fin 64) (s : State) : Host.Outcome State Fault Refusal :=
  .next (collIssue 0x1 (fun a t q x y v =>
    match gatherAt (x.toNat % 65536) y.toNat v with
    | none => opDone a t q { st := .descriptorInvalid } v
    | some (k, p) =>
      if (p.stAt y.toNat).landed then opOk a t q v else { v with slotWait := v.slotWait ++ [(a, t, q, k, y.toNat)] }) a t s)

/-- Has every step of a plan completed, and every fetch been marked done (R359, R368). -/
def planOver (p : Plan) : Bool := p.st.all (fun x => x.ph = .done && (p.kind ≠ 1 || x.marked))

/-- Complete a plan once it is over. -/
def tryComplete (k : Nat) (s : State) : State :=
  match s.plan? k with
  | some p => if planOver p then completePlan k s else s
  | none => s

/-- Mark a fetch done; with REL a RELEASE goes to its owner (R369, R378). -/
def markFetch (k : Nat) (p : Plan) (i : Nat) (s : State) : State :=
  let r := p.step i
  let s1 := putPlan k (p.modSt i (fun x => { x with marked := true })) s
  let s2 := if sFlag r 2 then
      sendCtl (sSrc r) (leBytes 1 4 ++ leBytes 3 0 ++ leBytes 2 (sGroup r) ++ leBytes 10 0 ++ leBytes 4 (p.stAt i).ver) s1 else s1
  tryComplete k s2

/-- coll.done (R387, R388). -/
def execCollDone (a : Fin 96) (t : Fin 64) (s : State) : Host.Outcome State Fault Refusal :=
  .next (collIssue 0x2 (fun a t q x y v =>
    match gatherAt (x.toNat % 65536) y.toNat v with
    | none => opDone a t q { st := .descriptorInvalid } v
    | some (k, p) =>
      if !(p.stAt y.toNat).landed then opDone a t q { st := .descriptorInvalid } v
      else if (p.stAt y.toNat).marked then opOk a t q v
      else opOk a t q (markFetch k p y.toNat v)) a t s)

/-- Header fields inside the ranges of R355. -/
def planHdrOk (h : List Byte) : Bool :=
  let kind := leAt h 2 1
  let n := leAt h 4 4
  let d := leAt h 14 2
  let ns := leAt h 36 2
  let sb := leAt h 32 4
  decide (kind ≤ 1) && leAt h 3 1 == 0 && decide (1 ≤ n) && decide (n ≤ 4096) && decide (100 ≤ leAt h 8 4) && decide (leAt h 8 4 ≤ 1000000) &&
  decide (leAt h 12 2 ≤ 4095) && leNat (slice h 38 26) == 0 &&
  (if kind = 1 then decide (1 ≤ ns) && decide (ns ≤ 256) && decide (1 ≤ d) && decide (d ≤ ns) && leAt h 24 8 % 256 == 0 && sb % 256 == 0
   else d == 0 && leAt h 24 8 == 0 && sb == 0 && ns == 0)

/-- A step inside the ranges of R356 and R357, with the module checks of R358. -/
def stepOk (own : Nat) (h : List Byte) (i : Nat) (r : List Byte) : Bool :=
  let op := sOp r
  let fp8 := decide (3 ≤ sWin r) || decide (3 ≤ sWout r)
  let mods := fun (used : Bool) (m : Nat) => if used then decide (m < 4096) && m != own else m == 0
  decide (op ≤ 7) && (op == 6) == (leAt h 2 1 == 1) && decide (sWin r ≤ 4) && decide (sWout r ≤ 4) && decide (sFmt r ≤ 4) && decide (sRop r ≤ 2) &&
  decide (leAt r 2 1 < 64) && decide (leAt r 3 1 < 16) && mods (usesSrc op) (sSrc r) && mods (usesDest op) (sDest r) &&
  (sDep r == 0xFFFF || decide (sDep r < i)) && decide (1 ≤ sCount r) && decide (sCount r ≤ 262144) && (!fp8 || sCount r % 256 == 0) &&
  decide (sGroup r < 4096) && (op != 6 || decide (2 * sCount r ≤ leAt h 32 4))

/-- The format checks of R358. -/
def formatsOk (r : List Byte) : Bool :=
  (sOp r != 5 || sWout r == sWin r) && decide (sFmt r ≤ 2) && (sRop r == 0 || decide (sWin r ≤ 2))

/-- Alignment of ADDR (R358). -/
def addrOk (r : List Byte) : Bool := sAddr r % locBytes (sFmt r) == 0

/-- The checks of the update steps of a plan (R358). -/
def checkUpdates : List (List Byte) → State → MRes Unit
  | [], s => (.ok (), s)
  | r :: l, s =>
    if !updOp (sOp r) then checkUpdates l s
    else
      match groupEntry collReq (sGroup r) s with
      | (.error f, s1) => (.error f, s1)
      | (.ok e, s1) => if updateOk e (sOff r) (sCount r) s1 then checkUpdates l s1 else (.error (mkFail .descriptorInvalid 0), s1)

/-- Records of `n` bytes of a list. -/
def records (n k : Nat) (b : List Byte) : List (List Byte) := (List.range k).map (fun i => slice b (n * i) n)

/-- Read and check a plan (R355, R358): its header, steps and participants. [DEDUCED 84, 85] -/
def loadPlan (va : Nat) (s : State) : MRes (List Byte × List (List Byte) × List Nat) :=
  let c : Ctx := { rid := collReq }
  if va % 64 ≠ 0 then (.error (descFail .alignment va), s)
  else
    match vRead c .r va 64 s with
    | (.error f, s1) => (.error f, s1)
    | (.ok h, s1) =>
      let n := leAt h 4 4
      if n = 0 ∨ 4096 < n then (.error (descFail .descriptorInvalid va), s1)
      else
        match vRead c .r (va + 64) (32 * n) s1 with
        | (.error f, s2) => (.error f, s2)
        | (.ok b, s2) =>
          let steps := records 32 n b
          if !planHdrOk h || !(steps.mapIdx (fun i r => stepOk (moduleNum s2) h i r)).all id then (.error (descFail .descriptorInvalid va), s2)
          else if (planSlot s2 (leAt h 0 2)).isSome then (.error (descFail .descriptorInvalid va), s2)
          else if !steps.all formatsOk then (.error (descFail .descriptorInvalid va), s2)
          else if !steps.all addrOk then (.error (descFail .alignment va), s2)
          else
            match checkUpdates steps s2 with
            | (.error f, s3) => (.error f, s3)
            | (.ok _, s3) =>
              match vRead c .r (leAt h 16 8) (2 * leAt h 12 2) s3 with
              | (.error f, s4) => (.error f, s4)
              | (.ok l, s4) => (.ok (h, steps, (List.range (leAt h 12 2)).map (fun i => leAt l (2 * i) 2 % 4096)), s4)

/-- How many update steps of a plan each group has. -/
def groupCounts (steps : List (List Byte)) : List (Nat × Nat) :=
  let l := (steps.filter (fun r => updOp (sOp r))).map sGroup
  l.dedup.map (fun g => (g, l.count g))

/-- Note the update steps of a plan run by group (R381). -/
def countGroups (run : Nat) (l : List (Nat × Nat)) (m : SMap (Nat × Nat)) : SMap (Nat × Nat) :=
  l.foldl (fun (acc : SMap (Nat × Nat)) e => SMap.put acc (4096 * run + e.1) (e.2, e.2)) m

/-- Send SLOW with the factor in force to modules (R360, R382). -/
def sendSlow (ms : List Nat) (s : State) : State :=
  ((ms.filter (· ≠ moduleNum s)).dedup).foldl (fun t m => sendCtl m (leBytes 1 2 ++ leBytes 1 (s.rf 0 Reg.COL_FACTOR 3 0)) t) s

/-- A plan as it begins. -/
def newPlan (r : PlanReq) (run : Nat) (h : List Byte) (steps : List (List Byte)) (parts : List Nat) : Plan :=
  { run := run, hdr := h, steps := steps, parts := parts,
    st := steps.map (fun _ => ⟨.idle, 0, 1, [], false, false, false, 0⟩), a := r.a, t := r.t, seq := r.seq, item := r.item, red := [],
    hit := [] }

/-- The physical runs of a virtual range by 2 MiB pages. -/
def pageRuns (va n : Nat) (s : State) : List (Nat × Nat) :=
  (List.range ((va + n - 1) / 0x200000 + 1 - va / 0x200000)).filterMap (fun i =>
    let lo := max va ((va / 0x200000 + i) * 0x200000)
    let hi := min (va + n) ((va / 0x200000 + i + 1) * 0x200000)
    match translate { rid := collReq } lo .w s with
    | (.ok pa, _) => (backing s pa).map (fun b => (b, hi - lo))
    | (.error _, _) => none)

/-- The runs a plan reduces into: ADDR of the steps that reduce and store (R357, R362). [DESIGN CHOICE 40] -/
def reducedRuns (steps : List (List Byte)) (s : State) : List (Nat × Nat × Nat) :=
  steps.flatMap (fun r =>
    if sOp r = 2 ∨ sOp r = 4 ∨ (sOp r = 3 ∧ sFlag r 0) then
      (pageRuns (sAddr r) (sCount r * locBytes (sFmt r)) s).map (fun e => (e.1, e.2, locBytes (sFmt r)))
    else [])

/-- The registers of a slot whose plan begins. [DEDUCED 90] -/
def showStart (k id kind : Nat) (s : State) : State :=
  let s1 := ((s.setRf k Reg.COL_SLOT 15 0 id).setRf k Reg.COL_SLOT 16 16 1).setRf k Reg.COL_SLOT 17 17 kind
  (s1.setReg k Reg.COL_STEPS_DONE 0).setReg64 k Reg.COL_START_TICK_LO s1.tb.toNat

/-- A plan takes a slot and begins (R359, R382). -/
def beginPlan (k : Nat) (r : PlanReq) (h : List Byte) (steps : List (List Byte)) (parts : List Nat) (s : State) : State :=
  let p := { newPlan r s.planRuns h steps parts with red := reducedRuns steps s }
  let s1 := putPlan k p { s with planRuns := s.planRuns + 1, lodeCnt := countGroups s.planRuns (groupCounts steps) s.lodeCnt }
  let s2 := showStart k p.id p.kind s1
  if s2.rf 0 Reg.COL_FACTOR 3 0 = 2 then sendSlow parts s2 else s2

/-- The lowest free plan slot (R359). -/
def freeSlotNo (s : State) : Option Nat := (List.range 64).find? (fun k => (s.plan? k).isNone)

/-- PLAN_START: the oldest coll.plan is read and checked, then begins, fails, or meets the abort list (R358, R359, R386). [DEDUCED 85] -/
def execPlanStart (s : State) : Host.Outcome State Fault Refusal :=
  match s.planReqs, freeSlotNo s with
  | r :: rest, some k =>
    match loadPlan r.va { s with planReqs := rest } with
    | (.error f, s1) => .next (wakePlan (opDone r.a r.t r.seq f s1))
    | (.ok (h, steps, parts), s1) =>
      let id := leAt h 0 2
      if s1.aborts.contains id then
        .next (wakePlan (opDone r.a r.t r.seq { st := .planAborted } (drainRx (dropEarly id
          { s1 with aborts := s1.aborts.erase id, planEnded := s1.planEnded ++ [id] }))))
      else .next (beginPlan k r h steps parts s1)
  | _, _ => .next s

/-- A step of a plan as it runs is changed. -/
def modStep (k i : Nat) (f : StepSt → StepSt) (s : State) : State :=
  match s.plan? k with
  | some p => putPlan k (p.modSt i f) s
  | none => s

/-- A step sends a chunk; a module that cannot be reached ends the plan (R344, R383). -/
def sendChunk (k i dest : Nat) (hdr payload : List Byte) (s : State) : State :=
  match queueMsg 0 dest collReq (some (k, i)) (hdr ++ payload) s with
  | some (m, s1) => modStep k i (fun x => { x with ph := .work, sent := x.sent ++ [m] }) s1
  | none => endPlan k { fail := { st := .peerTimeout }, mod_ := dest, step := i } s

/-- A step sends pairs in its wire format (R357, R364). -/
def sendPairs (k i : Nat) (p : Plan) (ps : List Pair) (s : State) : State :=
  let r := p.step i
  let (b, s1) := encodeWire (sWout r) ps s
  sendChunk k i (sDest r) (chunkHdr p.id (sTag r) 0 (sWout r) (sCount r) 0) b s1

/-- The update of a step (R357). -/
def stepUpd (k i : Nat) (p : Plan) : Upd :=
  let r := p.step i
  ⟨k, p.run, i, sGroup r, sOff r, sCount r, sAddr r, sFmt r⟩

/-- Write pairs to the local buffer of a step. -/
def putLocal (r : List Byte) (ps : List Pair) (s : State) : MRes Unit :=
  vWrite { rid := collReq } (sAddr r) (ps.flatMap (pairBytes (sFmt r))) none s

/-- Read the local buffer of a step. -/
def getLocal (r : List Byte) (s : State) : MRes (List Pair) :=
  match vRead { rid := collReq } .r (sAddr r) (sCount r * locBytes (sFmt r)) s with
  | (.error f, s1) => (.error f, s1)
  | (.ok b, s1) => (.ok ((List.range (sCount r)).map (pairAt (sFmt r) b)), s1)

/-- What follows the arithmetic of a receiving step: its write, its send, its update (R357). [DESIGN CHOICE 40] -/
def finishRecv (k i : Nat) (p : Plan) (write : Bool) (ps : List Pair) (s : State) : State :=
  let r := p.step i
  let w := if write then putLocal r ps s else (.ok (), s)
  match w with
  | (.error f, s1) => endPlan k { fail := f, step := i } s1
  | (.ok _, s0) =>
    let s1 := if write then freeRuns (s0.plans.flatMap (fun e => e.2.hit)) s0 else s0
    let s2 := modStep k i (fun x => { x with ph := .work }) s1
    if sOp r = 3 then sendPairs k i p ps s2
    else if sOp r = 4 then pushUpd (stepUpd k i p) s2
    else s2

/-- A chunk reaches its receiving step (R357, R361, R363): `msg` is the message with its header. -/
def applyChunk (k i : Nat) (p : Plan) (msg : List Byte) (s : State) : State :=
  let r := p.step i
  let body := slice msg 16 (wireBytes (sWin r) (sCount r))
  let ps := wirePairs (sWin r) (sCount r) body
  if sOp r = 1 then finishRecv k i p true ps s
  else if sOp r = 5 then
    let w := if sFlag r 0 then putLocal r ps s else (.ok (), s)
    match w with
    | (.error f, s1) => endPlan k { fail := f, step := i } s1
    | (.ok _, s1) => sendChunk k i (sDest r) (slice msg 0 16) (msg.drop 16) s1
  else
    match getLocal r s with
    | (.error f, s1) => endPlan k { fail := f, step := i } s1
    | (.ok l, s1) => finishRecv k i p (sOp r != 3 || sFlag r 0) (List.zipWith (combine (sRop r)) l ps) s1

/-- Store a chunk early; without room the port keeps it and its credits (R361). -/
def storeEarly (p : Nat) (m : CIn) (s : State) : State :=
  match m.place <|> earlyFit s (chunkBytes m.data) with
  | none => s.setRf 0 Reg.COL_STATUS 0 0 1
  | some o =>
    match vWrite { rid := collReq } (earlyVa s + o) (slice m.data 0 (chunkBytes m.data)) none s with
    | (.ok _, s1) => setEarly (s1.early ++ [⟨m.src, leAt m.data 0 2, leAt m.data 2 2, o, chunkBytes m.data⟩]) (takeChunk p s1)
    | (.error f, s1) =>
      match planSlot s1 (leAt m.data 0 2) with
      | some k => endPlan k { fail := f, mod_ := m.src } (takeChunk p s1)
      | none => orphans 1 (takeChunk p s1)

/-- An arriving chunk is matched, stored early, or discarded (R361). -/
def matchChunk (p : Nat) (m : CIn) (s : State) : State :=
  let id := leAt m.data 0 2
  match planSlot s id with
  | none => if s.planEnded.contains id then orphans 1 (takeChunk p s) else storeEarly p m s
  | some k =>
    match s.plan? k with
    | none => s
    | some pl =>
      match recvStep pl m.src (leAt m.data 2 2) with
      | none => storeEarly p m s
      | some i =>
        match (pl.stAt i).ph with
        | .idle => if s.early.any (fun e => e.src = m.src && e.plan = id && e.tag = leAt m.data 2 2) then orphans 1 (takeChunk p s) else storeEarly p m s
        | .ready => applyChunk k i pl m.data (takeChunk p s)
        | _ => orphans 1 (takeChunk p s)

/-- CHUNK_ARRIVE: the first whole VC 0 message of a port, when it is a chunk (R360, R361). -/
def execChunkArrive (p : Fin 12) (s : State) : Host.Outcome State Fault Refusal :=
  match (s.cport p.val).inbox with
  | m :: _ => if leAt m.data 4 1 = 0 then .next (matchChunk p.val m s) else .next s
  | [] => .next s

/-- A receiving step becomes ready; an early chunk is taken at once (R361, R383). -/
def startRecv (k i : Nat) (p : Plan) (s : State) : State :=
  let r := p.step i
  let s1 := modStep k i (fun x => { x with ph := .ready, at_ := s.now, f := peerF s (sSrc r) }) s
  match s1.early.find? (fun e => e.src = sSrc r && e.plan = p.id && e.tag = sTag r) with
  | none => drainRx s1
  | some e =>
    match vRead { rid := collReq } .r (earlyVa s1 + e.off) e.len s1 with
    | (.error f, s2) => endPlan k { fail := f, mod_ := e.src, step := i } s2
    | (.ok d, s2) => applyChunk k i p d (drainRx (setEarly (s2.early.erase e) s2))

/-- A fetch is sent to its owner (R360, R368). -/
def startFetch (k i : Nat) (p : Plan) (s : State) : State :=
  let r := p.step i
  let msg := leBytes 1 3 ++ leBytes 1 0 ++ leBytes 2 p.id ++ leBytes 2 (sGroup r) ++ leBytes 2 0 ++ leBytes 4 (sOff r) ++ leBytes 4 (sCount r) ++
    leBytes 4 (leAt r 30 2) ++ leBytes 1 (b2n (sFlag r 1) + 2 * b2n (sFlag r 3)) ++ leBytes 1 0 ++ leBytes 2 i
  match queueMsg 2 (sSrc r) collReq (some (k, i)) msg s with
  | some (_, s1) => modStep k i (fun x => { x with ph := .ready, at_ := s1.now, f := peerF s1 (sSrc r) }) s1
  | none => endPlan k { fail := { st := .peerTimeout }, mod_ := sSrc r, step := i } s

/-- May a step start: its DEP has completed, and a fetch lies within the prefetch distance, in index order (R359, R368). -/
def mayStart (p : Plan) (i : Nat) : Bool :=
  let x := p.stAt i
  let dep := sDep (p.step i)
  x.ph = .idle && (dep = 0xFFFF || (p.stAt dep).ph = .done) &&
  (p.kind ≠ 1 || (List.range i).all (fun j => (p.stAt j).ph ≠ .idle && ((p.stAt j).marked || decide (i < j + p.dist))))

/-- A step begins (R357, R359). -/
def startStep (k i : Nat) (p : Plan) (s : State) : State :=
  let r := p.step i
  if sOp r = 0 then
    match getLocal r s with
    | (.error f, s1) => endPlan k { fail := f, step := i } s1
    | (.ok ps, s1) => sendPairs k i p ps s1
  else if sOp r = 7 then pushUpd (stepUpd k i p) (modStep k i (fun x => { x with ph := .work }) s)
  else if sOp r = 6 then startFetch k i p s
  else startRecv k i p s

/-- PLAN_STEP_START: the lowest step of a plan that may start (R359). -/
def execPlanStepStart (slot : Fin 64) (s : State) : Host.Outcome State Fault Refusal :=
  match s.plan? slot.val with
  | none => .next s
  | some p =>
    match (List.range p.steps.length).find? (fun i => mayStart p i) with
    | some i => .next (startStep slot.val i p s)
    | none => .next s

/-- Has the work of a step ended: its sends acknowledged, its update written or held (R359). -/
def stepOver (s : State) (p : Plan) (i : Nat) : Bool :=
  let x := p.stAt i
  x.ph = .work && x.sent.all (fun m => !msgOut s m) && (!updOp (sOp (p.step i)) || x.upd)

/-- PLAN_STEP_COMPLETE: the lowest step whose work has ended completes, and with the last the plan (R359). -/
def execPlanStepComplete (slot : Fin 64) (s : State) : Host.Outcome State Fault Refusal :=
  let k := slot.val
  match s.plan? k with
  | none => .next s
  | some p =>
    match (List.range p.steps.length).find? (fun i => stepOver s p i) with
    | none => .next s
    | some i =>
      let s1 := showPlan k (modStep k i (fun x => { x with ph := .done }) s)
      .next (tryComplete k (s1.setReg64 k Reg.COL_PROGRESS_TICK_LO s1.tb.toNat))

/-- A flit of a chunk or fetch reply restarts the window of the wait for it (R383). -/
def touchChunk (src : Nat) (data : List Byte) (s : State) : State :=
  match planSlot s (leAt data 0 2) with
  | none => s
  | some k =>
    let s1 := s.setReg64 k Reg.COL_PROGRESS_TICK_LO s.tb.toNat
    match s1.plan? k with
    | none => s1
    | some p =>
      let i := if leAt data 4 1 = 1 then some (leAt data 2 2) else recvStep p src (leAt data 2 2)
      match i with
      | none => s1
      | some i => modStep k i (fun x => if x.ph = .ready then { x with at_ := s1.now, f := peerF s1 src } else x) s1

/-- The step of a gather that a reply or a failure answers (R360, R368). -/
def fetchAt (src id tag : Nat) (s : State) : Option (Nat × Plan) :=
  match gatherAt id tag s with
  | some (k, p) => if sSrc (p.step tag) = src ∧ (p.stAt tag).ph = .ready then some (k, p) else none
  | none => none

/-- The coll.slot operations that wait for a fetch that has landed. -/
def landedWaits (k i : Nat) (s : State) : State :=
  let l := s.slotWait.filter (fun w => w.2.2.2 = (k, i))
  l.foldl (fun t w => opOk w.1 w.2.1 w.2.2.1 t) { s with slotWait := s.slotWait.filter (fun w => w.2.2.2 ≠ (k, i)) }

/-- A fetch reply lands in its slot of the ring (R368). -/
def landFetch (k i : Nat) (p : Plan) (msg : List Byte) (s : State) : State :=
  let r := p.step i
  let va := leAt p.hdr 24 8 + i % leAt p.hdr 36 2 * leAt p.hdr 32 4
  match vWrite { rid := collReq } va (slice msg 16 (2 * sCount r)) none s with
  | (.error f, s1) => endPlan k { fail := f, mod_ := sSrc r, step := i } s1
  | (.ok _, s1) => landedWaits k i (modStep k i (fun x => { x with ph := .work, landed := true, ver := leAt msg 12 4 }) s1)

/-- FETCH_REPLY_ARRIVE: the first whole VC 0 message of a port, when it is a fetch reply (R368). -/
def execFetchReplyArrive (p : Fin 12) (s : State) : Host.Outcome State Fault Refusal :=
  match (s.cport p.val).inbox with
  | [] => .next s
  | m :: _ =>
    if leAt m.data 4 1 ≠ 1 then .next s
    else
      let s1 := takeChunk p.val s
      match fetchAt m.src (leAt m.data 0 2) (leAt m.data 2 2) s1 with
      | some (k, pl) => .next (landFetch k (leAt m.data 2 2) pl m.data s1)
      | none => .next (orphans 1 s1)

/-- FETCH_FAIL_RECEIVE: the fetch fails with the status, which ends the local plan (R368). -/
def execFetchFailReceive (p : Fin 12) (s : State) : Host.Outcome State Fault Refusal :=
  match ctlOf s p.val 5 with
  | none => .next s
  | some m =>
    let s1 := takeCtl p.val 5 s
    match fetchAt m.src (leAt m.data 2 2) (leAt m.data 22 2) s1 with
    | some (k, _) => .next (endPlan k { fail := { st := statusOfCode (leAt m.data 1 1) }, mod_ := m.src, step := leAt m.data 22 2 } s1)
    | none => .next s1

/-- The version that a FETCH is served from (R369). -/
def servedVer (e req : List Byte) (g : Nat) (s : State) : Option Nat :=
  let v := groupVer s g
  let want := leAt req 16 4 % 65536
  if gFrozen e ∨ gNelem e = 0 ∨ gNelem e < leAt req 8 4 + leAt req 12 4 then none
  else if !(leAt req 20 1).testBit 1 ∨ want = v % 65536 then some v
  else if gTwo e ∧ 0 < v ∧ want = (v - 1) % 65536 ∧ 0 < readers s g (v - 1) then some (v - 1)
  else none

/-- A FETCH fails at its owner (R360, R369). -/
def fetchFails (m : CIn) (st : Status) (s : State) : State :=
  sendCtl m.src (leBytes 1 5 ++ leBytes 1 st.code ++ slice m.data 2 2 ++ leBytes 18 0 ++ slice m.data 22 2) s

/-- Is an update of a group in place being written (R379). -/
def beingWritten (g : Nat) (s : State) : Bool :=
  groupBusy g s || s.lodeCnt.any (fun e => e.1 % 4096 = g && decide (e.2.2 < e.2.1))

/-- Serve a FETCH (R369, R378): the reply, and with HOLD one more reader. -/
def serveFetch (e : List Byte) (m : CIn) (s : State) : State :=
  let g := leAt m.data 4 2 % 4096
  let n := leAt m.data 12 4
  match servedVer e m.data g s with
  | none => fetchFails m .descriptorInvalid s
  | some v =>
    match vRead { rid := collReq } .r (gWeights e v + 2 * leAt m.data 8 4) (2 * n) s with
    | (.error f, s1) => fetchFails m f.st s1
    | (.ok w, s1) =>
      match queueMsg 0 m.src collReq none (chunkHdr (leAt m.data 2 2) (leAt m.data 22 2) 1 2 n v ++ w) s1 with
      | none => s1
      | some (_, s2) => if (leAt m.data 20 1).testBit 0 then setReaders g v (min 65535 (readers s2 g v + 1)) s2 else s2

/-- FETCH_REQUEST_RECEIVE (R369, R379): a group whose entry cannot be read is one without a table entry; a FETCH that meets an update in place
waits. -/
def execFetchRequestReceive (p : Fin 12) (s : State) : Host.Outcome State Fault Refusal :=
  match ctlOf s p.val 3 with
  | none => .next s
  | some m =>
    match groupEntry collReq (leAt m.data 4 2 % 4096) s with
    | (.error _, s1) => .next (fetchFails m .descriptorInvalid (takeCtl p.val 3 s1))
    | (.ok e, s1) =>
      if !gTwo e ∧ beingWritten (leAt m.data 4 2 % 4096) s1 then .next s1
      else .next (serveFetch e m (takeCtl p.val 3 s1))

/-- RELEASE_RECEIVE (R378). -/
def execReleaseReceive (p : Fin 12) (s : State) : Host.Outcome State Fault Refusal :=
  match ctlOf s p.val 4 with
  | none => .next s
  | some m => .next (releaseReader (leAt m.data 4 2 % 4096) (leAt m.data 16 4) (takeCtl p.val 4 s))

/-- A rise of a module's factor lengthens the windows of the waits for it (R383). -/
def lengthen (m f : Nat) (p : Plan) : Plan :=
  { p with st := p.st.mapIdx (fun i x => if x.ph = .ready ∧ sSrc (p.step i) = m then { x with f := max x.f f } else x) }

/-- SLOW_RECEIVE (R382, R383). -/
def execSlowReceive (p : Fin 12) (s : State) : Host.Outcome State Fault Refusal :=
  match ctlOf s p.val 2 with
  | none => .next s
  | some m =>
    let f := leAt m.data 1 1 % 16
    let s1 := (takeCtl p.val 2 s).setReg m.src Reg.COL_PEER_FACTOR (BitVec.ofNat 32 f)
    .next { s1 with plans := s1.plans.map (fun e => (e.1, lengthen m.src f e.2)) }

/-- SLOW_SEND: after a thermal change the participants of the running plans are told (R382). -/
def execSlowSend (s : State) : Host.Outcome State Fault Refusal :=
  if s.slowDue then .next (sendSlow (s.plans.flatMap (fun e => e.2.parts)) { s with slowDue := false }) else .next s

/-- PEER_TIMEOUT_EXPIRY: the window of a wait has ended without a flit (R12, R383). -/
def execPeerTimeoutExpiry (slot : Fin 64) (step : Fin 4096) (s : State) : Host.Outcome State Fault Refusal :=
  match s.plan? slot.val with
  | none => .next s
  | some p =>
    let x := p.stAt step.val
    if x.ph ≠ .ready ∨ s.now < x.at_ + p.timeout * 25 * x.f then .next s
    else .next (endPlan slot.val { fail := { st := .peerTimeout }, mod_ := sSrc (p.step step.val), step := step.val } (s.count 0 Reg.COL_TIMEOUTS 1))

/-- ABORT_RECEIVE: the running plan ends with PLAN_ABORTED; an unknown PLAN_ID enters the abort list (R384, R386). -/
def execAbortReceive (p : Fin 12) (s : State) : Host.Outcome State Fault Refusal :=
  match ctlOf s p.val 1 with
  | none => .next s
  | some m =>
    let id := leAt m.data 2 2
    let s1 := takeCtl p.val 1 s
    match planSlot s1 id with
    | some k => .next (endPlan k { fail := { st := .planAborted }, mod_ := m.src, tell := false } (s1.count 0 Reg.COL_ABORTS 1))
    | none =>
      if s1.planEnded.contains id ∨ s1.aborts.contains id then .next s1
      else .next { s1 with aborts := (if s1.aborts.length < 256 then s1.aborts else s1.aborts.drop 1) ++ [id] }

/-- The rule of the early-arrival registers: ignored while any plan runs (R361). -/
def earlyRule : WriteRule := { guard := fun _ old cand s => if s.plans = [] then (cand, s) else (old, s.setRf 0 Reg.COL_STATUS 1 1 1) }

/-- The rule of COL_SEED: the lanes start again (R66). -/
def colSeedRule : PairRule := { effect := fun _ _ _ s => { s with colGen := [] } }

end Sys2Proof.Machine
end

