-- ==== Sys2Proof/Machine/Causeway.lean ====
section
/-! DEFINITION. Machine/Causeway.lean: the Causeway ports: flits (R338 to R345), peers and mesh-writable windows (R346 to R349), lane drop and port
failure (R350 to R352), enable and disable (R353, R354). -/

namespace Sys2Proof.Machine

/-- Requester number of the receive side of a port (R37). -/
def cwyReq (p : Nat) : Nat := 0x0010 + p

/-- Round-robin pointers of a port: its channels, its credit returns, and the sources of a channel (R341, R343, R345). -/
def rrVc (p : Nat) : Nat := 0x13000 + p
/-- See `rrVc`. [DESIGN CHOICE 18] -/
def rrCred (p : Nat) : Nat := 0x13100 + p
/-- See `rrVc`. -/
def rrSrc (p vc : Nat) : Nat := 0x13200 + 4 * p + vc

/-- CRC-32C of a flit (R338). -/
def crc32c (l : List Byte) : Nat := crcReflected 0x82F63B78 l

/-- The fields of a flit (R338). -/
structure Flit where
  vc     : Nat
  ty     : Nat
  eom    : Bool
  seq    : Nat
  ack    : Nat
  credVc : Nat
  cred   : Nat
  dest   : Nat
  src    : Nat
  len    : Nat
  data   : List Byte
  hops   : Nat
deriving DecidableEq, Repr

/-- Read the fields of 256 bytes. -/
def Flit.ofBytes (b : List Byte) : Flit :=
  let h := leAt b 0 8
  let len := min 240 (bits h 63 56)
  ⟨bits h 1 0, bits h 3 2, bit h 4, bits h 14 5, bits h 24 15, bits h 26 25, bits h 30 27, bits h 43 32, bits h 55 44, len, slice b 8 len,
    leAt b 248 1 % 16⟩

/-- Is a flit intact: its CRC holds, its TYPE is not reserved and its reserved bits are zero (R338). -/
def flitOk (b : List Byte) : Bool :=
  let h := leAt b 0 8
  b.length == 256 && leAt b 252 4 == crc32c (slice b 0 252) && bits h 3 2 != 3 && bits h 31 31 == 0 && leAt b 248 4 < 16

/-- Header word of a flit (R338). -/
def Flit.header (f : Flit) : Nat :=
  f.vc + f.ty * 2 ^ 2 + b2n f.eom * 2 ^ 4 + f.seq * 2 ^ 5 + f.ack * 2 ^ 15 + f.credVc * 2 ^ 25 + f.cred * 2 ^ 27 + f.dest * 2 ^ 32 +
  f.src * 2 ^ 44 + f.len * 2 ^ 56

/-- The 256 bytes of a flit (R338). -/
def Flit.bytes (f : Flit) : List Byte :=
  let b := leBytes 8 f.header ++ slice f.data 0 240 ++ leBytes 4 f.hops
  b ++ leBytes 4 (crc32c b)

/-- Change a port. -/
def modPort (p : Nat) (f : CPort → CPort) (s : State) : State := s.setCport p (f (s.cport p))

/-- Lanes in use in a direction of a port. -/
def lanes (s : State) (p : Nat) (tx : Bool) : Nat := if tx then s.rf p Reg.CWY_PSTATE 7 4 else s.rf p Reg.CWY_PSTATE 11 8

/-- Body of a LANE_DROP, PORT_DOWN or MESH_REFUSED record (R478). -/
def cwyBody (s : State) (p old new reason addr len : Nat) : List Byte :=
  leBytes 1 p ++ leBytes 1 old ++ leBytes 1 new ++ leBytes 1 (lanes s p true + 16 * lanes s p false) ++ leBytes 1 reason ++ leBytes 1 0 ++
  leBytes 2 (s.rf p Reg.CWY_PEER 11 0) ++ leBytes 8 addr ++ leBytes 4 len

/-- Plans with a message that is open on a port or not wholly acknowledged there, as (slot, step, module) (R352, R383). -/
def openPlans (x : CPort) : List (Nat × Nat × Nat) :=
  (x.msgs.filter (·.begun)).filterMap (fun m => m.plan.map (fun q => (q.1, q.2, m.dest))) ++
  x.retry.filterMap (fun f => f.plan.map (fun q => (q.1, q.2, f.dest)))

/-- Plans that wait for a message that is arriving on a port. -/
def arrivingPlans (x : CPort) (s : State) : List (Nat × Nat × Nat) :=
  x.rx.filterMap (fun e =>
    if e.1 ≠ 0 ∨ e.2.mode ≠ .local_ ∨ e.2.data.length < 16 then none
    else
      match planSlot s (leAt e.2.data 0 2) with
      | none => none
      | some k =>
        match s.plan? k with
        | none => none
        | some pl =>
          let i := if leAt e.2.data 4 1 = 1 then some (leAt e.2.data 2 2) else recvStep pl e.2.src (leAt e.2.data 2 2)
          i.map (fun i => (k, i, e.2.src)))

/-- A forwarded message whose last flit is dropped ends where it stopped: what has arrived of it is still sent. -/
def endForward (id : Nat) (l : List CMsg) : List CMsg :=
  (l.map (fun m => if m.id = id then { m with fin := true } else m)).filter (fun m => m.id ≠ id || !m.data.isEmpty)

/-- What a port had received for other ports leaves with its receive buffer: messages forwarded from it end where they stopped (R352). -/
def endForwards (p : Nat) (s : State) : State :=
  (List.range 12).foldl (fun t q => if (t.cport q).msgs.any (fun m => m.from_ = some p)
    then modPort q (fun y => { y with msgs := y.msgs.filter (fun m => m.from_ ≠ some p) }) t else t) s

/-- Flits that waited to be forwarded on a lost port give the receive buffers of their ports free (R341). -/
def returnLost (p : Nat) (x : CPort) (s : State) : State :=
  x.msgs.foldl (fun t m => match m.from_ with
    | some q => if q = p then t else returnCred q m.vc m.data.length t
    | none => t) s

/-- Messages that have not begun and that neither port can carry any more are not sent, and the collective engine is told (R344, R383). [DEDUCED 74] -/
def settleOutbox (s : State) : State :=
  let lost := fun (m : CMsg) => (routeTo s m.dest).isNone
  (s.outbox.filter lost).foldl (fun t m => match m.plan with
    | some (k, i) => endPlan k { fail := { st := .peerTimeout }, mod_ := m.dest, step := i } t
    | none => t) { s with outbox := s.outbox.filter (fun m => !lost m) }

/-- Bytes of the messages that a port was writing through windows and that made no whole word yet are written (R348). [DEDUCED 186] -/
def endMeshes (p : Nat) (x : CPort) (s : State) : State :=
  x.rx.foldl (fun t e => match e.2.mode with
    | .mesh a l o c => (physWrite { rid := cwyReq p } (a + min o l - c.length) c none t).2
    | _ => t) s

/-- A port leaves the link: its buffers are lost, open messages are cut (R352, R354). -/
def clearPort (p st root : Nat) (s : State) : State :=
  let x := s.cport p
  let s0 := endMeshes p x s
  let s1 := ((setPortState p st s0).setRf p Reg.CWY_PSTATE 11 4 0).setCport p { CPort.empty with noted := x.noted }
  let cut := openPlans x ++ arrivingPlans x s1
  settleOutbox (cutPlans root cut (returnLost p x (endForwards p s1)))

/-- A port goes DOWN for a reason (R352): reported, and the collective engine is told. -/
def portDown (p reason : Nat) (s : State) : State :=
  let body := cwyBody s p (portState s p) 5 reason 0 0
  let (q, s1) := writeFaultId { cls := .portDown, status := .ok, disp := .reported, req := cwyReq p, unit := p, body := body } s
  clearPort p 5 q s1

/-- Flits acknowledged up to a sequence number leave the retry buffer (R340). -/
def acked (x : CPort) (ack : Nat) : CPort :=
  match x.retry.findIdx? (fun f => f.seq = ack) with
  | some i => { x with retry := x.retry.drop (i + 1), again := x.again - (i + 1) }
  | none => x

/-- The ACK and credit fields of an intact flit (R339, R341). -/
def takeHeader (f : Flit) (x : CPort) : CPort :=
  let y := acked x f.ack
  { y with cred := modAt y.cred f.credVc (· + f.cred) }

/-- A flit is discarded: the first sends a NAK (R340). [DEDUCED 76] -/
def discardFlit (p : Nat) (s : State) : State :=
  let x := s.cport p
  let y := if x.discard then x else { x with discard := true, nakDue := true, nakAt := s.now }
  (s.setCport p y).count p Reg.CWY_CRC_ERR 1

/-- The window of R349 that holds a whole range. -/
def windowHolds (s : State) (w addr len : Nat) : Bool :=
  let base := s.rf w Reg.CWY_WIN_BASE_LO 31 16 * 65536 + 2 ^ 32 * s.rf w Reg.CWY_WIN_BASE_HI 15 0
  s.rf w Reg.CWY_WIN_EN 0 0 == 1 && decide (base ≤ addr) && decide (addr + len ≤ base + s.rf w Reg.CWY_WIN_SIZE 23 0 * 65536)

/-- A mesh message is refused; the first refusal since the last read of the counter writes a record (R348). -/
def meshRefuse (p addr len : Nat) (s : State) : State :=
  let s1 := s.countField p Reg.CWY_MESH_CNT 15 0 1
  if (s.cport p).noted then s1
  else
    let st := portState s p
    modPort p (fun x => { x with noted := true }) (writeFault { cls := .meshRefused, status := .ok, disp := .notice,
                                                                req := cwyReq p, unit := p, body := cwyBody s p st st 0 addr len } s1)

/-- Write bytes of a mesh message from an offset on, at most to its LENGTH (R347, R348): a 32-byte word that the next flit goes on with is
written when it is whole, so that R76 sees it covered; `carry` holds its bytes until then. [DEDUCED 186] -/
def meshWrite (p addr len off : Nat) (carry d : List Byte) (s : State) : List Byte × State :=
  let from_ := min off len - carry.length
  let l := carry ++ d.take (len - off)
  let stop := from_ + l.length
  let k := if len ≤ stop then l.length else l.length - (addr + stop) % 32
  (l.drop k, (physWrite { rid := cwyReq p } (addr + from_) (l.take k) none s).2)

/-- May a VC 1 message write: its LENGTH is legal, and one window holds its range (R347, R348). [DEDUCED 82] -/
def meshOk (s : State) (addr len : Nat) : Bool :=
  decide (1 ≤ len) && decide (len ≤ 65536) && (List.range 16).any (fun w => windowHolds s w addr len)

/-- The route of the first flit of a message for another module (R345). [DEDUCED 75] -/
def forwardFirst (p : Nat) (f : Flit) (s : State) : CMode × State :=
  if f.hops = 0 then (.drop, s.countField p Reg.CWY_NOROUTE_HOP 31 16 1)
  else
    match routeTo s f.dest with
    | none => (.drop, s.countField p Reg.CWY_NOROUTE_HOP 15 0 1)
    | some q =>
      let m : CMsg := { id := s.msgCount, vc := f.vc, dest := f.dest, src := f.src, rid := cwyReq p, from_ := some p, plan := none,
                        data := [(f.data, f.hops - 1)], fin := f.eom, begun := false }
      (.fwd q m.id, putMsg q m { s with msgCount := s.msgCount + 1 })

/-- A probe goes back with its arrival tick (R342). [DEDUCED 80] -/
def echoFlit (p : Nat) (f : Flit) (s : State) : State :=
  let d := slice (slice f.data 0 8 ++ leBytes 8 s.tb.toNat ++ f.data.drop 16) 0 (max 16 f.data.length)
  let m : CMsg := { id := s.msgCount, vc := 3, dest := f.src, src := moduleNum s, rid := cwyReq p,
                    from_ := some p, plan := none, data := [(d, hopsInit s f.src)], fin := true, begun := false }
  putMsg p m { s with msgCount := s.msgCount + 1 }

/-- A later flit of a message that is forwarded, with its own HOPS reduced by 1; the last one dropped ends the message (R345). [DEDUCED 75] -/
def forwardMore (p q id : Nat) (f : Flit) (s : State) : State :=
  if f.hops = 0 then
    let s1 := returnCred p f.vc 1 (s.countField p Reg.CWY_NOROUTE_HOP 31 16 1)
    if f.eom then modPort q (fun y => { y with msgs := endForward id y.msgs }) s1 else s1
  else if (s.cport q).msgs.any (fun m => m.id = id) then
    modPort q (fun y => { y with msgs := y.msgs.map (fun m =>
      if m.id = id then { m with data := m.data ++ [(f.data, f.hops - 1)], fin := f.eom } else m) }) s
  else returnCred p f.vc 1 (s.countField p Reg.CWY_NOROUTE_HOP 15 0 1)

/-- Set or end the arriving message of a channel. -/
def setRx (p vc : Nat) (m : Option CRx) (s : State) : State :=
  modPort p (fun x => { x with rx := match m with | some r => SMap.put x.rx vc r | none => SMap.del x.rx vc }) s

/-- A message for the collective engine is whole: it waits in the receive buffer (R346). -/
def wholeMsg (p vc : Nat) (m : CRx) (s : State) : State :=
  let i : CIn := ⟨m.src, m.data, m.flits, m.place⟩
  modPort p (fun x => if vc = 2 then { x with ctl := x.ctl ++ [i] } else { x with inbox := x.inbox ++ [i] }) s

/-- A flit of a local message of VC 0 or 2 (R346, R383); one of VC 0 leaves the receive buffer as far as its message has a place (R361). -/
def localFlit (p : Nat) (f : Flit) (m : CRx) (s : State) : State :=
  let n := { m with data := m.data ++ f.data, flits := m.flits + 1 }
  let (n1, s1) := if f.vc = 0 then settleRx p n (touchChunk m.src n.data s) else (n, s)
  if f.eom then wholeMsg p f.vc n1 (setRx p f.vc none s1) else setRx p f.vc (some n1) s1

/-- A flit's bytes of a mesh message from an offset on (R347): the message goes on, or ends, short of its LENGTH or not (R348). -/
def meshFlit (p : Nat) (f : Flit) (addr len off : Nat) (carry d : List Byte) (src : Nat) (s : State) : State :=
  let w := meshWrite p addr len off carry d s
  let stop := off + d.length
  let s1 := returnCred p 1 1 w.2
  if f.eom then
    let s2 := (physWrite { rid := cwyReq p } (addr + min stop len - w.1.length) w.1 none s1).2
    setRx p 1 none (if stop < len then s2.countField p Reg.CWY_MESH_CNT 31 16 1 else s2)
  else setRx p 1 (some ⟨src, .mesh addr len stop w.1, [], 0, none⟩) s1

/-- The first flit of a message. -/
def firstFlit (p : Nat) (f : Flit) (s : State) : State :=
  let keep := fun (m : CMode) (t : State) => setRx p f.vc (if f.eom then none else some ⟨f.src, m, [], 0, none⟩) t
  if f.dest ≠ moduleNum s then
    match forwardFirst p f s with
    | (.drop, s1) => keep .drop (returnCred p f.vc 1 s1)
    | (m, s1) => keep m s1
  else if f.vc = 3 then echoFlit p f s
  else if f.vc = 1 then
    let addr := leAt f.data 0 8
    let len := leAt f.data 8 4
    if meshOk s addr len then meshFlit p f addr len 0 [] (f.data.drop 16) f.src s
    else keep .refused (returnCred p 1 1 (meshRefuse p addr len s))
  else localFlit p f ⟨f.src, .local_, [], 0, none⟩ s

/-- A further flit of a message. -/
def nextFlit (p : Nat) (f : Flit) (m : CRx) (s : State) : State :=
  let fin := fun (t : State) => if f.eom then setRx p f.vc none t else t
  match m.mode with
  | .local_ => localFlit p f m s
  | .drop => fin (returnCred p f.vc 1 s)
  | .refused => fin (returnCred p f.vc 1 s)
  | .fwd q id => fin (forwardMore p q id f s)
  | .mesh a l o c => meshFlit p f a l o c f.data m.src s

/-- An accepted DATA flit is delivered or forwarded (R344 to R348). -/
def deliver (p : Nat) (f : Flit) (s : State) : State :=
  match SMap.get? (s.cport p).rx f.vc with
  | some m => nextFlit p f m s
  | none => firstFlit p f s

/-- A NAK: every unacknowledged flit is sent again; the 32nd time in a row puts the port DOWN (R340, R352). -/
def takeNak (p : Nat) (s : State) : State :=
  let x := s.cport p
  let y := { x with again := 0, retry := x.retry.map (fun f => { f with tries := f.tries + 1 }) }
  let s1 := (s.setCport p y).count p Reg.CWY_RETRIES 1
  if (y.retry.head?.map (·.tries)).getD 0 ≥ 32 then portDown p 2 s1 else s1

/-- An intact flit (R339, R340): a NAK that is due is still sent when the expected flit has come meanwhile. -/
def takeFlit (p : Nat) (f : Flit) (s : State) : State :=
  let s1 := modPort p (takeHeader f) s
  if f.ty = 0 then s1
  else if f.ty = 2 then takeNak p s1
  else
    let x := s1.cport p
    if f.seq = x.rxSeq then
      deliver p f ((s1.setCport p { x with rxSeq := (x.rxSeq + 1) % 1024, discard := false }).count64 p Reg.CWY_FLITS_RX_LO 1)
    else discardFlit p s1

/-- FLIT_RECEIVE (R339, R340, R352): a flit lost in the FEC is discarded like one that fails its CRC. [DEDUCED 76] -/
def execFlitReceive (p : Fin 12) (f : FlitIn) (s : State) : Host.Outcome State Fault Refusal :=
  let k := p.val
  if !portUp s k then .next s
  else
    match f with
    | .fecLost => .next (discardFlit k (s.count k Reg.CWY_FEC_UNCORR 1))
    | .peerDown => .next (portDown k 4 s)
    | .flit b =>
      let s1 := modPort k (fun x => { x with lastRx := s.now }) s
      .next (if flitOk b then takeFlit k (Flit.ofBytes b) s1 else discardFlit k s1)

/-- NAK_REPEAT: every 2 µs while the receiver discards (R340). -/
def execNakRepeat (p : Fin 12) (s : State) : Host.Outcome State Fault Refusal :=
  let x := s.cport p.val
  if portUp s p.val ∧ x.discard ∧ x.nakAt + 50 ≤ s.now then .next (s.setCport p.val { x with nakDue := true, nakAt := s.now }) else .next s

/-- The message that a channel sends from: the one that has begun, else the one that R39 chooses among the sources, a message that starts here
being on the port that R344 gives it now (R343 to R345). -/
def vcMessage (s : State) (p vc : Nat) : Option CMsg :=
  let own := (s.cport p).msgs.filter (fun m => m.vc = vc)
  match own.find? (·.begun) with
  | some m => some m
  | none =>
    if !portOpen s p then none
    else
      let l := own ++ s.outbox.filter (fun m => m.vc = vc && routeTo s m.dest = some p)
      match rrWinner (SMap.getD s.rr (rrSrc p vc) 0) (l.map (·.rid)) with
      | some r => l.find? (fun m => m.rid = r)
      | none => none

/-- A message whose next flit a channel could send: it has one, and the channel holds a credit (R341). -/
def vcReady (s : State) (p vc : Nat) : Option CMsg :=
  match vcMessage s p vc with
  | some m => if m.data ≠ [] ∧ 0 < (s.cport p).cred.getD vc 0 then some m else none
  | none => none

/-- The channel of the next new flit: CTRL first, then R39 (R343). [DEDUCED 77] -/
def pickVc (s : State) (p : Nat) : Option Nat :=
  if (vcReady s p 2).isSome then some 2
  else rrWinner (SMap.getD s.rr (rrVc p) 0) ([0, 1, 3].filter (fun v => (vcReady s p v).isSome))

/-- Credits that the next flit returns, and the state after it (R341). [DEDUCED 77] -/
def takeReturn (p : Nat) (s : State) : (Nat × Nat) × State :=
  let x := s.cport p
  match rrGrant (rrCred p) ((List.range 4).filter (fun v => 0 < x.ret.getD v 0)) s with
  | none => ((0, 0), s)
  | some (v, s1) =>
    let n := min 15 (x.ret.getD v 0)
    ((v, n), s1.setCport p { x with ret := modAt x.ret v (· - n) })

/-- Send a flit: its link fields are filled in and it goes out (R338, R339). [DEDUCED 77, 78] -/
def sendFlit (p : Nat) (f : Flit) (s : State) : State :=
  let (c, s1) := takeReturn p s
  let g := { f with ack := ((s1.cport p).rxSeq + 1023) % 1024, credVc := c.1, cred := c.2 }
  s1.emit (.flit p g.header (g.bytes.drop 8))

/-- A DATA flit of the retry buffer as it is sent. -/
def RFlit.flit (f : RFlit) : Flit := ⟨f.vc, 1, f.eom, f.seq, 0, 0, 0, f.dest, f.src, f.data.length, f.data, f.hops⟩

/-- A flit without data (R338). -/
def bareFlit (ty : Nat) : Flit := ⟨0, ty, false, 0, 0, 0, 0, 0, 0, 0, [], 0⟩

/-- A message that starts here takes its port with its first flit: it keeps the port, and its HOPS are those of its entry now (R344). -/
def takePort (p : Nat) (m : CMsg) (s : State) : CMsg × State :=
  if m.begun ∨ m.from_.isSome then (m, s)
  else
    let n := { m with data := m.data.map (fun d => (d.1, hopsInit s m.dest)) }
    (n, putMsg p n { s with outbox := s.outbox.filter (fun k => k.id ≠ m.id) })

/-- Send the next new flit of a message on its port (R340, R341, R343, R345). -/
def sendNext (p : Nat) (m : CMsg) (s : State) : State :=
  let x := s.cport p
  let eom := m.fin && decide (m.data.length = 1)
  let d := m.data.headD ([], 0)
  let r : RFlit := ⟨x.txSeq, m.vc, eom, m.dest, m.src, d.2, d.1, m.id, m.plan, 0⟩
  let msgs := if eom then x.msgs.filter (fun k => k.id ≠ m.id)
              else x.msgs.map (fun k => if k.id = m.id then { k with data := k.data.drop 1, begun := true } else k)
  let y := { x with txSeq := (x.txSeq + 1) % 1024, retry := x.retry ++ [r], again := x.again + 1, cred := modAt x.cred m.vc (· - 1), msgs := msgs }
  let s1 := if m.begun then s else { s with rr := SMap.put s.rr (rrSrc p m.vc) (m.rid + 1) }
  let s2 := if m.vc = 2 then s1 else { s1 with rr := SMap.put s1.rr (rrVc p) (m.vc + 1) }
  let s3 := sendFlit p r.flit ((s2.setCport p y).count64 p Reg.CWY_FLITS_TX_LO 1)
  match m.from_ with
  | some q => returnCred q m.vc 1 s3
  | none => s3

/-- Send the next new flit of a message, which begins here or goes on (R344). -/
def sendNew (p : Nat) (m : CMsg) (s : State) : State := let r := takePort p m s; sendNext p r.1 r.2

/-- FLIT_TRANSMIT: a due NAK, a flit sent again, a new flit, or an IDLE (R339, R340, R343). -/
def execFlitTransmit (p : Fin 12) (s : State) : Host.Outcome State Fault Refusal :=
  let k := p.val
  let x := s.cport k
  if !portUp s k ∨ x.held then .next s
  else if x.nakDue then .next (sendFlit k (bareFlit 2) (s.setCport k { x with nakDue := false }))
  else
    match x.retry[x.again]? with
    | some r => .next (sendFlit k r.flit ((s.setCport k { x with again := x.again + 1 }).count64 k Reg.CWY_FLITS_TX_LO 1))
    | none =>
      match if 768 ≤ x.retry.length then none else pickVc s k with
      | none => .next (sendFlit k (bareFlit 0) s)
      | some v =>
        match vcReady s k v with
        | some m => .next (sendNew k m s)
        | none => .next (sendFlit k (bareFlit 0) s)

/-- Number of lanes in a mask. -/
def laneCount (m : Nat) : Nat := ((List.range 4).filter (fun i => m.testBit i)).length

/-- Has a lane failed by what is seen of it (R350): more corrected symbols than LANE_SER_MAX are a failure. -/
def laneFails (s : State) (p : Nat) : LaneCause → Bool
  | .lost => true
  | .symbols n => decide (s.rf p Reg.CWY_LANE_SER_MAX 17 0 < n)

/-- LANE_FAILURE: a lane in use fails (R350). -/
def execLaneFailure (p : Fin 12) (tx : Bool) (ev : LaneEvent) (s : State) : Host.Outcome State Fault Refusal :=
  let k := p.val
  if portUp s k ∧ (lanes s k tx).testBit ev.lane.val ∧ laneFails s k ev.cause then
    .next (modPort k (fun x => if tx then { x with badTx := x.badTx ||| 2 ^ ev.lane.val } else { x with badRx := x.badRx ||| 2 ^ ev.lane.val }) s)
  else .next s

/-- LANE_DROP: a detected failure holds transmission and drops the lane, or the port with it; of failed receive lanes the peer is told (R350 to
R352). -/
def execLaneDrop (p : Fin 12) (s : State) : Host.Outcome State Fault Refusal :=
  let k := p.val
  let x := s.cport k
  let tx := lanes s k true &&& (15 ^^^ x.badTx)
  let rx := lanes s k false &&& (15 ^^^ x.badRx)
  if !portUp s k ∨ (x.badTx = 0 ∧ x.badRx = 0) then .next s
  else
    let n := laneCount (lanes s k true) + laneCount (lanes s k false) - laneCount tx - laneCount rx
    let bad := lanes s k false &&& x.badRx
    let s0 := if bad = 0 then s else s.emit (.laneDown k bad)
    let s1 := ((s0.setRf k Reg.CWY_PSTATE 7 4 tx).setRf k Reg.CWY_PSTATE 11 8 rx).countField k Reg.CWY_LANE_DROPS 7 0 n
    if laneCount tx < 2 ∨ laneCount rx < 2 then .next (portDown k 1 s1)
    else
      let body := cwyBody s1 k (portState s k) 4 0 0 0
      .next (writeFault { cls := .laneDrop, status := .ok, disp := .masked, req := cwyReq k, unit := k, body := body }
        (s1.setCport k { x with held := true, badTx := 0, badRx := 0 }))

/-- PORT_DEGRADED: the remaining lanes are retrained; unacknowledged flits are sent again (R351). -/
def execPortDegraded (p : Fin 12) (s : State) : Host.Outcome State Fault Refusal :=
  let x := s.cport p.val
  if portUp s p.val ∧ x.held then .next (setPortState p.val 4 (s.setCport p.val { x with held := false, again := 0 })) else .next s

/-- LINK_SILENCE_TIMEOUT: no flit for 10 µs (R352). -/
def execLinkSilenceTimeout (p : Fin 12) (s : State) : Host.Outcome State Fault Refusal :=
  if portUp s p.val ∧ (s.cport p.val).lastRx + 250 ≤ s.now then .next (portDown p.val 3 s) else .next s

/-- Set CWY_STATUS.CFG_ERR. -/
def cwyCfgErr (s : State) : State := s.setRf 0 Reg.CWY_STATUS 0 0 1

/-- Do the credits of a port sum to 1,024, none of them 0 (R353). -/
def credsOk (s : State) (p : Nat) : Bool :=
  let l := [s.rf p Reg.CWY_CRED01 10 0, s.rf p Reg.CWY_CRED01 26 16, s.rf p Reg.CWY_CRED23 10 0, s.rf p Reg.CWY_CRED23 26 16]
  l.foldl (· + ·) 0 == 1024 && l.all (fun n => n != 0)

/-- A port starts to train, with all its lanes (R353). -/
def trainPort (p : Nat) (s : State) : State :=
  setPortState p 1 (((s.setRf p Reg.CWY_PSTATE 11 4 0xFF).setReg p Reg.CWY_LANE_DROPS 0).setCport p { CPort.empty with noted := (s.cport p).noted })

/-- EN of a port changes (R352 to R354). -/
def portEnEffect (p : Nat) (on : Bool) (s : State) : State :=
  if on then (if portState s p = 0 then trainPort p s else s)
  else if portUp s p then settleOutbox (modPort p (fun x => { x with offAt := some (s.now + 500) }) s)
  else clearPort p 0 0 s

/-- The rule of a port's control register (R353, R354): a 0 written to a DOWN port whose EN is 0 already turns it OFF too (R352). [DEDUCED 79] -/
def portCtrlRule : WriteRule :=
  { guard := fun p old cand s => if fld old 0 0 = 0 ∧ fld cand 0 0 = 1 ∧ !credsOk s p then (setFld cand 0 0 0, cwyCfgErr s) else (cand, s)
    effect := fun p old new _ s =>
      if fld old 0 0 ≠ fld new 0 0 then portEnEffect p (fld new 0 0 = 1) s
      else if fld new 0 0 = 0 ∧ portState s p = 5 then clearPort p 0 0 s else s }

/-- The rule of an entry of the destination table (R344): messages that no port can carry any more end. -/
def dtRule : WriteRule := { effect := fun _ _ _ _ s => settleOutbox s }

/-- The rule of credits and LANE_SER_MAX: only while the port is OFF (R354). -/
def portFieldRule : WriteRule := { guard := fun p old cand s => if portState s p = 0 then (cand, s) else (old, cwyCfgErr s) }

/-- The INIT flit of a port (R341, R353). -/
def initFlit (p : Nat) (s : State) : Out :=
  .initFlit p (moduleNum s) [s.rf p Reg.CWY_CRED01 10 0, s.rf p Reg.CWY_CRED01 26 16, s.rf p Reg.CWY_CRED23 10 0, s.rf p Reg.CWY_CRED23 26 16]

/-- PORT_TRAINED: INIT flits are exchanged (R353); without CWY_REFCLK a port cannot train (R417). [DEDUCED 80] -/
def execPortTrained (p : Fin 12) (peerModule : BitVec 12) (peerPort : BitVec 4) (creds : List Nat) (rtt : W16) (s : State) :
    Host.Outcome State Fault Refusal :=
  let k := p.val
  if portState s k ≠ 1 ∨ s.rf 0 Reg.CLK_STATUS 9 9 = 0 then .next s
  else
    let s1 := ((s.emit (initFlit k s)).setReg k Reg.CWY_PEER (BitVec.ofNat 32 (peerModule.toNat + 65536 * peerPort.toNat))).setReg k Reg.CWY_RTT_NS (rtt.zeroExtend 32)
    let s2 := modPort k (fun x => { x with cred := (List.range 4).map (fun v => creds.getD v 0), lastRx := s.now }) s1
    if peerModule.toNat = moduleNum s then .next ((setPortState k 2 s2).setRf k Reg.CWY_PSTATE 12 12 1)
    else .next (setPortState k 3 s2)

/-- PORT_OFF: 20 µs after the disable, or once nothing is left to send again, the port is OFF (R354). [DEDUCED 79] -/
def execPortOff (p : Fin 12) (s : State) : Host.Outcome State Fault Refusal :=
  let k := p.val
  match (s.cport k).offAt with
  | none => .next s
  | some t =>
    if s.now < t ∧ (s.cport k).retry ≠ [] then .next s
    else
      let s1 := clearPort k 0 0 s
      .next (if s1.rf k Reg.CWY_PCTRL 0 0 = 1 then trainPort k s1 else s1)

/-- May a window be enabled: a size, and a place entirely in HBM or in the Pool (R349). -/
def windowOk (s : State) (w : Nat) : Bool :=
  let base := s.rf w Reg.CWY_WIN_BASE_LO 31 16 * 65536 + 2 ^ 32 * s.rf w Reg.CWY_WIN_BASE_HI 15 0
  let n := s.rf w Reg.CWY_WIN_SIZE 23 0 * 65536
  n != 0 && ((decide (base + n ≤ hbmEnd)) || (regionOf base == .pool && regionOf (base + n - 1) == .pool))

/-- The rule of WIN_EN (R349). -/
def windowEnRule : WriteRule :=
  { guard := fun w old cand s => if fld old 0 0 = 0 ∧ fld cand 0 0 = 1 ∧ !windowOk s w then (setFld cand 0 0 0, cwyCfgErr s) else (cand, s) }

/-- The rule of a window's base and size: only while it is disabled (R349). -/
def windowFieldRule : WriteRule := { guard := fun w old cand s => if s.rf w Reg.CWY_WIN_EN 0 0 = 0 then (cand, s) else (old, cwyCfgErr s) }

/-- A read of MESH_REFUSED lets the next refusal write a record (R348). -/
def meshRead (p : Nat) (s : State) : State := modPort p (fun x => { x with noted := false }) s

end Sys2Proof.Machine
end

