-- ==== Sys2Proof/Machine/HostIf.lean ====
section
/-! DEFINITION. Machine/HostIf.lean: the device window (R433, R434), configuration requests (R429, R456) and the PCIe link (R428). -/

namespace Sys2Proof.Machine

/-- Physical address of an offset of the device window (R433). -/
def windowPa (s : State) (off : Nat) : Nat := s.reg64 0 Reg.HST_WIN_BASE_LO + off

/-- An access to HBM before MEM_STATUS.READY: nothing is written, a read gives zeros, EARLY_ACCESS is set (R458). -/
def earlyAccess (q : MemReq) (s : State) : State := unbacked q (s.setRf 0 Reg.MEM_STATUS 9 9 1)

/-- A request through the device window, by the region it reaches (R32, R433). [DEDUCED 102] -/
def windowReq (q : MemReq) (s : State) : State :=
  if q.len = 0 then s
  else if q.pa ≥ 2 ^ 48 then unbacked q s
  else
    match regionOf q.pa with
    | .hbm => if s.rf 0 Reg.MEM_STATUS 1 1 = 1 then serveMem q (unitReach { rid := q.rid } q.pa q.len s).2 else earlyAccess q s
    | .pool => serveMem q s
    | .tier2 => t2Req q .clean s
    | .sram _ _ => sramReq q .none s
    | .regs | .reserved => unbacked q s

/-- A write that touches program-store words undoes the reuse of images there (R394). -/
def touchWindow (pa n : Nat) (s : State) : State :=
  match regionOf pa with
  | .sram k o =>
    if o + n ≤ 0x1E00000 then s
    else
      match (servingArray s k).bind (logicalOf s) with
      | some a =>
        let lo := (o - 0x1E00000) / 8
        touchStore a lo ((o + n - 0x1E00000 + 7) / 8 - lo) s
      | none => s
  | _ => s

/-- An access through the device window. -/
def windowAct (q : MemReq) (s : State) : State :=
  if q.wdata.isSome then touchWindow q.pa q.len (windowReq q s) else windowReq q s

/-- BAR2_READ: a host read through the device window (R433), after the accesses before it (R434). -/
def execBar2Read (off : Fin 68719476736) (len : Fin 4097) (s : State) : Host.Outcome State Fault Refusal :=
  let q : MemReq := { rid := hostRid, pa := windowPa s off.val, len := len.val, wdata := none }
  if !(s.up.cfgReady && s.linkUp) then .next s
  else .next (hostTurn (.window q) (windowAct q) s)

/-- BAR2_WRITE: a host write through the device window, after the accesses before it; a poisoned one is dropped and reported (R431, R433,
R434). -/
def execBar2Write (off : Fin 68719476736) (data : List Byte) (poison : Bool) (s : State) : Host.Outcome State Fault Refusal :=
  let q : MemReq := { rid := hostRid, pa := windowPa s off.val, len := data.length, wdata := some data }
  if !(s.up.cfgReady && s.linkUp) ∨ data.length > 4096 then .next s
  else if poison then .next ((s.setRf 0 Reg.HST_STATUS 4 4 1).emit .aer)
  else .next (hostTurn (.window q) (windowAct q) s)

/-- A dword of configuration space (R429, R430): the fields the manual gives, with the type and size bits of the BARs, the others free. [DESIGN CHOICE 104] -/
def configWord (off : Nat) (s : State) : W32 × State :=
  let (k, s1) := s.drawFree
  let free := (Config.freeWord k).toNat % 2 ^ 32
  let w := match off / 4 with
    | 0 => Config.vendorId.toNat + 2 ^ 16 * 0x0960
    | 1 => putBits free 2 2 (b2n s.bme)
    | 2 => s.rf 0 Reg.GLB_STEPPING 7 0 + 2 ^ 8 * 0x120000
    | 4 => putBits free 25 0 0x4
    | 6 => 0xC
    | 7 => putBits free 3 0 0
    | 8 => putBits free 15 0 0x4
    | 11 => putBits free 15 0 Config.vendorId.toNat
    | 15 => putBits free 15 8 0
    | _ => free
  (BitVec.ofNat 32 w, s1)

/-- CONFIG_REQUEST: a configuration read; Request Retry Status before configuration ready (R456). -/
def execConfigRequest (off : Fin 4096) (s : State) : Host.Outcome State Fault Refusal :=
  if !s.linkUp then .next s
  else if !s.up.cfgReady then .next (s.emit (.config none))
  else
    let (w, s1) := configWord off.val s
    .next (s1.emit (.config (some w)))

/-- PCIE_LINK_UP: the link trains to a supported rate and width while PERST# is deasserted and PCIe REFCLK is present (R428, R456). -/
def execPcieLinkUp (rate : Fin 8) (width : Fin 32) (flit : Bool) (s : State) : Host.Outcome State Fault Refusal :=
  let fits := (rate.val == 4 || rate.val == 5 || (rate.val == 6 && flit)) && (width.val == 4 || width.val == 8 || width.val == 16)
  if s.up.peat ∧ !s.up.safe ∧ !s.up.perst ∧ s.rf 0 Reg.CLK_STATUS 8 8 = 1 ∧ !s.linkUp ∧ fits then
    .next ({ s with linkUp := true }.setReg 0 Reg.HST_LINK (BitVec.ofNat 32 (rate.val + 2 ^ 4 * width.val + 2 ^ 9 * b2n flit)))
  else .next s

end Sys2Proof.Machine
end

