-- ==== Sys2Proof/Machine/Journal.lean ====
section
/-! DEFINITION. Machine/Journal.lean: freeing fault records (R480), reading and spilling the change journal (R485 to R488), errors of
Peat-domain memory, of the fabric and of control state (R470). -/

namespace Sys2Proof.Machine

/-- The rule of FLT_HEAD_SEQ: records below the written value are freed; its writes are not journaled (R480). -/
def headSeqRule : WriteRule :=
  { guard := fun _ _ cand s =>
      if s.faults.head < cand.toNat ∧ cand.toNat ≤ s.faults.next then (cand, s) else (BitVec.ofNat 32 s.faults.head, s)
    effect := fun _ _ new _ s =>
      { s with faults := { s.faults with head := new.toNat, queue := s.faults.queue.filter (fun r => decide (new.toNat ≤ r.fseq)) } }
    silent := true }

/-- The record of an uncorrected word of the ring or the fault queue (R470, R478). -/
def peatRecord (req loc : Nat) : FaultIn :=
  { cls := .peatMem, status := .memUncorrectable, disp := .reported, req := req,
    body := leBytes 8 0 ++ leBytes 1 2 ++ leBytes 1 0xFF ++ leBytes 2 loc }

/-- A read of the journal ring meets a bit error: one bit is corrected and counted, two damage the entry (R470). -/
def readEntryBits (req seq : Nat) (ev : BitErr) (s : State) : State :=
  match ev with
  | .none => s
  | .one => s.count 0 Reg.FLT_PEAT_CE 1
  | .two => writeFault (peatRecord req (seq % 65536)) { s with jrn := { s.jrn with damaged := setIns s.jrn.damaged seq } }

/-- Select a journal entry (R485). [DEDUCED 126] -/
def selectEntry (seq : Nat) (ev : BitErr) (s : State) : State :=
  let s1 := if (jrnFind s seq).isSome ∧ !s.jrn.damaged.contains seq then readEntryBits (portReq .pcie) seq ev s else s
  s1.setRf 0 Reg.JRN_RD_STATUS 1 0 (jrnStatus s1 seq)

/-- The rule of JRN_RD; its writes are not journaled (R481, R485). -/
def jrnRdRule (ev : BitErr) : WriteRule :=
  { effect := fun _ _ new _ s => selectEntry (fld new 23 0) ev s, silent := true }

/-- Slots of the spill ring (R486). -/
def spillSlots (s : State) : Nat := s.rf 0 Reg.JRN_SPILL_SIZE 15 0 * 128

/-- The rule of JRN_CTRL: SPILL_EN from 0 to 1 starts the spill from the oldest entry held, or is refused with SIZE 0 (R486). -/
def jrnCtrlRule : WriteRule :=
  { guard := fun _ old cand s =>
      if fld old 0 0 = 0 ∧ fld cand 0 0 = 1 ∧ spillSlots s = 0 then (setFld cand 0 0 0, s.setRf 0 Reg.JRN_STATUS 3 3 1) else (cand, s)
    effect := fun _ old new _ s =>
      if fld old 0 0 = 0 ∧ fld new 0 0 = 1 then
        ({ s with jrn := { s.jrn with unspilled := s.jrn.ring.length } }.setReg 0 Reg.JRN_SPILL_WR 0).setReg 0 Reg.JRN_SPILL_RD 0
      else s }

/-- The rule of JRN_SPILL_RD: a value beyond the ring is ignored; its writes are not journaled (R481, R486). -/
def spillRdRule : WriteRule :=
  { guard := fun _ old cand s => if fld cand 23 0 < spillSlots s then (cand, s) else (old, s), silent := true }

/-- Entries in the spill ring (R486). -/
def spillHeld (s : State) : Nat :=
  let n := spillSlots s
  (s.rf 0 Reg.JRN_SPILL_WR 23 0 + n - s.rf 0 Reg.JRN_SPILL_RD 23 0) % max 1 n

/-- Set a bit of JRN_STATUS; the JOURNAL cause when it goes from 0 to 1 (R487). -/
def jrnFlag (b : Nat) (s : State) : State :=
  let s1 := s.setRf 0 Reg.JRN_STATUS b b 1
  if s.rf 0 Reg.JRN_STATUS b b = 0 then raiseEvt .journal s1 else s1

/-- A spill write that failed (R486). -/
def spillFault (addr : Nat) (f : Fail) (s : State) : State :=
  let s1 := deviceSetReg 0 0 Reg.JRN_CTRL (setFld (s.reg 0 Reg.JRN_CTRL) 0 0 0) s
  writeFault { cls := .journal, status := f.st, disp := .reported, root := f.root, body := leBytes 8 addr } (jrnFlag 2 s1)

/-- A spilled entry: the pointer advances, the watermark is compared (R486). -/
def spillDone (s : State) : State :=
  let s1 := { s with jrn := { s.jrn with unspilled := s.jrn.unspilled - 1 } }
  let s2 := s1.setReg 0 Reg.JRN_SPILL_WR (BitVec.ofNat 32 ((s.rf 0 Reg.JRN_SPILL_WR 23 0 + 1) % max 1 (spillSlots s)))
  let wm := s.rf 0 Reg.JRN_SPILL_WM 23 0
  if wm ≠ 0 ∧ wm ≤ spillHeld s2 then jrnFlag 1 s2 else s2

/-- Write the next entry into the spill ring (R486). -/
def spillPut (addr : Nat) (b : List Byte) (good : Bool) (s : State) : MRes Unit :=
  if s.rf 0 Reg.JRN_CTRL 1 1 = 1 then vWrite { rid := 0 } addr b none s
  else if good then (.ok (), s.emit (.hostWrite addr b)) else (.error (mkFail .internal 0), s)

/-- JOURNAL_SPILL_WRITE: the next unspilled entry is copied when the ring has room; towards host memory only while requests are sent
upstream; `good` is false where a write to host memory fails (R432, R486). -/
def execJournalSpillWrite (good : Bool) (s : State) : Host.Outcome State Fault Refusal :=
  let n := spillSlots s
  if !s.up.peat ∨ s.rf 0 Reg.JRN_CTRL 0 0 = 0 ∨ s.jrn.unspilled = 0 ∨ n = 0 ∨ spillHeld s + 1 ≥ n ∨
     (s.rf 0 Reg.JRN_CTRL 1 1 = 0 ∧ !upstream s) then .next s
  else
    match s.jrn.ring[s.jrn.unspilled - 1]? with
    | none => .next s
    | some e =>
      let addr := s.reg64 0 Reg.JRN_SPILL_BASE_LO + 32 * s.rf 0 Reg.JRN_SPILL_WR 23 0
      match spillPut addr e.bytes good s with
      | (.ok _, s1) => .next (spillDone s1)
      | (.error f, s1) => .next (spillFault addr f s1)

/-- FABRIC_PACKET_RESEND: masked and counted (R470). [DEDUCED 30] -/
def execFabricPacketResend (s : State) : Host.Outcome State Fault Refusal :=
  if unitsOn s then .next (s.count 0 Reg.FLT_FABRIC_RETRY 1) else .next s

/-- Requester number of a unit with parity on its control state (R37); the fabric has none. -/
def parityReq : ParityUnit → Nat
  | .dispatcher => dspReq
  | .collective => 0x0020
  | .lode => 0x0021
  | .host => hostRid
  | .fabric => 0

/-- The items whose start the dispatcher is carrying out. [DEDUCED 30] -/
def startingItems (s : State) : List Item := s.items.filter (fun i => i.phase == .bind || i.phase == .load)

/-- The record of a control-state fault: masked where all that it ends are items that are replayed, else reported (R470). [DEDUCED 28, 30] -/
def parityRecord (u : ParityUnit) (s : State) : FaultIn :=
  let l := startingItems s
  let re := u == .dispatcher && !l.isEmpty && l.all (fun i => mayReplay s i.id)
  { cls := .internal, status := .internal, disp := if re then .masked else .reported, replay := re, req := parityReq u,
    body := leBytes 16 0 ++ leBytes 8 (if u == .dispatcher then (l.map (·.id)).headD 0 else 0) }

/-- Running COPY entries end with INTERNAL. -/
def failCopies (s : State) : State :=
  { s with sqs := s.sqs.map (fun e => (e.1, { e.2 with ents := e.2.ents.map (fun x =>
      if x.started ∧ x.st.isNone ∧ leAt x.raw 0 1 = 2 then x.done .internal else x) })) }

/-- The current operations of a unit end with INTERNAL (R470): item starts of the dispatcher, plans of the collective engine, the
plan of Lode's running update, copies of the host interface; an access through the fabric is one step of this model, so none is
under way. [DEDUCED 28] -/
def failUnit (u : ParityUnit) (root : Nat) (s : State) : State :=
  let f := mkFail .internal root
  match u with
  | .dispatcher => (startingItems s).foldl (fun t i => startFail i.id f true t) s
  | .collective => (s.plans.map (·.1)).foldl (fun t k => endPlan k { fail := f } t) s
  | .lode => match s.lodeRun with
    | some r => endPlan r.u.slot { fail := f, step := r.u.step } s
    | none => s
  | .host => failCopies s
  | .fabric => s

/-- INTERNAL_PARITY_ERROR (R470). -/
def execInternalParityError (unit : ParityUnit) (s : State) : Host.Outcome State Fault Refusal :=
  if !unitsOn s then .next s
  else
    let (q, s1) := writeFaultId (parityRecord unit s) s
    .next (failUnit unit q s1)

/-- FLT_HEAD_SEQ_WRITE (R480). -/
def execFltHeadSeqWrite (val : W32) (rid : W16) (s : State) : Host.Outcome State Fault Refusal :=
  .next (portWrite headSeqRule ⟨.pcie, Reg.FLT_HEAD_SEQ, val, rid.toNat⟩ s)

/-- JRN_RD_WRITE: `ev` is what the read of the entry meets in the ring (R470, R485). -/
def execJrnRdWrite (val : W32) (rid : W16) (ev : BitErr) (s : State) : Host.Outcome State Fault Refusal :=
  .next (portWrite (jrnRdRule ev) ⟨.pcie, Reg.JRN_RD, val, rid.toNat⟩ s)

/-- SPILL_ENABLE (R486). -/
def execSpillEnable (val : W32) (rid : W16) (s : State) : Host.Outcome State Fault Refusal :=
  .next (portWrite jrnCtrlRule ⟨.pcie, Reg.JRN_CTRL, setFld val 0 0 1, rid.toNat⟩ s)

/-- JRN_SPILL_RD_WRITE (R486). -/
def execJrnSpillRdWrite (val : W32) (rid : W16) (s : State) : Host.Outcome State Fault Refusal :=
  .next (portWrite spillRdRule ⟨.pcie, Reg.JRN_SPILL_RD, val, rid.toNat⟩ s)

end Sys2Proof.Machine
end

