-- ==== Sys2Proof/Machine/MediaOut.lean ====
section
/-! DEFINITION. Machine/MediaOut.lean: what a decode leaves: concealment, extents and status (R300 to R304, R309), the sample record and its
geometry (R296, R297), output write faults (R300), and the visible record (R295, R315). -/

namespace Sys2Proof.Machine

/-- An extent before it is written: BYTE_OFF, KIND, and a rectangle (x, y, width, height) or a run (start, count) (R302). -/
structure Ext where
  byte : Nat
  kind : Nat
  x    : Nat
  y    : Nat
  w    : Nat
  h    : Nat
deriving DecidableEq, Repr

/-- A run of rows, frames or tokens. -/
def Ext.run (byte kind start count : Nat) : Ext := ⟨byte, kind, start, 0, count, 0⟩

/-- The 16 bytes of an extent (R302). -/
def Ext.bytes (e : Ext) : List Byte :=
  let p := fun a b => if e.kind = 1 then leBytes 2 a ++ leBytes 2 b else leBytes 4 a
  leBytes 4 e.byte ++ leBytes 1 e.kind ++ leBytes 3 0 ++ p e.x e.y ++ p e.w e.h

/-- Widen an extent to enclose another (R302). -/
def Ext.join (a b : Ext) : Ext :=
  let x := min a.x b.x
  let y := min a.y b.y
  { a with x := x, y := y, w := max (a.x + a.w) (b.x + b.w) - x, h := max (a.y + a.h) (b.y + b.h) - y }

/-- The four extents of a record: the fourth encloses every later event (R302). -/
def extBytes (l : List Ext) : List Byte :=
  let four := if l.length ≤ 4 then l else
    match l.drop 3 with
    | e :: r => l.take 3 ++ [r.foldl Ext.join e]
    | [] => l
  slice (four.flatMap Ext.bytes) 0 64

/-- A decoded sample: data after concealment, damage in order, concealed share as a fraction, and flags of R296. -/
structure MedDecoded where
  data   : List Byte
  exts   : List Ext
  lost   : Nat
  total  : Nat
  trunc  : Bool
  refCon : Bool
  unver  : Bool
  frames : Nat
  ntok   : Nat
  ninv   : Nat
deriving DecidableEq, Repr

/-- A decode without damage. -/
def MedDecoded.clean (data : List Byte) : MedDecoded := ⟨data, [], 0, 0, false, false, false, 0, 0, 0⟩

/-- Bounding rectangle of units of a grid `gx` units wide, each w × h, clipped to W × H from an origin (R301). -/
def unitBox (byte gx w h : Nat) (us : List Nat) (ox oy W H : Nat) : Ext :=
  let clip := fun v o m => min (v - o) m
  let c0 := ((us.map (· % gx)).min?).getD 0
  let r0 := ((us.map (· / gx)).min?).getD 0
  let c1 := (us.map (· % gx + 1)).foldl max 0
  let r1 := (us.map (· / gx + 1)).foldl max 0
  let x0 := clip (c0 * w) ox W
  let y0 := clip (r0 * h) oy H
  ⟨byte, 1, x0, y0, clip (c1 * w) ox W - x0, clip (r1 * h) oy H - y0⟩

/-- Pixels of unit `u` that lie inside the image (R304). -/
def unitPixels (gx w h ox oy W H u : Nat) : Nat :=
  let x := u % gx * w
  let y := u / gx * h
  (min (x + w - ox) W - min (x - ox) W) * (min (y + h - oy) H - min (y - oy) H)

/-- Does a plane sample at (x, y) lie in a concealed unit: the plane is subsampled by sx and sy. -/
def inUnits (gx w h : Nat) (us : List Nat) (sx sy x y : Nat) : Bool := us.contains (y * sy / h * gx + x * sx / w)

/-- Bytes of planes with the samples of concealed units replaced by `f plane offset` (R297, R301). -/
def patchPlanes (chroma W H depth gx w h : Nat) (us : List Nat) (f : Nat → Byte) (data : List Byte) : List Byte :=
  let ps := planes chroma W H
  let sx := fun i => if 0 < i ∧ (chroma = 1 ∨ chroma = 2) then 2 else 1
  let sy := fun i => if 0 < i ∧ chroma = 1 then 2 else 1
  let offs := (List.range ps.length).map (fun i => ((ps.take i).map (fun p => pitch p.1 depth * p.2)).foldl (· + ·) 0)
  (ps.mapIdx (fun i p =>
    (List.range p.2).flatMap (fun y =>
      let row := offs.getD i 0 + y * pitch p.1 depth
      (List.range (pitch p.1 depth)).map (fun b =>
        if b < p.1 * imgBps depth ∧ inUnits gx w h us (sx i) (sy i) (b / imgBps depth) y then f (row + b) else data.getD (row + b) 0)))).flatten

/-- Sum of the pixels of a set of units (R304). -/
def lostPixels (gx w h ox oy W H : Nat) (us : List Nat) : Nat := (us.dedup.map (unitPixels gx w h ox oy W H)).foldl (· + ·) 0

/-- Planes laid out from their values, given row by row `wide` values a row: cropped to their size, little-endian, rows padded to the pitch
(R297). -/
def layPlanes (ps : List (Nat × Nat)) (wide : List Nat) (depth : Nat) (vals : List (List Nat)) : List Byte :=
  (ps.mapIdx (fun i p =>
    let v := vals.getD i []
    let row := fun y => slice ((List.range p.1).flatMap (fun x => leBytes (imgBps depth) (v.getD (y * wide.getD i 0 + x) 0))) 0 (pitch p.1 depth)
    (List.range p.2).flatMap row)).flatten

/-- A JPEG image (R297, R301, R303): the decoded planes of its MCUs cropped to the image, MCUs after damage filled with 128. [PRESUMED 54] -/
def decodeJpeg (h : MedHdr) (b : List Byte) (d : DecodeIn) : MedDecoded :=
  let mc := mcuSize h.chroma
  let gx := ceilDiv h.width mc.1
  let wide := [gx * mc.1, gx * 8, gx * 8].map (fun w => if h.chroma = 0 ∨ h.chroma = 3 then gx * 8 else w)
  let evs := jpegDamage b (d.damage.filterMap (fun e => match e with
    | .jpeg byte u => some (byte, u)
    | _ => none))
  let us := (evs.flatMap (·.2)).dedup
  { MedDecoded.clean (patchPlanes h.chroma h.width h.height h.depth gx mc.1 mc.2 us (fun _ => 128)
      (layPlanes (planes h.chroma h.width h.height) wide h.depth d.planes)) with
    exts := evs.map (fun e => unitBox e.1 gx mc.1 mc.2 e.2 0 0 h.width h.height)
    lost := lostPixels gx mc.1 mc.2 0 0 h.width h.height us
    total := h.width * h.height }

/-- Mid-grey as a byte of a sample at a byte offset (R301). -/
def greyByte (depth off : Nat) : Byte :=
  if depth ≤ 8 then 128 else BitVec.ofNat 8 (2 ^ (depth - 1) / 256 ^ (off % 2))

/-- The picture that conceals CTUs: entry 0 of RefPicList0, mid-grey where the reservation does not hold it; else the context's last decoded
picture of the same size (R301, R307). -/
def concealRef (s : State) (m : MSample) (h : MedHdr) (ref : Option Int) : Option Nat :=
  match ref with
  | some p => (refBuf s m.ctx p).map (·.1)
  | none =>
    match (s.mctx m.ctx).last with
    | some (i, w, ht) => if w = h.codedW ∧ ht = h.codedH then some i else none
    | none => none

/-- An HEVC picture: its planes at coded size, each damaged run of CTUs copied from its reference picture (R297, R301, R307). [PRESUMED 54] -/
def decodeHevc (k : Nat) (m : MSample) (h : MedHdr) (d : DecodeIn) (s : State) : MRes MedDecoded :=
  let gx := ceilDiv h.codedW h.ctu
  let total := gx * ceilDiv h.codedH h.ctu
  let len := planeBytes h.chroma h.codedW h.codedH h.depth
  let ps := planes h.chroma h.codedW h.codedH
  let evs := d.damage.filterMap (fun e => match e with
    | .hevc byte first last ref => some (byte, (List.range (min total (last + 1) - first)).map (first + ·), concealRef s m h ref)
    | _ => none)
  let us := (evs.flatMap (·.2.1)).dedup
  let patch := fun (e : Nat × List Nat × Option Nat) (a : List Byte × State) =>
    let put := patchPlanes h.chroma h.codedW h.codedH h.depth gx h.ctu h.ctu e.2.1
    match e.2.2 with
    | none => (Except.ok (put (greyByte h.depth) a.1), a.2)
    | some i =>
      match vRead { rid := coreReq k } .r (fbVa s i) len a.2 with
      | (.ok r, t) => (Except.ok (put (fun o => r.getD o 0) a.1), t)
      | (.error f, t) => (Except.error f, t)
  let res := evs.foldl (fun (acc : MRes (List Byte)) e => match acc with
    | (.ok l, t) => patch e (l, t)
    | r => r) (.ok (layPlanes ps (ps.map (·.1)) h.depth (d.planes.map (fun p => p.map (fun v => v % 2 ^ h.depth)))), s)
  match res with
  | (.error f, t) => (.error f, t)
  | (.ok l, t) =>
    (.ok { MedDecoded.clean l with
            exts := evs.map (fun e => unitBox e.1 gx h.ctu h.ctu e.2.1 h.offX h.offY h.width h.height)
            lost := lostPixels gx h.ctu h.ctu h.offX h.offY h.width h.height us
            total := h.width * h.height
            trunc := h.multi
            refCon := m.refCon }, t)

/-- A PNG image (R297, R301): an inflate error or missing data leave that row and every later row zero, a filter type above 4 its row; a wrong CRC-32 or
Adler-32 without another error marks all rows. -/
def decodePng (h : MedHdr) (b : List Byte) : MedDecoded :=
  let z := pngInflate b
  let rows := pngRows h z.1
  let got := min h.height (z.1.length / (1 + ceilDiv (h.width * pngBits h) 8))
  let offs := pngOffs b
  let cut := if got = h.height then [] else match z.2.1 with
    | some (false, o) => [Ext.run (offs.getD o b.length) 2 got (h.height - got)]
    | _ => [Ext.run b.length 2 got (h.height - got)]
  let filt := rows.2.map (fun y => Ext.run (pngByteFor b (y * (1 + ceilDiv (h.width * pngBits h) 8))) 2 y 1)
  let bad := filt ++ cut
  let sum := if bad ≠ [] then none else match pngBadCrc b with
    | some o => some o
    | none => if z.2.1.isNone ∧ z.2.2 then none else some (offs.getD (offs.length - 4) b.length)
  let evs := bad ++ (sum.map (fun o => Ext.run o 2 0 h.height)).toList
  { MedDecoded.clean (layPlanes (planes h.chroma h.width h.height) ((planes h.chroma h.width h.height).map (·.1)) h.depth (pngPlanes h rows.1)) with
    exts := evs
    lost := h.width * ((bad.flatMap (fun e => (List.range e.w).map (e.x + ·))).dedup).length
    total := h.width * h.height
    unver := sum.isSome }

/-- FLAC sound (R297, R300, R301): INT32 values, silent where damaged, to N frames or to the limit where N is 0. -/
def decodeFlac (m : MSample) (h : MedHdr) (b : List Byte) : MedDecoded :=
  let x := flacRun b h (areaFrames m h) m.short (b.length + 1) (flacData b) ⟨[], [], 0, false⟩
  let stride := roundUp (4 * x.frames) 64
  { MedDecoded.clean ((List.range h.channels).flatMap (fun c => slice ((x.channel c).flatMap (fun v => leBytes 4 (ofSigned 32 v))) 0 stride)) with
    exts := x.damage.map (fun e => Ext.run e.1 3 e.2.1 e.2.2)
    lost := (x.damage.map (fun e => e.2.2)).foldl (· + ·) 0
    total := x.frames
    trunc := x.trunc
    frames := x.frames }

/-- WAVE sound (R287, R297, R301): values sign-extended, a trailing partial block dropped. -/
def decodeWave (h : MedHdr) (b : List Byte) : MedDecoded :=
  let w := h.depth / 8
  let off := (waveHdr b).2
  let stride := roundUp (4 * h.frames) 64
  let one := fun c => slice ((List.range h.frames).flatMap (fun f =>
    leBytes 4 (ofSigned 32 (toSigned h.depth (leAt b (off + (f * h.channels + c) * w) w))))) 0 stride
  { MedDecoded.clean ((List.range h.channels).flatMap one) with frames := h.frames }

/-- Text (R300, R309 to R311). -/
def decodeText (s : State) (m : MSample) : MedDecoded :=
  match SMap.get? s.toksets (bits (m.cfg.getD 0 0) 24 24) with
  | none => MedDecoded.clean []
  | some t =>
    let r := tokenise t (m.bytes.map (·.toNat))
    let ids := r.1.take (tokLim m)
    { MedDecoded.clean (ids.flatMap (leBytes 4)) with
      exts := r.2.map (fun e => Ext.run e.1 4 e.2 1)
      lost := r.2.length
      total := m.bytes.length
      trunc := decide (tokLim m < r.1.length)
      ntok := ids.length
      ninv := r.2.length }

/-- What a decode gives (R287, R301): `d` is what entropy decoding of a JPEG or HEVC sample gives. [PRESUMED 54] -/
def decodeSample (k : Nat) (m : MSample) (h : MedHdr) (d : DecodeIn) (s : State) : MRes MedDecoded :=
  match m.mt with
  | 0 => (.ok (decodeJpeg h m.bytes d), s)
  | 1 => decodeHevc k m h d s
  | 2 => (.ok (decodePng h m.bytes), s)
  | 3 => (.ok (decodeFlac m h m.bytes), s)
  | 4 => (.ok (decodeWave h m.bytes), s)
  | _ => (.ok (decodeText s m), s)

/-- STATUS and CAUSE of a decode (R304, R307): CONCEAL_MAX 0 makes any damage EMPTY. -/
def decodeStatus (m : MSample) (h : MedHdr) (d : MedDecoded) : Status × Cause :=
  let cm := bits (m.cfg.getD 0 0) 31 25
  if m.mt = 1 ∧ h.noOutput then (.empty, .notOutput)
  else if d.exts = [] then (.ok, .none)
  else if cm = 0 ∨ cm * d.total < 100 * d.lost then (.empty, .concealMax)
  else (.okConcealed, .none)

/-- Offsets of the planes inside the data (R297); an HEVC offset points at the origin of the conformance window. -/
def planeOffs (m : MSample) (h : MedHdr) : List Nat :=
  let hv := m.mt = 1
  let ps := planes h.chroma (if hv then h.codedW else h.width) (if hv then h.codedH else h.height)
  ps.mapIdx (fun i p =>
    let base := ((ps.take i).map (fun q => pitch q.1 h.depth * q.2)).foldl (· + ·) 0
    if hv then
      let sx := if 0 < i ∧ (h.chroma = 1 ∨ h.chroma = 2) then 2 else 1
      let sy := if 0 < i ∧ h.chroma = 1 then 2 else 1
      base + h.offY / sy * pitch p.1 h.depth + h.offX / sx * imgBps h.depth
    else base)

/-- Bytes 32 to 63 of a record (R297); `fb` is the frame buffer of an HEVC picture that keeps one. -/
def geometry (m : MSample) (h : MedHdr) (d : MedDecoded) (fb : Option Nat) : List Byte :=
  match m.mt with
  | 3 | 4 => leBytes 4 h.rate ++ leBytes 1 h.channels ++ leBytes 1 h.depth ++ leBytes 1 4 ++ leBytes 1 0 ++ leBytes 4 d.frames ++
      leBytes 4 (roundUp (4 * d.frames) 64) ++ leBytes 16 0
  | 5 => leBytes 4 d.ntok ++ leBytes 4 d.ninv ++ leBytes 4 m.len ++ leBytes 20 0
  | _ =>
    let offs := planeOffs m h
    let ps := planes h.chroma (if m.mt = 1 then h.codedW else h.width) 0
    leBytes 2 h.width ++ leBytes 2 h.height ++ leBytes 1 h.chroma ++ leBytes 1 h.depth ++ leBytes 1 (imgBps h.depth) ++ leBytes 1 0 ++
      leBytes 4 (offs.getD 0 0) ++ leBytes 4 (offs.getD 1 0) ++ leBytes 4 (offs.getD 2 0) ++
      leBytes 2 (pitch (ps.headD (0, 0)).1 h.depth) ++ leBytes 2 ((ps[1]?.map (fun p => pitch p.1 h.depth)).getD 0) ++
      leBytes 4 (fb.getD 0xFFFFFFFF) ++ leBytes 4 (if m.mt = 1 then ofSigned 32 h.poc else 0)

/-- A sample record (R296). -/
def sampleRec (s : State) (m : MSample) (st cause : Nat) (d : MedDecoded) (geo : List Byte) : List Byte :=
  leBytes 4 m.id ++ leBytes 2 m.ctx ++ leBytes 1 m.mt ++ leBytes 1 st ++ leBytes 1 cause ++
  leBytes 1 (b2n d.trunc + 2 * b2n d.refCon + 4 * b2n d.unver + 8 * b2n (decide (4 < d.exts.length))) ++
  leBytes 2 (min 65535 d.exts.length) ++ leBytes 4 m.length ++ leBytes 8 m.tick.toNat ++ leBytes 8 s.tb.toNat ++ slice geo 0 32 ++
  extBytes d.exts

/-- Does a sample that ended before decoding keep its geometry (R296, R319): an EMPTY one whose header was read whole. [DEDUCED 59] -/
def keepsGeometry (m : MSample) : Bool :=
  m.fail.st = .empty && (m.cause = Cause.code .noIrap || m.cause = Cause.code .noRef)

/-- A token of the media front end finishes: its status halts no thread (R315). -/
def opQuiet (a t seq : Nat) (st : Status) (s : State) : State :=
  let x := s.th a t
  s.setTh a t { x with toks := x.toks.map (fun j => if j.seq = seq then { j with work := some { st := st } } else j) }

/-- Finish the token of a sample. -/
def sampleToken (m : MSample) (st : Status) (s : State) : State :=
  match m.tok with
  | some (a, t, q) => opQuiet a t q st s
  | none => s

/-- The record that stands for a sample without one: EMPTY, with what its admission fixed (R300, R319). [DEDUCED 71] -/
def loneRec (m : MSample) : List Byte :=
  leBytes 4 m.id ++ leBytes 2 m.ctx ++ leBytes 1 m.mt ++ leBytes 1 0x02 ++ leBytes 8 0 ++ leBytes 8 m.tick.toNat ++ leBytes 104 0

/-- A sample of a disabled context ends without a record (R300). -/
def dropSample (m : MSample) (s : State) : State :=
  let s1 := sampleToken m .empty s
  let s2 := match m.fb with | some i => setFb i (fun b => { b with dec := false }) s1 | none => s1
  let s3 := match m.core with | some k => coreIdle k s2 | none => s2
  if m.bs = 0xFF then s3 else classify m.bs m.ctx m.order (loneRec m) 0 true s3

/-- A write fault of a decoder (R300): the context is disabled; its samples without a visible record reach the composer as EMPTY. -/
def mediaFault (k : Nat) (m : MSample) (f : Fail) (s : State) : State :=
  let c := m.ctx
  let s1 := deviceSetReg (coreReq k) c Reg.MED_CTX_CTRL (setFld (s.reg c Reg.MED_CTX_CTRL) 0 0 0) s
  let s2 := (s1.setRf 0 Reg.MED_STATUS 1 1 1).setRf c Reg.MED_CTX_STATE 9 9 1
  let body := leBytes 8 f.va ++ leBytes 2 c ++ leBytes 1 2 ++ leBytes 1 0 ++ leBytes 4 m.id
  let s3 := raiseEvt .media (writeFault { cls := .mediaWrite, status := f.st, disp := .reported, req := coreReq k, unit := k, root := f.root, body := body } s2)
  let gone := (s3.mctx c).samples
  let s4 := gone.foldl (fun t j => dropSample j t) s3
  let x := s4.mctx c
  retireCtx c (s4.setMctx c { x with samples := [], ends := [], areas := x.areas.filter (fun e => !gone.any (fun j => j.order = e.1)) })

/-- Fresh free bytes: contents the manual leaves undefined. [DESIGN CHOICE 55] -/
def freeBytes (n : Nat) (s : State) : List Byte × State :=
  ((List.range n).map (fun i => (Config.freeWord (s.free + i)).truncate 8), { s with free := s.free + n })

/-- Write a sample's data, then its record (R295, R296). -/
def putOutput (k : Nat) (m : MSample) (data : List Byte) (fb : Option Nat) (rec_ : List Byte) (s : State) : MRes Unit :=
  let area := m.area.getD 0
  let put := match fb with
    | some i => vWrite { rid := coreReq k } (fbVa s i) data none s
    | none => if data = [] then (.ok (), s) else ringPut (coreReq k) (outRing s m.ctx) (area + 128) data s
  match put with
  | (.error f, s1) => (.error f, s1)
  | (.ok _, s1) => ringPut (coreReq k) (outRing s m.ctx) area rec_ s1

/-- Work counted in UNITS (MED register table). -/
def unitsOf (m : MSample) (h : MedHdr) (d : MedDecoded) : Nat :=
  match m.mt with
  | 0 | 1 => h.width * h.height
  | 2 | 4 => d.data.length
  | 3 => h.channels * d.frames
  | _ => m.len

/-- The recorded sample leaves its core; an HEVC picture becomes a reference, and OUT when its record names the buffer (R306). -/
def recorded (k : Nat) (m : MSample) (rec_ : List Byte) (fb out : Option Nat) (last : Option (Nat × Nat × Nat)) (s : State) : State :=
  let s1 := coreIdle k (putSample { m with core := none, stage := .done, rec_ := rec_ } s)
  let s2 := match fb with
    | some i => setFb i (fun b => { b with dec := false, ref := last.isSome, out := out.isSome }) s1
    | none => s1
  if last.isSome then s2.setMctx m.ctx { s2.mctx m.ctx with last := last } else s2

/-- A sample that ended without data: rejected, empty, or with a failed read (R298, R300). -/
def finishEmpty (k : Nat) (m : MSample) (s : State) : State :=
  let (data, s1) := if m.length = 0 then ([], s) else freeBytes m.length s
  let d := MedDecoded.clean []
  let geo := if keepsGeometry m then geometry m (m.hdr.getD MedHdr.zero) d none else []
  let r := sampleRec s m m.fail.st.code m.cause d geo
  match putOutput k m data none r s1 with
  | (.error f, s2) => mediaFault k m f s2
  | (.ok _, s2) => recorded k m r m.fb none none s2

/-- A decoded sample is written and recorded. -/
def finishDecoded (k : Nat) (m : MSample) (h : MedHdr) (d : MedDecoded) (s : State) : State :=
  let st := decodeStatus m h d
  let out := if st.2 = .notOutput then none else m.fb
  let r := sampleRec s m st.1.code st.2.code d (geometry m h d out)
  let s0 := (s.count64 k Reg.MED_UNITS_LO (unitsOf m h d)).count k Reg.MED_DAMAGE d.exts.length
  match putOutput k m d.data m.fb r s0 with
  | (.error f, s1) => mediaFault k m f s1
  | (.ok _, s1) => recorded k m r m.fb out (m.fb.map (fun i => (i, h.codedW, h.codedH)))
      (match m.fb with | some i => setFb i (fun b => { b with dirty := d.exts != [] }) s1 | none => s1)

/-- DECODE_DONE (R296, R301 to R304, R307): `d` is what entropy decoding by the sample's own standard gives for a JPEG or HEVC sample. -/
def decodeDone (k : Nat) (m : MSample) (d : DecodeIn) (s : State) : State :=
  if !m.fail.st.completes ∨ m.cause ≠ 0 then finishEmpty k m s
  else
    match decodeSample k m (m.hdr.getD MedHdr.zero) d s with
    | (.error f, s1) => finishEmpty k { m with fail := f } s1
    | (.ok r, s1) => finishDecoded k m (m.hdr.getD MedHdr.zero) r s1

/-- DECODE_DONE: a core ends a sample whose source it has read and whose area it holds. -/
def execDecodeDone (core : Fin 72) (d : DecodeIn) (s : State) : Host.Outcome State Fault Refusal :=
  match coreSample s core.val with
  | none => .next s
  | some m =>
    if m.stage ≠ .decode ∨ !m.read then .next s
    else .next (needClock .mclk (coreReq core.val) (decodeDone core.val m d) s)

/-- The counters of a visible record (MED register table). -/
def countRecord (c : Nat) (st : Nat) (s : State) : State :=
  let s1 := (s.count64 0 Reg.MED_SAMPLES_LO 1).count c Reg.MED_CTX_SAMPLES 1
  if st = 0x01 then (s1.count 0 Reg.MED_CONCEALED 1).count c Reg.MED_CTX_CONCEALED 1
  else if st = 0x02 then (s1.count 0 Reg.MED_EMPTY 1).count c Reg.MED_CTX_EMPTIES 1
  else if st = 0x60 then (s1.count 0 Reg.MED_REJECTED 1).count c Reg.MED_CTX_REJECTED 1
  else s1

/-- The status whose code a record holds. -/
def statusOf (m : MSample) : Status :=
  match leAt m.rec_ 7 1 with
  | 0x00 => .ok | 0x01 => .okConcealed | 0x02 => .empty | _ => m.fail.st

/-- The record of a sample becomes visible (R295, R315, R319). -/
def showRecord (m : MSample) (s : State) : State :=
  let c := m.ctx
  let x := s.mctx c
  let e := ((x.areas.find? (fun e => e.1 = m.order)).map (·.2.1)).getD 0
  let areas := if m.bs = 0xFF then x.areas.filter (fun e => e.1 ≠ m.order) else x.areas
  let s1 := (s.setMctx c { x with samples := x.samples.filter (fun j => j.order ≠ m.order), areas := areas }).setReg c
    Reg.MED_OUT_WR_PTR (BitVec.ofNat 32 e)
  let s2 := sampleToken m (statusOf m) (countRecord c (leAt m.rec_ 7 1) s1)
  let s3 := if m.bs = 0xFF then s2 else classify m.bs c m.order m.rec_ (m.area.getD 0) false s2
  retireCtx c s3

/-- OUTPUT_RECORD_VISIBLE: the oldest sample of a context, once recorded (R295). -/
def execOutputRecordVisible (ctx : Fin 1024) (s : State) : Host.Outcome State Fault Refusal :=
  match (s.mctx ctx.val).samples with
  | [] => .next s
  | m :: _ => if m.stage = .done then .next (showRecord m s) else .next s

end Sys2Proof.Machine
end

