-- ==== Sys2Proof/Machine/Power.lean ====
section
/-! DEFINITION. Machine/Power.lean: array power states (R408, R410 to R412), the power limit loop (R413, R414), and clocks that stop
(R22, R411, R415). -/

namespace Sys2Proof.Machine

/-- PWR_STATUS.CFG_ERR. -/
def pwrCfgErr (s : State) : State := s.setRf 0 Reg.PWR_STATUS 2 2 1

/-- Elapsed tick since which a physical array has been as it is (R411). -/
def arrFrom (s : State) (p : Nat) : Nat := SMap.getD s.pw.arrSince p 0

/-- Does a physical array hold an item, or do accesses wait for it. -/
def arrBusy (s : State) (p : Nat) : Bool :=
  (match logicalOf s p with
   | some a => arrHeld s a
   | none => false) || SMap.getD s.sramWait p [] != []

/-- Quarter cycles of ACLK in one tick: 80 + 5 c (R413). -/
def aclkQuarters (s : State) : Nat := 80 + 5 * s.rf 0 Reg.PWR_ACLK 4 0

/-- Is any array in RUN. -/
def anyRun (s : State) : Bool := s.pstate.any (fun e => e.2 == .run)

/-- ARRAY_IDLE_ENTRY: an array without an item for IDLE_CYC cycles enters IDLE; 0 disables the step (R411). [DEDUCED 122] -/
def execArrayIdleEntry (phys : Fin 100) (s : State) : Host.Outcome State Fault Refusal :=
  let p := phys.val
  let n := s.rf 0 Reg.PWR_IDLE_CYC 15 0
  if s.pst p ≠ .run ∨ arrBusy s p ∨ n = 0 ∨ (s.now - arrFrom s p) * aclkQuarters s < 4 * n then .next s
  else
    let s1 := { s with pstate := SMap.put s.pstate p .idle, pw := { s.pw with arrSince := SMap.put s.pw.arrSince p s.now } }
    .next (if anyRun s1 then s1 else { s1 with pw := { s1.pw with aclkIdle := s1.now } })

/-- ARRAY_RET_ENTRY: an array IDLE for RET_TICKS enters RET; 0 disables the step (R411). -/
def execArrayRetEntry (phys : Fin 100) (s : State) : Host.Outcome State Fault Refusal :=
  let p := phys.val
  let n := s.rf 0 Reg.PWR_RET_TICKS 23 0
  if s.pst p ≠ .idle ∨ (SMap.get? s.waking p).isSome ∨ n = 0 ∨ s.now < arrFrom s p + n then .next s
  else .next { s with pstate := SMap.put s.pstate p .ret }

/-- ACLK_PLL_STOP: every array has been IDLE or lower for PLL_OFF_TICKS; a request in the same cycle wins (R411, R418). -/
def execAclkPllStop (s : State) : Host.Outcome State Fault Refusal :=
  let n := s.rf 0 Reg.PWR_PLL_OFF_TICKS 23 0
  if !s.aclk.on ∨ anyRun s ∨ s.waking ≠ [] ∨ n = 0 ∨ s.now < s.pw.aclkIdle + n then .next s
  else .next (s.setPll .aclk { s.aclk with on := false })

/-- An array goes OFF: SRAM is lost, it leaves its share, nothing wakes it (R408, R410, R412). -/
def arrayOff (a p : Nat) (s : State) : State :=
  let s1 := clearArray a (failSramWait p (zeroRange (windowOf p) 0x2000000 s))
  { s1 with pstate := SMap.put s1.pstate p .off, waking := SMap.del s1.waking p, shares := SMap.del s1.shares a }

/-- An ON command wakes an OFF array into IDLE with zeroed SRAM; it rejoins as unassigned (R408, R412). [DEDUCED 123] -/
def arrayOn (p : Nat) (s : State) : State :=
  { s with pstate := SMap.put s.pstate p .idle, pw := { s.pw with arrSince := SMap.put s.pw.arrSince p s.now } }

/-- What a write to PWR_OFF_CTRL does (R412). -/
inductive OffCmd where
  | nothing | cfgErr | refused
  | off (a p : Nat)
  | on (p : Nat)
deriving DecidableEq, Repr

/-- The cases of R412. -/
def offCmd (v : W32) (s : State) : OffCmd :=
  let a := s.rf 0 Reg.PWR_OFF_IDX 6 0
  if fld v 1 0 = 0 then .nothing
  else if fld v 1 0 = 3 ∨ a > 95 then .cfgErr
  else
    match physOf s a with
    | none => .cfgErr
    | some p =>
      if fld v 1 0 = 1 then
        if s.pst p = .off then .nothing else if arrHeld s a then .refused else .off a p
      else if s.pst p = .off then .on p else .nothing

/-- Carry out a command of R412. -/
def runOffCmd (c : OffCmd) (s : State) : State :=
  match c with
  | .nothing => s
  | .cfgErr => pwrCfgErr s
  | .refused => s.setRf 0 Reg.PWR_STATUS 3 3 1
  | .off a p => arrayOff a p s
  | .on p => arrayOn p s

/-- Does a command of R412 change anything: only then is it journaled (R481). -/
def OffCmd.acts : OffCmd → Bool
  | .off _ _ | .on _ => true
  | _ => false

/-- The rule of PWR_OFF_CTRL (R412). [DEDUCED 124] -/
def pwrOffRule : WriteRule :=
  { effect := fun _ _ _ v s => runOffCmd (offCmd v s) s
    woEntry := fun _ v s => (offCmd v s).acts }

/-- A field that keeps its value and sets CFG_ERR outside a range (R414). -/
def rangeRule (lo hi : Nat) : WriteRule :=
  { guard := fun _ old cand s => if lo ≤ cand.toNat ∧ cand.toNat ≤ hi then (cand, s) else (old, pwrCfgErr s) }

/-- The rule of PWR_LIMIT (R414). -/
def limitRule : WriteRule := rangeRule 1500 3500
/-- The rule of PWR_HEADROOM (R414). -/
def headroomRule : WriteRule := rangeRule 10 500
/-- The rule of PWR_ACLK_MAX (R414). -/
def aclkMaxRule : WriteRule := rangeRule 0 24

/-- The ACLK code chosen at the end of a period with mean power `p` (R413). -/
def chooseCode (c p limit headroom top : Nat) : Nat :=
  if c > top then top
  else if p > limit then c - 2
  else if limit - headroom ≤ p then c
  else min top (c + 1)

/-- The counters of a control period: the mean, its peak, the energy in mJ of 100 µs (R413). -/
def countPower (p : Nat) (s : State) : State :=
  let m := min p 4095
  let s1 := s.setRf 0 Reg.PWR_POWER 11 0 m
  let s2 := s1.setRf 0 Reg.PWR_PEAK 11 0 (max m (s1.rf 0 Reg.PWR_PEAK 11 0))
  let e := s2.pw.energyRest + p
  { s2.count64 0 Reg.PWR_ENERGY_LO (e / 10) with pw := { s2.pw with energyRest := e % 10 } }

/-- LIMITING: the code lies below PWR_ACLK_MAX because of the limit. [DEDUCED 125] -/
def showLimiting (s : State) : State :=
  s.setRf 0 Reg.PWR_STATUS 0 0 (b2n (decide (s.pw.pwrC < s.rf 0 Reg.PWR_ACLK_MAX 4 0)))

/-- The limit is exceeded at code 0: FLOOR and the POWER cause (R414, R450). -/
def floorHit (s : State) : State :=
  let s1 := s.setRf 0 Reg.PWR_STATUS 1 1 1
  if s.rf 0 Reg.PWR_STATUS 1 1 = 0 then raiseEvt .power s1 else s1

/-- POWER_CONTROL_PERIOD: the end of a 100 µs period with the mean input power measured (R413, R414). [DEDUCED 143] -/
def execPowerControlPeriod (watts : Nat) (s : State) : Host.Outcome State Fault Refusal :=
  if !s.up.peat ∨ s.now < s.pw.pwrFrom + 2500 then .next s
  else
    let limit := s.rf 0 Reg.PWR_LIMIT 11 0
    let c := chooseCode s.pw.pwrC watts limit (s.rf 0 Reg.PWR_HEADROOM 8 0) (s.rf 0 Reg.PWR_ACLK_MAX 4 0)
    let s1 := if watts > limit ∧ s.pw.pwrC = 0 then floorHit s else s
    let s2 := countPower watts s1
    .next (showLimiting { s2 with pw := { s2.pw with pwrC := c, pwrFrom := s2.pw.pwrFrom + 2500 } })

/-- ACLK_CHANGE: the chosen code comes into force (R413). -/
def execAclkChange (s : State) : Host.Outcome State Fault Refusal :=
  if s.up.peat then .next (s.setRf 0 Reg.PWR_ACLK 4 0 s.pw.pwrC) else .next s

/-- Is a unit with a gated clock idle (R22, R415): media cores 0 to 71, Intake reassembly 72 and 73, composer 74, collective engine 75,
Lode 76, dispatcher 77, Pool banks from 128. -/
def unitIdle (s : State) (u : Nat) : Bool :=
  if u < 72 then s.med.all (fun c => c.2.samples.all (fun m => m.core != some u || m.stage == .done))
  else if u < 74 then (SMap.getD s.iports (u - 72) IPort.empty).frames.isEmpty
  else if u = 74 then s.bstreams.all (fun b => b.2.queue.isEmpty && b.2.batches.all (fun x => x.wait.isEmpty))
  else if u = 75 then s.plans.isEmpty && s.planReqs.isEmpty
  else if u = 76 then s.lodeQ.isEmpty && s.lodeHeld.isEmpty && s.lodeRun.isNone && s.lodeParts.isEmpty
  else if u = 77 then s.items.all (fun i => i.phase == .done || i.phase == .held)
  else if 128 ≤ u ∧ u < 192 then SMap.getD s.pool (u - 128) [] == []
  else false

/-- Is the gate of a unit closed: UNIT_CLOCK_STOP closed it and no request has arrived since (R22, R418). -/
def gateClosed (s : State) (u : Nat) : Bool := s.pw.gates.contains u && unitIdle s u

/-- UNIT_CLOCK_STOP: an idle gated unit stops its clock (R22, R415). -/
def execUnitClockStop (unit : Fin 256) (s : State) : Host.Outcome State Fault Refusal :=
  if unitIdle s unit.val then .next { s with pw := { s.pw with gates := setIns s.pw.gates unit.val } } else .next s

/-- Are every media engine and the composer idle (R415). -/
def mclkIdleNow (s : State) : Bool := (List.range 72).all (unitIdle s) && unitIdle s 74

/-- MCLK_PLL_STOP: every media engine and the composer idle for CLK_MCLK_PLL_OFF_TICKS; 0 disables the step; a request in the same
cycle wins (R415, R418). -/
def execMclkPllStop (s : State) : Host.Outcome State Fault Refusal :=
  let n := s.rf 0 Reg.CLK_MCLK_PLL_OFF_TICKS 23 0
  if !s.mclk.on ∨ !mclkIdleNow s ∨ n = 0 ∨ s.now < s.pw.mclkIdle + n ∨ s.clkWait.any (·.1 = .mclk) then .next s
  else .next (s.setPll .mclk { s.mclk with on := false })

/-- PWR_OFF (R412). -/
def execPwrOff (port : Port) (val : W32) (rid : W16) (s : State) : Host.Outcome State Fault Refusal :=
  .next (portWrite pwrOffRule ⟨port, Reg.PWR_OFF_CTRL, setFld val 0 0 1, rid.toNat⟩ s)

/-- PWR_ON (R412). -/
def execPwrOn (port : Port) (val : W32) (rid : W16) (s : State) : Host.Outcome State Fault Refusal :=
  .next (portWrite pwrOffRule ⟨port, Reg.PWR_OFF_CTRL, setFld val 1 1 1, rid.toNat⟩ s)

/-- PWR_LIMIT_WRITE: a write of LIMIT, HEADROOM or ACLK_MAX (R414). -/
def execPwrLimitWrite (port : Port) (field : Fin 3) (val : W32) (rid : W16) (s : State) : Host.Outcome State Fault Refusal :=
  .next (match field.val with
    | 0 => portWrite limitRule ⟨port, Reg.PWR_LIMIT, val, rid.toNat⟩ s
    | 1 => portWrite headroomRule ⟨port, Reg.PWR_HEADROOM, val, rid.toNat⟩ s
    | _ => portWrite aclkMaxRule ⟨port, Reg.PWR_ACLK_MAX, val, rid.toNat⟩ s)

end Sys2Proof.Machine
end

