-- ==== Sys2Proof/Machine/Images.lean ====
section
/-! DEFINITION. Machine/Images.lean: the signed images in flash, their six checks, which copy runs, and what is measured (R489 to R493,
R499). -/

namespace Sys2Proof.Machine

/-- Bytes of a digest, most significant first. -/
def digestBytes (d : BitVec 256) : List Byte := (leBytes 32 d.toNat).reverse

/-- Size of a copy of an image type (R489). -/
def copySize (ty : Nat) : Nat := if ty = 1 then 0x40000 else if ty = 2 then 0x200000 else 0x400000

/-- Place of a copy in `flash`: type 1 to 3, copy 0 A or 1 B. -/
def flashIdx (ty copy : Nat) : Nat := 2 * (ty - 1) + copy

/-- What a copy of a type holds. -/
def State.flashCopy (s : State) (ty copy : Nat) : FlashCopy := s.sec.flash.getD (flashIdx ty copy) .blank

/-- Set what a copy of a type holds. -/
def State.setFlash (s : State) (ty copy : Nat) (x : FlashCopy) : State :=
  { s with sec := { s.sec with flash := s.sec.flash.set (flashIdx ty copy) x } }

/-- Low bit of a type's field in SEC_SVN_MIN and SEC_SVN_RUN. -/
def svnLo (ty : Nat) : Nat := 8 * (ty - 1)

/-- The fused minimum SVN of a type (R493). -/
def svnMin (s : State) (ty : Nat) : Nat := s.rf 0 Reg.SEC_SVN_MIN (svnLo ty + 5) (svnLo ty)

/-- Is a boot key slot revoked (R493). -/
def slotRevoked (s : State) (k : Nat) : Bool := s.rf 0 Reg.SEC_BOOT 7 4 &&& 2 ^ k != 0

/-- Boot key slot under which an image verifies. -/
def FlashCopy.slot : FlashCopy → Nat
  | .written d => leAt d 5 1
  | _ => 0

/-- SVN of an image. -/
def FlashCopy.svn : FlashCopy → Nat
  | .blank => 0
  | .shipped v _ => v
  | .written d => leAt d 6 2

/-- VERSION of an image. -/
def FlashCopy.version : FlashCopy → Nat
  | .blank => 0
  | .shipped _ v => v
  | .written d => leAt d 8 4

/-- Checks 1 and 2 of R491: MAGIC, TYPE, reserved bytes, LENGTH. -/
def headerFits (ty : Nat) (d : List Byte) : Bool :=
  decide (256 ≤ d.length) && leAt d 0 4 == 0x5956494D && leAt d 4 1 == ty && (slice d 176 80).all (· == 0) &&
  leAt d 12 4 % 16 == 0 && decide (leAt d 12 4 ≤ copySize ty - 256)

/-- Check 3 of R491: the digest of PUBKEY is the boot key hash of KEY_SLOT, and the slot is not revoked. -/
def keyFits (d : List Byte) (s : State) : Bool :=
  decide (leAt d 5 1 ≤ 3) && Config.sm3 (slice d 48 64) == Config.bootKeyHash (leAt d 5 1) && !slotRevoked s (leAt d 5 1)

/-- Check 5 of R491: the signature. -/
def sigFits (d : List Byte) : Bool := Config.sm2Verify (slice d 48 64) (slice d 112 64) (d.take 112)

/-- Check 6 of R491: the digest of the body. [DEDUCED 155] -/
def bodyFits (d : List Byte) : Bool :=
  decide (256 + leAt d 12 4 ≤ d.length) && digestBytes (Config.sm3 (slice d 256 (leAt d 12 4))) == slice d 16 32

/-- Every check of R491 but check 4. [DEDUCED 155] -/
def copyFits (ty : Nat) (c : FlashCopy) (s : State) : Bool :=
  match c with
  | .blank => false
  | .shipped _ _ => !slotRevoked s 0
  | .written d => headerFits ty d && keyFits d s && sigFits d && bodyFits d

/-- A copy is valid: every check of R491 holds. -/
def copyValid (ty : Nat) (c : FlashCopy) (s : State) : Bool := copyFits ty c s && decide (svnMin s ty ≤ c.svn)

/-- The first valid copy of a type, A before B (R492). -/
def pickCopy (ty : Nat) (s : State) : Option Nat :=
  if copyValid ty (s.flashCopy ty 0) s then some 0 else if copyValid ty (s.flashCopy ty 1) s then some 1 else none

/-- Measurement of an image (R492, R499): header bytes 0 to 175 and DIGEST. -/
def FlashCopy.measure (ty : Nat) : FlashCopy → BitVec 256
  | .blank => Config.shippedDigest ty 0 0
  | .shipped v n => Config.shippedDigest ty v n
  | .written d => Config.sm3 (d.take 176 ++ slice d 16 32)

/-- The image that runs, by type. -/
def State.runningImage (s : State) (ty : Nat) : FlashCopy := s.sec.running.getD (ty - 1) .blank

/-- Bit of SEC_BOOT that tells which copy of a type runs. -/
def copyBit (ty : Nat) : Nat := 7 + ty

/-- The copy of a type a start runs (R492): a warm start keeps the copy that ran before while its measurement is unchanged (R459). -/
def chooseCopy (warm : Bool) (ty : Nat) (s : State) : Option Nat :=
  let ran := s.rf 0 Reg.SEC_BOOT (copyBit ty) (copyBit ty)
  if warm ∧ (s.flashCopy ty ran) ≠ .blank ∧ (s.flashCopy ty ran).measure ty = (s.runningImage ty).measure ty then some ran
  else pickCopy ty s

/-- Run a copy of a type (R492): the copy bit, the SVN, and for the first stage the boot key slot. -/
def runCopy (ty copy : Nat) (s : State) : State :=
  let x := s.flashCopy ty copy
  let s1 := (s.setRf 0 Reg.SEC_BOOT (copyBit ty) (copyBit ty) copy).setRf 0 Reg.SEC_SVN_RUN (svnLo ty + 5) (svnLo ty) x.svn
  let s2 := if ty = 1 then s1.setRf 0 Reg.SEC_BOOT 1 0 x.slot else s1
  { s2 with sec := { s2.sec with running := s2.sec.running.set (ty - 1) x } }

/-- Verify and run the three images, first stage first (R492); none when both copies of one are not valid. -/
def runImages (warm : Bool) (s : State) : Option State :=
  [1, 2, 3].foldl (fun r ty =>
    match r with
    | none => none
    | some t => (chooseCopy warm ty t).map (fun c => runCopy ty c t)) (some s)

/-- Copies that a start finds not valid beside a valid one, by place in `flash` (R495). -/
def toRepair (s : State) : List Nat :=
  ([1, 2, 3].map (fun ty =>
    let a := copyValid ty (s.flashCopy ty 0) s
    let b := copyValid ty (s.flashCopy ty 1) s
    if a && !b then [flashIdx ty 1] else if b && !a then [flashIdx ty 0] else [])).flatten

end Sys2Proof.Machine
end

