-- ==== Sys2Proof/Machine/Startup.lean ====
section
/-! DEFINITION. Machine/Startup.lean: input stage, pins and trips (R504 to R517), and the stages of cold and warm starts, failed starts
and SAFE state (R451 to R466). -/

namespace Sys2Proof.Machine

/-- Ticks of 100 ms: the shortest time from a power-down to the next start (R509, R512). -/
def downTicks : Nat := 2500000

/-- Ticks of 1 s: the limit of R462 for configuration ready. -/
def startLimit : Nat := 25000000

/-- State of every unit right after the trigger of a start, with what no start touches: elapsed time, outputs, fuses, pins, the commands that
wait (R453, R466). -/
def freshUnits (s : State) : State :=
  { State.reset with
    now := s.now, tb := s.tb, tbJump := s.tbJump, free := s.free, out := s.out, faults := s.faults, jrn := s.jrn
    defective := s.defective, up := s.up, sec := s.sec, linkUp := false, pending := s.pending }

/-- Registers that keep their value through every cold start that leaves power on: fuses, identity and the Peat-domain counters (R466). -/
def coldKept : List Nat :=
  [Reg.SEC_SERIAL_LO, Reg.SEC_SERIAL_HI, Reg.SEC_BOOT, Reg.SEC_SVN_MIN, Reg.SEC_BOOT_OPT, Reg.GLB_CONFIG, Reg.GLB_STEPPING,
   Reg.CLK_STATUS, Reg.FLT_DROP_MASKED, Reg.FLT_DROP_REPORTED, Reg.FLT_PEAT_CE]

/-- Registers held by fuses or flash, kept even without power (R493, R501). -/
def fuseRegs : List Nat := [Reg.SEC_SERIAL_LO, Reg.SEC_SERIAL_HI, Reg.SEC_SVN_MIN, Reg.SEC_BOOT_OPT, Reg.GLB_CONFIG, Reg.GLB_STEPPING]

/-- The register file with only some registers of instance 0. -/
def onlyRegs (l : List Nat) (m : SMap W32) : SMap W32 := m.filter (fun e => l.contains e.1)

/-- The register file after a warm start: each field by its Warm column (R10, R466). [DEDUCED 142] -/
def warmRegs (m : SMap W32) : SMap W32 :=
  m.map (fun e => match regDef? (e.1 % 0x4000000) with
    | some r => (e.1, r.warmWord e.2)
    | none => e)

/-- The revoke bits alone of SEC_BOOT, and the reference-clock bits alone of CLK_STATUS. [DEDUCED 142] -/
def trimCold (s : State) : State :=
  let refs := s.rf 0 Reg.CLK_STATUS 9 8
  let rev := s.rf 0 Reg.SEC_BOOT 7 4
  ((s.setReg 0 Reg.CLK_STATUS 0).setRf 0 Reg.CLK_STATUS 9 8 refs).setReg 0 Reg.SEC_BOOT (BitVec.ofNat 32 (rev * 16))

/-- Memories are not trained and not ready (R459). -/
def untrained (s : State) : State := (s.setReg 0 Reg.MEM_STATUS 0).setReg 0 Reg.T2_STATUS 0

/-- A PLL that a start has asked for; its failures count from zero (R419). -/
def startedPll (now : Nat) : Pll := ⟨false, some now, 0, false⟩

/-- Every Intake port whose link is up sends XOFF (R453). -/
def xoffAll (s : State) : State :=
  [0, 1].foldl (fun t p => if t.rf p Reg.ITK_PSTATUS 0 0 = 1 then t.emit (.pfc p (t.rf p Reg.ITK_PCTRL 6 4) 0xFFFF) else t) s

/-- A firmware commit that a start or a power loss cuts off leaves copy A not whole; the session closes and nonces are gone (R494, R495,
R503). -/
def closeSec (x : SecState) : SecState :=
  { x with
    flash := match x.fwCommit with
      | some (ty, _) => x.flash.set (flashIdx ty 0) .blank
      | none => x.flash
    fwOpen := none, fwCommit := none, repair := [], dbgNonce := none, spdmMctp := 0, spdmDoe := 0 }

/-- Tier-2 writes accepted before the trigger complete (R86). -/
def finishT2 (s : State) : State :=
  if s.rf 0 Reg.T2_STATUS 1 1 = 0 then s
  else s.t2Wait.foldl (fun t q => if q.wdata.isSome then serveT2 q .clean t else t) { s with t2Wait := [] }

/-- Stacks that a warm start trains fully: more than 15 °C from their save (R459, R460). [DEDUCED 129] -/
def retrainMap (s : State) : Nat :=
  (List.range 32).foldl (fun m k =>
    let t := s.rf k Reg.MEM_TEMP 7 0
    let v := s.up.savedTemps.getD k 0
    if t > v + 15 ∨ v > t + 15 then m + 2 ^ k else m) 0

/-- GLB_START and its companions as a start sets them; a start that follows a failed one carries RETRIES (R451, R460, R463). -/
def stampStart (kind cause fb retries starts retrain : Nat) (s : State) : State :=
  let mt := b2n (kind ≠ 2 && s.up.optMemtest)
  let t2 := b2n (kind ≠ 2 && s.up.order != 2)
  let s1 := s.setReg 0 Reg.GLB_START
    (BitVec.ofNat 32 (kind + 2 ^ 4 * cause + 2 ^ 8 * retries + 2 ^ 11 * mt + 2 ^ 12 * t2 + 2 ^ 16 * fb))
  let s2 := (s1.setReg64 0 Reg.GLB_START_TICK_LO s.tb.toNat).setReg64 0 Reg.GLB_CFG_READY_TICK_LO 0
  let s3 := (s2.setReg 0 Reg.GLB_STARTS (BitVec.ofNat 32 (min starts (2 ^ 32 - 1)))).setReg 0 Reg.GLB_STACK_RETRAIN (BitVec.ofNat 32 retrain)
  s3.setRf 0 Reg.SEC_BOOT_OPT 0 0 (b2n s.up.optMemtest)

/-- Pins and stages at the trigger of a start. [DEDUCED 139] -/
def bootUp (kind cause fb : Nat) (s : State) : UpState :=
  let b : Boot := ⟨kind, cause, fb, s.now, false, false, false, false, false, none⟩
  { s.up with powered := true, mgmtReady := s.up.mgmtReady && kind == 2, cfgReady := false, boot := some b, safe := false,
              lastDone := false, itkGone := if kind = 2 then s.up.itkGone else [] }

/-- What the three PLLs, the power controller and the port marks are at the trigger of a start (R419, R453). -/
def armStart (s : State) : State :=
  { s with
    aclk := startedPll s.now, fclk := startedPll s.now, mclk := startedPll s.now
    winTicks := s.rf 0 Reg.DSP_WIN_TICKS 21 0
    pw := { s.pw with pwrC := s.rf 0 Reg.PWR_ACLK_MAX 4 0, pwrFrom := s.now, aclkIdle := s.now, mclkIdle := s.now } }

/-- The interleave in force from a start on is what ILV_MODE held at its trigger (R71). -/
def takeIlv (mode : Nat) (s : State) : State := s.setRf 0 Reg.MEM_CTRL 1 1 mode

/-- A cold start that leaves power on begins (R451, R453, R466). [DEDUCED 134, 135, 140] -/
def beginCold (cause fb : Nat) (s0 : State) : State :=
  let s := xoffAll s0
  let f := freshUnits s
  let f1 := untrained (trimCold { f with
    regs := onlyRegs coldKept s.regs
    faults := { s.faults with stkRoot := [], pcRoot := [], arrRoot := [] }
    up := bootUp 1 cause fb s
    sec := closeSec s.sec
    t2Kept := false })
  let f2 := takeIlv (s.rf 0 Reg.MEM_CTRL 0 0) (f1.setReg 0 Reg.CWY_MODULE (BitVec.ofNat 32 s.up.modId))
  armStart (stampStart 1 cause fb (s.rf 0 Reg.GLB_START 9 8) ((s.reg 0 Reg.GLB_STARTS).toNat + 1) 0xFFFFFFFF f2)

/-- Power states that a warm start keeps: arrays marked defective or retired stay OFF (R521). -/
def offArrays (s : State) : SMap PState :=
  (List.range 100).foldl (fun m p => if s.defective.contains p || s.pretired.contains p then SMap.put m p .off else m) []

/-- A warm start begins: the Peat domain, tier 2 and the map are kept (R86, R453, R459, R466). [DEDUCED 129, 134] -/
def beginWarm (cause : Nat) (s0 : State) : State :=
  let s := finishT2 (xoffAll s0)
  let f := freshUnits s
  let busy := s.rf 0 Reg.CKP_STATUS 8 8 = 1
  let f1 := untrained { f with
    regs := warmRegs s.regs
    mem := s.mem.filter (fun e => decide (t2Base ≤ e.1))
    bad := s.bad.filter (fun a => decide (t2Base ≤ a))
    selfRef := List.range s.t2Count
    t2Kept := s.rf 0 Reg.T2_STATUS 1 1 == 1
    lmap := s.lmap, lretired := s.lretired, pretired := s.pretired, redir := s.redir, lastEvt := s.lastEvt
    pstate := offArrays s
    iports := [0, 1].map (fun p => (p, { IPort.empty with xoffAt := s.now }))
    up := bootUp 2 cause 0 s
    sec := closeSec s.sec
    pw := { f.pw with energyRest := s.pw.energyRest } }
  let f2 := if busy then f1.setRf 0 Reg.CKP_STATUS 7 0 Status.internal.code else f1
  let f3 := takeIlv (s.rf 0 Reg.MEM_CTRL 0 0) f2
  armStart (stampStart 2 cause 0 (s.rf 0 Reg.GLB_START 9 8) ((s.reg 0 Reg.GLB_STARTS).toNat + 1) (retrainMap s) f3)

/-- The fault queue with no record (R466, R479). -/
def noFaults : FaultUnit := ⟨[], 1, 1, none, none, [], [], []⟩

/-- All state is lost, the Peat domain included; fuses, flash and pins stay (R451, R509). -/
def powerDown (s : State) : State :=
  let f := freshUnits s
  untrained { f with
    tb := 0, tbJump := none, faults := noFaults, jrn := State.reset.jrn, t2Kept := false
    regs := onlyRegs fuseRegs s.regs
    fclk := ⟨false, none, 0, false⟩
    up := { s.up with
      powered := false, peat := false, mgmtReady := false, cfgReady := false, boot := none, safe := false
      downAt := some s.now, modId := 0, everDone := false, lastDone := false, savedTemps := [], itkGone := [] }
    sec := closeSec s.sec }

/-- The revoke bits stay blown without power (R493), and the reference clocks are as they are (R417). -/
def powerOff (s : State) : State :=
  ((powerDown s).setReg 0 Reg.SEC_BOOT (BitVec.ofNat 32 (s.rf 0 Reg.SEC_BOOT 7 4 * 16))).setReg 0 Reg.CLK_STATUS
    (BitVec.ofNat 32 (s.rf 0 Reg.CLK_STATUS 9 8 * 256))

/-- A cold start from power-up begins (R451, R454, R505). -/
def beginPower (s : State) : State :=
  armStart (stampStart 0 0 0 0 1 0xFFFFFFFF { s with up := { bootUp 0 0 0 s with peat := false } })

/-- The start of R505 as soon as everything it needs is there: PWR_EN, good input, no trip latch, 100 ms since the power-down (R509, R512,
R517). [DEDUCED 137] -/
def tryPower (s : State) : State :=
  let waited := match s.up.downAt with
    | some t => decide (t + downTicks ≤ s.now)
    | none => true
  if s.up.pwrEn && s.up.inputGood && !s.up.powered && !s.up.tripLatch && !s.up.tripSeen && waited then beginPower s else s

/-- Trip level of a sensor in °C (R515). -/
def tripLevel : Sensor → Nat
  | .die _ => 110 | .stack _ => 115 | .pkg _ => 110

/-- PWR_EN_ASSERT: a start as soon as input is good; after a thermal trip only when every sensor reads at least 10 °C below its trip level
(R451, R505, R517). [DEDUCED 138] -/
def execPwrEnAssert (temps : List (Sensor × Nat)) (s : State) : Host.Outcome State Fault Refusal :=
  if s.up.pwrEn then .next s
  else
    let cool := temps.all (fun e => decide (e.2 + 10 ≤ tripLevel e.1))
    .next (tryPower { s with up := { s.up with pwrEn := true, tripSeen := s.up.tripSeen && !cool } })

/-- PWR_EN_DEASSERT: power-down at any time; the trip latch lets go (R451, R452, R512, R517). -/
def execPwrEnDeassert (s : State) : Host.Outcome State Fault Refusal :=
  if !s.up.pwrEn then .next s
  else
    let t := if s.up.powered then powerOff s else s
    .next { t with up := { t.up with pwrEn := false, tripLatch := false, downAt := some s.now } }

/-- A power-down by a trip or a loss of input (R507 to R509). [DEDUCED 137, 157] -/
def tripDown (good : Bool) (s : State) : State :=
  let t := if s.up.powered then powerOff s else s
  { t with up := { t.up with inputGood := good } }

/-- INPUT_APPLY: input of a voltage in mV is applied while the bulk holds a charge; beyond ±100 V the manual gives no behaviour. Reverse polarity
draws no current (R504, R506, R508). [DESIGN CHOICE 144] -/
def execInputApply (mv : Int) (held : Nat) (s : State) : Host.Outcome State Fault Refusal :=
  if mv < -100000 ∨ 100000 < mv then .fault .beyondRatings
  else
    let t := { s with up := { s.up with inputMv := mv, bulkMv := held, bulkAt := s.now } }
    .next (if mv < 0 then tripDown false t else t)

/-- Voltage of the bulk capacitance in mV: it charges at 3 V/ms up to the input (R506). -/
def bulkNow (s : State) : Nat := min s.up.inputMv.toNat (s.up.bulkMv + (s.now - s.up.bulkAt) * 3 / 25)

/-- INPUT_GOOD: input at 59 V or more with the bulk charged (R505). -/
def execInputGood (s : State) : Host.Outcome State Fault Refusal :=
  if s.up.inputGood ∨ s.up.inputMv < 59000 ∨ bulkNow s < s.up.inputMv.toNat then .next s
  else .next (tryPower { s with up := { s.up with inputGood := true } })

/-- INPUT_LOSS: below 57 V for 200 µs, or the bulk below 50 V (R507, R509). -/
def execInputLoss (s : State) : Host.Outcome State Fault Refusal := .next (tripDown false s)

/-- OVERVOLTAGE_TRIP (R505, R508, R509). -/
def execOvervoltageTrip (s : State) : Host.Outcome State Fault Refusal := .next (tripDown false s)

/-- OVERCURRENT_TRIP (R505, R508, R509). [DEDUCED 157] -/
def execOvercurrentTrip (s : State) : Host.Outcome State Fault Refusal := if s.up.powered then .next (tripDown false s) else .next s

/-- REVERSE_POLARITY: no current is drawn and the module is unpowered (R508). -/
def execReversePolarity (s : State) : Host.Outcome State Fault Refusal := .next (tripDown false s)

/-- REFCLK_AO_TRIP: while PWR_EN is asserted (R505, R508, R509). -/
def execRefclkAoTrip (s : State) : Host.Outcome State Fault Refusal := if s.up.pwrEn then .next (tripDown false s) else .next s

/-- THERMAL_TRIP: a comparator at its trip level latches and powers down (R516, R517). -/
def execThermalTrip (sensor : Sensor) (temp : Nat) (s : State) : Host.Outcome State Fault Refusal :=
  if s.up.powered ∧ tripLevel sensor ≤ temp then
    let t := powerOff s
    .next { t with up := { t.up with tripLatch := true, tripSeen := true } }
  else .next s

/-- POWER_DOWN_RESTART: 100 ms after a power-down (R509). -/
def execPowerDownRestart (s : State) : Host.Outcome State Fault Refusal := .next (tryPower s)

/-- Reason for a fallback, in the order of R460; 0 none. [DEDUCED 128] -/
def fallbackOf (chk : WarmCheck) (s : State) : Nat :=
  if !s.up.everDone then 1
  else if chk = .digest then 2
  else if !s.up.lastDone then 3
  else if chk = .fuses then 4
  else 0

/-- A cold trigger (R452, R464): it begins a cold start at once; in SAFE state it clears RETRIES. -/
def coldTrigger (s : State) : State :=
  if !s.up.peat then s else beginCold 1 0 (if s.up.safe then s.setRf 0 Reg.GLB_START 9 8 0 else s)

/-- A warm trigger (R451, R452, R460, R464): ignored while a start is in progress, cold in SAFE state, cold on an invalid saved state. -/
def warmTrigger (cause : Nat) (chk : WarmCheck) (s : State) : State :=
  if s.up.safe then coldTrigger s
  else if !s.up.peat ∨ s.up.boot.isSome then s
  else if fallbackOf chk s = 0 then beginWarm cause s
  else beginCold 6 (fallbackOf chk s) s

/-- PERST_ASSERT: after configuration ready a warm trigger; the link is held down in any case (R451, R452, R456). -/
def execPerstAssert (chk : WarmCheck) (s : State) : Host.Outcome State Fault Refusal :=
  if s.up.perst then .next s
  else
    let s1 := { s with up := { s.up with perst := true }, linkUp := false }
    .next (if s.up.cfgReady then warmTrigger 5 chk s1 else s1)

/-- PERST_DEASSERT: the link may train (R456). -/
def execPerstDeassert (s : State) : Host.Outcome State Fault Refusal := .next { s with up := { s.up with perst := false } }

/-- Change the start in progress. -/
def modBoot (f : Boot → Boot) (s : State) : State := { s with up := { s.up with boot := s.up.boot.map f } }

/-- Bytes 32 to 63 of a record of class START (R478). -/
def startBody (s : State) : List Byte :=
  leBytes 4 (s.reg 0 Reg.GLB_START).toNat ++ leBytes 4 (s.reg 0 Reg.GLB_STARTS).toNat ++ leBytes 8 (s.reg64 0 Reg.GLB_START_TICK_LO) ++
  leBytes 8 (s.reg64 0 Reg.GLB_CFG_READY_TICK_LO) ++ leBytes 4 (s.reg 0 Reg.GLB_STACK_RETRAIN).toNat

/-- Registers of the links, which SAFE state leaves idle (R464). [DEDUCED 136] -/
def linkRegs : List Nat := [Reg.CWY_PCTRL, Reg.CWY_PSTATE, Reg.ITK_PCTRL, Reg.ITK_PSTATUS]

/-- SAFE state: the Peat domain alone runs (R464). [DEDUCED 136] -/
def enterSafe (s : State) : State :=
  let f := freshUnits s
  untrained { f with
    regs := s.regs.filter (fun e => !linkRegs.contains (e.1 % 0x4000000)), lmap := s.lmap, lretired := s.lretired, pretired := s.pretired, redir := s.redir, pstate := offArrays s
    fclk := ⟨false, none, 0, false⟩, t2Kept := false
    up := { s.up with boot := none, safe := true, cfgReady := false, mgmtReady := true }
    sec := { s.sec with spdmDoe := 0 } }

/-- A start fails (R462, R463): a record, then a retry, or SAFE state when RETRIES is already 2. [DEDUCED 25] -/
def failStart (s : State) : State :=
  let s1 := writeFault { cls := .start, status := .internal, disp := .reported, body := startBody s } s
  let n := s.rf 0 Reg.GLB_START 9 8
  if n ≥ 2 then enterSafe s1 else modBoot (fun b => { b with failed := some s.now }) (s1.setRf 0 Reg.GLB_START 9 8 (n + 1))

/-- The start in progress, while it has not failed. -/
def State.starting (s : State) : Option Boot := s.up.boot.filter (fun b => b.failed.isNone)

/-- PEAT_DOMAIN_UP: the time base starts at 0 and MOD_ID is sampled (R425, R454, R511). [DESIGN CHOICE 6, 158] -/
def execPeatDomainUp (strap : Fin 64) (s : State) : Host.Outcome State Fault Refusal :=
  match s.starting with
  | none => .next s
  | some _ =>
    if s.up.peat then .next s
    else .next ({ s with tb := 0, up := { s.up with peat := true, modId := strap.val } }.setReg 0 Reg.CWY_MODULE (BitVec.ofNat 32 strap.val))

/-- A defective array's logical number goes to the lowest free spare, or is retired with a record (R17, R19). -/
def mapDefect (s : State) (p : Nat) : State :=
  if 96 ≤ p then s
  else match (freeSpares s).head? with
    | some n => { s with lmap := SMap.put s.lmap p n, redir := SMap.put s.redir p n }
    | none =>
      { writeFault { cls := .arrRetired, status := .internal, disp := .reported, req := thrReq p 0, unit := p, body := remapBody 3 p 0xFF 0 0 0 } s
        with lretired := setIns s.lretired p }

/-- The logical map as the boot ROM builds it, defective arrays in ascending order (R17). -/
def buildMap (s : State) : State :=
  ((List.range 100).filter s.defective.contains).foldl mapDefect { s with pstate := offArrays s }

/-- The ordering number in the fuses sets GLB_CONFIG (R2, R465). -/
def setConfig (s : State) : State :=
  let t2 := match s.up.order with
    | 0 => 2
    | 1 => 1
    | _ => 0
  (s.setRf 0 Reg.GLB_CONFIG 1 0 t2).setRf 0 Reg.GLB_CONFIG 2 2 (b2n (s.up.order < 2))

/-- FUSE_LOAD_DONE: identity, configuration and map from the fuses, or an uncorrectable error that fails the start (R454, R462). -/
def execFuseLoadDone (good : Bool) (s : State) : Host.Outcome State Fault Refusal :=
  match s.starting with
  | none => .next s
  | some b =>
    if b.kind = 2 ∨ b.fuses ∨ !s.up.peat then .next s
    else if !good then .next (failStart s)
    else .next (modBoot (fun x => { x with fuses := true }) (buildMap (setConfig s)))

/-- A cold start derives the Alias pair from the first-stage measurement and issues its certificate; a warm start keeps both (R496, R497). [DEDUCED 156] -/
def deriveAlias (b : Boot) (s : State) : State :=
  if b.kind = 2 then s else { s with sec := { s.sec with aliasFrom := (s.runningImage 1, (s.reg 0 Reg.SEC_SVN_MIN).toNat) } }

/-- FIRST_STAGE_VERIFIED: the copies that run are chosen; both copies of a type not valid fail the start (R459, R462, R492). -/
def execFirstStageVerified (s : State) : Host.Outcome State Fault Refusal :=
  match s.starting with
  | none => .next s
  | some b =>
    if b.stage1 ∨ (b.kind ≠ 2 ∧ !b.fuses) then .next s
    else match runImages (b.kind == 2) s with
      | none => .next (failStart s)
      | some t => .next (modBoot (fun x => { x with stage1 := true }) (deriveAlias b (t.setRf 0 Reg.GLB_START 10 10 (t.rf 0 Reg.SEC_BOOT (copyBit 1) (copyBit 1)))))

/-- MANAGEMENT_PORT_READY: Nolivo commands and Peat-domain registers are served (R455). -/
def execManagementPortReady (s : State) : Host.Outcome State Fault Refusal :=
  match s.starting with
  | none => .next s
  | some b => if b.stage1 then .next { s with up := { s.up with mgmtReady := true } } else .next s

/-- Values of the fuses as the end of a start measures them (R499). -/
def fuseValues (s : State) : Nat × Nat := ((s.reg 0 Reg.SEC_SVN_MIN).toNat, s.rf 0 Reg.SEC_BOOT 7 0)

/-- A start completes when configuration ready is reached and MEM_STATUS.READY is set: RETRIES clears and the warm state is saved (R460, R463,
R499). [DEDUCED 133] -/
def completeStart (s : State) : State :=
  if s.up.cfgReady ∧ s.rf 0 Reg.MEM_STATUS 1 1 = 1 then
    let s1 := s.setRf 0 Reg.GLB_START 9 8 0
    { s1 with
      up := { s1.up with boot := none, everDone := true, lastDone := true }
      sec := { s1.sec with measOpt := s1.up.optMemtest, measFuse := fuseValues s1 } }
  else s

/-- Record of a missing unit (R465, R478). -/
def shortfall1 (kind idx : Nat) (s : State) : State :=
  writeFault { cls := .shortfall, status := .ok, disp := .reported, unit := idx, body := leBytes 1 kind ++ leBytes 1 idx } s

/-- Missing tier-2 packages of a cold start, of those that GLB_CONFIG states (R465). [DEDUCED 131] -/
def notePkgs (pkgs : W32) (s : State) : State :=
  (List.range s.t2Count).foldl (fun t k =>
    if pkgs.getLsbD k then t else shortfall1 0 k (t.setReg k Reg.T2_PKG 2)) s

/-- Missing Intake ports of a cold start (R465). -/
def notePorts (ports : Fin 4) (s : State) : State :=
  (if s.hasIntake then [0, 1] else []).foldl (fun t p =>
    if bit ports.val p then t else shortfall1 1 p { t with up := { t.up with itkGone := setIns t.up.itkGone p } }) s

/-- Ports with their CWY_AUTOSTART bit set leave OFF, with EN set (R353, R454). [DEDUCED 132] -/
def autostart (s : State) : State :=
  (List.range 12).foldl (fun t p =>
    if t.rf 0 Reg.CWY_AUTOSTART p p = 1 then trainPort p (t.setRf p Reg.CWY_PCTRL 0 0 1) else t) s

/-- A repair begins where a start found one copy of a type not valid (R495). -/
def beginRepair (s : State) : State :=
  if toRepair s = [] then s
  else { s.setRf 0 Reg.SEC_UPDATE 1 0 3 with sec := { s.sec with repair := toRepair s } }

/-- Everything that opens at configuration ready (R454, R466, R470): the tick, shortfalls, ports, repair and the START record. The ACLK and
MCLK PLLs stop, as no unit has work (R415, R510). -/
def openConfig (b : Boot) (pkgs : W32) (ports : Fin 4) (s : State) : State :=
  let s1 := { s with up := { s.up with cfgReady := true } }
  let s2 := (s1.setPll .aclk ⟨false, none, 0, false⟩).setPll .mclk ⟨false, none, 0, false⟩
  let s3 := s2.setReg64 0 Reg.GLB_CFG_READY_TICK_LO s.tb.toNat
  let s4 := if b.kind = 2 then s3 else (notePorts ports (notePkgs pkgs s3)).setRf 0 Reg.T2_STATUS 0 0 (b2n (s.t2Count != 0))
  let s5 := beginRepair (autostart s4)
  (writeFaultQuiet { cls := .start, status := .ok, disp := .notice, body := startBody s5 } s5).2

/-- CONFIGURATION_READY: once the images run, the management port is ready, the PLLs have locked and PERST# is deasserted (R454, R461). The
operands are the tier-2 packages and Intake ports found, as bit maps. -/
def execConfigurationReady (pkgs : W32) (ports : Fin 4) (s : State) : Host.Outcome State Fault Refusal :=
  match s.starting with
  | none => .next s
  | some b =>
    if !b.stage1 ∨ !s.up.mgmtReady ∨ s.up.perst ∨ s.up.cfgReady ∨ !(s.aclk.on && s.fclk.on && s.mclk.on) then .next s
    else .next (completeStart (openConfig b pkgs ports s))

/-- A pseudo-channel fails training or the memory test (R77, R462). [DEDUCED 25] -/
def failTest (s : State) (p : Nat) : State :=
  if pcFailed s p then s
  else
    let s1 := s.setRf p Reg.MEM_PC 0 0 1
    let s2 := s1.setRf 0 Reg.MEM_FAILED_PCS 10 0 (s1.rf 0 Reg.MEM_FAILED_PCS 10 0 + 1)
    let (q, s3) := writeFaultId
      { cls := .hbmPcFailed, status := .ok, disp := .reported, unit := p, body := memBody { rid := 0 } 2 0xFF p 0 } s2
    { s3 with faults := { s3.faults with pcRoot := SMap.put s3.faults.pcRoot p q } }

/-- Is a stack trained fully during this start (GLB_STACK_RETRAIN). -/
def retrained (s : State) (k : Nat) : Bool := s.rf 0 Reg.GLB_STACK_RETRAIN k k == 1

/-- The state of a stack after training or restore (R82, R460, R462): found at 95 °C or above it is fenced with a record of old state 0 and
new state 3. [DEDUCED 24, 130] -/
def trainStack (s : State) (k t : Nat) : State :=
  let s1 := (s.setRf k Reg.MEM_TEMP 7 0 t).setRf k Reg.MEM_TEMP 9 8 (if t ≥ 95 then 3 else 0)
  let hot := if t ≥ 95 then 1 else 0
  let s2 := (s1.setRf 0 Reg.MEM_HOT_MAP k k hot).setRf 0 Reg.MEM_FENCED_MAP k k hot
  let s3 := if retrained s k then
      { s2 with up := { s2.up with savedTemps := (List.range 32).map (fun j => if j = k then t else s2.up.savedTemps.getD j 0) } } else s2
  if t ≥ 95 then
    let (q, s4) := writeFaultId (thermalRecord k 0 3 t) s3
    raiseEvt .thermal { s4 with faults := { s4.faults with stkRoot := SMap.put s4.faults.stkRoot k q } }
  else { s3 with faults := { s3.faults with stkRoot := SMap.del s3.faults.stkRoot k } }

/-- HBM_TRAINING_DONE: the temperatures of the stacks, the pseudo-channels that fail in stacks trained fully, and whether a stack cannot be
trained at all (R454, R459, R462). -/
def execHbmTrainingDone (temps : List Nat) (failed : List (Fin 1024)) (dead : Bool) (s : State) : Host.Outcome State Fault Refusal :=
  match s.starting with
  | none => .next s
  | some b =>
    if b.trained ∨ !b.stage1 then .next s
    else if dead then .next (failStart s)
    else
      let s1 := (List.range 32).foldl (fun t k => trainStack t k (temps.getD k (t.rf k Reg.MEM_TEMP 7 0))) s
      let s2 := failed.foldl (fun t p => if retrained t (p.val / 32) then failTest t p.val else t) s1
      .next (modBoot (fun x => { x with trained := true }) (s2.setRf 0 Reg.MEM_STATUS 0 0 1))

/-- Does this start run the memory test (R454, R459). -/
def testSelected (s : State) : Bool := s.rf 0 Reg.GLB_START 11 11 == 1

/-- MEMORY_TEST_DONE: the failing pseudo-channels (R454). -/
def execMemoryTestDone (failed : List (Fin 1024)) (s : State) : Host.Outcome State Fault Refusal :=
  match s.starting with
  | none => .next s
  | some b =>
    if !b.trained ∨ b.tested ∨ !testSelected s then .next s
    else .next (modBoot (fun x => { x with tested := true }) (failed.foldl (fun t p => failTest t p.val) s))

/-- Tier 2, where the module has any, at the end of a warm start: READY and RETAINED when every package stayed in self-refresh, else trained and to be filled (R86,
R459). -/
def restoreT2 (lost : Bool) (s : State) : State :=
  if s.t2Count = 0 then s
  else if s.t2Kept && !lost then { s.setRf 0 Reg.T2_STATUS 2 0 7 with selfRef := [] }
  else
    let s1 := (s.setRf 0 Reg.T2_STATUS 2 0 1).setRf 0 Reg.GLB_START 12 12 1
    { s1 with selfRef := [], t2Kept := false, mem := s1.mem.filter (fun e => decide (e.1 < t2Base)),
              bad := s1.bad.filter (fun a => decide (a < t2Base)) }

/-- HBM_ZERO_FILL_DONE: MEM_STATUS.READY; a warm start also restores tier 2, `lost` telling that a package lost self-refresh (R454, R459, R461). -/
def execHbmZeroFillDone (lost : Bool) (s : State) : Host.Outcome State Fault Refusal :=
  match s.starting with
  | none => .next s
  | some b =>
    if !b.trained ∨ b.filled ∨ (testSelected s ∧ !b.tested) then .next s
    else
      let s1 := modBoot (fun x => { x with filled := true }) (s.setRf 0 Reg.MEM_STATUS 1 1 1)
      .next (completeStart (if b.kind = 2 then restoreT2 lost s1 else s1))

/-- START_TIMEOUT: 1 s from the trigger without configuration ready (R462). -/
def execStartTimeout (s : State) : Host.Outcome State Fault Refusal :=
  match s.starting with
  | none => .next s
  | some b => if s.up.cfgReady ∨ s.now < b.at_ + startLimit then .next s else .next (failStart s)

/-- START_RETRY: a cold start follows a failed one (R463). -/
def execStartRetry (s : State) : Host.Outcome State Fault Refusal :=
  match s.up.boot with
  | none => .next s
  | some b => if b.failed.isSome then .next (beginCold 2 0 s) else .next s

/-- PWR_GOOD is released while every rail is in regulation: from the fuse load of a start until power-down or SAFE state (R454, R509, R511). -/
def pinPwrGood (s : State) : Bool :=
  s.up.powered && !s.up.safe && (match s.up.boot with
    | some b => b.kind != 0 || b.fuses
    | none => true)

/-- FAULT# is asserted (R469, R511). -/
def pinFault (s : State) : Bool := s.up.safe || (s.up.peat && s.rf 0 Reg.FLT_STATUS 0 0 == 1)

/-- ALERT# is asserted (R414, R511). -/
def pinAlert (s : State) : Bool := s.up.peat && s.rf 0 Reg.PWR_STATUS 1 1 == 1

/-- THERM_TRIP# is low (R517). -/
def pinThermTrip (s : State) : Bool := s.up.tripLatch

end Sys2Proof.Machine
end

