-- ==== Sys2Proof/Machine/RegBus.lean ====
section
/-! DEFINITION. Machine/RegBus.lean: the register bus: which rule a write to each register follows, what a read shows, accesses that need a
stopped clock (R418 to R424), the order of host accesses (R434), and the register rows of the operation table. -/

namespace Sys2Proof.Machine

/-- The rule of TAU_EXP: 8 to 24, else ignored with CFG_ERR. -/
def tauRule : WriteRule :=
  { guard := fun _ old cand s =>
      if 8 ≤ fld cand 4 0 ∧ fld cand 4 0 ≤ 24 then (cand, s) else (setFld cand 4 0 (fld old 4 0), s.setRf 0 Reg.ARR_STATUS 24 24 1) }

/-- The rule of the memory shares: a set that does not sum to 100 is rejected with SHARE_ERR (R35). -/
def shareRule : PairRule :=
  { guard := fun _ old cand s =>
      if bits cand 7 0 + bits cand 15 8 + bits cand 23 16 + bits cand 31 24 + bits cand 39 32 = 100 then (cand, s)
      else (old, s.setRf 0 Reg.MEM_STATUS 8 8 1) }

/-- The rule of VEC_SEED: every lane generator starts from the new seed (R66, R236). -/
def vecSeedRule : PairRule := { effect := fun _ _ _ s => { s with vecGen := [] } }

/-- The rule of HST_RESET.WARM (R451). -/
def hstResetRule (chk : WarmCheck) : WriteRule :=
  { effect := fun _ _ _ v s => if fld v 0 0 = 1 then warmTrigger 3 chk s else s }

/-- Registers of HST, PWR / CLK and FLT / JRN with a rule of their own. -/
def hostRules : List (Nat × WriteRule) :=
  [(Reg.HST_EVT_MASK, evtMaskRule), (Reg.HST_RESET, hstResetRule .valid), (Reg.SQ_CTRL, sqCtrlRule), (Reg.SQ_SIZE, sqFieldRule),
   (Reg.CQ_CTRL, cqCtrlRule), (Reg.CQ_SIZE, cqFieldRule), (Reg.CQ_COAL, cqFieldRule), (Reg.PWR_LIMIT, limitRule),
   (Reg.PWR_HEADROOM, headroomRule), (Reg.PWR_ACLK_MAX, aclkMaxRule), (Reg.PWR_OFF_CTRL, pwrOffRule),
   (Reg.FLT_HEAD_SEQ, headSeqRule), (Reg.JRN_RD, jrnRdRule .none), (Reg.JRN_CTRL, jrnCtrlRule), (Reg.JRN_SPILL_RD, spillRdRule)]

/-- Registers of the arrays, memories, links, collectives and the dispatcher with a rule of their own. -/
def coreRules : List (Nat × WriteRule) :=
  [(Reg.ARR_CTRL, tauRule), (Reg.ARR_INJECT, injectRule), (Reg.EXP_CTRL, expCtrlRule), (Reg.MMU_INV_CTRL, invRule),
   (Reg.CKP_CTRL, ckpRule), (Reg.CWY_PCTRL, portCtrlRule), (Reg.CWY_DT_DATA, dtRule), (Reg.CWY_CRED01, portFieldRule), (Reg.CWY_CRED23, portFieldRule),
   (Reg.CWY_LANE_SER_MAX, portFieldRule), (Reg.CWY_WIN_EN, windowEnRule), (Reg.CWY_WIN_SIZE, windowFieldRule),
   (Reg.COL_EARLY_SIZE, earlyRule), (Reg.LOD_VER, verRule), (Reg.DSP_CTRL, dspCtrlRule), (Reg.DSP_WIN_TICKS, winTicksRule),
   (Reg.DSP_SHARE, pinRule)]

/-- Registers of the media front end and the Intake ports with a rule of their own. -/
def mediaRules : List (Nat × WriteRule) :=
  [(Reg.MED_FB_SIZE, fbPoolRule), (Reg.MED_FB_COUNT, fbPoolRule), (Reg.MED_FB_RELEASE, fbReleaseRule), (Reg.TOK0_LOAD, tokLoadRule 0),
   (Reg.TOK1_LOAD, tokLoadRule 1), (Reg.MED_CTX_CTRL, ctxCtrlRule), (Reg.MED_IN_RING_SIZE, ctxFieldRule), (Reg.MED_IN_WR_PTR, inWrRule),
   (Reg.MED_OUT_RING_SIZE, ctxFieldRule), (Reg.MED_OUT_RD_PTR, outRdRule), (Reg.MED_LIM_WH, ctxFieldRule), (Reg.MED_LIM_PIX, ctxFieldRule),
   (Reg.MED_LIM_DUR_MS, ctxFieldRule), (Reg.MED_IN_RD_PTR, ctxFieldRule), (Reg.MED_OUT_WR_PTR, ctxFieldRule),
   (Reg.MED_CTX_STATE, ctxFieldRule), (Reg.MED_CTX_SAMPLES, ctxFieldRule), (Reg.MED_CTX_CONCEALED, ctxFieldRule),
   (Reg.MED_CTX_REJECTED, ctxFieldRule), (Reg.MED_CTX_EMPTIES, ctxFieldRule), (Reg.MED_LIM_TOKENS, ctxFieldRule), (Reg.MED_RESERVE, ctxFieldRule), (Reg.ITK_PCTRL, itkCtrlRule),
   (Reg.ITK_ETYPE, itkPortRule), (Reg.ITK_SKID_US, itkSkidRule), (Reg.ITK_XON_LEVEL, itkPortRule), (Reg.ITK_RING_SIZE, itkStreamRule),
   (Reg.ITK_MAX_SAMPLE, itkStreamRule), (Reg.ITK_RD_PTR, itkRdMedRule)]

/-- Registers of the composer with a rule of their own; the bucket registers are all of its bucket window. -/
def batRules : List (Nat × WriteRule) :=
  [(Reg.BAT_RELEASE, batReleaseRule), (Reg.BAT_SCTRL, streamCtrlRule), (Reg.BAT_N, streamFieldRule), (Reg.BAT_SLOT_QUOTA, streamFieldRule),
   (Reg.BAT_FLUSH_US, streamFieldRule), (Reg.BAT_BUF_SIZE, streamFieldRule), (Reg.BAT_NBUF, streamFieldRule), (Reg.BAT_FLUSH, flushRule)]

/-- The rule a write to a 32-bit register follows. -/
def ruleAt (off : Nat) : WriteRule :=
  if Reg.BAT_BUCKET ≤ off ∧ off ≤ Reg.BAT_SCALE7 then bucketFieldRule
  else match (hostRules ++ coreRules ++ mediaRules ++ batRules).find? (fun e => e.1 == off) with
    | some e => e.2
    | none => .plain

/-- The rule a write to a 64-bit pair follows, by its low offset. -/
def pairRuleAt (lo : Nat) : PairRule :=
  if lo = Reg.SQ_BASE_LO then sqBaseRule
  else if lo = Reg.CQ_BASE_LO then cqBaseRule
  else if lo = Reg.VEC_SEED_LO then vecSeedRule
  else if lo = Reg.MEM_SHARE_LO then shareRule
  else if lo = Reg.MED_FB_BASE_LO then
    heldPair (fun _ s => (List.range 1024).any (fun c => medEn s c && medF s c 3 1 == 1)) (fun _ s => medCfgErr s)
  else if lo = Reg.MED_IN_RING_VA_LO ∨ lo = Reg.MED_OUT_RING_VA_LO then heldPair (fun c s => medEn s c) (fun _ s => medCfgErr s)
  else if lo = Reg.ITK_MAC_LO then heldPair (fun p s => itkEn s p) itkCfgErr
  else if lo = Reg.ITK_RING_VA_LO then heldPair (fun i s => itkEn s (i / 256)) (fun i s => itkCfgErr (i / 256) s)
  else if lo = Reg.BAT_SEED_LO then batSeedRule
  else if lo = Reg.BAT_BUF_VA_LO ∨ lo = Reg.BAT_BOX_VA_LO then heldPair (fun n s => bstEn s n) (fun _ s => batCfgErr s)
  else if lo = Reg.CWY_WIN_BASE_LO then heldPair (fun w s => s.rf w Reg.CWY_WIN_EN 0 0 == 1) (fun _ s => cwyCfgErr s)
  else if lo = Reg.COL_SEED_LO then colSeedRule
  else if lo = Reg.COL_EARLY_VA_LO then heldPair (fun _ s => s.plans != []) (fun _ s => s.setRf 0 Reg.COL_STATUS 1 1 1)
  else if lo = Reg.LOD_SEED_LO then lodSeedRule
  else .plain

/-- A write to CLK_TB_SET_HI: accepted only while DSP_CTRL.EN is 0; the jump comes at the next tick, and the entry carries the tick before
it (R427, R481). [DEDUCED 162] -/
def tbSet (a : RegAcc) (s : State) : State :=
  match admitWrite a s with
  | .no s1 => s1
  | .yes _ i _ s1 =>
    let v := (joinedLo a i s1).toNat + 2 ^ 32 * a.val.toNat
    let s2 := usePending a s1
    if s2.rf 0 Reg.DSP_CTRL 0 0 = 1 then s2.setRf 0 Reg.CLK_STATUS 16 16 1
    else { journal (portOrigin a.port) a.rid Reg.CLK_TB_SET_LO 0 true 0 v s2 with tbJump := some (BitVec.ofNat 64 v) }

/-- A register write under the rule of its register, its clock running (R8, R520). -/
def writeNow (a : RegAcc) (s : State) : State :=
  if a.off = Reg.CLK_TB_SET_HI then tbSet a s
  else if a.off = Reg.MEM_FCLASS_DATA then fclassWrite a s
  else match regDef? a.off with
    | none => s
    | some r =>
      match r.pair with
      | .single => writeReg (ruleAt a.off) a s
      | .lo => holdLo (pairRuleAt a.off) a s
      | .hi => writeHi (pairRuleAt (a.off - 4)) a s

/-- A WO register whose write crosses into its unit as a pulse or as a whole value (R421, R422). -/
def crosses (off : Nat) : Bool :=
  off == Reg.EXP_CTRL || off == Reg.BAT_FLUSH || off == Reg.TOK0_LOAD || off == Reg.TOK1_LOAD || off == Reg.BAT_RELEASE ||
  off == Reg.MED_FB_RELEASE

/-- Does a write give a command pulse, which merges into an earlier one of the same crossing that waits: the port may write it, and a WO bit
is set (R421). -/
def givesPulse (a : RegAcc) (s : State) : Bool :=
  crosses a.off && a.off != Reg.BAT_RELEASE && a.off != Reg.MED_FB_RELEASE &&
    match admitWrite a s with
    | .yes r _ m _ => a.val.toNat &&& woMask r &&& m != 0
    | .no _ => false

/-- The clock an access needs: ACLK for the instance windows of the ARR and EXP blocks and for FLUSH, MCLK for those of the MED and BAT blocks and
for their commands; every other register answers on the register bus or in the Peat domain (R415, R418, R423). [DEDUCED 105] -/
def regClock (off : Nat) : Option ClkDomain :=
  let inst := decide (0x100 ≤ off % 0x10000) && decide (off % 0x10000 < 0x1000)
  let b := off >>> 16
  if (b = 0x10 ∨ b = 0x11) ∧ (inst ∨ crosses off) then some .aclk
  else if (b = 0x30 ∨ b = 0x32) ∧ (inst ∨ crosses off) then some .mclk
  else none

/-- The clock an access has to wait for, none where it runs. [DEDUCED 105] -/
def clockNeeded (off : Nat) (s : State) : Option ClkDomain := (regClock off).filter (fun d => !(s.pll d).on)

/-- Bit of CLK_XOVR of a domain. -/
def xovrBit : ClkDomain → Nat
  | .aclk => 0 | .fclk => 1 | .mclk => 2 | .phy => 4

/-- A pulse that merges into one that waits (R421). [DEDUCED 106] -/
def mergePulse (d : ClkDomain) (s : State) : State :=
  (s.setRf 0 Reg.CLK_XOVR (xovrBit d) (xovrBit d) 1).count 0 Reg.CLK_XOVR_COUNT 1

/-- Is a write a pulse of which an earlier one waits for its clock. [DEDUCED 106] -/
def pulseWaits (a : RegAcc) (s : State) : Bool :=
  givesPulse a s && s.clkWait.any (fun w => match w.2.2 with
    | .regWrite b => b.off == a.off && givesPulse b s
    | _ => false)

/-- Does a write end on the register bus: one that is ignored or refused, and a low half (R8, R440, R455). -/
def endsOnBus (a : RegAcc) (s : State) : Bool :=
  match admitWrite a s with
  | .yes r _ _ _ => r.pair == .lo
  | .no _ => true

/-- A register write of a port, which waits where its clock is stopped (R418, R421). -/
def writeAny (a : RegAcc) (s : State) : State :=
  match clockNeeded a.off s with
  | some d =>
    if endsOnBus a s then writeNow a s
    else if pulseWaits a s then mergePulse d s
    else waitClock d (.regWrite a) s
  | none => writeNow a s

/-- A register write of a port, in its turn (R434). -/
def busWrite (a : RegAcc) (s : State) : State :=
  match a.port with
  | .pcie => if pulseWaits a s then writeAny a s else hostTurn (.regWrite a) (writeAny a) s
  | .mgmt => writeAny a s

/-- A word of a byte list by its index. -/
def wordAt (l : List Byte) (i : Nat) : W32 := BitVec.ofNat 32 (leAt l (4 * i) 4)

/-- What FLT_REC shows: the record whose FSEQ is FLT_HEAD_SEQ, zero when the queue is empty (R480). -/
def headRecord (s : State) : List Byte :=
  match s.faults.queue.find? (fun r => r.fseq == s.faults.head) with
  | some r => r.bytes
  | none => []

/-- What JRN_ENT shows: the selected entry while JRN_RD_STATUS is 0 (R485). [DEDUCED 126] -/
def shownEntry (s : State) : List Byte :=
  if s.rf 0 Reg.JRN_RD_STATUS 1 0 = 0 then
    match jrnFind s (s.rf 0 Reg.JRN_RD 23 0) with
    | some e => e.bytes
    | none => []
  else []

/-- A measurement of R499: the digests are those of the end of the last start, indices 7 and 8 those of the moment. -/
def measurement (i : Nat) (s : State) : List Byte :=
  match i with
  | 1 => digestBytes Config.romDigest
  | 2 => digestBytes ((s.runningImage 1).measure 1)
  | 3 => digestBytes ((s.runningImage 2).measure 2)
  | 4 => digestBytes ((s.runningImage 3).measure 3)
  | 5 => digestBytes (Config.optDigest s.sec.measOpt)
  | 6 => digestBytes (Config.fuseDigest s.sec.measFuse.1 s.sec.measFuse.2)
  | 7 => leBytes 4 (b2n s.up.safe + 2 * s.rf 0 Reg.SEC_DBG 1 0 + 8 * b2n (s.rf 0 Reg.GLB_START 1 0 == 2) + 16 * s.rf 0 Reg.HST_MLOCK 17 0)
  | 8 => leBytes 1 (s.rf 0 Reg.GLB_STEPPING 7 0)
  | _ => []

/-- A 64-bit value by half. -/
def half64 (v : Nat) (hi : Bool) : W32 := BitVec.ofNat 32 (if hi then v / 2 ^ 32 else v)

/-- Charges in array-cycles from charges in parts of one (R403). -/
def wholeCycles (n : Nat) : Nat := n / cycleParts

/-- Live values of the Peat-domain blocks. -/
def livePeat (off : Nat) (s : State) : Option W32 :=
  let w := fun (n : Nat) => some (BitVec.ofNat 32 n)
  if Reg.SEC_MEAS_DATA0 ≤ off ∧ off ≤ Reg.SEC_MEAS_DATA7 then
    some (wordAt (measurement (s.rf 0 Reg.SEC_MEAS_IDX 3 0) s) ((off - Reg.SEC_MEAS_DATA0) / 4))
  else if off = Reg.CLK_TB_LO then w s.tb.toNat
  else if off = Reg.CLK_TB_HI then w (s.tb.toNat / 2 ^ 32)
  else if off = Reg.FLT_HEAD_SEQ then w s.faults.head
  else if off = Reg.FLT_NEXT_SEQ then w s.faults.next
  else if off = Reg.FLT_HELD then w s.faults.queue.length
  else if Reg.FLT_REC0 ≤ off ∧ off ≤ Reg.FLT_REC15 then some (wordAt (headRecord s) ((off - Reg.FLT_REC0) / 4))
  else if off = Reg.JRN_NEXT_SEQ then w s.jrn.nextSeq
  else if off = Reg.JRN_HELD then w s.jrn.ring.length
  else if off = Reg.JRN_UNSPILLED then w s.jrn.unspilled
  else if off = Reg.JRN_LOST_LO then w s.jrn.lost
  else if off = Reg.JRN_LOST_HI then w (s.jrn.lost / 2 ^ 32)
  else if Reg.JRN_ENT0 ≤ off ∧ off ≤ Reg.JRN_ENT7 then some (wordAt (shownEntry s) ((off - Reg.JRN_ENT0) / 4))
  else none

/-- Code of a power state in PSTATE. -/
def PState.code : PState → Nat
  | .run => 0 | .idle => 1 | .ret => 2 | .off => 3

/-- ARR_LOGICAL of a physical array: number carried, or why none; power state; partition mode. -/
def arrWord (p : Nat) (s : State) : Nat :=
  let n := match logicalOf s p with
    | some a => if s.lretired.contains a then (if s.defective.contains p then 0xFD else 0xFE) else a
    | none => if s.defective.contains p then 0xFD else if s.pretired.contains p then 0xFE else 0xFF
  let m := match logicalOf s p with
    | some a => (s.gr a).mode
    | none => 0
  n + 2 ^ 8 * PState.code (s.pst p) + 2 ^ 16 * m

/-- EXP_CACHE of a physical array: entries that hold a table, and those pinned (R142). -/
def cacheWord (p : Nat) (s : State) : Nat :=
  match logicalOf s p with
  | none => 0
  | some a => (List.range 16).foldl (fun v e =>
      match SMap.get? s.tabs (16 * a + e) with
      | some t => v + 2 ^ e + (if t.pins = [] then 0 else 2 ^ (16 + e))
      | none => v) 0

/-- ROW_SIDE_PTR, ROW_SPILL_PTR and ROW_TAGS of a physical array (R244). -/
def rowWord (off p : Nat) (s : State) : Nat :=
  match logicalOf s p with
  | none => 0
  | some a =>
    let r := SMap.getD s.rowst a RowStat.empty
    if off = Reg.ROW_SIDE_PTR then r.side else if off = Reg.ROW_SPILL_PTR then r.spill else r.tags.length

/-- ARR_MAP_DATA of a logical number (R17, R19). -/
def mapWord (a : Nat) (s : State) : Nat := SMap.getD s.lmap a a + 2 ^ 8 * b2n (s.lretired.contains a)

/-- Live values of the ARR and EXP blocks. -/
def liveArray (i off : Nat) (s : State) : Option W32 :=
  let w := fun (n : Nat) => some (BitVec.ofNat 32 n)
  if off = Reg.ARR_STATUS then
    w ((freeSpares s).length + 2 ^ 8 * s.lretired.length + 2 ^ 16 * (96 - s.lretired.length) + 2 ^ 24 * s.rf 0 Reg.ARR_STATUS 24 24)
  else if off = Reg.ARR_MAP_DATA then w (mapWord i s)
  else if off = Reg.ARR_LOGICAL then w (arrWord i s)
  else if off = Reg.ROW_SIDE_PTR ∨ off = Reg.ROW_SPILL_PTR ∨ off = Reg.ROW_TAGS then w (rowWord off i s)
  else if off = Reg.EXP_CACHE then w (cacheWord i s)
  else none

/-- DSP_ARR_BRANCH of a logical array. -/
def arrBranchWord (a : Nat) (s : State) : Nat :=
  (match SMap.get? s.shares a with
    | some b => b
    | none => 2 ^ 8) + 2 ^ 9 * freeThreads s a

/-- READY and RUNNING of a branch. -/
def readyRunning (b : Nat) (s : State) : Nat :=
  let mine := s.items.filter (fun i => i.branch == b)
  (mine.filter (fun i => i.phase == .ready)).length +
    2 ^ 16 * (mine.filter (fun i => i.phase == .bind || i.phase == .load || i.phase == .run || i.phase == .replay)).length

/-- Live values of the DSP block. -/
def liveDsp (i off : Nat) (s : State) : Option W32 :=
  let w := fun (n : Nat) => some (BitVec.ofNat 32 n)
  if off = Reg.DSP_SHARE then some (setFld (s.reg i Reg.DSP_SHARE) 6 0 (heldBy s.shares i).length)
  else if off = Reg.DSP_COST_LO then some (half64 (wholeCycles (SMap.getD s.cost i 0)) false)
  else if off = Reg.DSP_COST_HI then some (half64 (wholeCycles (SMap.getD s.cost i 0)) true)
  else if off = Reg.DSP_LASTWIN_LO then some (half64 (wholeCycles (SMap.getD s.lastWin i 0)) false)
  else if off = Reg.DSP_LASTWIN_HI then some (half64 (wholeCycles (SMap.getD s.lastWin i 0)) true)
  else if off = Reg.DSP_READY_RUNNING then w (readyRunning i s)
  else if off = Reg.DSP_EST then w (stepEst s i)
  else if off = Reg.DSP_ARR_BRANCH then w (arrBranchWord i s)
  else none

/-- What a register shows that the register file does not hold. -/
def liveReg (i off : Nat) (s : State) : Option W32 :=
  let b := off >>> 16
  if 2 ≤ b ∧ b ≤ 4 then livePeat off s
  else if b = 0x10 ∨ b = 0x11 then liveArray i off s
  else if b = 0x50 then liveDsp i off s
  else if off = Reg.ITK_XOFF_LEVEL then some (BitVec.ofNat 32 (xoffLevel s i))
  else if off = Reg.BAT_SLOTS_FREE then some (BitVec.ofNat 32 (slotsFree s))
  else if off = Reg.MED_CORE_STATE then some (if gateClosed s i || !s.mclk.on then setFld (s.reg i off) 1 0 0 else s.reg i off)
  else if off = Reg.CQ_STATUS then some (setFld (s.reg i Reg.CQ_STATUS) 1 1 (b2n (cqHeld s i)))
  else none

/-- A register read of a port, its clock running: the value, and what the read clears (R7, R8, R348, R424). -/
def readValue (p : Port) (off : Nat) (s : State) : W32 × State :=
  let r := readThrough liveReg p off s
  if off / 4 * 4 = Reg.CWY_MESH_CNT then
    (r.1, match below 12 (s.rf (portIdx p) Reg.CWY_CHSEL 3 0) with
      | some k => meshRead k r.2
      | none => r.2)
  else r

/-- A read that has its clock answers. -/
def readNow (p : Port) (off : Nat) (s : State) : State :=
  let r := readValue p off s
  answerRead p off r.1 r.2

/-- A read, which waits where its clock is stopped (R418). -/
def readAny (p : Port) (off : Nat) (s : State) : State :=
  match clockNeeded (off / 4 * 4) s with
  | some d => waitClock d (.regRead p off) s
  | none => readNow p off s

/-- A register read of a port, in its turn (R434); nothing answers before configuration ready (R455, R456). -/
def busRead (p : Port) (off : Nat) (s : State) : State :=
  if !busOpen p off s then s
  else match p with
    | .pcie => hostTurn (.regRead p off) (readAny p off) s
    | .mgmt => readAny p off s

/-- An access of the host that has waited its turn. -/
def hostAct (w : WaitAcc) (s : State) : State :=
  match w with
  | .regRead p off => if busOpen p off s then readAny p off s else s
  | .regWrite a => writeAny a s
  | .tail q v => tailDoorbell q v s
  | .head q v => headDoorbell q v s
  | .window q => windowAct q s
  | .sram _ | .unit _ | .item _ => s

/-- The accesses of the host that waited behind another, as far as they may go (R434). [DEDUCED 107] -/
def drainBus (s : State) : State :=
  s.busHeld.foldl (fun t w => hostTurn w (hostAct w) t) { s with busHeld := [] }

/-- A row that writes one register under a rule it chooses, through the bus (R434, R455). -/
def rowWrite (p : Port) (off : Nat) (val : W32) (rid : W16) (s : State) : State := busWrite ⟨p, off, val, rid.toNat⟩ s

/-- REGISTER_WRITE: a write of a register that has no row of its own (R431, R520). -/
def execRegisterWrite (a : RegAcc) (whole poison : Bool) (s : State) : Host.Outcome State Fault Refusal :=
  match a.port with
  | .pcie => .next (bar0Write whole poison (busWrite a) s)
  | .mgmt => .next (busWrite a s)

/-- LO_HALF_WRITE: the value is held as the port's pending low half (R8). -/
def execLoHalfWrite (a : RegAcc) (s : State) : Host.Outcome State Fault Refusal := .next (busWrite a s)

/-- HI_HALF_WRITE: the whole 64-bit value takes effect (R8). -/
def execHiHalfWrite (a : RegAcc) (s : State) : Host.Outcome State Fault Refusal := .next (busWrite a s)

/-- LO_HALF_READ: the high half is captured; an RC pair is cleared (R8). -/
def execLoHalfRead (port : Port) (off : Nat) (s : State) : Host.Outcome State Fault Refusal := .next (busRead port off s)

/-- RC_REGISTER_READ: the value, and the clear in the same snapshot (R424). -/
def execRcRegisterRead (port : Port) (off : Nat) (s : State) : Host.Outcome State Fault Refusal := .next (busRead port off s)

/-- TB_SET_WRITE: a write to CLK_TB_SET_HI (R427). -/
def execTbSetWrite (port : Port) (val : W32) (rid : W16) (s : State) : Host.Outcome State Fault Refusal :=
  .next (rowWrite port Reg.CLK_TB_SET_HI val rid s)

/-- INJECT_ELEM (R122). -/
def execInjectElem (port : Port) (val : W32) (rid : W16) (s : State) : Host.Outcome State Fault Refusal :=
  .next (rowWrite port Reg.ARR_INJECT (setFld val 0 0 1) rid s)

/-- INJECT_CKCOL (R122). -/
def execInjectCkcol (port : Port) (val : W32) (rid : W16) (s : State) : Host.Outcome State Fault Refusal :=
  .next (rowWrite port Reg.ARR_INJECT (setFld val 1 1 1) rid s)

/-- EXP_FLUSH (R142). -/
def execExpFlush (port : Port) (val : W32) (rid : W16) (s : State) : Host.Outcome State Fault Refusal :=
  .next (rowWrite port Reg.EXP_CTRL (setFld val 0 0 1) rid s)

/-- INTAKE_ENABLE (R284). -/
def execIntakeEnable (port : Port) (val : W32) (rid : W16) (s : State) : Host.Outcome State Fault Refusal :=
  .next (rowWrite port Reg.ITK_PCTRL (setFld val 0 0 1) rid s)

/-- INTAKE_DISABLE (R285). -/
def execIntakeDisable (port : Port) (val : W32) (rid : W16) (s : State) : Host.Outcome State Fault Refusal :=
  .next (rowWrite port Reg.ITK_PCTRL (setFld val 0 0 0) rid s)

/-- ITK_RD_PTR_WRITE (R277, R294). -/
def execItkRdPtrWrite (port : Port) (val : W32) (rid : W16) (s : State) : Host.Outcome State Fault Refusal :=
  .next (rowWrite port Reg.ITK_RD_PTR val rid s)

/-- CONTEXT_ENABLE (R290). -/
def execContextEnable (port : Port) (val : W32) (rid : W16) (s : State) : Host.Outcome State Fault Refusal :=
  .next (rowWrite port Reg.MED_CTX_CTRL (setFld val 0 0 1) rid s)

/-- CONTEXT_DISABLE (R291). -/
def execContextDisable (port : Port) (val : W32) (rid : W16) (s : State) : Host.Outcome State Fault Refusal :=
  .next (rowWrite port Reg.MED_CTX_CTRL (setFld val 0 0 0) rid s)

/-- IN_WR_PTR_WRITE (R289). -/
def execInWrPtrWrite (port : Port) (val : W32) (rid : W16) (s : State) : Host.Outcome State Fault Refusal :=
  .next (rowWrite port Reg.MED_IN_WR_PTR val rid s)

/-- OUT_RD_PTR_WRITE (R295). -/
def execOutRdPtrWrite (port : Port) (val : W32) (rid : W16) (s : State) : Host.Outcome State Fault Refusal :=
  .next (rowWrite port Reg.MED_OUT_RD_PTR val rid s)

/-- MED_FB_RELEASE (R306). -/
def execMedFbRelease (port : Port) (val : W32) (rid : W16) (s : State) : Host.Outcome State Fault Refusal :=
  .next (rowWrite port Reg.MED_FB_RELEASE val rid s)

/-- TOK_LOAD of a tokeniser set (R312). -/
def execTokLoad (port : Port) (set : Fin 2) (val : W32) (rid : W16) (s : State) : Host.Outcome State Fault Refusal :=
  .next (rowWrite port (if set.val = 0 then Reg.TOK0_LOAD else Reg.TOK1_LOAD) (setFld val 0 0 1) rid s)

/-- FLUSH of a batch stream (R323). -/
def execFlush (port : Port) (val : W32) (rid : W16) (s : State) : Host.Outcome State Fault Refusal :=
  .next (rowWrite port Reg.BAT_FLUSH (setFld val 0 0 1) rid s)

/-- STREAM_ENABLE (R335). -/
def execStreamEnable (port : Port) (val : W32) (rid : W16) (s : State) : Host.Outcome State Fault Refusal :=
  .next (rowWrite port Reg.BAT_SCTRL (setFld val 0 0 1) rid s)

/-- STREAM_DISABLE (R324). -/
def execStreamDisable (port : Port) (val : W32) (rid : W16) (s : State) : Host.Outcome State Fault Refusal :=
  .next (rowWrite port Reg.BAT_SCTRL (setFld val 0 0 0) rid s)

/-- BAT_RELEASE (R325). -/
def execBatRelease (port : Port) (val : W32) (rid : W16) (s : State) : Host.Outcome State Fault Refusal :=
  .next (rowWrite port Reg.BAT_RELEASE val rid s)

/-- PORT_ENABLE (R353). -/
def execPortEnable (port : Port) (val : W32) (rid : W16) (s : State) : Host.Outcome State Fault Refusal :=
  .next (rowWrite port Reg.CWY_PCTRL (setFld val 0 0 1) rid s)

/-- PORT_DISABLE (R354). -/
def execPortDisable (port : Port) (val : W32) (rid : W16) (s : State) : Host.Outcome State Fault Refusal :=
  .next (rowWrite port Reg.CWY_PCTRL (setFld val 0 0 0) rid s)

/-- WINDOW_ENABLE (R349). -/
def execWindowEnable (port : Port) (val : W32) (rid : W16) (s : State) : Host.Outcome State Fault Refusal :=
  .next (rowWrite port Reg.CWY_WIN_EN (setFld val 0 0 1) rid s)

/-- VER_WRITE (R378). -/
def execVerWrite (port : Port) (val : W32) (rid : W16) (s : State) : Host.Outcome State Fault Refusal :=
  .next (rowWrite port Reg.LOD_VER val rid s)

/-- DISPATCHER_ENABLE (R409). -/
def execDispatcherEnable (port : Port) (val : W32) (rid : W16) (s : State) : Host.Outcome State Fault Refusal :=
  .next (rowWrite port Reg.DSP_CTRL (setFld val 0 0 1) rid s)

/-- DISPATCHER_DISABLE (R522). -/
def execDispatcherDisable (port : Port) (val : W32) (rid : W16) (s : State) : Host.Outcome State Fault Refusal :=
  .next (rowWrite port Reg.DSP_CTRL (setFld val 0 0 0) rid s)

/-- SQ_ENABLE (R441). -/
def execSqEnable (val : W32) (rid : W16) (s : State) : Host.Outcome State Fault Refusal :=
  .next (rowWrite .pcie Reg.SQ_CTRL (setFld val 0 0 1) rid s)

/-- SQ_DISABLE (R448). -/
def execSqDisable (val : W32) (rid : W16) (s : State) : Host.Outcome State Fault Refusal :=
  .next (rowWrite .pcie Reg.SQ_CTRL (setFld val 0 0 0) rid s)

/-- CQ_ENABLE (R441). -/
def execCqEnable (val : W32) (rid : W16) (s : State) : Host.Outcome State Fault Refusal :=
  .next (rowWrite .pcie Reg.CQ_CTRL (setFld val 0 0 1) rid s)

/-- CQ_DISABLE (R441). -/
def execCqDisable (val : W32) (rid : W16) (s : State) : Host.Outcome State Fault Refusal :=
  .next (rowWrite .pcie Reg.CQ_CTRL (setFld val 0 0 0) rid s)

/-- EVT_MASK_WRITE (R450). -/
def execEvtMaskWrite (val : W32) (rid : W16) (s : State) : Host.Outcome State Fault Refusal :=
  .next (rowWrite .pcie Reg.HST_EVT_MASK val rid s)

/-- HST_RESET_WARM: a write of 1 to HST_RESET.WARM (R437, R451). The register stands on the register bus, so the write never waits for a
clock, only for its turn. -/
def execHstResetWarm (val : W32) (rid : W16) (chk : WarmCheck) (s : State) : Host.Outcome State Fault Refusal :=
  let a : RegAcc := ⟨.pcie, Reg.HST_RESET, setFld val 0 0 1, rid.toNat⟩
  .next (portWrite (hstResetRule chk) a s)

end Sys2Proof.Machine
end

