-- ==== Sys2Proof/Machine/ClockRows.lean ====
section
/-! DEFINITION. Machine/ClockRows.lean: PLLs that lock, reference clocks that come and go, the time base (R415 to R427), and the events after
which accesses of the host that waited may go on (R434). -/

namespace Sys2Proof.Machine

/-- An access whose clock now runs goes on (R418). -/
def resumeWait (w : WaitAcc) (s : State) : State :=
  match w with
  | .regRead p off => readNow p off s
  | .regWrite a => writeNow a s
  | .sram q => sramReq q .none s
  | .unit _ | .item _ | .tail _ _ | .head _ _ | .window _ => s

/-- Accesses that wait for a domain inside their window of 500 ticks (R419). -/
def openWaits (d : ClkDomain) (s : State) : List WaitAcc :=
  (s.clkWait.filter (fun w => w.1 = d && decide (s.now < w.2.1 + clkWindow))).map (·.2.2)

/-- A PLL locks inside the window of its start: its failures are over, its mark clears during a start, and the waiting accesses of the
domain go on in order (R418, R419). -/
def lockPll (d : ClkDomain) (s : State) : State :=
  let p := s.pll d
  let go := openWaits d s
  let s1 := s.setPll d ⟨true, none, 0, p.failed && s.up.boot.isNone⟩
  let s2 := { s1 with
    clkWait := s1.clkWait.filter (fun w => !(w.1 = d && decide (s.now < w.2.1 + clkWindow)))
    pw := if d = .mclk then { s1.pw with mclkIdle := s.now } else if d = .aclk then { s1.pw with aclkIdle := s.now } else s1.pw }
  drainBus (go.foldl (fun t w => resumeWait w t) s2)

/-- PLL_LOCK (R418, R419): a lock in tick t + 500 or later is no start. A PLL that a unit's own access has started lets the accesses that wait
for it go on. -/
def execPllLock (d : ClkDomain) (s : State) : Host.Outcome State Fault Refusal :=
  match (s.pll d).starting with
  | none => if (s.pll d).on ∧ openWaits d s ≠ [] then .next (lockPll d s) else .next s
  | some t => if s.now < t + clkWindow then .next (lockPll d s) else .next s

/-- A PLL start of a start in progress whose third failure in a row fails that start (R419, R462); fewer are tried again. -/
def bootPll (d : ClkDomain) (s : State) : State :=
  if s.starting.isNone then s
  else if (s.pll d).failed then failStart s
  else if (s.pll d).on ∨ (s.pll d).starting.isSome then s
  else s.setPll d { s.pll d with starting := some s.now }

/-- CLK_START_TIMEOUT (R419). -/
def execClkStartTimeout (d : ClkDomain) (s : State) : Host.Outcome State Fault Refusal :=
  match (s.pll d).starting with
  | none => .next s
  | some t => if s.now < t + clkWindow then .next s else .next (drainBus (bootPll d (clockTimeout d s)))

/-- FCLASS_CONVERSION_DONE (R74). -/
def execFclassConversionDone (frame : Fin 393216) (s : State) : Host.Outcome State Fault Refusal :=
  .next (drainBus (endConversion frame.val s))

/-- SELF_REFRESH_EXIT (R86). -/
def execSelfRefreshExit (pkg : Fin 32) (s : State) : Host.Outcome State Fault Refusal := .next (drainBus (leaveSelfRefresh pkg.val s))

/-- TIER2_FILL_DONE (R87, R465). -/
def execTier2FillDone (s : State) : Host.Outcome State Fault Refusal := .next (drainBus (t2FillDone s))

/-- ARRAY_WAKE_DONE: a waking array reaches RUN and serves what waited for it (R410). -/
def execArrayWakeDone (phys : Fin 100) (s : State) : Host.Outcome State Fault Refusal :=
  if mayWake phys.val s then .next (drainBus (wakeDone phys.val s)) else .next s

/-- SPARE_IN_RUN: the spare that took a logical number reaches RUN (R124). -/
def execSpareInRun (phys : Fin 100) (s : State) : Host.Outcome State Fault Refusal :=
  if 96 ≤ phys.val ∧ mayWake phys.val s ∧ (logicalOf s phys.val).isSome then .next (drainBus (wakeDone phys.val s)) else .next s

/-- The record of a lost reference clock (R417, R478). -/
def refLost (dom : Nat) (s : State) : State :=
  writeFault { cls := .refLost, status := .ok, disp := .reported, body := leBytes 1 dom } s

/-- Ports that run on CWY_REFCLK go DOWN or lose link (R285, R352, R417). -/
def cwyDown (s : State) : State :=
  let s1 := (List.range 12).foldl (fun t p => if portState t p = 0 ∨ portState t p = 5 then t else portDown p 3 t) s
  [0, 1].foldl (fun t p => intakeLinkDown p t) s1

/-- REFCLK_LOSS: a reference clock absent for 10 µs clears its REF_OK bit (R417). -/
def execRefclkLoss (cwy : Bool) (s : State) : Host.Outcome State Fault Refusal :=
  let b := if cwy then 9 else 8
  if !s.up.peat ∨ s.rf 0 Reg.CLK_STATUS b b = 0 then .next s
  else
    let s1 := refLost (if cwy then 7 else 6) (s.setRf 0 Reg.CLK_STATUS b b 0)
    .next (if cwy then cwyDown s1 else { s1 with linkUp := false })

/-- REFCLK_RETURN: the REF_OK bit is set again, and ports may train (R417). -/
def execRefclkReturn (cwy : Bool) (s : State) : Host.Outcome State Fault Refusal :=
  if !s.up.peat then .next s else .next (s.setRf 0 Reg.CLK_STATUS (if cwy then 9 else 8) (if cwy then 9 else 8) 1)

end Sys2Proof.Machine
end

