-- ==== Sys2Proof/Machine/Tick.lean ====
section
/-! DEFINITION. Machine/Tick.lean: one tick of the Peat domain, 40 ns: the time base and what counts in ticks or in cycles without a row of
its own (R11, R307, R334, R403, R425 to R427). -/

namespace Sys2Proof.Machine

/-- MCLK cycles of a tick: 800 MHz × 40 ns. -/
def mclkTick : Nat := 32

/-- Elapsed time, and the time base while the Peat domain is up: an accepted CLK_TB_SET takes the place of the increment, and windows that
had not ended are dropped with it (R404, R425 to R427). -/
def advanceTime (s : State) : State :=
  if !s.up.peat then { s with now := s.now + 1 }
  else match s.tbJump with
    | some v => { s with now := s.now + 1, tb := v, tbJump := none, winCost := [], winK := v.toNat / max 1 s.winTicks }
    | none => { s with now := s.now + 1, tb := s.tb + 1 }

/-- Does a media core decode. -/
def coreDecodes (s : State) (u : Nat) : Bool :=
  s.med.any (fun c => c.2.samples.any (fun m => m.core == some u && m.stage == .decode))

/-- BUSY of the media cores that decode. [DEDUCED 161] -/
def countCores (s : State) : State :=
  if s.med = [] ∨ !s.mclk.on then s
  else (List.range 72).foldl (fun t u => if coreDecodes s u then t.count u Reg.MED_BUSY mclkTick else t) s

/-- Does position assignment of a batch stream wait for a buffer (R321, R334). -/
def waitsBuffer (s : State) (n : Nat) (b : BStream) : Bool :=
  match b.queue with
  | [] => false
  | c :: _ =>
    match c.bucket with
    | none => false
    | some k => (openBatch s n k).isNone && (freeBuf s n).isNone

/-- HOLD_BUF of the streams that wait for a buffer. [DEDUCED 161] -/
def countHolds (s : State) : State :=
  s.bstreams.foldl (fun t e => if waitsBuffer s e.1 e.2 then t.count e.1 Reg.BAT_HOLD_BUF mclkTick else t) s

/-- Ticks with LIMITING set (R413). -/
def countThrottle (s : State) : State :=
  if s.rf 0 Reg.PWR_STATUS 0 0 = 1 then s.count 0 Reg.PWR_THROTTLE_TICKS 1 else s

/-- A unit that has work has its gate open, and MCLK work restarts the idle time (R22, R415). -/
def noteActivity (s : State) : State :=
  { s with pw := { s.pw with
      gates := s.pw.gates.filter (unitIdle s)
      mclkIdle := if mclkIdleNow s then s.pw.mclkIdle else s.now } }

/-- One tick. The charges of the tick count in the window that contains it (R403). [DESIGN CHOICE 2, 17; DEDUCED 160] -/
def tick (s : State) : State :=
  if s.up.cfgReady then drainBus (noteActivity (countThrottle (countHolds (countCores (advanceTime (chargeTick s))))))
  else advanceTime s

/-- TIME_BASE_JUMP: the tick after an accepted CLK_TB_SET write (R427). -/
def execTimeBaseJump (s : State) : Host.Outcome State Fault Refusal :=
  if s.tbJump.isSome then .next (tick s) else .next s

end Sys2Proof.Machine
end

