-- ==== Sys2Proof/Machine/Nolivo.lean ====
section
/-! DEFINITION. Machine/Nolivo.lean: the management port: Nolivo commands (R500 to R502), firmware update and repair (R493 to R495), debug unlock
and JTAG (R503). -/

namespace Sys2Proof.Machine

/-- Completion codes of R500. -/
inductive NCode where
  | success | notReady | invalid | refused | busy | verifyFailed | rollback | badState
deriving DecidableEq, Repr

/-- Numbers of the completion codes (R500). -/
def NCode.num : NCode → Nat
  | .success => 0 | .notReady => 1 | .invalid => 2 | .refused => 3 | .busy => 4 | .verifyFailed => 5 | .rollback => 6 | .badState => 7

/-- Answer a Nolivo command. -/
def answer (c : NCode) (d : List Byte) (s : State) : State := s.emit (.nolivo c.num d)

/-- Does a register access of the management port wait for its clock, its response still to come (R419, R500). -/
def mgmtWaits (s : State) : Bool :=
  s.clkWait.any (fun w => match w.2.2 with
    | .regRead p _ => p == .mgmt
    | _ => false)

/-- Does the previous request of the management port still wait for its response: a commit, or a register access that waits for its clock
(R500). -/
def portBusy (s : State) : Bool := s.sec.fwCommit.isSome || mgmtWaits s

/-- What every Nolivo command meets first (R500, R502): no answer without the Peat domain; NOT_READY; BUSY; BAD_STATE in SAFE state. -/
def nolivo (safeOk : Bool) (k : State → State) (s : State) : State :=
  if !s.up.peat then s
  else if !s.up.mgmtReady then answer .notReady [] s
  else if portBusy s then answer .busy [] s
  else if s.up.safe && !safeOk then answer .badState [] s
  else k s

/-- State byte of GET_INFO: 0 running, 1 starting, 2 SAFE (R501). -/
def infoState (s : State) : Nat := if s.up.safe then 2 else if s.up.boot.isSome then 1 else 0

/-- Payload of GET_INFO, in the order of R501. [PRESUMED 145] -/
def infoBytes (s : State) : List Byte :=
  let img := fun (ty : Nat) => leBytes 2 (s.runningImage ty).svn ++ leBytes 4 (s.runningImage ty).version
  leBytes 8 (s.reg64 0 Reg.SEC_SERIAL_LO) ++ leBytes 1 (s.rf 0 Reg.GLB_CONFIG 2 0) ++ leBytes 1 (s.rf 0 Reg.GLB_STEPPING 7 0) ++
    img 1 ++ img 2 ++ img 3 ++ leBytes 1 (infoState s)

/-- GET_INFO (R501). -/
def execGetInfo (s : State) : Host.Outcome State Fault Refusal := .next (nolivo true (fun t => answer .success (infoBytes t) t) s)

/-- Payload of TELEMETRY, in the order of R501. [PRESUMED 145] -/
def telemetryBytes (s : State) : List Byte :=
  leBytes 2 (s.rf 0 Reg.PWR_POWER 11 0) ++ leBytes 1 (s.rf 0 Reg.PWR_ACLK 4 0) ++
    ((List.range 32).map (fun k => leBytes 1 (s.rf k Reg.MEM_TEMP 7 0) ++ leBytes 1 (s.rf k Reg.MEM_TEMP 9 8))).flatten ++
    ((List.range 12).map (fun p => leBytes 1 (s.rf p Reg.CWY_PSTATE 2 0))).flatten ++
    leBytes 2 s.faults.queue.length ++ leBytes 8 s.jrn.lost

/-- TELEMETRY (R501). -/
def execTelemetry (s : State) : Host.Outcome State Fault Refusal := .next (nolivo true (fun t => answer .success (telemetryBytes t) t) s)

/-- SET_POWER: writes PWR_LIMIT and PWR_ACLK_MAX from the management port; a value out of range is ignored and answered INVALID (R414, R501). [DEDUCED 146] -/
def setPower (limit aclk : W32) (eid : Byte) (s : State) : State :=
  let s1 := busWrite ⟨.mgmt, Reg.PWR_ACLK_MAX, aclk, eid.toNat⟩ (busWrite ⟨.mgmt, Reg.PWR_LIMIT, limit, eid.toNat⟩ s)
  let ok := decide (1500 ≤ limit.toNat) && decide (limit.toNat ≤ 3500) && decide (aclk.toNat ≤ 24)
  answer (if ok then .success else .invalid) [] s1

/-- SET_POWER (R501). -/
def execSetPower (limit aclk : W32) (eid : Byte) (s : State) : Host.Outcome State Fault Refusal :=
  .next (nolivo false (setPower limit aclk eid) s)

/-- A reset command closes an update session, and so is served while a commit is pending (R495). -/
def resetCmdMeaning (cold : Byte) (chk : WarmCheck) (s : State) : State :=
  if cold = 0 then warmTrigger 4 chk (answer .success [] s)
  else if cold = 1 then coldTrigger (answer .success [] s)
  else answer .invalid [] s

/-- RESET: 0 warm, 1 cold (R451, R452, R501). [DEDUCED 189] -/
def execResetCmd (cold : Byte) (chk : WarmCheck) (s : State) : Host.Outcome State Fault Refusal :=
  .next (if !s.up.peat then s else if !s.up.mgmtReady then answer .notReady [] s
    else if mgmtWaits s then answer .busy [] s else resetCmdMeaning cold chk s)

/-- An entry of ORIGIN 1 against the read-only register that shows what a Nolivo command changed (R481, R501). -/
def mgmtEntry (eid : Byte) (off old new : Nat) (s : State) : State :=
  if old = new then s else journal .mgmt eid.toNat off 0 false old new s

/-- BOOT_OPTIONS: the boot options record is rewritten; other bits of it are reserved (R501). -/
def bootOptions (opts eid : Byte) (s : State) : State :=
  if 2 ≤ opts.toNat then answer .invalid [] s
  else
    let s1 := { s with up := { s.up with optMemtest := opts == 1 } }.setRf 0 Reg.SEC_BOOT_OPT 0 0 opts.toNat
    answer .success [] (mgmtEntry eid Reg.SEC_BOOT_OPT (s.rf 0 Reg.SEC_BOOT_OPT 0 0) opts.toNat s1)

/-- BOOT_OPTIONS (R501). -/
def execBootOptions (opts eid : Byte) (s : State) : Host.Outcome State Fault Refusal := .next (nolivo false (bootOptions opts eid) s)

/-- Set SEC_UPDATE.STATE. -/
def setUpdate (v : Nat) (s : State) : State := s.setRf 0 Reg.SEC_UPDATE 1 0 v

/-- Is a type an image type. -/
def imageType (ty : Byte) : Bool := decide (1 ≤ ty.toNat) && decide (ty.toNat ≤ 3)

/-- FW_BEGIN: a session opens and copy B of the type is erased (R494, R495). -/
def fwBegin (ty : Byte) (s : State) : State :=
  if !imageType ty then answer .invalid [] s
  else if s.sec.fwOpen.isSome ∨ s.sec.repair ≠ [] then answer .busy [] s
  else
    let s1 := s.setFlash ty.toNat 1 .blank
    answer .success [] (setUpdate 1 { s1 with sec := { s1.sec with fwOpen := some (ty.toNat, 0) } })

/-- FW_BEGIN (R494). -/
def execFwBegin (ty : Byte) (s : State) : Host.Outcome State Fault Refusal := .next (nolivo true (fwBegin ty) s)

/-- Bytes that an update has written to a copy. -/
def FlashCopy.data : FlashCopy → List Byte
  | .written d => d
  | _ => []

/-- FW_DATA: 1 to 1,024 bytes at the next offset, inside the copy (R494). [DEDUCED 147] -/
def fwData (off : W32) (data : List Byte) (s : State) : State :=
  match s.sec.fwOpen with
  | none => answer .invalid [] s
  | some (ty, next) =>
    if off.toNat ≠ next ∨ data = [] ∨ 1024 < data.length ∨ copySize ty < next + data.length then answer .invalid [] s
    else
      let s1 := s.setFlash ty 1 (.written ((s.flashCopy ty 1).data ++ data))
      answer .success [] { s1 with sec := { s1.sec with fwOpen := some (ty, next + data.length) } }

/-- FW_DATA (R494). -/
def execFwData (off : W32) (data : List Byte) (s : State) : Host.Outcome State Fault Refusal := .next (nolivo true (fwData off data) s)

/-- The end of a commit: the session is closed, its code stands in SEC_UPDATE, one entry carries the value before and after it (R481, R494). [DEDUCED 135] -/
def endCommit (c : NCode) (eid : Byte) (old : Nat) (s : State) : State :=
  let s1 := (setUpdate 0 { s with sec := { s.sec with fwOpen := none, fwCommit := none } }).setRf 0 Reg.SEC_UPDATE 15 8 c.num
  answer c [] (mgmtEntry eid Reg.SEC_UPDATE old (s1.reg 0 Reg.SEC_UPDATE).toNat s1)

/-- FW_COMMIT: copy B is checked; a valid one begins the rewrite of copy A (R494). [DEDUCED 147] -/
def fwCommit (eid : Byte) (s : State) : State :=
  match s.sec.fwOpen with
  | none => answer .invalid [] s
  | some (ty, _) =>
    let b := s.flashCopy ty 1
    if !copyFits ty b s then endCommit .verifyFailed eid (s.reg 0 Reg.SEC_UPDATE).toNat s
    else if !copyValid ty b s then endCommit .rollback eid (s.reg 0 Reg.SEC_UPDATE).toNat s
    else
      let s1 := s.setFlash ty 0 .blank
      setUpdate 2 { s1 with sec := { s1.sec with fwOpen := none, fwCommit := some (ty, eid.toNat) } }

/-- FW_COMMIT (R494). -/
def execFwCommit (eid : Byte) (s : State) : Host.Outcome State Fault Refusal := .next (nolivo true (fwCommit eid) s)

/-- FW_COMMIT_DONE: copy A is written from B and checked, and the commit answers (R494). -/
def execFwCommitDone (s : State) : Host.Outcome State Fault Refusal :=
  match s.sec.fwCommit with
  | none => .next s
  | some (ty, eid) =>
    let s1 := s.setFlash ty 0 (s.flashCopy ty 1)
    let c := if copyValid ty (s1.flashCopy ty 0) s1 then NCode.success else .verifyFailed
    .next (endCommit c (BitVec.ofNat 8 eid) (setFld (s1.reg 0 Reg.SEC_UPDATE) 1 0 1).toNat s1)

/-- FLASH_REPAIR_DONE: a copy under repair is written from the other one; STATE returns to IDLE with the last (R495). -/
def execFlashRepairDone (s : State) : Host.Outcome State Fault Refusal :=
  match s.sec.repair with
  | [] => .next s
  | i :: r =>
    let from_ := s.sec.flash.getD (if i % 2 = 0 then i + 1 else i - 1) .blank
    let s1 := { s with sec := { s.sec with flash := s.sec.flash.set i from_, repair := r } }
    .next (if r = [] then setUpdate 0 s1 else s1)

/-- May the SVN minimum of a type be raised to a value (R493). -/
def svnOk (ty v : Nat) (s : State) : Bool :=
  let fit := fun (c : Nat) => copyValid ty (s.flashCopy ty c) s && decide (v ≤ (s.flashCopy ty c).svn)
  fit 0 && fit 1 && (s.runningImage ty).svn == v

/-- SVN_COMMIT: the thermometer of a type is raised (R493). [DEDUCED 148] -/
def svnCommit (ty v eid : Byte) (s : State) : State :=
  if !imageType ty || decide (63 < v.toNat) then answer .invalid [] s
  else if !svnOk ty.toNat v.toNat s then answer .refused [] s
  else
    let s1 := s.setRf 0 Reg.SEC_SVN_MIN (svnLo ty.toNat + 5) (svnLo ty.toNat) (max v.toNat (svnMin s ty.toNat))
    answer .success [] (mgmtEntry eid Reg.SEC_SVN_MIN (s.reg 0 Reg.SEC_SVN_MIN).toNat (s1.reg 0 Reg.SEC_SVN_MIN).toNat s1)

/-- SVN_COMMIT (R493). -/
def execSvnCommit (ty v eid : Byte) (s : State) : Host.Outcome State Fault Refusal := .next (nolivo false (svnCommit ty v eid) s)

/-- May a boot key slot be revoked: another slot stays unrevoked, and every running image and both copies of every type verify under another
slot (R493). -/
def revokeOk (k : Nat) (s : State) : Bool :=
  (List.range 4).any (fun j => j != k && !slotRevoked s j) &&
    [1, 2, 3].all (fun ty => (s.runningImage ty).slot != k &&
      [0, 1].all (fun c => copyValid ty (s.flashCopy ty c) s && (s.flashCopy ty c).slot != k))

/-- KEY_REVOKE: the revoke bit of a slot is blown (R493). -/
def keyRevoke (slot eid : Byte) (s : State) : State :=
  if 4 ≤ slot.toNat then answer .invalid [] s
  else if !revokeOk slot.toNat s then answer .refused [] s
  else
    let s1 := s.setRf 0 Reg.SEC_BOOT 7 4 (s.rf 0 Reg.SEC_BOOT 7 4 ||| 2 ^ slot.toNat)
    answer .success [] (mgmtEntry eid Reg.SEC_BOOT (s.reg 0 Reg.SEC_BOOT).toNat (s1.reg 0 Reg.SEC_BOOT).toNat s1)

/-- KEY_REVOKE (R493). -/
def execKeyRevoke (slot eid : Byte) (s : State) : Host.Outcome State Fault Refusal := .next (nolivo false (keyRevoke slot eid) s)

/-- Bytes whose value the manual leaves open: `n` words of 64 bits. -/
def openBytes : Nat → State → List Byte × State
  | 0, s => ([], s)
  | n + 1, s =>
    let (k, s1) := s.drawFree
    let (l, s2) := openBytes n s1
    (leBytes 8 (Config.freeWord k).toNat ++ l, s2)

/-- One record of FAULT_READ: zeros when it is not held; a bit error of the queue's memory is corrected and counted, or leaves bytes that
nothing fixes (R470, R480, R501). [DEDUCED 127] -/
def readRecord (fseq : Nat) (ev : BitErr) (s : State) : List Byte × State :=
  match s.faults.queue.find? (fun r => r.fseq == fseq) with
  | none => (leBytes 64 0, s)
  | some r =>
    match ev with
    | .none => (r.bytes, s)
    | .one => (r.bytes, s.count 0 Reg.FLT_PEAT_CE 1)
    | .two => openBytes 8 (writeFault (peatRecord (portReq .mgmt) (fseq % 1024)) s)

/-- Records of FAULT_READ from an FSEQ on. -/
def readRecords : Nat → Nat → List BitErr → State → List Byte × State
  | 0, _, _, s => ([], s)
  | n + 1, q, bad, s =>
    let (b, s1) := readRecord q (bad.headD .none) s
    let (l, s2) := readRecords n (q + 1) bad.tail s1
    (b ++ l, s2)

/-- FAULT_READ: 1 to 4 records by FSEQ, none freed (R480, R501). -/
def faultRead (fseq : W32) (count : Byte) (bad : List BitErr) (s : State) : State :=
  if count.toNat < 1 ∨ 4 < count.toNat then answer .invalid [] s
  else
    let (l, s1) := readRecords count.toNat fseq.toNat bad s
    answer .success l s1

/-- FAULT_READ (R501). -/
def execFaultRead (fseq : W32) (count : Byte) (bad : List BitErr) (s : State) : Host.Outcome State Fault Refusal :=
  .next (nolivo true (faultRead fseq count bad) s)

/-- FAULT_ACK: clears FLT_STATUS.REPORTED (R469). -/
def execFaultAck (s : State) : Host.Outcome State Fault Refusal :=
  .next (nolivo true (fun t => answer .success [] (t.setRf 0 Reg.FLT_STATUS 0 0 0)) s)

/-- One entry of JOURNAL_READ with its status (R485, R501). [DEDUCED 150] -/
def readEntry1 (seq : Nat) (ev : BitErr) (s : State) : List Byte × State :=
  let s1 := if (jrnFind s seq).isSome ∧ !s.jrn.damaged.contains seq then readEntryBits (portReq .mgmt) seq ev s else s
  let st := jrnStatus s1 seq
  let b := match jrnFind s1 seq with
    | some e => if st = 0 then e.bytes else leBytes 32 0
    | none => leBytes 32 0
  (leBytes 1 st ++ b, s1)

/-- Entries of JOURNAL_READ from a SEQ on. -/
def readEntries : Nat → Nat → List BitErr → State → List Byte × State
  | 0, _, _, s => ([], s)
  | n + 1, q, bad, s =>
    let (b, s1) := readEntry1 (q % 2 ^ 24) (bad.headD .none) s
    let (l, s2) := readEntries n (q + 1) bad.tail s1
    (b ++ l, s2)

/-- JOURNAL_READ: 1 to 8 entries by SEQ (R485, R501). -/
def journalRead (seq : W32) (count : Byte) (bad : List BitErr) (s : State) : State :=
  if count.toNat < 1 ∨ 8 < count.toNat ∨ 2 ^ 24 ≤ seq.toNat then answer .invalid [] s
  else
    let (l, s1) := readEntries count.toNat seq.toNat bad s
    answer .success l s1

/-- JOURNAL_READ (R501). -/
def execJournalRead (seq : W32) (count : Byte) (bad : List BitErr) (s : State) : Host.Outcome State Fault Refusal :=
  .next (nolivo true (journalRead seq count bad) s)

/-- LOCK: HST_MLOCK ← (HST_MLOCK AND NOT clear) OR set (R501). -/
def lockMasks (set clear : W32) (eid : Byte) (s : State) : State :=
  if 2 ^ 18 ≤ set.toNat ∨ 2 ^ 18 ≤ clear.toNat then answer .invalid [] s
  else
    let v := ((s.reg 0 Reg.HST_MLOCK) &&& ~~~clear) ||| set
    answer .success [] (busWrite ⟨.mgmt, Reg.HST_MLOCK, v, eid.toNat⟩ s)

/-- LOCK (R501). -/
def execLockCmd (set clear : W32) (eid : Byte) (s : State) : Host.Outcome State Fault Refusal := .next (nolivo false (lockMasks set clear eid) s)

/-- A BAR0 offset a Nolivo command may name. -/
def offsetOk (off : W32) : Bool := off.toNat % 4 == 0 && decide (off.toNat < 2 ^ 26)

/-- REG_READ: one register through the management bank (R436, R455, R501). [DEDUCED 108] -/
def regReadCmd (off : W32) (s : State) : State :=
  if !offsetOk off then answer .invalid [] s
  else if !busOpen .mgmt off.toNat s then answer .notReady [] s
  else busRead .mgmt off.toNat s

/-- REG_READ (R501). -/
def execRegRead (off : W32) (s : State) : Host.Outcome State Fault Refusal := .next (nolivo false (regReadCmd off) s)

/-- The code of a management register write (R438, R440, R500). [DEDUCED 151] -/
def writeCode (off : Nat) (val : W32) : NCode :=
  match regDef? off with
  | none => .success
  | some r =>
    if mgmtMask r = 0 then .refused
    else if off = Reg.PWR_LIMIT ∧ (val.toNat < 1500 ∨ 3500 < val.toNat) then .invalid
    else if off = Reg.PWR_ACLK_MAX ∧ 24 < val.toNat then .invalid
    else .success

/-- REG_WRITE: one register within the rights of R438; the doorbell pages are refused (R437, R440). [DEDUCED 151] -/
def regWriteCmd (off val : W32) (eid : Byte) (s : State) : State :=
  let a : RegAcc := ⟨.mgmt, off.toNat, val, eid.toNat⟩
  if !offsetOk off then answer .invalid [] s
  else if !busOpen .mgmt off.toNat s then answer .notReady [] s
  else if off.toNat >>> 20 = 0x10 then answer .refused [] (refuseWrite a s)
  else answer (writeCode off.toNat val) [] (busWrite a s)

/-- REG_WRITE (R438, R501). -/
def execRegWrite (off val : W32) (eid : Byte) (s : State) : Host.Outcome State Fault Refusal := .next (nolivo false (regWriteCmd off val eid) s)

/-- DEBUG_CHALLENGE: a fresh 16-byte nonce (R501). -/
def debugChallenge (s : State) : State :=
  let (n, s1) := openBytes 2 s
  answer .success n { s1 with sec := { s1.sec with dbgNonce := some n } }

/-- DEBUG_CHALLENGE (R501). -/
def execDebugChallenge (s : State) : Host.Outcome State Fault Refusal := .next (nolivo false debugChallenge s)

/-- Is a token well formed (R503). [DEDUCED 149] -/
def tokenShape (t : List Byte) : Bool :=
  t.length == 160 && leAt t 0 4 == 0x59444247 && (leAt t 4 1 == 1 || leAt t 4 1 == 2) && decide (leAt t 5 1 ≤ 1) && leAt t 6 2 == 0

/-- Do serial, nonce, key and signature of a token match (R503). [DEDUCED 149] -/
def tokenMatches (t : List Byte) (s : State) : Bool :=
  leAt t 8 8 == s.reg64 0 Reg.SEC_SERIAL_LO && some (slice t 16 16) == s.sec.dbgNonce &&
    Config.sm3 (slice t 32 64) == Config.debugKeyHash (leAt t 5 1) && Config.sm2Verify (slice t 32 64) (slice t 96 64) (t.take 96)

/-- DEBUG_UNLOCK: each nonce serves one attempt; an accepted token sets the level (R503). [DEDUCED 149] -/
def debugUnlock (t : List Byte) (s : State) : State :=
  let s1 := { s with sec := { s.sec with dbgNonce := none } }
  if !tokenShape t then answer .invalid [] s1
  else if !tokenMatches t s then answer .refused [] s1
  else answer .success [] ((s1.setRf 0 Reg.SEC_DBG 1 0 (leAt t 4 1)).setRf 0 Reg.SEC_DBG 2 2 (leAt t 5 1))

/-- DEBUG_UNLOCK (R503). -/
def execDebugUnlock (token : List Byte) (s : State) : Host.Outcome State Fault Refusal := .next (nolivo false (debugUnlock token) s)

/-- DEBUG_LOCK: debug level 0 at once (R501). -/
def execDebugLock (s : State) : Host.Outcome State Fault Refusal :=
  .next (nolivo false (fun t => answer .success [] (t.setRf 0 Reg.SEC_DBG 1 0 0)) s)

/-- Debug level in force (R503). -/
def debugLevel (s : State) : Nat := s.rf 0 Reg.SEC_DBG 1 0

/-- What the TAP answers: IDCODE and BYPASS always, scans and register reads at their level, else as BYPASS (R503). A register read shows the
value of the management bank and clears nothing. [DEDUCED 152] -/
def jtagAnswer (ins : JtagIns) (s : State) : JtagOut :=
  match ins with
  | .idcode => .idcode
  | .bypass => .bypass
  | .boundary => if 1 ≤ debugLevel s then .scan 1 else .bypass
  | .full => if 2 ≤ debugLevel s then .scan 2 else .bypass
  | .regRead off => if 1 ≤ debugLevel s then .reg off (readValue .mgmt off s).1 else .bypass

/-- JTAG_ACCESS (R503). -/
def execJtagAccess (ins : JtagIns) (s : State) : Host.Outcome State Fault Refusal :=
  if s.up.peat then .next (s.emit (.jtag (jtagAnswer ins s))) else .next s

end Sys2Proof.Machine
end

