-- ==== Sys2Proof/Machine/Scalar.lean ====
section
/-! DEFINITION. Machine/Scalar.lean: the scalar arithmetic, comparison, branch and control instructions (R155, R161 to R163, R177). -/

namespace Sys2Proof.Machine

/-- The result of a scalar function (R161): arithmetic modulo 2^64. -/
def aluOp (f : Nat) (x b : W64) : W64 :=
  let sh := b.toNat % 64
  match f with
  | 0x0 => x + b
  | 0x1 => x - b
  | 0x2 => x &&& b
  | 0x3 => x ||| b
  | 0x4 => x ^^^ b
  | 0x5 => x <<< sh
  | 0x6 => x >>> sh
  | 0x7 => x.sshiftRight sh
  | 0x8 => x * b
  | 0x9 => BitVec.ofInt 64 (x.toInt * b.toInt / (2 ^ 64 : Int))
  | 0xA => BitVec.ofNat 64 (x.toNat * b.toNat / 2 ^ 64)
  | 0xB => if x.slt b then x else b
  | 0xC => if x.slt b then b else x
  | 0xD => if x.ult b then x else b
  | _ => if x.ult b then b else x

/-- Operand b of class 0x0: sb (R161). -/
def bReg (x : Thread) (w : Nat) : W64 := x.sreg (iRb w)

/-- Operand b of class 0x1: the extension in the long form, else IMM sign-extended (R158, R161). -/
def bImm (w ext : Nat) : W64 := if iLong w then BitVec.ofNat 64 ext else iImmS w

/-- Write sd and go on. -/
def writeS (a t w : Nat) (v : W64) (s : State) : State :=
  advance a t w (s.setTh a t ((s.th a t).setS (iRd w) v))

/-- Write pd and go on. -/
def writeP (a t w : Nat) (v : Bool) (s : State) : State :=
  let x := s.th a t
  advance a t w (s.setTh a t { x with p := predWrite x.p (iRd w % 8) v })

/-- A class 0x0 instruction: sd takes sa op sb. -/
def aluReg (f : Nat) (a : Fin 96) (t : Fin 64) (s : State) : State :=
  issue 0x0 f (fun w _ u =>
    let x := u.th a.val t.val
    writeS a.val t.val w (aluOp f (x.sreg (iRa w)) (bReg x w)) u) a.val t.val s

/-- A class 0x1 instruction: sd takes sa op the immediate. -/
def aluImm (f : Nat) (a : Fin 96) (t : Fin 64) (s : State) : State :=
  issue 0x1 f (fun w ext u =>
    let x := u.th a.val t.val
    writeS a.val t.val w (aluOp f (x.sreg (iRa w)) (bImm w ext)) u) a.val t.val s

/-- A register comparison of class 0x2. -/
def cmpReg (k : Nat) (a : Fin 96) (t : Fin 64) (s : State) : State :=
  issue 0x2 k (fun w _ u =>
    let x := u.th a.val t.val
    writeP a.val t.val w (cmpTest k (x.sreg (iRa w)) (x.sreg (iRb w))) u) a.val t.val s

/-- An immediate comparison of class 0x2. -/
def cmpImm (k : Nat) (a : Fin 96) (t : Fin 64) (s : State) : State :=
  issue 0x2 (8 + k) (fun w _ u =>
    writeP a.val t.val w (cmpTest k ((u.th a.val t.val).sreg (iRa w)) (iImmS w)) u) a.val t.val s

/-- The target PC + IMM of a branch (R163). -/
def brTarget (x : Thread) (w : Nat) : Int := (x.pc : Int) + (iImmS w).toInt

/-- The return address PC + 1 (R163). -/
def retAddr (x : Thread) : W64 := BitVec.ofNat 64 (x.pc + 1)

/-- One item of thread identity or state (R155). -/
def sgetVal (a t sel : Nat) (s : State) : Nat :=
  let x := s.th a t
  let fldOf := fun (o k : Nat) => match s.item? x.item with
    | some i => leAt i.raw o k
    | none => 0
  match sel with
  | 0x00 => t
  | 0x01 => a
  | 0x02 => thrReq a t
  | 0x03 => x.item
  | 0x04 => fldOf 96 1 % 64
  | 0x05 => fldOf 92 4
  | 0x06 => s.tb.toNat
  | 0x07 => fldOf 97 1
  | 0x08 => ((List.range t).filter (fun j => (s.th a j).st ≠ .free ∧ (s.th a j).item = x.item)).length
  | 0x09 => x.seq
  | 0x0A => x.pending
  | 0x0B => x.fail.code
  | 0x0C => x.p.toNat ||| 1
  | 0x0D => 500000 + 31250 * s.rf 0 Reg.PWR_ACLK 4 0
  | _ => match s.item? x.item with
    | some i => i.replays
    | none => 0

/-- add (R161). -/
def execAdd (a : Fin 96) (t : Fin 64) (s : State) : Host.Outcome State Fault Refusal := .next (aluReg 0x0 a t s)

/-- sub (R161). -/
def execSub (a : Fin 96) (t : Fin 64) (s : State) : Host.Outcome State Fault Refusal := .next (aluReg 0x1 a t s)

/-- and (R161). -/
def execAndR (a : Fin 96) (t : Fin 64) (s : State) : Host.Outcome State Fault Refusal := .next (aluReg 0x2 a t s)

/-- or (R161). -/
def execOrR (a : Fin 96) (t : Fin 64) (s : State) : Host.Outcome State Fault Refusal := .next (aluReg 0x3 a t s)

/-- xor (R161). -/
def execXorR (a : Fin 96) (t : Fin 64) (s : State) : Host.Outcome State Fault Refusal := .next (aluReg 0x4 a t s)

/-- shl (R161). -/
def execShl (a : Fin 96) (t : Fin 64) (s : State) : Host.Outcome State Fault Refusal := .next (aluReg 0x5 a t s)

/-- shr (R161). -/
def execShr (a : Fin 96) (t : Fin 64) (s : State) : Host.Outcome State Fault Refusal := .next (aluReg 0x6 a t s)

/-- sar (R161). -/
def execSar (a : Fin 96) (t : Fin 64) (s : State) : Host.Outcome State Fault Refusal := .next (aluReg 0x7 a t s)

/-- mul (R161). -/
def execMul (a : Fin 96) (t : Fin 64) (s : State) : Host.Outcome State Fault Refusal := .next (aluReg 0x8 a t s)

/-- mulh (R161). -/
def execMulh (a : Fin 96) (t : Fin 64) (s : State) : Host.Outcome State Fault Refusal := .next (aluReg 0x9 a t s)

/-- mulhu (R161). -/
def execMulhu (a : Fin 96) (t : Fin 64) (s : State) : Host.Outcome State Fault Refusal := .next (aluReg 0xA a t s)

/-- min (R161). -/
def execMinR (a : Fin 96) (t : Fin 64) (s : State) : Host.Outcome State Fault Refusal := .next (aluReg 0xB a t s)

/-- max (R161). -/
def execMaxR (a : Fin 96) (t : Fin 64) (s : State) : Host.Outcome State Fault Refusal := .next (aluReg 0xC a t s)

/-- minu (R161). -/
def execMinu (a : Fin 96) (t : Fin 64) (s : State) : Host.Outcome State Fault Refusal := .next (aluReg 0xD a t s)

/-- maxu (R161). -/
def execMaxu (a : Fin 96) (t : Fin 64) (s : State) : Host.Outcome State Fault Refusal := .next (aluReg 0xE a t s)

/-- addi (R161). -/
def execAddi (a : Fin 96) (t : Fin 64) (s : State) : Host.Outcome State Fault Refusal := .next (aluImm 0x0 a t s)

/-- subi (R161). -/
def execSubi (a : Fin 96) (t : Fin 64) (s : State) : Host.Outcome State Fault Refusal := .next (aluImm 0x1 a t s)

/-- andi (R161). -/
def execAndi (a : Fin 96) (t : Fin 64) (s : State) : Host.Outcome State Fault Refusal := .next (aluImm 0x2 a t s)

/-- ori (R161). -/
def execOri (a : Fin 96) (t : Fin 64) (s : State) : Host.Outcome State Fault Refusal := .next (aluImm 0x3 a t s)

/-- xori (R161). -/
def execXori (a : Fin 96) (t : Fin 64) (s : State) : Host.Outcome State Fault Refusal := .next (aluImm 0x4 a t s)

/-- shli (R161). -/
def execShli (a : Fin 96) (t : Fin 64) (s : State) : Host.Outcome State Fault Refusal := .next (aluImm 0x5 a t s)

/-- shri (R161). -/
def execShri (a : Fin 96) (t : Fin 64) (s : State) : Host.Outcome State Fault Refusal := .next (aluImm 0x6 a t s)

/-- sari (R161). -/
def execSari (a : Fin 96) (t : Fin 64) (s : State) : Host.Outcome State Fault Refusal := .next (aluImm 0x7 a t s)

/-- muli (R161). -/
def execMuli (a : Fin 96) (t : Fin 64) (s : State) : Host.Outcome State Fault Refusal := .next (aluImm 0x8 a t s)

/-- mulhi (R161). -/
def execMulhi (a : Fin 96) (t : Fin 64) (s : State) : Host.Outcome State Fault Refusal := .next (aluImm 0x9 a t s)

/-- mulhui (R161). -/
def execMulhui (a : Fin 96) (t : Fin 64) (s : State) : Host.Outcome State Fault Refusal := .next (aluImm 0xA a t s)

/-- mini (R161). -/
def execMini (a : Fin 96) (t : Fin 64) (s : State) : Host.Outcome State Fault Refusal := .next (aluImm 0xB a t s)

/-- maxi (R161). -/
def execMaxi (a : Fin 96) (t : Fin 64) (s : State) : Host.Outcome State Fault Refusal := .next (aluImm 0xC a t s)

/-- minui (R161). -/
def execMinui (a : Fin 96) (t : Fin 64) (s : State) : Host.Outcome State Fault Refusal := .next (aluImm 0xD a t s)

/-- maxui (R161). -/
def execMaxui (a : Fin 96) (t : Fin 64) (s : State) : Host.Outcome State Fault Refusal := .next (aluImm 0xE a t s)

/-- cmp.eq (R162). -/
def execCmpEq (a : Fin 96) (t : Fin 64) (s : State) : Host.Outcome State Fault Refusal := .next (cmpReg 0 a t s)

/-- cmp.ne (R162). -/
def execCmpNe (a : Fin 96) (t : Fin 64) (s : State) : Host.Outcome State Fault Refusal := .next (cmpReg 1 a t s)

/-- cmp.lt (R162). -/
def execCmpLt (a : Fin 96) (t : Fin 64) (s : State) : Host.Outcome State Fault Refusal := .next (cmpReg 2 a t s)

/-- cmp.ltu (R162). -/
def execCmpLtu (a : Fin 96) (t : Fin 64) (s : State) : Host.Outcome State Fault Refusal := .next (cmpReg 3 a t s)

/-- cmp.ge (R162). -/
def execCmpGe (a : Fin 96) (t : Fin 64) (s : State) : Host.Outcome State Fault Refusal := .next (cmpReg 4 a t s)

/-- cmp.geu (R162). -/
def execCmpGeu (a : Fin 96) (t : Fin 64) (s : State) : Host.Outcome State Fault Refusal := .next (cmpReg 5 a t s)

/-- cmpi.eq (R162). -/
def execCmpiEq (a : Fin 96) (t : Fin 64) (s : State) : Host.Outcome State Fault Refusal := .next (cmpImm 0 a t s)

/-- cmpi.ne (R162). -/
def execCmpiNe (a : Fin 96) (t : Fin 64) (s : State) : Host.Outcome State Fault Refusal := .next (cmpImm 1 a t s)

/-- cmpi.lt (R162). -/
def execCmpiLt (a : Fin 96) (t : Fin 64) (s : State) : Host.Outcome State Fault Refusal := .next (cmpImm 2 a t s)

/-- cmpi.ltu (R162). -/
def execCmpiLtu (a : Fin 96) (t : Fin 64) (s : State) : Host.Outcome State Fault Refusal := .next (cmpImm 3 a t s)

/-- cmpi.ge (R162). -/
def execCmpiGe (a : Fin 96) (t : Fin 64) (s : State) : Host.Outcome State Fault Refusal := .next (cmpImm 4 a t s)

/-- cmpi.geu (R162). -/
def execCmpiGeu (a : Fin 96) (t : Fin 64) (s : State) : Host.Outcome State Fault Refusal := .next (cmpImm 5 a t s)

/-- plog (R162). -/
def execPlog (a : Fin 96) (t : Fin 64) (s : State) : Host.Outcome State Fault Refusal :=
  .next (issue 0x2 0xE (fun w _ u =>
    let x := u.th a.val t.val
    writeP a.val t.val w (plogTest (iImm w) (predRead x.p (iRa w % 8)) (predRead x.p (iRb w % 8))) u) a.val t.val s)

/-- br (R163). -/
def execBr (a : Fin 96) (t : Fin 64) (s : State) : Host.Outcome State Fault Refusal :=
  .next (issue 0x3 0x0 (fun w _ u => goTo a.val t.val (brTarget (u.th a.val t.val) w) u) a.val t.val s)

/-- Is a branch target inside the program store (R163). -/
def inStore (pc : Int) : Bool := decide (0 ≤ pc) && decide (pc < psWords)

/-- A call: the return address is written when the target is in the store, else the thread halts at the branch (R163). -/
def callTo (a t w : Nat) (pc : Int) (s : State) : State :=
  let x := s.th a t
  goTo a t pc (if inStore pc then s.setTh a t (x.setS (iRd w) (retAddr x)) else s)

/-- call (R163). -/
def execCall (a : Fin 96) (t : Fin 64) (s : State) : Host.Outcome State Fault Refusal :=
  .next (issue 0x3 0x1 (fun w _ u => callTo a.val t.val w (brTarget (u.th a.val t.val) w) u) a.val t.val s)

/-- jr (R163). -/
def execJr (a : Fin 96) (t : Fin 64) (s : State) : Host.Outcome State Fault Refusal :=
  .next (issue 0x3 0x2 (fun w _ u => goTo a.val t.val (((u.th a.val t.val).sreg (iRa w)).toNat : Int) u) a.val t.val s)

/-- callr: sa is read before sd is written (R163). -/
def execCallr (a : Fin 96) (t : Fin 64) (s : State) : Host.Outcome State Fault Refusal :=
  .next (issue 0x3 0x3 (fun w _ u => callTo a.val t.val w (((u.th a.val t.val).sreg (iRa w)).toNat : Int) u) a.val t.val s)

/-- bnz.dec: sa counts down; the branch is taken while the new value is not 0 (R163). -/
def bnzDec (a t w : Nat) (s : State) : State :=
  let x := s.th a t
  let v := x.sreg (iRa w) - 1
  let s1 := s.setTh a t (x.setS (iRa w) v)
  if v = 0 then advance a t w s1
  else if inStore (brTarget x w) then goTo a t (brTarget x w) s1
  else goTo a t (brTarget x w) s

/-- bnz.dec (R163). -/
def execBnzDec (a : Fin 96) (t : Fin 64) (s : State) : Host.Outcome State Fault Refusal :=
  .next (issue 0x3 0x4 (fun w _ u => bnzDec a.val t.val w u) a.val t.val s)

/-- nop (R177). -/
def execNop (a : Fin 96) (t : Fin 64) (s : State) : Host.Outcome State Fault Refusal :=
  .next (issue 0x7 0x0 (fun w _ u => advance a.val t.val w u) a.val t.val s)

/-- sget (R155). -/
def execSget (a : Fin 96) (t : Fin 64) (s : State) : Host.Outcome State Fault Refusal :=
  .next (issue 0x7 0x1 (fun w _ u =>
    writeS a.val t.val w (BitVec.ofNat 64 (sgetVal a.val t.val (iImm w % 256) u)) u) a.val t.val s)

/-- trap (R177). -/
def execTrap (a : Fin 96) (t : Fin 64) (s : State) : Host.Outcome State Fault Refusal :=
  .next (issue 0x7 0x2 (fun w _ u =>
    haltThread a.val t.val { fail := { st := .programFault }, cause := 0x0A, trap := iImm w % 65536 } u) a.val t.val s)

/-- halt (R115, R177). -/
def execHalt (a : Fin 96) (t : Fin 64) (s : State) : Host.Outcome State Fault Refusal :=
  .next (issue 0x7 0x3 (fun _ _ u => toDrain a.val t.val u) a.val t.val s)

end Sys2Proof.Machine
end

