-- ==== Sys2Proof/Machine/Spdm.lean ====
section
/-! DEFINITION. Machine/Spdm.lean: the SPDM responder over the management port and PCIe DOE: identity, certificates and signed measurements (R496 to
R499). -/

namespace Sys2Proof.Machine

/-- Answer on a transport. [PRESUMED 153] -/
def spdmAnswer (tr : SpdmPort) (r : SpdmResp) (s : State) : State := s.emit (.spdm tr r)

/-- How far the negotiation of a transport has come. [PRESUMED 153] -/
def spdmStage (tr : SpdmPort) (s : State) : Nat :=
  match tr with
  | .mctp => s.sec.spdmMctp
  | .doe => s.sec.spdmDoe

/-- Set how far the negotiation of a transport has come; each transport keeps its own (R498). -/
def setStage (tr : SpdmPort) (n : Nat) (s : State) : State :=
  match tr with
  | .mctp => { s with sec := { s.sec with spdmMctp := n } }
  | .doe => { s with sec := { s.sec with spdmDoe := n } }

/-- Does a transport reach the responder: MCTP once the management port is ready, SAFE state included; DOE from configuration ready with the
link up (R429, R455, R498, R502). -/
def spdmOpen (tr : SpdmPort) (s : State) : Bool :=
  match tr with
  | .mctp => s.up.peat && s.up.mgmtReady
  | .doe => s.up.cfgReady && s.linkUp

/-- A request that needs a stage of negotiation, else ERROR UnexpectedRequest. [PRESUMED 153] -/
def spdmAt (n : Nat) (tr : SpdmPort) (k : State → State) (s : State) : State :=
  if !spdmOpen tr s then s
  else if spdmStage tr s < n then spdmAnswer tr (.error 0x04) s
  else k s

/-- GET_VERSION: SPDM 1.2; the negotiation begins again (R498). -/
def execGetVersion (tr : SpdmPort) (s : State) : Host.Outcome State Fault Refusal :=
  .next (spdmAt 0 tr (fun t => spdmAnswer tr (.version [0x12]) (setStage tr 1 t)) s)

/-- GET_CAPABILITIES (R498). -/
def execGetCapabilities (tr : SpdmPort) (s : State) : Host.Outcome State Fault Refusal :=
  .next (spdmAt 1 tr (fun t => spdmAnswer tr (.capabilities true true true true 16) (setStage tr 2 t)) s)

/-- NEGOTIATE_ALGORITHMS: of what the requester offers, what the responder supports (R498). -/
def execNegotiateAlgorithms (tr : SpdmPort) (sm2 sm3 measSm3 dmtf : Bool) (s : State) : Host.Outcome State Fault Refusal :=
  .next (spdmAt 2 tr (fun t =>
    spdmAnswer tr (.algorithms sm2 sm3 measSm3 dmtf) (setStage tr (if sm2 && sm3 then 3 else 2) t)) s)

/-- Measurement of the first stage from which the Alias pair follows (R496). [DEDUCED 156] -/
def aliasRoot (s : State) : BitVec 256 := s.sec.aliasFrom.1.measure 1

/-- The certificate chain of slot 0 (R497). -/
def chain (s : State) : List Byte := Config.certChain (aliasRoot s) s.sec.aliasFrom.2

/-- Digest of the chain of slot 0. -/
def chainDigest (s : State) : List Byte := digestBytes (Config.sm3 (chain s))

/-- GET_DIGESTS (R498). -/
def execGetDigests (tr : SpdmPort) (s : State) : Host.Outcome State Fault Refusal :=
  .next (spdmAt 3 tr (fun t => spdmAnswer tr (.digests (chainDigest t)) t) s)

/-- The part of the chain asked for, or ERROR InvalidRequest: the device offers slot 0 alone (R497). [PRESUMED 153] -/
def certPart (slot off len : Nat) (s : State) : SpdmResp :=
  if slot ≠ 0 ∨ (chain s).length ≤ off then .error 0x01
  else
    let part := ((chain s).drop off).take len
    .certificate part ((chain s).length - off - part.length)

/-- GET_CERTIFICATE (R497). -/
def execGetCertificate (tr : SpdmPort) (slot : Fin 8) (off len : W16) (s : State) : Host.Outcome State Fault Refusal :=
  .next (spdmAt 3 tr (fun t => spdmAnswer tr (certPart slot.val off.toNat len.toNat t) t) s)

/-- A signature by the Alias key (R496, R498). -/
def aliasSig (m : List Byte) (s : State) : List Byte := Config.aliasSign (aliasRoot s) m

/-- CHALLENGE: signed over the chain's digest and the requester's nonce of 32 bytes (R498). -/
def execChallenge (tr : SpdmPort) (slot : Fin 8) (nonce : List Byte) (s : State) : Host.Outcome State Fault Refusal :=
  .next (spdmAt 3 tr (fun t =>
    if slot.val ≠ 0 ∨ nonce.length ≠ 32 then spdmAnswer tr (.error 0x01) t
    else spdmAnswer tr (.challengeAuth (chainDigest t) nonce (aliasSig (chainDigest t ++ nonce) t)) t) s)

/-- The measurements a request names: one index, all with 0xFF, or with 0 the list of indices without values (R499). [PRESUMED 153] -/
def namedMeasurements (index : Nat) (s : State) : Option (List (Nat × List Byte)) :=
  let all := [1, 2, 3, 4, 5, 6, 7, 8]
  if index = 0 then some (all.map (fun i => (i, [])))
  else if index = 0xFF then some (all.map (fun i => (i, measurement i s)))
  else if index ≤ 8 then some [(index, measurement index s)]
  else none

/-- The bytes of a measurement list that the signature covers. [PRESUMED 153] -/
def measBytes (l : List (Nat × List Byte)) : List Byte := (l.map (fun e => leBytes 1 e.1 ++ e.2)).flatten

/-- GET_MEASUREMENTS: index 7 reflects the state at the moment of the request (R499). -/
def execGetMeasurements (tr : SpdmPort) (index : Byte) (sign : Bool) (nonce : List Byte) (s : State) : Host.Outcome State Fault Refusal :=
  .next (spdmAt 3 tr (fun t =>
    match namedMeasurements index.toNat t with
    | none => spdmAnswer tr (.error 0x01) t
    | some l =>
      if !sign then spdmAnswer tr (.measurements l [] []) t
      else if nonce.length ≠ 32 then spdmAnswer tr (.error 0x01) t
      else spdmAnswer tr (.measurements l nonce (aliasSig (measBytes l ++ nonce) t)) t) s)

end Sys2Proof.Machine
end

