-- ==== Sys2Proof/Machine/Dispatch.lean ====
section
/-! DEFINITION. Machine/Dispatch.lean: one arm per command; each arm is one call of the meaning of that command. -/

namespace Sys2Proof.Machine

/-- What a command does to the state, the queue of waiting commands apart. -/
def exec (i : Instr) (s : State) : Host.Outcome State Fault Refusal :=
  match i with
  | .registerWrite a whole poison => Sys2Proof.Machine.execRegisterWrite a whole poison s
  | .loHalfWrite a => Sys2Proof.Machine.execLoHalfWrite a s
  | .hiHalfWrite a => Sys2Proof.Machine.execHiHalfWrite a s
  | .loHalfRead port off => Sys2Proof.Machine.execLoHalfRead port off s
  | .rcRegisterRead port off => Sys2Proof.Machine.execRcRegisterRead port off s
  | .tbSetWrite port val rid => Sys2Proof.Machine.execTbSetWrite port val rid s
  | .timeBaseJump => Sys2Proof.Machine.execTimeBaseJump s
  | .fclassDataWrite port val rid => Sys2Proof.Machine.execFclassDataWrite port val rid s
  | .fclassConversionDone frame => Sys2Proof.Machine.execFclassConversionDone frame s
  | .mmuInvGo port val rid => Sys2Proof.Machine.execMmuInvGo port val rid s
  | .mmuInvalidationDone => Sys2Proof.Machine.execMmuInvalidationDone s
  | .tableWalk va need rid => Sys2Proof.Machine.execTableWalk va need rid s
  | .hbmAccess pc arrive pick ev => Sys2Proof.Machine.execHbmAccess pc arrive pick ev s
  | .interfaceRetry pc fails => Sys2Proof.Machine.execInterfaceRetry pc fails s
  | .scrubRead tier2 ev => Sys2Proof.Machine.execScrubRead tier2 ev s
  | .thermalPoll temps => Sys2Proof.Machine.execThermalPoll temps s
  | .tier2Access q ev => Sys2Proof.Machine.execTier2Access q ev s
  | .selfRefreshEntry pkg => Sys2Proof.Machine.execSelfRefreshEntry pkg s
  | .selfRefreshExit pkg => Sys2Proof.Machine.execSelfRefreshExit pkg s
  | .tier2FillDone => Sys2Proof.Machine.execTier2FillDone s
  | .sramAccess q ev => Sys2Proof.Machine.execSramAccess q ev s
  | .poolAccess bank arrive ev => Sys2Proof.Machine.execPoolAccess bank arrive ev s
  | .poolAtomic bank arrive ev => Sys2Proof.Machine.execPoolAtomic bank arrive ev s
  | .poolVectorReduction bank arrive ev => Sys2Proof.Machine.execPoolVectorReduction bank arrive ev s
  | .ckpArm port val rid => Sys2Proof.Machine.execCkpArm port val rid s
  | .ckpStart port val rid => Sys2Proof.Machine.execCkpStart port val rid s
  | .checkpointFrameCopy => Sys2Proof.Machine.execCheckpointFrameCopy s
  | .weightRowEntry a part => Sys2Proof.Machine.execWeightRowEntry a part s
  | .outputRowWrite a part flt => Sys2Proof.Machine.execOutputRowWrite a part flt s
  | .rowCheck a part bad => Sys2Proof.Machine.execRowCheck a part bad s
  | .columnCheck a part bad => Sys2Proof.Machine.execColumnCheck a part bad s
  | .recomputeDone a part again => Sys2Proof.Machine.execRecomputeDone a part again s
  | .streamBegin a part => Sys2Proof.Machine.execStreamBegin a part s
  | .tileLoadBegin a part => Sys2Proof.Machine.execTileLoadBegin a part s
  | .tileLoadDone a part buf => Sys2Proof.Machine.execTileLoadDone a part buf s
  | .partModeChange a => Sys2Proof.Machine.execPartModeChange a s
  | .injectElem port val rid => Sys2Proof.Machine.execInjectElem port val rid s
  | .injectCkcol port val rid => Sys2Proof.Machine.execInjectCkcol port val rid s
  | .arrayFence phys => Sys2Proof.Machine.execArrayFence phys s
  | .arrayRemap phys => Sys2Proof.Machine.execArrayRemap phys s
  | .spareInRun phys => Sys2Proof.Machine.execSpareInRun phys s
  | .expanderFetch a part => Sys2Proof.Machine.execExpanderFetch a part s
  | .blockDecode a lane => Sys2Proof.Machine.execBlockDecode a lane s
  | .tableBindDone item => Sys2Proof.Machine.execTableBindDone item s
  | .expFlush port val rid => Sys2Proof.Machine.execExpFlush port val rid s
  | .add a t => Sys2Proof.Machine.execAdd a t s
  | .sub a t => Sys2Proof.Machine.execSub a t s
  | .andR a t => Sys2Proof.Machine.execAndR a t s
  | .orR a t => Sys2Proof.Machine.execOrR a t s
  | .xorR a t => Sys2Proof.Machine.execXorR a t s
  | .shl a t => Sys2Proof.Machine.execShl a t s
  | .shr a t => Sys2Proof.Machine.execShr a t s
  | .sar a t => Sys2Proof.Machine.execSar a t s
  | .mul a t => Sys2Proof.Machine.execMul a t s
  | .mulh a t => Sys2Proof.Machine.execMulh a t s
  | .mulhu a t => Sys2Proof.Machine.execMulhu a t s
  | .minR a t => Sys2Proof.Machine.execMinR a t s
  | .maxR a t => Sys2Proof.Machine.execMaxR a t s
  | .minu a t => Sys2Proof.Machine.execMinu a t s
  | .maxu a t => Sys2Proof.Machine.execMaxu a t s
  | .addi a t => Sys2Proof.Machine.execAddi a t s
  | .subi a t => Sys2Proof.Machine.execSubi a t s
  | .andi a t => Sys2Proof.Machine.execAndi a t s
  | .ori a t => Sys2Proof.Machine.execOri a t s
  | .xori a t => Sys2Proof.Machine.execXori a t s
  | .shli a t => Sys2Proof.Machine.execShli a t s
  | .shri a t => Sys2Proof.Machine.execShri a t s
  | .sari a t => Sys2Proof.Machine.execSari a t s
  | .muli a t => Sys2Proof.Machine.execMuli a t s
  | .mulhi a t => Sys2Proof.Machine.execMulhi a t s
  | .mulhui a t => Sys2Proof.Machine.execMulhui a t s
  | .mini a t => Sys2Proof.Machine.execMini a t s
  | .maxi a t => Sys2Proof.Machine.execMaxi a t s
  | .minui a t => Sys2Proof.Machine.execMinui a t s
  | .maxui a t => Sys2Proof.Machine.execMaxui a t s
  | .cmpEq a t => Sys2Proof.Machine.execCmpEq a t s
  | .cmpNe a t => Sys2Proof.Machine.execCmpNe a t s
  | .cmpLt a t => Sys2Proof.Machine.execCmpLt a t s
  | .cmpLtu a t => Sys2Proof.Machine.execCmpLtu a t s
  | .cmpGe a t => Sys2Proof.Machine.execCmpGe a t s
  | .cmpGeu a t => Sys2Proof.Machine.execCmpGeu a t s
  | .cmpiEq a t => Sys2Proof.Machine.execCmpiEq a t s
  | .cmpiNe a t => Sys2Proof.Machine.execCmpiNe a t s
  | .cmpiLt a t => Sys2Proof.Machine.execCmpiLt a t s
  | .cmpiLtu a t => Sys2Proof.Machine.execCmpiLtu a t s
  | .cmpiGe a t => Sys2Proof.Machine.execCmpiGe a t s
  | .cmpiGeu a t => Sys2Proof.Machine.execCmpiGeu a t s
  | .plog a t => Sys2Proof.Machine.execPlog a t s
  | .br a t => Sys2Proof.Machine.execBr a t s
  | .call a t => Sys2Proof.Machine.execCall a t s
  | .jr a t => Sys2Proof.Machine.execJr a t s
  | .callr a t => Sys2Proof.Machine.execCallr a t s
  | .bnzDec a t => Sys2Proof.Machine.execBnzDec a t s
  | .ldB a t => Sys2Proof.Machine.execLdB a t s
  | .ldH a t => Sys2Proof.Machine.execLdH a t s
  | .ldW a t => Sys2Proof.Machine.execLdW a t s
  | .ldD a t => Sys2Proof.Machine.execLdD a t s
  | .ldBs a t => Sys2Proof.Machine.execLdBs a t s
  | .ldHs a t => Sys2Proof.Machine.execLdHs a t s
  | .ldWs a t => Sys2Proof.Machine.execLdWs a t s
  | .stB a t => Sys2Proof.Machine.execStB a t s
  | .stH a t => Sys2Proof.Machine.execStH a t s
  | .stW a t => Sys2Proof.Machine.execStW a t s
  | .stD a t => Sys2Proof.Machine.execStD a t s
  | .ldDesc a t => Sys2Proof.Machine.execLdDesc a t s
  | .stDesc a t => Sys2Proof.Machine.execStDesc a t s
  | .dsetBase a t => Sys2Proof.Machine.execDsetBase a t s
  | .daddBase a t => Sys2Proof.Machine.execDaddBase a t s
  | .loadDataReturn a t ev => Sys2Proof.Machine.execLoadDataReturn a t ev s
  | .atomAddF32 a t => Sys2Proof.Machine.execAtomAddF32 a t s
  | .atomAddBf16 a t => Sys2Proof.Machine.execAtomAddBf16 a t s
  | .atomAddI32 a t => Sys2Proof.Machine.execAtomAddI32 a t s
  | .atomMaxF32 a t => Sys2Proof.Machine.execAtomMaxF32 a t s
  | .atomMaxBf16 a t => Sys2Proof.Machine.execAtomMaxBf16 a t s
  | .atomMaxI32 a t => Sys2Proof.Machine.execAtomMaxI32 a t s
  | .atomMinF32 a t => Sys2Proof.Machine.execAtomMinF32 a t s
  | .atomMinBf16 a t => Sys2Proof.Machine.execAtomMinBf16 a t s
  | .atomMinI32 a t => Sys2Proof.Machine.execAtomMinI32 a t s
  | .atomSwapW a t => Sys2Proof.Machine.execAtomSwapW a t s
  | .atomSwapD a t => Sys2Proof.Machine.execAtomSwapD a t s
  | .atomCasD a t => Sys2Proof.Machine.execAtomCasD a t s
  | .red a t => Sys2Proof.Machine.execRed a t s
  | .syncWait a t => Sys2Proof.Machine.execSyncWait a t s
  | .syncTest a t => Sys2Proof.Machine.execSyncTest a t s
  | .syncWaitall a t => Sys2Proof.Machine.execSyncWaitall a t s
  | .syncFence a t => Sys2Proof.Machine.execSyncFence a t s
  | .syncBar a t => Sys2Proof.Machine.execSyncBar a t s
  | .syncSemP a t => Sys2Proof.Machine.execSyncSemP a t s
  | .semRetry a t => Sys2Proof.Machine.execSemRetry a t s
  | .syncSemV a t => Sys2Proof.Machine.execSyncSemV a t s
  | .sget a t => Sys2Proof.Machine.execSget a t s
  | .trap a t => Sys2Proof.Machine.execTrap a t s
  | .halt a t => Sys2Proof.Machine.execHalt a t s
  | .nop a t => Sys2Proof.Machine.execNop a t s
  | .illegalInstruction a t => Sys2Proof.Machine.execIllegalInstruction a t s
  | .asyncOpComplete a t unit => Sys2Proof.Machine.execAsyncOpComplete a t unit s
  | .itemThreadsHalt item => Sys2Proof.Machine.execItemThreadsHalt item s
  | .waitLimitExpiry a t => Sys2Proof.Machine.execWaitLimitExpiry a t s
  | .runLimitExpiry a t => Sys2Proof.Machine.execRunLimitExpiry a t s
  | .dmaCopy a t => Sys2Proof.Machine.execDmaCopy a t s
  | .dmaGather a t => Sys2Proof.Machine.execDmaGather a t s
  | .dmaScatter a t => Sys2Proof.Machine.execDmaScatter a t s
  | .dmaFill a t => Sys2Proof.Machine.execDmaFill a t s
  | .dmaProg a t => Sys2Proof.Machine.execDmaProg a t s
  | .dmaTransferStart a => Sys2Proof.Machine.execDmaTransferStart a s
  | .mxmLoad a t => Sys2Proof.Machine.execMxmLoad a t s
  | .mxmStream a t => Sys2Proof.Machine.execMxmStream a t s
  | .mxmPart a t => Sys2Proof.Machine.execMxmPart a t s
  | .mvLoad a t => Sys2Proof.Machine.execMvLoad a t s
  | .mvStream a t => Sys2Proof.Machine.execMvStream a t s
  | .vecAlu a t => Sys2Proof.Machine.execVecAlu a t s
  | .vecMath a t => Sys2Proof.Machine.execVecMath a t s
  | .vecAct a t => Sys2Proof.Machine.execVecAct a t s
  | .vecDactOut a t => Sys2Proof.Machine.execVecDactOut a t s
  | .vecDactIn a t => Sys2Proof.Machine.execVecDactIn a t s
  | .vecRed a t => Sys2Proof.Machine.execVecRed a t s
  | .rowNorm a t => Sys2Proof.Machine.execRowNorm a t s
  | .rowDnorm a t => Sys2Proof.Machine.execRowDnorm a t s
  | .rowSoftmax a t => Sys2Proof.Machine.execRowSoftmax a t s
  | .rowDsoftmax a t => Sys2Proof.Machine.execRowDsoftmax a t s
  | .rowTopk a t => Sys2Proof.Machine.execRowTopk a t s
  | .rowTag a t => Sys2Proof.Machine.execRowTag a t s
  | .rowTreset a t => Sys2Proof.Machine.execRowTreset a t s
  | .rowSpill a t => Sys2Proof.Machine.execRowSpill a t s
  | .collPlan a t => Sys2Proof.Machine.execCollPlan a t s
  | .collSlot a t => Sys2Proof.Machine.execCollSlot a t s
  | .collDone a t => Sys2Proof.Machine.execCollDone a t s
  | .medSubmit a t => Sys2Proof.Machine.execMedSubmit a t s
  | .medRelease a t => Sys2Proof.Machine.execMedRelease a t s
  | .medAdvance a t => Sys2Proof.Machine.execMedAdvance a t s
  | .intakeFrameReceive port frame => Sys2Proof.Machine.execIntakeFrameReceive port frame s
  | .xoffRepeat port => Sys2Proof.Machine.execXoffRepeat port s
  | .sluiceDrain port => Sys2Proof.Machine.execSluiceDrain port s
  | .sampleRecordVisible port stream => Sys2Proof.Machine.execSampleRecordVisible port stream s
  | .intakeLinkUp port => Sys2Proof.Machine.execIntakeLinkUp port s
  | .intakeLinkDown port => Sys2Proof.Machine.execIntakeLinkDown port s
  | .intakeEnable port val rid => Sys2Proof.Machine.execIntakeEnable port val rid s
  | .intakeDisable port val rid => Sys2Proof.Machine.execIntakeDisable port val rid s
  | .itkRdPtrWrite port val rid => Sys2Proof.Machine.execItkRdPtrWrite port val rid s
  | .contextEnable port val rid => Sys2Proof.Machine.execContextEnable port val rid s
  | .contextDisable port val rid => Sys2Proof.Machine.execContextDisable port val rid s
  | .inWrPtrWrite port val rid => Sys2Proof.Machine.execInWrPtrWrite port val rid s
  | .outRdPtrWrite port val rid => Sys2Proof.Machine.execOutRdPtrWrite port val rid s
  | .sampleAdmit ctx => Sys2Proof.Machine.execSampleAdmit ctx s
  | .decodeStart eng => Sys2Proof.Machine.execDecodeStart eng s
  | .sampleHeaderRead core head => Sys2Proof.Machine.execSampleHeaderRead core head s
  | .areaReserve core => Sys2Proof.Machine.execAreaReserve core s
  | .frameBufferAcquire core refs => Sys2Proof.Machine.execFrameBufferAcquire core refs s
  | .sourceReadDone core => Sys2Proof.Machine.execSourceReadDone core s
  | .decodeDone core d => Sys2Proof.Machine.execDecodeDone core d s
  | .outputRecordVisible ctx => Sys2Proof.Machine.execOutputRecordVisible ctx s
  | .medFbRelease port val rid => Sys2Proof.Machine.execMedFbRelease port val rid s
  | .tokLoad port set val rid => Sys2Proof.Machine.execTokLoad port set val rid s
  | .tokLoadDone set => Sys2Proof.Machine.execTokLoadDone set s
  | .positionAssign stream => Sys2Proof.Machine.execPositionAssign stream s
  | .sampleComposeDone stream bucket => Sys2Proof.Machine.execSampleComposeDone stream bucket s
  | .batchOffer stream => Sys2Proof.Machine.execBatchOffer stream s
  | .flushWindowEnd stream bucket => Sys2Proof.Machine.execFlushWindowEnd stream bucket s
  | .flush port val rid => Sys2Proof.Machine.execFlush port val rid s
  | .streamEnable port val rid => Sys2Proof.Machine.execStreamEnable port val rid s
  | .streamDisable port val rid => Sys2Proof.Machine.execStreamDisable port val rid s
  | .batRelease port val rid => Sys2Proof.Machine.execBatRelease port val rid s
  | .flitReceive p f => Sys2Proof.Machine.execFlitReceive p f s
  | .nakRepeat p => Sys2Proof.Machine.execNakRepeat p s
  | .flitTransmit p => Sys2Proof.Machine.execFlitTransmit p s
  | .laneFailure p tx ev => Sys2Proof.Machine.execLaneFailure p tx ev s
  | .laneDrop p => Sys2Proof.Machine.execLaneDrop p s
  | .portDegraded p => Sys2Proof.Machine.execPortDegraded p s
  | .linkSilenceTimeout p => Sys2Proof.Machine.execLinkSilenceTimeout p s
  | .portEnable port val rid => Sys2Proof.Machine.execPortEnable port val rid s
  | .portTrained p peerModule peerPort creds rtt => Sys2Proof.Machine.execPortTrained p peerModule peerPort creds rtt s
  | .portDisable port val rid => Sys2Proof.Machine.execPortDisable port val rid s
  | .portOff p => Sys2Proof.Machine.execPortOff p s
  | .windowEnable port val rid => Sys2Proof.Machine.execWindowEnable port val rid s
  | .planStart => Sys2Proof.Machine.execPlanStart s
  | .planStepStart slot => Sys2Proof.Machine.execPlanStepStart slot s
  | .chunkArrive p => Sys2Proof.Machine.execChunkArrive p s
  | .planStepComplete slot => Sys2Proof.Machine.execPlanStepComplete slot s
  | .fetchRequestReceive p => Sys2Proof.Machine.execFetchRequestReceive p s
  | .fetchReplyArrive p => Sys2Proof.Machine.execFetchReplyArrive p s
  | .fetchFailReceive p => Sys2Proof.Machine.execFetchFailReceive p s
  | .releaseReceive p => Sys2Proof.Machine.execReleaseReceive p s
  | .slowReceive p => Sys2Proof.Machine.execSlowReceive p s
  | .slowSend => Sys2Proof.Machine.execSlowSend s
  | .peerTimeoutExpiry slot step => Sys2Proof.Machine.execPeerTimeoutExpiry slot step s
  | .abortReceive p => Sys2Proof.Machine.execAbortReceive p s
  | .lodeUpdateStart => Sys2Proof.Machine.execLodeUpdateStart s
  | .lodeUpdateWritten => Sys2Proof.Machine.execLodeUpdateWritten s
  | .verWrite port val rid => Sys2Proof.Machine.execVerWrite port val rid s
  | .nopEntry q => Sys2Proof.Machine.execNopEntry q s
  | .workEntry q => Sys2Proof.Machine.execWorkEntry q s
  | .copyEntry q => Sys2Proof.Machine.execCopyEntry q s
  | .copyComplete q data good => Sys2Proof.Machine.execCopyComplete q data good s
  | .barrierEntry q => Sys2Proof.Machine.execBarrierEntry q s
  | .submissionTake entry => Sys2Proof.Machine.execSubmissionTake entry s
  | .itemStart item => Sys2Proof.Machine.execItemStart item s
  | .imageLoadDone item => Sys2Proof.Machine.execImageLoadDone item s
  | .workItemComplete item => Sys2Proof.Machine.execWorkItemComplete item s
  | .replayStart item => Sys2Proof.Machine.execReplayStart item s
  | .stepBoundary => Sys2Proof.Machine.execStepBoundary s
  | .measurementWindowEnd => Sys2Proof.Machine.execMeasurementWindowEnd s
  | .dispatcherEnable port val rid => Sys2Proof.Machine.execDispatcherEnable port val rid s
  | .dispatcherDisable port val rid => Sys2Proof.Machine.execDispatcherDisable port val rid s
  | .arrayIdleEntry phys => Sys2Proof.Machine.execArrayIdleEntry phys s
  | .arrayRetEntry phys => Sys2Proof.Machine.execArrayRetEntry phys s
  | .aclkPllStop => Sys2Proof.Machine.execAclkPllStop s
  | .arrayWakeDone phys => Sys2Proof.Machine.execArrayWakeDone phys s
  | .pwrOff port val rid => Sys2Proof.Machine.execPwrOff port val rid s
  | .pwrOn port val rid => Sys2Proof.Machine.execPwrOn port val rid s
  | .powerControlPeriod watts => Sys2Proof.Machine.execPowerControlPeriod watts s
  | .aclkChange => Sys2Proof.Machine.execAclkChange s
  | .pwrLimitWrite port field val rid => Sys2Proof.Machine.execPwrLimitWrite port field val rid s
  | .unitClockStop unit => Sys2Proof.Machine.execUnitClockStop unit s
  | .mclkPllStop => Sys2Proof.Machine.execMclkPllStop s
  | .pllLock d => Sys2Proof.Machine.execPllLock d s
  | .clkStartTimeout d => Sys2Proof.Machine.execClkStartTimeout d s
  | .refclkLoss cwy => Sys2Proof.Machine.execRefclkLoss cwy s
  | .bar2Read off len => Sys2Proof.Machine.execBar2Read off len s
  | .bar2Write off data poison => Sys2Proof.Machine.execBar2Write off data poison s
  | .sqTailDoorbell q val whole poison => Sys2Proof.Machine.execSqTailDoorbell q val whole poison s
  | .cqHeadDoorbell q val whole poison => Sys2Proof.Machine.execCqHeadDoorbell q val whole poison s
  | .sqEnable val rid => Sys2Proof.Machine.execSqEnable val rid s
  | .sqDisable val rid => Sys2Proof.Machine.execSqDisable val rid s
  | .cqEnable val rid => Sys2Proof.Machine.execCqEnable val rid s
  | .cqDisable val rid => Sys2Proof.Machine.execCqDisable val rid s
  | .completionWrite q good => Sys2Proof.Machine.execCompletionWrite q good s
  | .coalesceWindowEnd q => Sys2Proof.Machine.execCoalesceWindowEnd q s
  | .evtMaskWrite val rid => Sys2Proof.Machine.execEvtMaskWrite val rid s
  | .busMasterEnableChange on => Sys2Proof.Machine.execBusMasterEnableChange on s
  | .d3hotEntry => Sys2Proof.Machine.execD3hotEntry s
  | .d0Return => Sys2Proof.Machine.execD0Return s
  | .configRequest off => Sys2Proof.Machine.execConfigRequest off s
  | .pcieLinkUp rate width flit => Sys2Proof.Machine.execPcieLinkUp rate width flit s
  | .hstResetWarm val rid chk => Sys2Proof.Machine.execHstResetWarm val rid chk s
  | .pwrEnAssert temps => Sys2Proof.Machine.execPwrEnAssert temps s
  | .pwrEnDeassert => Sys2Proof.Machine.execPwrEnDeassert s
  | .inputApply mv held => Sys2Proof.Machine.execInputApply mv held s
  | .inputGood => Sys2Proof.Machine.execInputGood s
  | .inputLoss => Sys2Proof.Machine.execInputLoss s
  | .overvoltageTrip => Sys2Proof.Machine.execOvervoltageTrip s
  | .overcurrentTrip => Sys2Proof.Machine.execOvercurrentTrip s
  | .reversePolarity => Sys2Proof.Machine.execReversePolarity s
  | .refclkAoTrip => Sys2Proof.Machine.execRefclkAoTrip s
  | .thermalTrip sensor temp => Sys2Proof.Machine.execThermalTrip sensor temp s
  | .powerDownRestart => Sys2Proof.Machine.execPowerDownRestart s
  | .perstAssert chk => Sys2Proof.Machine.execPerstAssert chk s
  | .perstDeassert => Sys2Proof.Machine.execPerstDeassert s
  | .peatDomainUp strap => Sys2Proof.Machine.execPeatDomainUp strap s
  | .fuseLoadDone good => Sys2Proof.Machine.execFuseLoadDone good s
  | .firstStageVerified => Sys2Proof.Machine.execFirstStageVerified s
  | .managementPortReady => Sys2Proof.Machine.execManagementPortReady s
  | .configurationReady pkgs ports => Sys2Proof.Machine.execConfigurationReady pkgs ports s
  | .hbmTrainingDone temps failed dead => Sys2Proof.Machine.execHbmTrainingDone temps failed dead s
  | .memoryTestDone failed => Sys2Proof.Machine.execMemoryTestDone failed s
  | .hbmZeroFillDone lost => Sys2Proof.Machine.execHbmZeroFillDone lost s
  | .startTimeout => Sys2Proof.Machine.execStartTimeout s
  | .startRetry => Sys2Proof.Machine.execStartRetry s
  | .fabricPacketResend => Sys2Proof.Machine.execFabricPacketResend s
  | .internalParityError unit => Sys2Proof.Machine.execInternalParityError unit s
  | .fltHeadSeqWrite val rid => Sys2Proof.Machine.execFltHeadSeqWrite val rid s
  | .jrnRdWrite val rid ev => Sys2Proof.Machine.execJrnRdWrite val rid ev s
  | .spillEnable val rid => Sys2Proof.Machine.execSpillEnable val rid s
  | .jrnSpillRdWrite val rid => Sys2Proof.Machine.execJrnSpillRdWrite val rid s
  | .journalSpillWrite good => Sys2Proof.Machine.execJournalSpillWrite good s
  | .getInfo => Sys2Proof.Machine.execGetInfo s
  | .telemetry => Sys2Proof.Machine.execTelemetry s
  | .setPower limit aclk eid => Sys2Proof.Machine.execSetPower limit aclk eid s
  | .resetCmd cold chk => Sys2Proof.Machine.execResetCmd cold chk s
  | .bootOptions opts eid => Sys2Proof.Machine.execBootOptions opts eid s
  | .fwBegin ty => Sys2Proof.Machine.execFwBegin ty s
  | .fwData off data => Sys2Proof.Machine.execFwData off data s
  | .fwCommit eid => Sys2Proof.Machine.execFwCommit eid s
  | .fwCommitDone => Sys2Proof.Machine.execFwCommitDone s
  | .flashRepairDone => Sys2Proof.Machine.execFlashRepairDone s
  | .svnCommit ty v eid => Sys2Proof.Machine.execSvnCommit ty v eid s
  | .keyRevoke slot eid => Sys2Proof.Machine.execKeyRevoke slot eid s
  | .faultRead fseq count bad => Sys2Proof.Machine.execFaultRead fseq count bad s
  | .faultAck => Sys2Proof.Machine.execFaultAck s
  | .journalRead seq count bad => Sys2Proof.Machine.execJournalRead seq count bad s
  | .lockCmd set clear eid => Sys2Proof.Machine.execLockCmd set clear eid s
  | .regRead off => Sys2Proof.Machine.execRegRead off s
  | .regWrite off val eid => Sys2Proof.Machine.execRegWrite off val eid s
  | .debugChallenge => Sys2Proof.Machine.execDebugChallenge s
  | .debugUnlock token => Sys2Proof.Machine.execDebugUnlock token s
  | .debugLock => Sys2Proof.Machine.execDebugLock s
  | .getVersion tr => Sys2Proof.Machine.execGetVersion tr s
  | .getCapabilities tr => Sys2Proof.Machine.execGetCapabilities tr s
  | .negotiateAlgorithms tr sm2 sm3 measSm3 dmtf => Sys2Proof.Machine.execNegotiateAlgorithms tr sm2 sm3 measSm3 dmtf s
  | .getDigests tr => Sys2Proof.Machine.execGetDigests tr s
  | .getCertificate tr slot off len => Sys2Proof.Machine.execGetCertificate tr slot off len s
  | .challenge tr slot nonce => Sys2Proof.Machine.execChallenge tr slot nonce s
  | .getMeasurements tr index sign nonce => Sys2Proof.Machine.execGetMeasurements tr index sign nonce s
  | .refclkReturn cwy => Sys2Proof.Machine.execRefclkReturn cwy s
  | .msixUnmask vec => Sys2Proof.Machine.execMsixUnmask vec s
  | .jtagAccess ins => Sys2Proof.Machine.execJtagAccess ins s

end Sys2Proof.Machine
end

