-- ==== Sys2Proof/Machine/Step.lean ====
section
/-! DEFINITION. Machine/Step.lean: one step of the block: the oldest waiting command, or one tick of the time base when none waits. -/

namespace Sys2Proof.Machine

/-- Take the command at the front of the queue and run it with the rest waiting; with nothing waiting, 40 ns pass (DESIGN CHOICE 2). [DESIGN CHOICE 2] -/
def step (s : State) : Host.Outcome State Fault Refusal :=
  match s.pending with
  | c :: rest => exec c { s with pending := rest }
  | [] => .next (tick s)

/-- Put the command that a table word spells at the front of the queue. [DESIGN CHOICE 1] -/
def State.withFetchWord (s : State) (nbits w : Nat) : State :=
  match decodeTableWord nbits w with
  | some c => { s with pending := c :: s.pending }
  | none => s

end Sys2Proof.Machine
end

