-- ==== Sys2Proof/WellFormed.lean ====
section
/-! DEFINITION. WellFormed.lean: which operands a command may carry: what its sender can put on the wire or the pin it stands for. -/

namespace Sys2Proof

/-- A register stands at a multiple of 4 inside the 64 MiB of BAR0 (R8, R435). -/
def regOffset (off : Nat) : Bool := decide (off % 4 = 0) && decide (off < 67108864)

/-- A register access names a register place and a 16-bit requester (R482). -/
def RegAcc.wf (a : RegAcc) : Bool := regOffset a.off && decide (a.rid < 65536)

/-- A memory request is inside the 48-bit physical space, moves at least one byte, and a write brings as many bytes as it says (R27). -/
def MemReq.wf (q : MemReq) : Bool :=
  decide (q.rid < 65536) && decide (1 ≤ q.len) && decide (q.pa + q.len ≤ 281474976710656) &&
    (match q.wdata with
      | none => true
      | some d => decide (d.length = q.len))

/-- A request at a Pool bank names 48-bit addresses, and a vector reduction brings 256 bytes (R90). -/
def PoolReq.wf (q : PoolReq) : Bool :=
  decide (q.rid < 65536) && decide (q.va < 281474976710656) && decide (q.pa < 281474976710656) &&
    (match q.op with
      | .redAdd _ d => decide (d.length = 256)
      | .redMax _ d => decide (d.length = 256)
      | .redMin _ d => decide (d.length = 256)
      | .redPair d => decide (d.length = 256)
      | .read _ => true
      | .write _ => true
      | .add _ _ => true
      | .max _ _ => true
      | .min _ _ => true
      | .swap _ _ => true
      | .cas _ _ => true
      | .semP => true
      | .semV => true)

/-- A flit is 256 bytes (R338). -/
def FlitIn.wf : FlitIn → Bool
  | .flit raw => decide (raw.length = 256)
  | .fecLost => true
  | .peerDown => true

/-- The operands of a command that its sender can give. -/
def Instr.wf : Instr → Bool
  | .registerWrite a _ _ => RegAcc.wf a
  | .loHalfWrite a => RegAcc.wf a
  | .hiHalfWrite a => RegAcc.wf a
  | .loHalfRead _ off => regOffset off
  | .rcRegisterRead _ off => regOffset off
  | .hbmAccess _ arrive _ _ => arrive.all (fun q => MemReq.wf q && decide (q.len ≤ 256))
  | .thermalPoll temps => decide (temps.length = 32) && temps.all (fun c => decide (c < 256))
  | .tier2Access q _ => MemReq.wf q
  | .sramAccess q _ => MemReq.wf q
  | .poolAccess _ arrive _ => arrive.all PoolReq.wf
  | .poolAtomic _ arrive _ => arrive.all PoolReq.wf
  | .poolVectorReduction _ arrive _ => arrive.all PoolReq.wf
  | .flitReceive _ f => FlitIn.wf f
  | .portTrained _ _ _ creds _ => decide (creds.length = 4)
  | .copyComplete _ data _ => decide (data.length < 4294967296)
  | .submissionTake entry => match entry with | none => true | some b => decide (b.length = 128)
  | .powerControlPeriod watts => decide (watts < 4096)
  | .bar2Read _ len => decide (1 ≤ len.val)
  | .bar2Write _ data _ => decide (1 ≤ data.length) && decide (data.length ≤ 4096)
  | .pwrEnAssert temps => temps.all (fun e => decide (e.2 < 256))
  | .thermalTrip _ temp => decide (temp < 256)
  | .hbmTrainingDone temps _ _ => decide (temps.length = 32) && temps.all (fun c => decide (c < 256))
  | .fwData _ data => decide (1 ≤ data.length) && decide (data.length ≤ 1024)
  | .challenge _ _ nonce => decide (nonce.length = 32)
  | .getMeasurements _ _ sign nonce => !sign || decide (nonce.length = 32)
  | .jtagAccess ins => match ins with | .regRead off => regOffset off | .idcode => true | .bypass => true | .boundary => true | .full => true
  | .tbSetWrite .. | .timeBaseJump .. | .fclassDataWrite .. | .fclassConversionDone .. | .mmuInvGo .. | .mmuInvalidationDone ..
  | .tableWalk .. | .interfaceRetry .. | .scrubRead .. | .selfRefreshEntry .. | .selfRefreshExit .. | .tier2FillDone ..
  | .ckpArm .. | .ckpStart .. | .checkpointFrameCopy .. | .weightRowEntry .. | .outputRowWrite .. | .rowCheck ..
  | .columnCheck .. | .recomputeDone .. | .streamBegin .. | .tileLoadBegin .. | .tileLoadDone .. | .partModeChange ..
  | .injectElem .. | .injectCkcol .. | .arrayFence .. | .arrayRemap .. | .spareInRun .. | .expanderFetch ..
  | .blockDecode .. | .tableBindDone .. | .expFlush .. | .add .. | .sub .. | .andR ..
  | .orR .. | .xorR .. | .shl .. | .shr .. | .sar .. | .mul ..
  | .mulh .. | .mulhu .. | .minR .. | .maxR .. | .minu .. | .maxu ..
  | .addi .. | .subi .. | .andi .. | .ori .. | .xori .. | .shli ..
  | .shri .. | .sari .. | .muli .. | .mulhi .. | .mulhui .. | .mini ..
  | .maxi .. | .minui .. | .maxui .. | .cmpEq .. | .cmpNe .. | .cmpLt ..
  | .cmpLtu .. | .cmpGe .. | .cmpGeu .. | .cmpiEq .. | .cmpiNe .. | .cmpiLt ..
  | .cmpiLtu .. | .cmpiGe .. | .cmpiGeu .. | .plog .. | .br .. | .call ..
  | .jr .. | .callr .. | .bnzDec .. | .ldB .. | .ldH .. | .ldW ..
  | .ldD .. | .ldBs .. | .ldHs .. | .ldWs .. | .stB .. | .stH ..
  | .stW .. | .stD .. | .ldDesc .. | .stDesc .. | .dsetBase .. | .daddBase ..
  | .loadDataReturn .. | .atomAddF32 .. | .atomAddBf16 .. | .atomAddI32 .. | .atomMaxF32 .. | .atomMaxBf16 ..
  | .atomMaxI32 .. | .atomMinF32 .. | .atomMinBf16 .. | .atomMinI32 .. | .atomSwapW .. | .atomSwapD ..
  | .atomCasD .. | .red .. | .syncWait .. | .syncTest .. | .syncWaitall .. | .syncFence ..
  | .syncBar .. | .syncSemP .. | .semRetry .. | .syncSemV .. | .sget .. | .trap ..
  | .halt .. | .nop .. | .illegalInstruction .. | .asyncOpComplete .. | .itemThreadsHalt .. | .waitLimitExpiry ..
  | .runLimitExpiry .. | .dmaCopy .. | .dmaGather .. | .dmaScatter .. | .dmaFill .. | .dmaProg ..
  | .dmaTransferStart .. | .mxmLoad .. | .mxmStream .. | .mxmPart .. | .mvLoad .. | .mvStream ..
  | .vecAlu .. | .vecMath .. | .vecAct .. | .vecDactOut .. | .vecDactIn .. | .vecRed ..
  | .rowNorm .. | .rowDnorm .. | .rowSoftmax .. | .rowDsoftmax .. | .rowTopk .. | .rowTag ..
  | .rowTreset .. | .rowSpill .. | .collPlan .. | .collSlot .. | .collDone .. | .medSubmit ..
  | .medRelease .. | .medAdvance .. | .intakeFrameReceive .. | .xoffRepeat .. | .sluiceDrain .. | .sampleRecordVisible ..
  | .intakeLinkUp .. | .intakeLinkDown .. | .intakeEnable .. | .intakeDisable .. | .itkRdPtrWrite .. | .contextEnable ..
  | .contextDisable .. | .inWrPtrWrite .. | .outRdPtrWrite .. | .sampleAdmit .. | .decodeStart .. | .sampleHeaderRead ..
  | .areaReserve .. | .frameBufferAcquire .. | .sourceReadDone .. | .decodeDone .. | .outputRecordVisible .. | .medFbRelease .. | .tokLoad ..
  | .tokLoadDone .. | .positionAssign .. | .sampleComposeDone .. | .batchOffer .. | .flushWindowEnd .. | .flush ..
  | .streamEnable .. | .streamDisable .. | .batRelease .. | .nakRepeat .. | .flitTransmit .. | .laneFailure ..
  | .laneDrop .. | .portDegraded .. | .linkSilenceTimeout .. | .portEnable .. | .portDisable .. | .portOff ..
  | .windowEnable .. | .planStart .. | .planStepStart .. | .chunkArrive .. | .planStepComplete .. | .fetchRequestReceive ..
  | .fetchReplyArrive .. | .fetchFailReceive .. | .releaseReceive .. | .slowReceive .. | .slowSend .. | .peerTimeoutExpiry ..
  | .abortReceive .. | .lodeUpdateStart .. | .lodeUpdateWritten .. | .verWrite .. | .nopEntry .. | .workEntry ..
  | .copyEntry .. | .barrierEntry .. | .itemStart .. | .imageLoadDone .. | .workItemComplete .. | .replayStart ..
  | .stepBoundary .. | .measurementWindowEnd .. | .dispatcherEnable .. | .dispatcherDisable .. | .arrayIdleEntry .. | .arrayRetEntry ..
  | .aclkPllStop .. | .arrayWakeDone .. | .pwrOff .. | .pwrOn .. | .aclkChange .. | .pwrLimitWrite ..
  | .unitClockStop .. | .mclkPllStop .. | .pllLock .. | .clkStartTimeout .. | .refclkLoss .. | .sqTailDoorbell ..
  | .cqHeadDoorbell .. | .sqEnable .. | .sqDisable .. | .cqEnable .. | .cqDisable .. | .completionWrite ..
  | .coalesceWindowEnd .. | .evtMaskWrite .. | .busMasterEnableChange .. | .d3hotEntry .. | .d0Return .. | .configRequest ..
  | .pcieLinkUp .. | .hstResetWarm .. | .pwrEnDeassert .. | .inputGood .. | .inputLoss .. | .overvoltageTrip ..
  | .overcurrentTrip .. | .reversePolarity .. | .refclkAoTrip .. | .powerDownRestart .. | .perstAssert .. | .perstDeassert ..
  | .peatDomainUp .. | .fuseLoadDone .. | .firstStageVerified .. | .managementPortReady .. | .configurationReady .. | .memoryTestDone ..
  | .hbmZeroFillDone .. | .startTimeout .. | .startRetry .. | .fabricPacketResend .. | .internalParityError .. | .fltHeadSeqWrite ..
  | .jrnRdWrite .. | .spillEnable .. | .jrnSpillRdWrite .. | .journalSpillWrite .. | .getInfo .. | .telemetry ..
  | .setPower .. | .resetCmd .. | .bootOptions .. | .fwBegin .. | .fwCommit .. | .fwCommitDone ..
  | .flashRepairDone .. | .svnCommit .. | .keyRevoke .. | .faultRead .. | .faultAck .. | .journalRead ..
  | .lockCmd .. | .regRead .. | .regWrite .. | .debugChallenge .. | .debugUnlock .. | .debugLock ..
  | .getVersion .. | .getCapabilities .. | .negotiateAlgorithms .. | .getDigests .. | .getCertificate .. | .refclkReturn ..
  | .msixUnmask .. | .inputApply .. => true

end Sys2Proof
end

