-- ==== Sys2Proof/Safety.lean ====
section
/-! DEFINITION. Safety.lean: the terms the claims use: when a thread issues an instruction, when a register write is taken, what memory and
the waiting commands look like in every state of interest. -/

namespace Sys2Proof.Machine

/-- A command completes: it answers a next state. -/
def Completes (i : Instr) (s : State) : Prop := ∃ v, exec i s = .next v

/-- Memory is in its canonical form. -/
def MemCanon (s : State) : Prop := Memory.wf s.mem = true

/-- A READY thread fetches a legal base word and extension, its program store being readable, that lies with its extension in the store and
whose next instruction does too: the state after the fetch is `u` (R157, R160, R163, R175, R176). -/
def Fetches (s : State) (a : Fin 96) (t : Fin 64) (w ext : Nat) (u : State) : Prop :=
  (s.th a t).st = .ready ∧ fetchIns a t s = (.ok (w, ext), u) ∧ u.thr = s.thr ∧ illegalCause w ext = none ∧
    (s.th a t).pc + iLen w < psWords

/-- The fetched instruction also has a true guard (R157). -/
def Issues (s : State) (a : Fin 96) (t : Fin 64) (w ext : Nat) (u : State) : Prop :=
  Fetches s a t w ext u ∧ guardHolds (s.th a t).p (iPg w) (iPn w) = true

/-- A READY thread fetches a legal word with a true guard that lies with its extension in the store, be it the store's last word: what a branch
needs, since its target is its own (R163). -/
def IssuesAnywhere (s : State) (a : Fin 96) (t : Fin 64) (w ext : Nat) (u : State) : Prop :=
  (s.th a t).st = .ready ∧ fetchIns a t s = (.ok (w, ext), u) ∧ u.thr = s.thr ∧ illegalCause w ext = none ∧
    (iLong w = true → (s.th a t).pc + 1 < psWords) ∧ guardHolds (s.th a t).p (iPg w) (iPn w) = true

/-- A thread at the instruction after a word. -/
def Thread.after (x : Thread) (w : Nat) : Thread := { x with pc := x.pc + iLen w }

/-- A thread that has been given a token for a unit: the next sequence number, its record in its slot of the window, the token in RD (R169). -/
def Thread.withToken (x : Thread) (w unit : Nat) : Thread :=
  (x.newTok unit).setS (iRd w) (tokenWord (nextSeq x.seq) unit)

/-- A register access is open to its port, names an existing register of an existing instance, its clock runs and no earlier access of the host
waits: it reaches the bits `m` of register `r` of instance `i` (R7, R418, R431, R434 to R440). -/
def Reaches (a : RegAcc) (r : RegDef) (i m : Nat) (s : State) : Prop :=
  admitWrite a s = .yes r i m s ∧ clockNeeded a.off s = none ∧ (a.port = .pcie → hostBusy s = false) ∧ pulseWaits a s = false

/-- The word a write gives the register by the access codes of its fields (R7). -/
def newWord (a : RegAcc) (r : RegDef) (i m : Nat) (s : State) : W32 := applyWord r m (rwlLocked a.off s) (s.reg i a.off) a.val

/-- The register holds a new word and the change is journaled (R7, R481). -/
def stored (a : RegAcc) (r : RegDef) (i m : Nat) (new : W32) (s : State) : State :=
  journalWrite a r i (s.reg i a.off) new (a.val.toNat &&& woMask r &&& m) (s.setReg i a.off new)

end Sys2Proof.Machine
end

