-- ==== Sys2Proof/Certificates/Slice0/Obligations.lean ====
section
/-! DEFINITION. Certificates/Slice0/Obligations.lean: the statements about the model, and the spec functions they use. -/

namespace Sys2Proof.Machine

/-- The arithmetic of R161 over the integers and the naturals: function number, operands, result. -/
def specAlu (k : Nat) (x b : W64) : W64 :=
  match k with
  | 0x0 => BitVec.ofInt 64 (x.toInt + b.toInt)
  | 0x1 => BitVec.ofInt 64 (x.toInt - b.toInt)
  | 0x2 => BitVec.ofNat 64 (x.toNat &&& b.toNat)
  | 0x3 => BitVec.ofNat 64 (x.toNat ||| b.toNat)
  | 0x4 => BitVec.ofNat 64 (x.toNat ^^^ b.toNat)
  | 0x5 => BitVec.ofNat 64 (x.toNat * 2 ^ (b.toNat % 64))
  | 0x6 => BitVec.ofNat 64 (x.toNat / 2 ^ (b.toNat % 64))
  | 0x7 => BitVec.ofInt 64 (x.toInt / 2 ^ (b.toNat % 64))
  | 0x8 => BitVec.ofInt 64 (x.toInt * b.toInt)
  | 0x9 => BitVec.ofInt 64 (x.toInt * b.toInt / 2 ^ 64)
  | 0xA => BitVec.ofNat 64 (x.toNat * b.toNat / 2 ^ 64)
  | 0xB => BitVec.ofInt 64 (min x.toInt b.toInt)
  | 0xC => BitVec.ofInt 64 (max x.toInt b.toInt)
  | 0xD => BitVec.ofNat 64 (min x.toNat b.toNat)
  | _ => BitVec.ofNat 64 (max x.toNat b.toNat)

/-- The comparison of R162 over the integers and the naturals. -/
def specCmp (k : Nat) (x b : W64) : Prop :=
  match k with
  | 0 => x.toNat = b.toNat
  | 1 => x.toNat ≠ b.toNat
  | 2 => x.toInt < b.toInt
  | 3 => x.toNat < b.toNat
  | 4 => b.toInt ≤ x.toInt
  | _ => b.toNat ≤ x.toNat

/-- The register arithmetic commands in FUNC order. -/
def aluRows (a : Fin 96) (t : Fin 64) : List Instr :=
  [.add a t, .sub a t, .andR a t, .orR a t, .xorR a t, .shl a t, .shr a t, .sar a t, .mul a t, .mulh a t, .mulhu a t, .minR a t,
   .maxR a t, .minu a t, .maxu a t]

/-- The immediate arithmetic commands in FUNC order. -/
def aluImmRows (a : Fin 96) (t : Fin 64) : List Instr :=
  [.addi a t, .subi a t, .andi a t, .ori a t, .xori a t, .shli a t, .shri a t, .sari a t, .muli a t, .mulhi a t, .mulhui a t, .mini a t,
   .maxi a t, .minui a t, .maxui a t]

/-- The register comparison commands in FUNC order. -/
def cmpRows (a : Fin 96) (t : Fin 64) : List Instr := [.cmpEq a t, .cmpNe a t, .cmpLt a t, .cmpLtu a t, .cmpGe a t, .cmpGeu a t]

/-- The immediate comparison commands, FUNC 0x8 on. -/
def cmpImmRows (a : Fin 96) (t : Fin 64) : List Instr := [.cmpiEq a t, .cmpiNe a t, .cmpiLt a t, .cmpiLtu a t, .cmpiGe a t, .cmpiGeu a t]

/-- The load commands with their FUNC. -/
def loadRows (a : Fin 96) (t : Fin 64) : List (Instr × Nat) :=
  [(.ldB a t, 0x0), (.ldH a t, 0x1), (.ldW a t, 0x2), (.ldD a t, 0x3), (.ldBs a t, 0x4), (.ldHs a t, 0x5), (.ldWs a t, 0x6), (.ldDesc a t, 0xC)]

/-- The store commands with their FUNC. -/
def storeRows (a : Fin 96) (t : Fin 64) : List (Instr × Nat) :=
  [(.stB a t, 0x8), (.stH a t, 0x9), (.stW a t, 0xA), (.stD a t, 0xB), (.stDesc a t, 0xD)]

/-- The Pool atomic commands in FUNC order. -/
def atomRows (a : Fin 96) (t : Fin 64) : List Instr :=
  [.atomAddF32 a t, .atomAddBf16 a t, .atomAddI32 a t, .atomMaxF32 a t, .atomMaxBf16 a t, .atomMaxI32 a t, .atomMinF32 a t,
   .atomMinBf16 a t, .atomMinI32 a t, .atomSwapW a t, .atomSwapD a t, .atomCasD a t]

/-- The commands of classes 0x2 (logical) and 0x3 with CLASS and FUNC. -/
def controlRows (a : Fin 96) (t : Fin 64) : List (Instr × Nat × Nat) :=
  [(.plog a t, 0x2, 0xE), (.br a t, 0x3, 0x0), (.call a t, 0x3, 0x1), (.jr a t, 0x3, 0x2), (.callr a t, 0x3, 0x3), (.bnzDec a t, 0x3, 0x4)]

/-- The commands of classes 0x4 (descriptor addresses) to 0x7 beside loads, stores and atomics, with CLASS and FUNC. -/
def syncRows (a : Fin 96) (t : Fin 64) : List (Instr × Nat × Nat) :=
  [(.dsetBase a t, 0x4, 0xE), (.daddBase a t, 0x4, 0xF), (.red a t, 0x5, 0xC), (.syncWait a t, 0x6, 0x0), (.syncTest a t, 0x6, 0x1),
   (.syncWaitall a t, 0x6, 0x2), (.syncFence a t, 0x6, 0x3), (.syncBar a t, 0x6, 0x4), (.syncSemP a t, 0x6, 0x5), (.syncSemV a t, 0x6, 0x6),
   (.nop a t, 0x7, 0x0), (.sget a t, 0x7, 0x1), (.trap a t, 0x7, 0x2), (.halt a t, 0x7, 0x3)]

/-- The asynchronous commands of classes 0x8 to 0xE with CLASS and FUNC. -/
def asyncRows (a : Fin 96) (t : Fin 64) : List (Instr × Nat × Nat) :=
  [(.dmaCopy a t, 0x8, 0x0), (.dmaGather a t, 0x8, 0x1), (.dmaScatter a t, 0x8, 0x2), (.dmaFill a t, 0x8, 0x3), (.dmaProg a t, 0x8, 0x4),
   (.mxmLoad a t, 0x9, 0x0), (.mxmStream a t, 0x9, 0x1), (.mxmPart a t, 0x9, 0x2), (.mvLoad a t, 0xA, 0x0), (.mvStream a t, 0xA, 0x1),
   (.vecAlu a t, 0xB, 0x0), (.vecMath a t, 0xB, 0x1), (.vecAct a t, 0xB, 0x2), (.vecDactOut a t, 0xB, 0x3), (.vecDactIn a t, 0xB, 0x4),
   (.vecRed a t, 0xB, 0x5), (.rowNorm a t, 0xC, 0x0), (.rowDnorm a t, 0xC, 0x1), (.rowSoftmax a t, 0xC, 0x2), (.rowDsoftmax a t, 0xC, 0x3),
   (.rowTopk a t, 0xC, 0x4), (.rowTag a t, 0xC, 0x5), (.rowTreset a t, 0xC, 0x6), (.rowSpill a t, 0xC, 0x7), (.collPlan a t, 0xD, 0x0),
   (.collSlot a t, 0xD, 0x1), (.collDone a t, 0xD, 0x2), (.medSubmit a t, 0xE, 0x0), (.medRelease a t, 0xE, 0x1), (.medAdvance a t, 0xE, 0x2)]

/-- Commands of one CLASS whose FUNC counts up from `f`. -/
def classRows (cls f : Nat) (l : List Instr) : List (Instr × Nat × Nat) := l.zipIdx.map (fun e => (e.1, cls, f + e.2))

/-- Every thread command with the CLASS and FUNC of its instruction (R159 and the tables of its class). -/
def threadRows (a : Fin 96) (t : Fin 64) : List (Instr × Nat × Nat) :=
  [classRows 0x0 0 (aluRows a t), classRows 0x1 0 (aluImmRows a t), classRows 0x2 0 (cmpRows a t), classRows 0x2 8 (cmpImmRows a t), controlRows a t,
   (loadRows a t).map (fun e => (e.1, 0x4, e.2)), (storeRows a t).map (fun e => (e.1, 0x4, e.2)), classRows 0x5 0 (atomRows a t), syncRows a t,
   asyncRows a t].flatten

/-- The register or descriptor a load gives a thread (R164): 1, 2, 4 or 8 bytes zero-extended, 1, 2 or 4 bytes sign-extended, or 64 bytes. -/
def specLoad (func rd : Nat) (d : List Byte) (x : Thread) : Thread :=
  if func = 0xC then x.setD rd (BitVec.ofNat 512 (leNat d))
  else if 0x4 ≤ func ∧ func ≤ 0x6 then
    x.setS rd (BitVec.ofInt 64 (if leNat d < 2 ^ (8 * d.length - 1) then (leNat d : Int) else (leNat d : Int) - 2 ^ (8 * d.length)))
  else x.setS rd (BitVec.ofNat 64 (leNat d))

/-- Bytes of a class 0x4 access by FUNC (R164). -/
def specLen (func : Nat) : Nat :=
  if func = 0xC ∨ func = 0xD then 64
  else if func = 0x8 ∨ func = 0x9 ∨ func = 0xA ∨ func = 0xB then 2 ^ (func - 8) else 2 ^ (func % 4)

/-- The element width and the operation of a Pool atomic by FUNC, with its operand and compare value (R167). -/
def specAtom (k : Nat) (b d : W64) : Nat × PoolOp :=
  match k with
  | 0x0 => (4, .add .fp32 (b.toNat % 2 ^ 32))
  | 0x1 => (2, .add .bf16 (b.toNat % 2 ^ 16))
  | 0x2 => (4, .add .i32 (b.toNat % 2 ^ 32))
  | 0x3 => (4, .max .fp32 (b.toNat % 2 ^ 32))
  | 0x4 => (2, .max .bf16 (b.toNat % 2 ^ 16))
  | 0x5 => (4, .max .i32 (b.toNat % 2 ^ 32))
  | 0x6 => (4, .min .fp32 (b.toNat % 2 ^ 32))
  | 0x7 => (2, .min .bf16 (b.toNat % 2 ^ 16))
  | 0x8 => (4, .min .i32 (b.toNat % 2 ^ 32))
  | 0x9 => (4, .swap 4 (b.toNat % 2 ^ 32))
  | 0xA => (8, .swap 8 b.toNat)
  | _ => (8, .cas d.toNat b.toNat)

/-- The fields of an instruction word other than CLASS and FUNC (R156). -/
structure WordFields where
  pg   : Nat
  pn   : Bool
  long : Bool
  rd   : Nat
  ra   : Nat
  rb   : Nat
  imm  : Nat
deriving DecidableEq, Repr

/-- Every field within its width (R156). -/
def WordFields.fits (x : WordFields) : Prop := x.pg < 8 ∧ x.rd < 32 ∧ x.ra < 32 ∧ x.rb < 32 ∧ x.imm < 2 ^ 32

/-- The instruction word of a class, a function and the other fields, by the bit positions of R156. -/
def encodeWord (cls func : Nat) (x : WordFields) : Nat :=
  func + 2 ^ 4 * cls + 2 ^ 8 * x.pg + 2 ^ 11 * b2n x.pn + 2 ^ 12 * b2n x.long + 2 ^ 14 * x.rd + 2 ^ 19 * x.ra + 2 ^ 24 * x.rb + 2 ^ 32 * x.imm

/-- The command a word selects and its fields; none for a reserved CLASS or FUNC or a reserved bit that is set (R156, R159, R160). -/
def decodeWord (a : Fin 96) (t : Fin 64) (w : Nat) : Option (Instr × WordFields) :=
  if bit w 13 ∨ bits w 31 29 ≠ 0 then none
  else ((threadRows a t).find? (fun e => e.2.1 == iCls w && e.2.2 == iFunc w)).map
    (fun e => (e.1, ⟨iPg w, iPn w, iLong w, iRd w, iRa w, iRb w, iImm w⟩))

end Sys2Proof.Machine

open Sys2Proof Sys2Proof.Machine

/-- The step rule of the block: the command at the front of the queue runs with the rest waiting. -/
def Obligations.StepRunsFrontCommand : Prop :=
  ∀ (c : Instr) (rest : List Instr) (s : State), step { s with pending := c :: rest } = exec c { s with pending := rest }

/-- R161 (classes 0x0 and 0x1): sd takes sa op b, b being sb in class 0x0 and the sign-extended IMM or the extension in class 0x1; s0 discards the
write; the PC goes on; nothing else of the state changes. FUNC 0xF, an IMM in class 0x0 and an RB in class 0x1 are illegal. -/
def Obligations.ScalarArithmeticWritesItsResult : Prop :=
  (∀ (a : Fin 96) (t : Fin 64) (s u : State) (w ext k : Nat) (i : Instr), Issues s a t w ext u → iFunc w = k →
    ((aluRows a t)[k]? = some i → iCls w = 0x0 →
      exec i s = .next (u.setTh a t (((u.th a t).setS (iRd w)
        (specAlu k ((u.th a t).sreg (iRa w)) ((u.th a t).sreg (iRb w)))).after w))) ∧
    ((aluImmRows a t)[k]? = some i → iCls w = 0x1 →
      exec i s = .next (u.setTh a t (((u.th a t).setS (iRd w)
        (specAlu k ((u.th a t).sreg (iRa w))
          (if iLong w then BitVec.ofNat 64 ext else (BitVec.ofNat 32 (iImm w)).signExtend 64))).after w)))) ∧
  (∀ (a : Fin 96) (t : Fin 64) (s u : State) (w ext : Nat), (s.th a t).st = .ready → fetchIns a t s = (.ok (w, ext), u) →
    (iCls w = 0x0 ∧ iImm w ≠ 0 ∨ iCls w = 0x1 ∧ iRb w ≠ 0 ∨ (iCls w = 0x0 ∨ iCls w = 0x1) ∧ iFunc w = 0xF) →
    ∃ c, exec (.illegalInstruction a t) s = .next (progFault a t c u))

/-- R162 (class 0x2): pd takes the comparison of sa with sb or with the sign-extended IMM, or the bit of the truth table that two predicates
select; p0 discards the write; the PC goes on; no scalar register and nothing else of the state changes. Other functions and unused register and IMM bits of plog are illegal. -/
def Obligations.ComparisonsWriteOnePredicate : Prop :=
  (∀ (a : Fin 96) (t : Fin 64) (s u : State) (w ext : Nat), Issues s a t w ext u → iCls w = 0x2 →
    (∀ (k : Nat) (i : Instr) (v : Bool), (cmpRows a t)[k]? = some i → iFunc w = k →
      (v = true ↔ specCmp k ((u.th a t).sreg (iRa w)) ((u.th a t).sreg (iRb w))) →
      exec i s = .next (u.setTh a t (Thread.after { u.th a t with p := predWrite (u.th a t).p (iRd w % 8) v } w))) ∧
    (∀ (k : Nat) (i : Instr) (v : Bool), (cmpImmRows a t)[k]? = some i → iFunc w = 8 + k →
      (v = true ↔ specCmp k ((u.th a t).sreg (iRa w)) ((BitVec.ofNat 32 (iImm w)).signExtend 64)) →
      exec i s = .next (u.setTh a t (Thread.after { u.th a t with p := predWrite (u.th a t).p (iRd w % 8) v } w))) ∧
    (∀ v : Bool, iFunc w = 0xE →
      v = (iImm w).testBit ((if predRead (u.th a t).p (iRa w % 8) then 2 else 0) + if predRead (u.th a t).p (iRb w % 8) then 1 else 0) →
      exec (.plog a t) s = .next (u.setTh a t (Thread.after { u.th a t with p := predWrite (u.th a t).p (iRd w % 8) v } w)))) ∧
  (∀ (a : Fin 96) (t : Fin 64) (s u : State) (w ext : Nat), (s.th a t).st = .ready → fetchIns a t s = (.ok (w, ext), u) → iCls w = 0x2 →
    (8 ≤ iRd w ∨ iFunc w = 0x6 ∨ iFunc w = 0x7 ∨ iFunc w = 0xF ∨ iFunc w = 0xE ∧ (8 ≤ iRa w ∨ 8 ≤ iRb w ∨ 16 ≤ iImm w)) →
    ∃ c, exec (.illegalInstruction a t) s = .next (progFault a t c u))

/-- R154 and R162: p0 reads true whatever is written, and a write of another predicate changes that one alone; s0 reads 0 whatever is written,
and a write of another scalar register changes that one alone. -/
def Obligations.PredicateAndScalarWritesReachOneRegister : Prop :=
  (∀ (p : BitVec 8) (i j : Nat) (v : Bool), i < 8 → j < 8 →
    predRead (predWrite p i v) j = if j = 0 then true else if j = i then v else predRead p j) ∧
  (∀ (x : Thread) (r k : Nat) (v : W64), (x.setS r v).sreg k = if k = 0 then 0 else if k = r then v else x.sreg k)

/-- R163 (class 0x3), with the target inside the program store: br and jr go to the target; call and callr also write PC + 1 to sd, callr taking
its target from sa before; bnz.dec counts sa down and branches while the new value is not 0. A branch that is taken may stand in the store's last
word. R163 and R178: a branch whose target lies outside the program store halts the thread with PROGRAM_FAULT, cause 0x04, at the branch. -/
def Obligations.BranchesGoToTheirTargetOrHalt : Prop :=
  (∀ (a : Fin 96) (t : Fin 64) (s u : State) (w ext : Nat) (x : Thread) (rel reg : Int), IssuesAnywhere s a t w ext u → iCls w = 0x3 → x = u.th a t →
     rel = (x.pc : Int) + (BitVec.ofNat 32 (iImm w)).toInt → reg = ((x.sreg (iRa w)).toNat : Int) →
     (iFunc w = 0x0 → 0 ≤ rel → rel < 131072 → exec (.br a t) s = .next (u.setTh a t { x with pc := rel.toNat })) ∧
     (iFunc w = 0x1 → 0 ≤ rel → rel < 131072 →
       exec (.call a t) s = .next (u.setTh a t { x.setS (iRd w) (BitVec.ofNat 64 (x.pc + 1)) with pc := rel.toNat })) ∧
     (iFunc w = 0x2 → reg < 131072 → exec (.jr a t) s = .next (u.setTh a t { x with pc := reg.toNat })) ∧
     (iFunc w = 0x3 → reg < 131072 →
       exec (.callr a t) s = .next (u.setTh a t { x.setS (iRd w) (BitVec.ofNat 64 (x.pc + 1)) with pc := reg.toNat })) ∧
     (iFunc w = 0x4 → x.sreg (iRa w) ≠ 1 → 0 ≤ rel → rel < 131072 →
       exec (.bnzDec a t) s = .next (u.setTh a t { x.setS (iRa w) (x.sreg (iRa w) - 1) with pc := rel.toNat })) ∧
     (iFunc w = 0x4 → x.sreg (iRa w) = 1 → x.pc + iLen w < 131072 →
       exec (.bnzDec a t) s = .next (u.setTh a t ((x.setS (iRa w) 0).after w)))) ∧
  (∀ (a : Fin 96) (t : Fin 64) (s u : State) (w ext : Nat) (rel : Int), IssuesAnywhere s a t w ext u → iCls w = 0x3 →
     rel = ((u.th a t).pc : Int) + (BitVec.ofNat 32 (iImm w)).toInt → (rel < 0 ∨ 131072 ≤ rel) →
     (iFunc w = 0x0 → exec (.br a t) s = .next (progFault a t 0x04 u)) ∧ (iFunc w = 0x1 → exec (.call a t) s = .next (progFault a t 0x04 u)) ∧
     (iFunc w = 0x4 → (u.th a t).sreg (iRa w) ≠ 1 → exec (.bnzDec a t) s = .next (progFault a t 0x04 u)) ∧
     (iFunc w = 0x2 → 131072 ≤ ((u.th a t).sreg (iRa w)).toNat → exec (.jr a t) s = .next (progFault a t 0x04 u)) ∧
     (iFunc w = 0x3 → 131072 ≤ ((u.th a t).sreg (iRa w)).toNat → exec (.callr a t) s = .next (progFault a t 0x04 u)))

/-- R157: the guard is p[PG] XOR PN as it is when the instruction issues; an instruction of any class whose guard is 0 only moves its PC past its words:
no register, operation, token, fault or other state changes. The word 0 is add s0, s0, s0 under p0 and has no effect, until the PC leaves the store. -/
def Obligations.FalseGuardOnlyAdvancesThePc : Prop :=
  (∀ (a : Fin 96) (t : Fin 64) (s u : State) (w ext : Nat) (i : Instr), Fetches s a t w ext u →
    guardHolds (s.th a t).p (iPg w) (iPn w) = false → (i, iCls w, iFunc w) ∈ threadRows a t →
    exec i s = .next (u.setTh a t ((u.th a t).after w))) ∧
  (∀ (p : BitVec 8) (g : Nat) (n : Bool), guardHolds p g n = (predRead p g != n)) ∧
  (∀ (w : Nat), iLen w = if iLong w then 2 else 1) ∧
  (∀ (a : Fin 96) (t : Fin 64), decodeWord a t 0 = some (.add a t, ⟨0, false, false, 0, 0, 0, 0⟩)) ∧
  (∀ (a : Fin 96) (t : Fin 64) (s u : State) (ext : Nat), (s.th a t).st = .ready → fetchIns a t s = (.ok (0, ext), u) → u.thr = s.thr →
    ((s.th a t).pc < 131071 → exec (.add a t) s = .next (u.setTh a t ((u.th a t).after 0))) ∧
    ((s.th a t).pc = 131071 → exec (.add a t) s = .next (progFault a t 0x04 (u.setTh a t (u.th a t)))))

/-- R151, R155 and R177: nop only advances; sget copies its item to sd; halt ends the thread: DONE without open operations, else DRAIN, its
partitions unowned; trap halts it with PROGRAM_FAULT, cause 0x0A and the code IMM[15:0]. -/
def Obligations.ControlInstructionsNopSgetTrapHalt : Prop :=
  ∀ (a : Fin 96) (t : Fin 64) (s u : State) (w ext : Nat), Issues s a t w ext u → iCls w = 0x7 →
    (iFunc w = 0x0 → exec (.nop a t) s = .next (u.setTh a t ((u.th a t).after w))) ∧
    (iFunc w = 0x1 → exec (.sget a t) s = .next (u.setTh a t
      (((u.th a t).setS (iRd w) (BitVec.ofNat 64 (sgetVal a t (iImm w % 256) u))).after w))) ∧
    (iFunc w = 0x2 → exec (.trap a t) s =
      .next (haltThread a t { fail := { st := .programFault }, cause := 0x0A, trap := iImm w % 65536 } u)) ∧
    (iFunc w = 0x3 → ∃ v, exec (.halt a t) s = .next v ∧
      (v.th a t).st = (if ((u.th a t).toks.any fun k => k.fin.isNone) then .drain else .done) ∧ (v.th a t).pc = (u.th a t).pc ∧
      (∀ e ∈ (v.gr a).own, e.2 ≠ t.val) ∧ v.mem = u.mem ∧ v.regs = u.regs ∧ v.faults = u.faults)

/-- R160 and R178: a thread whose fetched word is illegal halts with PROGRAM_FAULT and the cause of the encoding, whatever its guard, and runs no
command of its class. -/
def Obligations.IllegalWordHaltsItsThread : Prop :=
  ∀ (a : Fin 96) (t : Fin 64) (s u : State) (w ext c : Nat) (i : Instr), (s.th a t).st = .ready → fetchIns a t s = (.ok (w, ext), u) →
    illegalCause w ext = some c →
    exec (.illegalInstruction a t) s = .next (progFault a t c u) ∧
    ((i, iCls w, iFunc w) ∈ threadRows a t → exec i s = .next s)

/-- R178, R179 and R182: a halt writes one THREAD record, REPORTED, with the requester number of the thread and its PC; the thread is DRAIN or DONE
and halts only once. -/
def Obligations.ThreadHaltWritesOneRecord : Prop :=
  ∀ (a : Fin 96) (t : Fin 64) (c : Nat) (u : State), ((u.th a t).st = .ready ∨ (u.th a t).st = .wait) → (u.th a t).faulted = false →
    u.faults.queue.length < 1024 →
    ∃ r v, progFault a t c u = v ∧ v.faults.queue = u.faults.queue ++ [r] ∧ r.cls = .thread ∧ r.status = .programFault ∧
      r.disp = .reported ∧ r.req = 0x1000 + 64 * a.val + t.val ∧ r.fseq = u.faults.next ∧ r.tick = u.tb ∧
      slice r.body 0 4 = leBytes 4 (u.th a t).pc ∧ (v.th a t).faulted = true ∧ ((v.th a t).st = .drain ∨ (v.th a t).st = .done) ∧
      progFault a t c v = v

/-- R152 and R165: a load, once it issues, only makes its thread wait for the data of sa + IMM (modulo 2^64): the PC stays, nothing else changes. R164, R165 and R167: when the data of a waiting load return, from an SRAM window or the Pool that the thread may read and without an error, its
register takes them and the thread goes on; nothing else changes after the read. The old value of a served atomic or semaphore operation reaches sd in
the same way. -/
def Obligations.LoadsWaitForTheirDataAndTakeIt : Prop :=
  (∀ (a : Fin 96) (t : Fin 64) (s u : State) (w ext k : Nat) (i : Instr), Issues s a t w ext u → iCls w = 0x4 → iFunc w = k →
     (i, k) ∈ loadRows a t →
     exec i s = .next (u.setTh a t { u.th a t with
       st := .wait, waitAt := u.now, wait := .load k (iRd w) ((((u.th a t).sreg (iRa w)).toNat + (iImmS w).toNat) % 2 ^ 64) })) ∧
  (∀ (a : Fin 96) (t : Fin 64) (s : State), (s.th a t).st = .wait → (s.th a t).pc + 1 < psWords →
     (∀ (s1 s2 : State) (k rd va pa : Nat) (d : List Byte), (s.th a t).wait = .load k rd va → (k ≤ 0x6 ∨ k = 0xC) →
       checkedPa (thrCtx s a t) va .r (scalarPlace false) (specLen k) s = (.ok pa, s1) →
       physRead { thrCtx s a t with va := va } pa (specLen k) s1 = (.ok d, s2) → s2.thr = s.thr →
       exec (.loadDataReturn a t .none) s = .next (s2.setTh a t
         { specLoad k rd d (s.th a t) with st := .ready, wait := .none, pc := (s.th a t).pc + 1 })) ∧
     (∀ (rd old : Nat) (f : Fail) (ev : BitErr), ((s.th a t).wait = .atom rd ∨ (s.th a t).wait = .semP rd) →
       SMap.get? s.poolDone (0x1000 + 64 * a.val + t.val) = some (f, old) → f.st = .ok →
       exec (.loadDataReturn a t ev) s = .next (State.setTh { s with poolDone := SMap.del s.poolDone (0x1000 + 64 * a.val + t.val) } a t
         { (s.th a t).setS rd (BitVec.ofNat 64 old) with st := .ready, wait := .none, pc := (s.th a t).pc + 1 })))

/-- R164 and R165: a store that the checks let through writes the low bytes of sb, or the 64 bytes of dn, at the address its checks give, and the thread
goes on: where no running plan reduces into those bytes (R362), the frame of a store names the bytes it writes and leaves every other byte,
register, thread and record; only a parked sem.p that waits for those bytes asks its bank again (R174). The target's array is in RUN or wakes. -/
def Obligations.StoresWriteOnlyTheirBytes : Prop :=
  ∀ (a : Fin 96) (t : Fin 64) (s u u0 u1 : State) (w ext k pa b : Nat) (i : Instr) (data : List Byte), Issues s a t w ext u → iCls w = 0x4 →
    iFunc w = k → (i, k) ∈ storeRows a t →
    checkedPa (thrCtx u a t) (memAddr (u.th a t) w) .w (scalarPlace true) (specLen k) u = (.ok pa, u0) →
    unitReach { thrCtx u a t with va := memAddr (u.th a t) w } pa (specLen k) u0 = (.ok (), u1) → u1.thr = u.thr →
    backing u1 pa = some b → refusedAt u1 b (specLen k) = none → partBad u1 b (specLen k) = none →
    (∀ e ∈ u1.plans, ∀ r ∈ e.2.red, metElems b (specLen k) r = none) →
    data = (if k = 0xD then leBytes 64 ((u.th a t).dreg (iRd w)).toNat else leBytes (specLen k) ((u.th a t).sreg (iRb w)).toNat) →
    ∃ v, exec i s = .next v ∧
      (∀ adr, v.byte adr = if b ≤ adr ∧ adr < b + specLen k then data.getD (adr - b) 0 else u1.byte adr) ∧
      v.th a t = (u.th a t).after w ∧ (∀ j k', 64 * j + k' ≠ 64 * a.val + t.val → v.th j k' = u.th j k') ∧ v.regs = u1.regs ∧
      v.faults = u1.faults ∧ v.grid = u1.grid ∧ v.pool = (unparkRange b (specLen k) u1).pool ∧ v.items = u1.items

/-- R164: dset.base puts sa[47:0] into the base field of dn, dadd.base adds sa and IMM to it modulo 2^48; the other bits of dn stay. -/
def Obligations.DescriptorBaseInstructions : Prop :=
  ∀ (a : Fin 96) (t : Fin 64) (s u : State) (w ext : Nat) (d : BitVec 512) (v : W64), Issues s a t w ext u → iCls w = 0x4 →
    d = (u.th a t).dreg (iRd w) → v = (u.th a t).sreg (iRa w) →
    (iFunc w = 0xE → exec (.dsetBase a t) s = .next (u.setTh a t (((u.th a t).setD (iRd w)
      (BitVec.ofNat 512 (d.toNat / 2 ^ 48 * 2 ^ 48 + v.toNat % 2 ^ 48))).after w))) ∧
    (iFunc w = 0xF → exec (.daddBase a t) s = .next (u.setTh a t (((u.th a t).setD (iRd w)
      (BitVec.ofNat 512 (d.toNat / 2 ^ 48 * 2 ^ 48 + (d.toNat % 2 ^ 48 + v.toNat + (iImmS w).toNat) % 2 ^ 48))).after w)))

/-- R89, R167 and R174: a Pool atomic or semaphore operation that the checks let through joins its bank's requests with its width, operand and
compare value, and its thread waits for the old value. R174: SEM_RETRY lets the parked sem.p of its thread contend again and leaves every other request as it stands. -/
def Obligations.PoolOperationsQueueTheirRequest : Prop :=
  (∀ (a : Fin 96) (t : Fin 64) (s u u1 : State) (w ext k pa width : Nat) (i : Instr) (op : PoolOp) (x : Thread), Issues s a t w ext u →
     x = u.th a t → iFunc w = k → u1.thr = u.thr →
     checkedPa (thrCtx u a t) (memAddr x w) .rw inPool width u = (.ok pa, u1) →
     (iCls w = 0x5 → (atomRows a t)[k]? = some i → (width, op) = specAtom k (x.sreg (iRb w)) (x.sreg (iRd w)) →
       exec i s = .next ((poolPush ⟨0x1000 + 64 * a.val + t.val, memAddr x w, pa, op, 0, 0, false⟩ u1).setTh a t
         { x with st := .wait, wait := .atom (iRd w), waitAt := u1.now })) ∧
     (iCls w = 0x6 → width = 4 → (k = 0x5 ∧ i = .syncSemP a t ∧ op = .semP ∨ k = 0x6 ∧ i = .syncSemV a t ∧ op = .semV) →
       exec i s = .next ((poolPush ⟨0x1000 + 64 * a.val + t.val, memAddr x w, pa, op, 0, 0, false⟩ u1).setTh a t
         { x with st := .wait, wait := .semP (iRd w), waitAt := u1.now }))) ∧
  (∀ (a : Fin 96) (t : Fin 64) (s : State), ∃ v, exec (.semRetry a t) s = .next v ∧ v.mem = s.mem ∧ v.thr = s.thr ∧
     ∀ b, (SMap.getD v.pool b []).length = (SMap.getD s.pool b []).length ∧
       ∀ (n : Nat) (q r : PoolReq), (SMap.getD s.pool b [])[n]? = some q → (SMap.getD v.pool b [])[n]? = some r →
         r = if q.rid = 0x1000 + 64 * a.val + t.val ∧ q.op = .semP then { q with parked := false } else q)

/-- R89 and R174: what the operations on integers write over the old word, the INT32 sum clamped, a compare that fails and a sem.p that finds 0
writing nothing, a sem.v stopping at 0xFFFF_FFFF. -/
def Obligations.PoolIntegerOperations : Prop :=
  ∀ (old v c n : Nat) (x y : Int), old < 2 ^ 32 → v < 2 ^ 32 → x = toSigned 32 old → y = toSigned 32 v →
    poolNew (.add .i32 v) (leBytes 4 old) = some (leBytes 4 (ofSigned 32 (max (-2 ^ 31) (min (2 ^ 31 - 1) (x + y))))) ∧
    poolNew (.max .i32 v) (leBytes 4 old) = some (leBytes 4 (if x < y then v else old)) ∧
    poolNew (.min .i32 v) (leBytes 4 old) = some (leBytes 4 (if x < y then old else v)) ∧
    poolNew (.swap 4 v) (leBytes 4 old) = some (leBytes 4 v) ∧
    poolNew (.cas c n) (leBytes 8 old) = (if old = c then some (leBytes 8 n) else none) ∧
    poolNew .semP (leBytes 4 old) = (if old = 0 then none else some (leBytes 4 (old - 1))) ∧
    poolNew .semV (leBytes 4 old) = some (leBytes 4 (if old = 2 ^ 32 - 1 then old else old + 1))

/-- R88 to R91: a bank cycle serves the one request that waits, as its command's kind asks: an atomic of a thread leaves the old value for the
thread and the new bytes in the Pool; a plain read or write answers its requester; a vector reduction combines its 256 bytes; no other byte of
memory changes. No running plan reduces into a buffer (R362). -/
def Obligations.BankCycleServesItsRequest : Prop :=
  ∀ (bank : Fin 64) (s : State) (q : PoolReq) (old : List Byte), unitsOn s = true → SMap.getD s.pool bank.val [] = [q] → q.parked = false →
    inPool q.pa = true → poolBank q.pa = bank.val → old.length = poolWidth q.op → rawRead s q.pa (poolWidth q.op) = old →
    s.bad = [] → (∀ e ∈ s.plans, e.2.red = []) → (q.op = .semP → leNat old ≠ 0) →
    (isAtomic q.op = true → awaitsPool q.rid s = true → ∃ v, exec (.poolAtomic bank [] .none) s = .next v ∧
      SMap.get? v.poolDone q.rid = some ({ st := .ok }, leNat old) ∧ SMap.getD v.pool bank.val [] = [] ∧
      (∀ adr, v.byte adr = if q.pa ≤ adr ∧ adr < q.pa + poolWidth q.op then ((poolNew q.op old).getD old).getD (adr - q.pa) 0 else s.byte adr)) ∧
    (isRed q.op = true → ∃ v, exec (.poolVectorReduction bank [] .none) s = .next v ∧ SMap.getD v.pool bank.val [] = [] ∧
      (∀ adr, v.byte adr =
        if q.pa ≤ adr ∧ adr < q.pa + ((poolNew q.op old).getD old).length then ((poolNew q.op old).getD old).getD (adr - q.pa) 0 else s.byte adr)) ∧
    (∀ n, q.op = .read n → 0 < n → ∃ v, exec (.poolAccess bank [] .none) s = .next v ∧ v.mem = s.mem ∧
      v.out = .memReply q.rid .ok old :: s.out ∧ SMap.getD v.pool bank.val [] = []) ∧
    (∀ d, q.op = .write d → ∃ v, exec (.poolAccess bank [] .none) s = .next v ∧ SMap.getD v.pool bank.val [] = [] ∧
      (∀ adr, v.byte adr = if q.pa ≤ adr ∧ adr < q.pa + d.length then d.getD (adr - q.pa) 0 else s.byte adr))

/-- R166, R169 and R216: a dma instruction takes the next token of its thread for the unit of its queue, writes it to RD, and puts the transfer with
the operands read now at the end of that queue; the thread goes on. -/
def Obligations.DmaIssueQueuesTheTransfer : Prop :=
  ∀ (a : Fin 96) (t : Fin 64) (s u : State) (w ext k q : Nat) (x : Thread) (i : Instr), Issues s a t w ext u → iCls w = 0x8 → iFunc w = k →
    [Instr.dmaCopy a t, .dmaGather a t, .dmaScatter a t, .dmaFill a t, .dmaProg a t][k]? = some i → x = u.th a t → windowFull x = false →
    q = iImm w % 4 → (dmaQueue u a q).length < 64 →
    exec i s = .next ((setDmaQueue a q (dmaQueue u a q ++ [⟨t, nextSeq x.seq, k, x.dreg (iRa w % 16), x.dreg (iRb w % 16),
      x.dreg (bits (iImm w) 7 4), x.sreg (iRb w), (List.range 4).map (dmaOrg ext)⟩]) u).setTh a t ((x.withToken w q).after w))

/-- R115, R166, R169: a grid or Rush instruction that no other owner forbids takes the next token, of unit 4 or 5, and its operation with the
operands read now joins the array's grid, where it begins at once if nothing holds it back. R115: an mxm instruction on a partition that another thread owns halts its thread with PROGRAM_FAULT, cause 0x09, and takes no token. -/
def Obligations.GridIssueTakesTheOperationOrHalts : Prop :=
  (∀ (a : Fin 96) (t : Fin 64) (s u : State) (w ext imm q : Nat) (x : Thread), Issues s a t w ext u → x = u.th a t → imm = iImm w →
     windowFull x = false → q = nextSeq x.seq →
     (iCls w = 0x9 → iFunc w = 0x0 → ownedByOther (u.gr a) (imm % 16) t = false → exec (.mxmLoad a t) s =
       .next (advance a t w (takeOp a { newOp .load t q x.item (imm % 16) with buf := bits imm 4 4, mode := bits imm 9 8, da := x.dreg (iRa w % 16) }
         (u.setTh a t (x.withToken w 4))))) ∧
     (iCls w = 0x9 → iFunc w = 0x1 → ownedByOther (u.gr a) (imm % 16) t = false → exec (.mxmStream a t) s =
       .next (advance a t w (takeOp a (streamFields x w ext { newOp .stream t q x.item (imm % 16) with buf := bits imm 4 4 })
         (u.setTh a t (x.withToken w 4))))) ∧
     (iCls w = 0x9 → iFunc w = 0x2 → (∀ e ∈ (u.gr a).own, e.2 = t.val) → imm % 4 ≠ 3 → exec (.mxmPart a t) s =
       .next ((u.setGr a ((u.gr a).add { newOp .part t q x.item 0 with mode := imm % 4 })).setTh a t ((x.withToken w 4).after w))) ∧
     (iCls w = 0xA → iFunc w = 0x0 → exec (.mvLoad a t) s =
       .next (advance a t w (takeOp a { newOp .load t q x.item rush with mode := bits imm 8 8, da := x.dreg (iRa w % 16) }
         (u.setTh a t (x.withToken w 5))))) ∧
     (iCls w = 0xA → iFunc w = 0x1 → exec (.mvStream a t) s =
       .next (advance a t w (takeOp a (streamFields x w ext (newOp .stream t q x.item rush)) (u.setTh a t (x.withToken w 5)))))) ∧
  (∀ (a : Fin 96) (t : Fin 64) (s u : State) (w ext : Nat), Issues s a t w ext u → iCls w = 0x9 → ownedByOther (u.gr a) (iImm w % 16) t = true →
     (iFunc w = 0x0 → exec (.mxmLoad a t) s = .next (progFault a t 0x09 u)) ∧ (iFunc w = 0x1 → exec (.mxmStream a t) s = .next (progFault a t 0x09 u)))

/-- R166, R169, R224: a vec or row instruction takes the next token, of unit 6 or 7, and the unit runs its operation with the operands read now;
the operation's end, or its failure, is noted on that token, and the thread goes on. -/
def Obligations.VectorAndRowInstructionsRunTheirOperation : Prop :=
  ∀ (a : Fin 96) (t : Fin 64) (s u v : State) (w ext k q : Nat) (x : Thread) (c : Ctx) (i : Instr), Issues s a t w ext u → x = u.th a t →
    iFunc w = k → windowFull x = false → q = nextSeq x.seq →
    (iCls w = 0xB → unitBusy u a 6 < 64 → v = u.setTh a t (x.withToken w 6) → c = thrCtx v a t →
      ([Instr.vecAlu a t, .vecMath a t, .vecAct a t, .vecDactOut a t, .vecDactIn a t][k]? = some i →
        exec i s = .next (advance a t w (finish a t q (vecWrote a t q (vecOpOf x w ext) (vecMap c a (vecOpOf x w ext) v))))) ∧
      (k = 5 → exec (.vecRed a t) s = .next (advance a t w (finish a t q (vecWrote a t q (vecOpOf x w ext) (vecRed c a (vecOpOf x w ext) v)))))) ∧
    (iCls w = 0xC → unitBusy u a 7 < 64 → v = u.setTh a t (x.withToken w 7) → c = thrCtx v a t →
      ([Instr.rowNorm a t, .rowDnorm a t, .rowSoftmax a t, .rowDsoftmax a t][k]? = some i →
        exec i s = .next (advance a t w (finish a t q (rowRun c a (rowOpOf x w ext) v)))) ∧
      (k = 4 → exec (.rowTopk a t) s = .next (advance a t w (finish a t q (topkRun c a (rowOpOf x w ext) v)))) ∧
      (k = 5 → exec (.rowTag a t) s = .next (advance a t w (finish a t q (tagRun a (iImm w % 256) (x.sreg (iRa w)) v)))) ∧
      (k = 6 → exec (.rowTreset a t) s = .next (advance a t w (finish a t q (tresetRun a v)))) ∧
      (k = 7 → exec (.rowSpill a t) s = .next (advance a t w (finish a t q (spillRun a (x.sreg (iRa w)) (x.sreg (iRb w)) v)))))

/-- R168 and R169: red takes the next token, of unit 10; with both addresses admitted and its source read, 256 bytes of its kind join the requests
of the target's bank under that token. -/
def Obligations.RedQueuesItsReduction : Prop :=
  ∀ (a : Fin 96) (t : Fin 64) (s u v v1 v2 v3 : State) (w ext q ps pd : Nat) (x : Thread) (c : Ctx) (d : List Byte), Issues s a t w ext u →
    iCls w = 0x5 → iFunc w = 0xC → x = u.th a t → windowFull x = false → q = nextSeq x.seq → v = u.setTh a t (x.withToken w 10) →
    c = thrCtx v a t → checkedPa c (x.sreg (iRa w)).toNat .r (inOwnLocal v a) 256 v = (.ok ps, v1) →
    checkedPa c (x.sreg (iRb w)).toNat .rw inPool 256 v1 = (.ok pd, v2) → physRead { c with va := (x.sreg (iRa w)).toNat } ps 256 v2 = (.ok d, v3) →
    v3.thr = v.thr →
    exec (.red a t) s = .next ((poolPush ⟨0x1000 + 64 * a.val + t.val, (x.sreg (iRb w)).toNat, pd, redOp (iImm w % 16) d, q + 1, 0, false⟩ v3).setTh a t
      ((x.withToken w 10).after w))

/-- R171: sync.wait on the null token or a completed one writes its status and goes on, on one out of the window FAIL, on a running one waits, on
one not yet issued halts with cause 0x06; sync.test writes whether the token has completed, every number having been issued once they have wrapped; sync.waitall and sync.fence go on when nothing they
select is open and wait otherwise. R152 and R169: while the operation that holds the window slot of the next one (sequence number modulo 32) has not completed, an asynchronous instruction takes no token: its thread waits at it. -/
def Obligations.TokenInstructions : Prop :=
  (∀ (a : Fin 96) (t : Fin 64) (s u : State) (w ext v : Nat) (x : Thread), Issues s a t w ext u → iCls w = 0x6 → x = u.th a t →
     v = (x.sreg (iRa w)).toNat % 2 ^ 32 →
     (iFunc w = 0x0 → ∀ st, tokState x v = .done st →
       exec (.syncWait a t) s = .next (u.setTh a t ((x.setS (iRd w) (BitVec.ofNat 64 st.code)).after w))) ∧
     (iFunc w = 0x0 → tokState x v = .old →
       exec (.syncWait a t) s = .next (u.setTh a t ((x.setS (iRd w) (BitVec.ofNat 64 x.fail.code)).after w))) ∧
     (iFunc w = 0x0 → tokState x v = .running →
       exec (.syncWait a t) s = .next (u.setTh a t { x with st := .wait, wait := .tok (iRd w) v, waitAt := u.now })) ∧
     (iFunc w = 0x0 → tokState x v = .future → exec (.syncWait a t) s = .next (progFault a t 0x06 u)) ∧
     (iFunc w = 0x1 → exec (.syncTest a t) s = .next (u.setTh a t (Thread.after { x with
       p := predWrite x.p (iRd w % 8) (decide (v = 0) || (match x.toks.find? (fun j => j.seq == v) with
         | some k => k.fin.isSome
         | none => x.lapped || decide (v ≤ x.seq))) } w))) ∧
     (iFunc w = 0x2 → (∀ k ∈ x.toks, k.fin ≠ none) →
       exec (.syncWaitall a t) s = .next (u.setTh a t ((x.setS (iRd w) (BitVec.ofNat 64 x.fail.code)).after w))) ∧
     (iFunc w = 0x2 → (∃ k ∈ x.toks, k.fin = none) →
       exec (.syncWaitall a t) s = .next (u.setTh a t { x with st := .wait, wait := .all (iRd w), waitAt := u.now })) ∧
     (iFunc w = 0x3 → (∀ k ∈ x.toks, k.fin = none → iImm w % 4096 ≠ 0 ∧ (iImm w).testBit k.unit = false) → (∀ k ∈ x.toks, k.unit < 12) →
       exec (.syncFence a t) s = .next (u.setTh a t (x.after w))) ∧
     (iFunc w = 0x3 → (∃ k ∈ x.toks, k.fin = none ∧ k.unit < 12 ∧ (iImm w % 4096 = 0 ∨ (iImm w).testBit k.unit = true)) →
       ∃ m, exec (.syncFence a t) s = .next (u.setTh a t { x with st := .wait, wait := .fence m, waitAt := u.now }))) ∧
  (∀ (a : Fin 96) (t : Fin 64) (s u : State) (w ext : Nat) (k : Tok) (x : Thread), Issues s a t w ext u → x = u.th a t →
     k ∈ x.toks → k.seq % 32 = nextSeq x.seq % 32 → k.fin = none →
     (iCls w = 0x5 → iFunc w = 0xC → exec (.red a t) s = .next (u.setTh a t { x with st := .wait, wait := .slot 31, waitAt := u.now })) ∧
     (iCls w = 0xA → iFunc w = 0x0 → exec (.mvLoad a t) s = .next (u.setTh a t { x with st := .wait, wait := .slot 31, waitAt := u.now })) ∧
     (iCls w = 0xD → iFunc w = 0x2 → exec (.collDone a t) s = .next (u.setTh a t { x with st := .wait, wait := .slot 31, waitAt := u.now })))

/-- R173: an arrival at a barrier below its count, the first or a later one, waits and is counted; the arrival that makes the count leaves the barrier idle and its own
thread ready after the instruction; a count of 0 or over 64, a count other than the phase's and another item's thread halt the thread. -/
def Obligations.BarrierArrivals : Prop :=
  ∀ (a : Fin 96) (t : Fin 64) (s u : State) (w ext n k : Nat) (x : Thread), Issues s a t w ext u → iCls w = 0x6 → iFunc w = 0x4 → x = u.th a t →
    n = bits (iImm w) 11 4 → k = 16 * a.val + iImm w % 16 →
    (2 ≤ n → n ≤ 64 → SMap.get? u.bars k = none → ∃ v, exec (.syncBar a t) s = .next v ∧
      v.th a t = { x with st := .wait, wait := .bar (iImm w % 16), waitAt := u.now } ∧ SMap.get? v.bars k = some ⟨x.item, n, [t.val]⟩) ∧
    (∀ b, 1 ≤ n → n ≤ 64 → SMap.get? u.bars k = some b → b.count = n → b.item = x.item → b.arrived.length + 1 < n →
      ∃ v, exec (.syncBar a t) s = .next v ∧ v.th a t = { x with st := .wait, wait := .bar (iImm w % 16), waitAt := u.now } ∧
        SMap.get? v.bars k = some ⟨x.item, n, b.arrived ++ [t.val]⟩) ∧
    (n = 1 → SMap.get? u.bars k = none → ∃ v, exec (.syncBar a t) s = .next v ∧ SMap.get? v.bars k = none ∧ (v.th a t).st = .ready ∧
      (v.th a t).pc = x.pc + 1) ∧
    (∀ b, 1 ≤ n → n ≤ 64 → SMap.get? u.bars k = some b → b.count = n → b.item = x.item → t.val ∉ b.arrived → b.arrived.length + 1 = n →
      ∃ v, exec (.syncBar a t) s = .next v ∧ SMap.get? v.bars k = none ∧ (v.th a t).st = .ready ∧ (v.th a t).pc = x.pc + 1) ∧
    ((n = 0 ∨ 64 < n) → exec (.syncBar a t) s = .next (progFault a t 0x07 u)) ∧
    (∀ b, 1 ≤ n → n ≤ 64 → SMap.get? u.bars k = some b → b.count ≠ n → exec (.syncBar a t) s = .next (progFault a t 0x07 u)) ∧
    (∀ b, 1 ≤ n → n ≤ 64 → SMap.get? u.bars k = some b → b.count = n → b.item ≠ x.item → exec (.syncBar a t) s = .next (progFault a t 0x08 u))

/-- R170 and R172: the oldest open token of a unit completes when its work is finished: it takes the status, FAIL the first failure, and a thread in
DRAIN without open operations is DONE; a token whose earlier token of the unit is still at work does not complete. -/
def Obligations.TokensCompleteInIssueOrder : Prop :=
  ∀ (a : Fin 96) (t : Fin 64) (unit : Fin 11) (s : State) (k : Tok) (f : Fail) (x : Thread), x = s.th a t →
    x.toks.reverse.find? (fun j => j.unit = unit.val ∧ j.fin.isNone) = some k →
    (k.work = none → exec (.asyncOpComplete a t unit) s = .next s) ∧
    (k.work = some f → x.st = .ready → (∀ j ∈ x.toks, j.seq = k.seq → j = k) → ∃ v, exec (.asyncOpComplete a t unit) s = .next v ∧
      (v.th a t).toks = x.toks.map (fun j => if j.seq = k.seq then { j with fin := some f.st } else j) ∧
      (v.th a t).fail = (if x.fail.completes = true ∧ f.st.completes = false then f.st else x.fail) ∧ v.mem = s.mem) ∧
    (k.work = some f → x.st = .drain → (∀ j ∈ x.toks, j.fin = none → j.seq = k.seq) → ∃ v, exec (.asyncOpComplete a t unit) s = .next v ∧
      (v.th a t).st = .done)

/-- R179, R180: after a thread fault every other thread of the item that is READY or in WAIT stops; a thread past its wait limit or its run limit
halts with WATCHDOG, cause 0x0B or 0x0C. -/
def Obligations.ItemHaltAndWatchdogs : Prop :=
  (∀ (item : W64) (s : State) (i : Item), s.item? item.toNat = some i → i.haltAt ≠ none → ∃ v, exec (.itemThreadsHalt item) s = .next v ∧
    ∀ (a : Fin 96) (t : Fin 64), (s.th a t).item = i.id → (v.th a t).st ≠ .ready ∧ (v.th a t).st ≠ .wait) ∧
  (∀ (a : Fin 96) (t : Fin 64) (s : State) (i : Item), s.item? (s.th a t).item = some i → i.haltAt = none →
    ((s.th a t).st = .wait → (s.th a t).waitAt + i.waitLimit < s.now →
      exec (.waitLimitExpiry a t) s = .next (haltThread a t { fail := { st := .watchdog }, cause := 0x0B } s)) ∧
    (((s.th a t).st = .ready ∨ (s.th a t).st = .wait) → i.runLimit ≠ 0 → (s.th a t).startAt + i.runLimit < s.now →
      exec (.runLimitExpiry a t) s = .next (haltThread a t { fail := { st := .watchdog }, cause := 0x0C } s)))

/-- R8, R284: a write to a _LO half changes no register: its value is held for the port until the _HI half is written, unless the pair is one that its
unit's enable locks: then it is ignored, CFG_ERR of an Intake port's pairs set. R8 and R482: a write to the _HI half of a pair without a rule of its own joins the port's pending low half of that pair, or the low half the
register holds, and the 64-bit value by the access codes takes effect whole, with one journal entry. -/
def Obligations.PairWritesTakeEffectWhole : Prop :=
  (∀ (a : RegAcc) (r : RegDef) (i m : Nat) (s : State), admitWrite a s = .yes r i m s → r.pair = .lo → (a.port = .pcie → hostBusy s = false) →
     (∀ n, (pairRuleAt a.off).lowGuard i s = some n → exec (.loHalfWrite a) s = .next n) ∧
     (a.off = Reg.ITK_MAC_LO → itkEn s i = true → exec (.loHalfWrite a) s = .next (itkCfgErr i s)) ∧
     (a.off = Reg.ITK_RING_VA_LO → itkEn s (i / 256) = true → exec (.loHalfWrite a) s = .next (itkCfgErr (i / 256) s)) ∧
     ((pairRuleAt a.off).lowGuard i s = none → ∃ v, exec (.loHalfWrite a) s = .next v ∧ (v.half a.port).pendLo = some (a.off, a.val) ∧ v.regs = s.regs ∧ v.jrn = s.jrn ∧ v.mem = s.mem ∧
       (∀ p, p ≠ a.port → v.half p = s.half p))) ∧
  (∀ (a : RegAcc) (r : RegDef) (i m new : Nat) (s : State), Reaches a r i m s → r.pair = .hi → pairRuleAt (a.off - 4) = .plain →
     a.off ≠ Reg.CLK_TB_SET_HI → a.off ≠ Reg.MEM_FCLASS_DATA →
     new = pairCand r m (rwlLocked a.off s) (s.reg64 i (a.off - 4)) (joinedLo a i s) a.val →
     exec (.hiHalfWrite a) s = .next (journalPair a r i (s.reg64 i (a.off - 4)) new ((usePending a s).setReg64 i (a.off - 4) new)) ∧
     (∀ lo, (s.half a.port).pendLo = some (a.off - 4, lo) → joinedLo a i s = lo) ∧
     ((s.half a.port).pendLo = none → joinedLo a i s = s.reg i (a.off - 4)))

/-- R7: for every register of the map, each field of the word after a whole write stands by its access code: RW as written, RWL as written unless
its block is locked, W1C cleared by ones, RO and RC as before (HST_MLOCK, which its port writes, as written), WO zero. -/
def Obligations.FieldsFollowTheirAccessCode : Prop :=
  ∀ (r : RegDef) (f : FieldDef) (locked : Bool) (old val : W32), regDef? r.off = some r → f ∈ r.fields → r.off ≠ Reg.HST_MLOCK →
    fld (applyWord r (2 ^ 32 - 1) locked old val) f.hi f.lo =
      match f.acc with
      | .rw => fld val f.hi f.lo
      | .rwl => if locked then fld old f.hi f.lo else fld val f.hi f.lo
      | .w1c => fld old f.hi f.lo - (fld old f.hi f.lo &&& fld val f.hi f.lo)
      | .ro => fld old f.hi f.lo
      | .rc => fld old f.hi f.lo
      | .wo => 0

/-- R431, R481 and R520: a write of a register without a rule of its own stores its new word and journals the change; a write of part of a doubleword
sets HST_STATUS bit 2 and one with poisoned data bit 4 with an error message, and neither changes the register. -/
def Obligations.PlainRegisterWrites : Prop :=
  ∀ (a : RegAcc) (r : RegDef) (i m : Nat) (s : State), Reaches a r i m s → a.port = .pcie → r.pair = .single → ruleAt a.off = .plain →
    a.off ≠ Reg.MEM_FCLASS_DATA → a.off ≠ Reg.CLK_TB_SET_HI → s.up.cfgReady = true → s.linkUp = true →
    exec (.registerWrite a true false) s = .next (stored a r i m (newWord a r i m s) s) ∧
    exec (.registerWrite a false false) s = .next (s.setRf 0 Reg.HST_STATUS 2 2 1) ∧
    exec (.registerWrite a true true) s = .next ((s.setRf 0 Reg.HST_STATUS 4 4 1).emit .aer)

/-- R437 to R440: a write that its port may not make changes no register of a unit: HST_REFUSED counts it, HST_LAST_REFUSED names its offset and
port, HST_STATUS bit 3 sets. The management port may write only the registers of R438; the PCIe port not the identity and boot registers, nor,
in a block that HST_MLOCK locks, a register other than CHSEL by a write that aims at anything but its W1C fields (a write of a mixed register that does is
refused whole: the model's reading, log entry 91). -/
def Obligations.RefusedWritesAreCountedAndChangeNothing : Prop :=
  (∀ (a : RegAcc) (r : RegDef) (i : Nat) (s : State), a.off % 4 = 0 → busOpen a.port a.off s = true → regDef? a.off = some r →
    instOfReg r a.port s = some i → absentUnit a.off s = false →
    (a.port = .mgmt ∧ mgmtMask r = 0 ∨ a.port = .pcie ∧ (pcieForbidden a.off = true ∨ mLocked a.off s = true ∧ r.inst ≠ .chsel ∧ (w1cMask r = 0 ∨
      aimsBeyondW1c a r i s = true))) →
    admitWrite a s = .no (refuseWrite a s)) ∧
  (∀ (a : RegAcc) (s : State) (w : WriteRule), admitWrite a s = .no (refuseWrite a s) → writeReg w a s = refuseWrite a s ∧
    (refuseWrite a s).reg 0 Reg.HST_REFUSED = satAdd32 (s.reg 0 Reg.HST_REFUSED) 1 ∧
    (refuseWrite a s).reg 0 Reg.HST_LAST_REFUSED = BitVec.ofNat 32 (a.off % 2 ^ 26 + 2 ^ 31 * portIdx a.port) ∧
    (refuseWrite a s).rf 0 Reg.HST_STATUS 3 3 = 1 ∧ (refuseWrite a s).jrn = s.jrn ∧ (refuseWrite a s).mem = s.mem ∧
    (∀ i off, off ≠ Reg.HST_REFUSED → off ≠ Reg.HST_LAST_REFUSED → off ≠ Reg.HST_STATUS → off ≠ Reg.HST_EVT_CAUSE → off < 2 ^ 26 →
      (refuseWrite a s).reg i off = s.reg i off))

/-- R3, R7, R8 and R424: a read whose port is open and whose clock runs answers with the value the register shows, its WO bits zero; a _LO read holds
the high half for the port (one pair and instance at a time: the model's choice, log entry 173); the read of an RC register gives the count and clears
it, both halves of a pair with its low half, and counts that arrive later are kept; a register of a unit the configuration lacks reads zero. -/
def Obligations.RegisterReadsAnswer : Prop :=
  ∀ (p : Port) (off i m : Nat) (r : RegDef) (s : State) (shown : Nat → W32) (val : W32), off % 4 = 0 → busOpen p off s = true →
    clockNeeded off s = none → (p = .pcie → hostBusy s = false) → regDef? off = some r → instOfReg r p s = some i →
    shown = (fun o => (liveReg i o s).getD (s.reg i o)) → val = shown off &&& BitVec.ofNat 32 (2 ^ 32 - 1 - woMask r) → m = accMask r (· == .rc) →
    (absentUnit off s = true → exec (.loHalfRead p off) s = .next (answerRead p off 0 s) ∧
      exec (.rcRegisterRead p off) s = .next (answerRead p off 0 s)) ∧
    (absentUnit off s = false → r.pair = .lo → m = 0 → exec (.loHalfRead p off) s =
      .next (answerRead p off val (s.setHalf p { s.half p with capHi := some (regKey i (off + 4), shown (off + 4)) }))) ∧
    (absentUnit off s = false → r.pair = .lo → m ≠ 0 → ∃ v, exec (.loHalfRead p off) s = .next v ∧
      (p = .pcie → v.out = .regData p off val :: s.out) ∧ (p = .mgmt → v.out = .nolivo 0 (leBytes 4 val.toNat) :: s.out) ∧
      v.reg i off = s.reg i off &&& BitVec.ofNat 32 (2 ^ 32 - 1 - m) ∧ v.reg i (off + 4) = 0 ∧
      (v.half p).capHi = some (regKey i (off + 4), shown (off + 4)) ∧ v.mem = s.mem) ∧
    (absentUnit off s = false → r.pair = .single → m ≠ 0 → ∃ v, exec (.rcRegisterRead p off) s = .next v ∧
      (p = .pcie → v.out = .regData p off val :: s.out) ∧ (p = .mgmt → v.out = .nolivo 0 (leBytes 4 val.toNat) :: s.out) ∧
      v.reg i off = s.reg i off &&& BitVec.ofNat 32 (2 ^ 32 - 1 - m) ∧ v.mem = s.mem ∧
      (∀ n, m = 2 ^ 32 - 1 → ((v.count i off n).reg i off).toNat = min (2 ^ 32 - 1) n))

/-- R122, R142, R33, R97: the command registers of the arrays, the MMU and the checkpoint engine do what their rows say once the write reaches them. R277, R284, R285, R349, R353, R354: EN of an Intake port, a Causeway port and a mesh window goes to 1 when its conditions hold, with the effect of
its rule, and to 0; RD_PTR of a stream without a context takes an aligned value inside its ring. -/
def Obligations.CommandAndEnableRows : Prop :=
  (∀ (p : Port) (val : W32) (rid : W16) (s : State) (r : RegDef) (i m : Nat) (a : RegAcc), m = 2 ^ 32 - 1 → Reaches a r i m s →
     (a = ⟨p, Reg.ARR_INJECT, setFld val 0 0 1, rid.toNat⟩ → ∀ l, logicalOf s i = some l → ∃ v, exec (.injectElem p val rid) s = .next v ∧
       (v.gr l).inj = some (fld val 7 4, fld val 1 0 ||| 1)) ∧
     (a = ⟨p, Reg.ARR_INJECT, setFld val 1 1 1, rid.toNat⟩ → ∀ l, logicalOf s i = some l → ∃ v, exec (.injectCkcol p val rid) s = .next v ∧
       (v.gr l).inj = some (fld val 7 4, fld val 1 0 ||| 2)) ∧
     (a = ⟨p, Reg.EXP_CTRL, setFld val 0 0 1, rid.toNat⟩ → ∃ v, exec (.expFlush p val rid) s = .next v ∧
       v.tabs = s.tabs.filter (fun e => e.2.pins ≠ [])) ∧
     (a = ⟨p, Reg.MMU_INV_CTRL, val, rid.toNat⟩ → fld val 0 0 = 1 → s.inval = none → ∃ v, exec (.mmuInvGo p val rid) s = .next v ∧
       v.rf 0 Reg.MMU_INV_STATUS 0 0 = 1 ∧
       v.inval = some (if (s.reg 0 Reg.MMU_INV_SIZE).toNat = 0 then (0, 2 ^ 48)
         else (s.reg64 0 Reg.MMU_INV_VA_LO % 2 ^ 48, (s.reg 0 Reg.MMU_INV_SIZE).toNat * 65536))) ∧
     (a = ⟨p, Reg.MMU_INV_CTRL, val, rid.toNat⟩ → fld val 0 0 = 1 → s.inval ≠ none → ∃ v, exec (.mmuInvGo p val rid) s = .next v ∧
       v.rf 0 Reg.MMU_INV_STATUS 2 2 = 1 ∧ v.inval = s.inval) ∧
     (a = ⟨p, Reg.CKP_CTRL, val ||| 1, rid.toNat⟩ → fld val 1 1 = 0 → s.rf 0 Reg.CKP_STATUS 8 8 = 0 → s.rf 0 Reg.CKP_STATUS 9 9 = 0 →
       ∃ v, exec (.ckpArm p val rid) s = .next v ∧ v.rf 0 Reg.CKP_STATUS 9 9 = 1 ∧ v.ckp = s.ckp ∧
         v.ckpArmed = some (s.reg64 0 Reg.CKP_LIST_LO % 2 ^ 48, s.rf 0 Reg.CKP_COUNT 12 0)) ∧
     (a = ⟨p, Reg.CKP_CTRL, val ||| 2, rid.toNat⟩ → fld val 0 0 = 0 → s.rf 0 Reg.CKP_STATUS 8 8 = 0 → s.rf 0 Reg.CKP_STATUS 9 9 = 0 →
       s.rf 0 Reg.DSP_STATUS 1 1 = 0 → exec (.ckpStart p val rid) s = .next (ckpBegin (s.reg64 0 Reg.CKP_LIST_LO % 2 ^ 48) (s.rf 0 Reg.CKP_COUNT 12 0)
         (stored a r i m (newWord a r i m s) s)))) ∧
  (∀ (p : Port) (val : W32) (rid : W16) (s : State) (r : RegDef) (i m : Nat) (a : RegAcc) (n : W32), Reaches a r i m s → n = newWord a r i m s →
     (a = ⟨p, Reg.ITK_PCTRL, setFld val 0 0 1, rid.toNat⟩ → fld (s.reg i a.off) 0 0 = 0 → fld n 0 0 = 1 → enableOk i s = true →
       s.up.itkGone.contains i = false → exec (.intakeEnable p val rid) s = .next (resumeFlow i (stored a r i m n s))) ∧
     (a = ⟨p, Reg.ITK_PCTRL, setFld val 0 0 0, rid.toNat⟩ → fld (s.reg i a.off) 0 0 = 1 → fld n 0 0 = 0 → fld n 6 4 = fld (s.reg i a.off) 6 4 →
       exec (.intakeDisable p val rid) s = .next (cutPort i true (if (stored a r i m n s).rf i Reg.ITK_PSTATUS 0 0 = 1 then sendXoff i (stored a r i m n s)
         else (stored a r i m n s).setRf i Reg.ITK_PSTATUS 1 1 1))) ∧
     (a = ⟨p, Reg.ITK_RD_PTR, val, rid.toNat⟩ → boundTo s 1024 (i / 256 + 1) (i % 256) = false → n.toNat % 64 = 0 →
       n.toNat < ringBytes s (i / 256) (i % 256) → exec (.itkRdPtrWrite p val rid) s = .next (stored a r i m n s)) ∧
     (a = ⟨p, Reg.CWY_PCTRL, setFld val 0 0 1, rid.toNat⟩ → fld (s.reg i a.off) 0 0 = 0 → fld n 0 0 = 1 → credsOk s i = true →
       portState (stored a r i m n s) i = 0 → exec (.portEnable p val rid) s = .next (trainPort i (stored a r i m n s))) ∧
     (a = ⟨p, Reg.CWY_PCTRL, setFld val 0 0 0, rid.toNat⟩ → fld (s.reg i a.off) 0 0 = 1 → fld n 0 0 = 0 → portUp (stored a r i m n s) i = true →
       exec (.portDisable p val rid) s =
         .next (settleOutbox (modPort i (fun x => { x with offAt := some ((stored a r i m n s).now + 500) }) (stored a r i m n s)))) ∧
     (a = ⟨p, Reg.CWY_WIN_EN, setFld val 0 0 1, rid.toNat⟩ → (fld (s.reg i a.off) 0 0 = 1 ∨ windowOk s i = true) →
       exec (.windowEnable p val rid) s = .next (stored a r i m n s)))

/-- R74: a MEM_FCLASS_DATA write that changes one frame's class completes the requests to that frame under the old class, zeroes the frame and, no
request waiting for it, leaves every byte outside it, moves the frame to its class and sets FCLASS_BUSY; while a conversion runs, the write is held; the end of the last conversion clears FCLASS_BUSY. -/
def Obligations.FrameClassConversion : Prop :=
  (∀ (p : Port) (val : W32) (rid : W16) (s : State) (r : RegDef) (i m f : Nat) (b : Bool) (a : RegAcc), a = ⟨p, Reg.MEM_FCLASS_DATA, val, rid.toNat⟩ →
    Reaches a r i m s → s.conv = [] → changedFrames i (s.reg i Reg.MEM_FCLASS_DATA) (newWord a r i m s) = [(f, b)] →
    exec (.fclassDataWrite p val rid) s =
      .next ((convertFrame f b (completeFrame f (stored a r i m (newWord a r i m s) s))).setRf 0 Reg.MEM_STATUS 2 2 1) ∧
    ((∀ e ∈ s.pcs, (∀ q ∈ (s.pc e.1).queue, touchesFrame f q.q = false) ∧ (∀ q ∈ (s.pc e.1).waiting, touchesFrame f q.1 = false)) → ∃ v, exec (.fclassDataWrite p val rid) s = .next v ∧ v.conv = [f] ∧ v.rf 0 Reg.MEM_STATUS 2 2 = 1 ∧
      (v.classA.contains f = b) ∧
      (∀ adr, v.byte adr = if f * 0x200000 ≤ adr ∧ adr < f * 0x200000 + 0x200000 then 0 else s.byte adr))) ∧
  (∀ (p : Port) (val : W32) (rid : W16) (s : State), s.conv ≠ [] → (p = .pcie → hostBusy s = false) →
    exec (.fclassDataWrite p val rid) s = .next { s with convHeld := s.convHeld ++ [⟨p, Reg.MEM_FCLASS_DATA, val, rid.toNat⟩] }) ∧
  (∀ (frame : Fin 393216) (s : State), s.conv = [frame.val] → s.convHeld = [] → s.busHeld = [] → ∃ v, exec (.fclassConversionDone frame) s = .next v ∧
    v.conv = [] ∧ v.rf 0 Reg.MEM_STATUS 2 2 = 0 ∧ v.mem = s.mem)

/-- R289 to R291, R295, R306, R312, R323 to R325, R335: the control and pointer registers of the decoders, the tokeniser and the composer, when their
conditions hold. -/
def Obligations.MediaAndComposerRegisterRows : Prop :=
  ∀ (p : Port) (val : W32) (rid : W16) (s : State) (r : RegDef) (i m : Nat) (a : RegAcc) (n : W32), m = 2 ^ 32 - 1 → Reaches a r i m s →
    n = newWord a r i m s →
    (a = ⟨p, Reg.MED_CTX_CTRL, setFld val 0 0 1, rid.toNat⟩ → fld (s.reg i a.off) 0 0 = 0 → fld n 0 0 = 1 → ctxEnableOk i n s = true →
      exec (.contextEnable p val rid) s = .next (enableCtx i (stored a r i m n s))) ∧
    (a = ⟨p, Reg.MED_CTX_CTRL, setFld val 0 0 0, rid.toNat⟩ → fld (s.reg i a.off) 0 0 = 1 → fld n 0 0 = 0 → n = setFld (s.reg i a.off) 0 0 0 →
      exec (.contextDisable p val rid) s = .next (retireCtx i (stored a r i m n s))) ∧
    (a = ⟨p, Reg.MED_IN_WR_PTR, val, rid.toNat⟩ → n.toNat % 64 = 0 → n.toNat < s.rf i Reg.MED_IN_RING_SIZE 11 0 * 0x200000 →
      exec (.inWrPtrWrite p val rid) s = .next (stored a r i m n s)) ∧
    (a = ⟨p, Reg.MED_OUT_RD_PTR, val, rid.toNat⟩ → medBs s i = 0xFF → exec (.outRdPtrWrite p val rid) s = .next (stored a r i m n s)) ∧
    (a = ⟨p, Reg.MED_FB_RELEASE, val, rid.toNat⟩ → exec (.medFbRelease p val rid) s = .next (releaseFb (fld val 9 0) (stored a r i m n s))) ∧
    (∀ set : Fin 2, a = ⟨p, if set.val = 0 then Reg.TOK0_LOAD else Reg.TOK1_LOAD, setFld val 0 0 1, rid.toNat⟩ →
      exec (.tokLoad p set val rid) s = .next ((stored a r i m n s).setRf 0 (tokReg Reg.TOK0_STATE set) 1 1 1)) ∧
    (a = ⟨p, Reg.BAT_SCTRL, setFld val 0 0 1, rid.toNat⟩ → fld (s.reg i a.off) 0 0 = 0 → fld n 0 0 = 1 →
      batStreamOk (s.setReg i Reg.BAT_SCTRL n) i = true → exec (.streamEnable p val rid) s = .next (enableStream i (stored a r i m n s))) ∧
    (a = ⟨p, Reg.BAT_SCTRL, setFld val 0 0 0, rid.toNat⟩ → fld (s.reg i a.off) 0 0 = 1 → fld n 0 0 = 0 →
      n = setFld (setFld (s.reg i a.off) 0 0 0) 16 16 (fld n 16 16) →
      exec (.streamDisable p val rid) s = .next (drain i (stored a r i m n s))) ∧
    (a = ⟨p, Reg.BAT_FLUSH, setFld val 0 0 1, rid.toNat⟩ → exec (.flush p val rid) s = .next (flushAll i (stored a r i m n s))) ∧
    (a = ⟨p, Reg.BAT_RELEASE, val, rid.toNat⟩ → exec (.batRelease p val rid) s = .next (releaseBuf (fld val 5 0) (fld val 13 8) (stored a r i m n s)))

/-- R378, R409, R441, R448, R450, R451, R522: the enables of the dispatcher and the host queues, VER of a Lode group, the event mask and HST_RESET, when
their conditions hold: enabling a queue starts it at index 0. -/
def Obligations.DispatcherAndHostRegisterRows : Prop :=
  ∀ (p : Port) (val : W32) (rid : W16) (s : State) (r : RegDef) (i m : Nat) (a : RegAcc) (n : W32), m = 2 ^ 32 - 1 → Reaches a r i m s →
    n = newWord a r i m s →
    (a = ⟨p, Reg.LOD_VER, val, rid.toNat⟩ → (∀ u ∈ s.lodeHeld, u.group ≠ i) → (∀ u ∈ s.lodeQ, u.group ≠ i) → groupBusy i s = false →
      exec (.verWrite p val rid) s = .next (stored a r i m n s)) ∧
    (a = ⟨p, Reg.DSP_CTRL, setFld val 0 0 1, rid.toNat⟩ → fld (s.reg i a.off) 0 0 = 0 → fld n 0 0 = 1 → isEnable s = false →
      isEnable (stored a r i m n s) = false → exec (.dispatcherEnable p val rid) s = .next (afterItems (openNext (stored a r i m n s)))) ∧
    (a = ⟨p, Reg.DSP_CTRL, setFld val 0 0 1, rid.toNat⟩ → fld (s.reg i a.off) 0 0 = 0 → fld n 0 0 = 1 → isEnable s = true →
      isEnable (stored a r i m n s) = true → 1 ≤ ((List.range 64).map (pinCount s)).foldl (· + ·) 0 →
      ((List.range 64).map (pinCount s)).foldl (· + ·) 0 ≤ (usable s).length →
      exec (.dispatcherEnable p val rid) s = .next (afterItems (openNext (enableDsp (stored a r i m n s))))) ∧
    (a = ⟨p, Reg.DSP_CTRL, setFld val 0 0 0, rid.toNat⟩ → fld n 0 0 = 0 → exec (.dispatcherDisable p val rid) s = .next (stored a r i m n s)) ∧
    (a = ⟨.pcie, Reg.SQ_CTRL, setFld val 0 0 1, rid.toNat⟩ → fld (s.reg i a.off) 0 0 = 0 → fld n 0 0 = 1 → queueOk s (sqSize s i) (fld n 1 1) = true →
      cqEn s (fld n 15 8) = true → ∃ v, exec (.sqEnable val rid) s = .next v ∧ v.rf i Reg.SQ_HEAD 15 0 = 0 ∧ v.rf i Reg.SQ_TAIL 15 0 = 0 ∧
        v.rf i Reg.SQ_CTRL 0 0 = 1) ∧
    (a = ⟨.pcie, Reg.SQ_CTRL, setFld val 0 0 0, rid.toNat⟩ → fld (s.reg i a.off) 0 0 = 1 → fld n 0 0 = 0 → withEn (s.reg i a.off) 0 = withEn n 0 →
      exec (.sqDisable val rid) s = .next (stored a r i m n s)) ∧
    (a = ⟨.pcie, Reg.CQ_CTRL, setFld val 0 0 1, rid.toNat⟩ → fld (s.reg i a.off) 0 0 = 0 → fld n 0 0 = 1 → queueOk s (cqSize s i) (fld n 1 1) = true →
      exec (.cqEnable val rid) s = .next (startCq i (stored a r i m n s))) ∧
    (a = ⟨.pcie, Reg.CQ_CTRL, setFld val 0 0 0, rid.toNat⟩ → fld (s.reg i a.off) 0 0 = 1 → fld n 0 0 = 0 → cqNamed s i = false →
      withEn (s.reg i a.off) 0 = withEn n 0 → exec (.cqDisable val rid) s = .next (stored a r i m n s)) ∧
    (a = ⟨.pcie, Reg.HST_EVT_MASK, val, rid.toNat⟩ →
      exec (.evtMaskWrite val rid) s = .next (if ((stored a r i m n s).reg 0 Reg.HST_EVT_CAUSE).toNat &&& (n.toNat &&& ((s.reg i a.off).toNat ^^^ n.toNat)) ≠ 0
        then sendMsix ((stored a r i m n s).rf 0 Reg.HST_EVT_VEC 10 0) (stored a r i m n s) else stored a r i m n s)) ∧
    (∀ chk, a = ⟨.pcie, Reg.HST_RESET, setFld val 0 0 1, rid.toNat⟩ →
      exec (.hstResetWarm val rid chk) s = .next (warmTrigger 3 chk (stored a r i m n s)))

/-- R412, R414, R427, R480, R485, R486: the registers of the Peat domain: power limits inside their ranges are stored, a logical array goes off or on, the
head of the fault queue frees the records below it, a journal entry is selected, the spill starts, and an accepted time set waits for the tick. -/
def Obligations.PeatDomainRegisterRows : Prop :=
  ∀ (p : Port) (val : W32) (rid : W16) (s : State) (r : RegDef) (i m : Nat) (a : RegAcc) (n : W32), Reaches a r i m s → n = newWord a r i m s →
    (a = ⟨p, Reg.PWR_LIMIT, val, rid.toNat⟩ → 1500 ≤ n.toNat → n.toNat ≤ 3500 → exec (.pwrLimitWrite p 0 val rid) s = .next (stored a r i m n s)) ∧
    (a = ⟨p, Reg.PWR_HEADROOM, val, rid.toNat⟩ → 10 ≤ n.toNat → n.toNat ≤ 500 → exec (.pwrLimitWrite p 1 val rid) s = .next (stored a r i m n s)) ∧
    (a = ⟨p, Reg.PWR_ACLK_MAX, val, rid.toNat⟩ → n.toNat ≤ 24 → exec (.pwrLimitWrite p 2 val rid) s = .next (stored a r i m n s)) ∧
    (∀ l ph, a = ⟨.pcie, Reg.PWR_OFF_CTRL, setFld val 0 0 1, rid.toNat⟩ → m = 2 ^ 32 - 1 → fld val 1 1 = 0 → l = s.rf 0 Reg.PWR_OFF_IDX 6 0 → l ≤ 95 →
      physOf s l = some ph → s.pst ph ≠ .off → arrHeld s l = false → ∃ v, exec (.pwrOff .pcie val rid) s = .next v ∧ v.pst ph = .off) ∧
    (∀ l ph, a = ⟨.pcie, Reg.PWR_OFF_CTRL, setFld val 1 1 1, rid.toNat⟩ → m = 2 ^ 32 - 1 → fld val 0 0 = 0 → l = s.rf 0 Reg.PWR_OFF_IDX 6 0 → l ≤ 95 →
      physOf s l = some ph → s.pst ph = .off → ∃ v, exec (.pwrOn .pcie val rid) s = .next v ∧ v.pst ph ≠ .off) ∧
    (a = ⟨.pcie, Reg.FLT_HEAD_SEQ, val, rid.toNat⟩ → s.faults.head < n.toNat → n.toNat ≤ s.faults.next → ∃ v, exec (.fltHeadSeqWrite val rid) s = .next v ∧
      v.faults.queue = s.faults.queue.filter (fun e => n.toNat ≤ e.fseq) ∧ v.faults.head = n.toNat ∧ v.faults.next = s.faults.next ∧ v.jrn = s.jrn) ∧
    (∀ ev, a = ⟨.pcie, Reg.JRN_RD, val, rid.toNat⟩ → exec (.jrnRdWrite val rid ev) s = .next (selectEntry (fld n 23 0) ev (s.setReg i a.off n))) ∧
    (a = ⟨.pcie, Reg.JRN_CTRL, setFld val 0 0 1, rid.toNat⟩ → fld (s.reg i a.off) 0 0 = 0 → fld n 0 0 = 1 → spillSlots s ≠ 0 →
      ∃ v, exec (.spillEnable val rid) s = .next v ∧ v.jrn.unspilled = v.jrn.ring.length ∧ v.reg 0 Reg.JRN_SPILL_WR = 0 ∧ v.reg 0 Reg.JRN_SPILL_RD = 0) ∧
    (a = ⟨.pcie, Reg.JRN_SPILL_RD, val, rid.toNat⟩ → fld n 23 0 < spillSlots s → exec (.jrnSpillRdWrite val rid) s = .next (s.setReg i a.off n)) ∧
    (a = ⟨p, Reg.CLK_TB_SET_HI, val, rid.toNat⟩ → s.rf 0 Reg.DSP_CTRL 0 0 = 0 → ∃ v, exec (.tbSetWrite p val rid) s = .next v ∧
      v.tbJump = some (BitVec.ofNat 64 ((joinedLo a i s).toNat + 2 ^ 32 * val.toNat)) ∧ v.tb = s.tb ∧ v.now = s.now) ∧
    (a = ⟨p, Reg.CLK_TB_SET_HI, val, rid.toNat⟩ → s.rf 0 Reg.DSP_CTRL 0 0 = 1 → ∃ v, exec (.tbSetWrite p val rid) s = .next v ∧
      v.tbJump = s.tbJump ∧ v.rf 0 Reg.CLK_STATUS 16 16 = 1)

/-- R358, R387, R306, R314, R315: a coll or med instruction takes the next token, of unit 8 or 9: coll.plan joins the plans that wait to start; coll.slot
and coll.done complete at once on a landed slot; med.submit, med.release and med.advance hand their operands to the decoders. -/
def Obligations.CollectiveAndMediaInstructions : Prop :=
  ∀ (a : Fin 96) (t : Fin 64) (s u v : State) (w ext q : Nat) (x : Thread), Issues s a t w ext u → x = u.th a t → windowFull x = false →
    q = nextSeq x.seq →
    (iCls w = 0xD → iFunc w = 0x0 → u.plans.length + u.planReqs.length < 64 → exec (.collPlan a t) s =
      .next (State.setTh { u with planReqs := u.planReqs ++ [⟨a, t, q, (x.sreg (iRa w)).toNat, x.item⟩] } a t ((x.withToken w 8).after w))) ∧
    (iCls w = 0xD → v = u.setTh a t (x.withToken w 8) → ∀ k p, gatherAt ((x.sreg (iRa w)).toNat % 65536) (x.sreg (iRb w)).toNat v = some (k, p) →
      (p.stAt (x.sreg (iRb w)).toNat).landed = true →
      (iFunc w = 0x1 → exec (.collSlot a t) s = .next (advance a t w (opOk a t q v))) ∧
      (iFunc w = 0x2 → (p.stAt (x.sreg (iRb w)).toNat).marked = false →
        exec (.collDone a t) s = .next (advance a t w (opOk a t q (markFetch k p (x.sreg (iRb w)).toNat v))))) ∧
    (iCls w = 0xE → unitBusy u a 9 < 64 → v = u.setTh a t (x.withToken w 9) →
      (iFunc w = 0x0 → exec (.medSubmit a t) s =
        .next (advance a t w (medSubmit a t q (iImm w % 1024) (if iLong w then ext % 2 ^ 32 else q) (x.dreg (iRa w % 16)) v))) ∧
      (iFunc w = 0x1 → exec (.medRelease a t) s = .next (advance a t w (opOk a t q (releaseFb ((x.sreg (iRa w)).toNat % 1024) v)))) ∧
      (iFunc w = 0x2 → exec (.medAdvance a t) s = .next (advance a t w (medAdvance a t q (iImm w % 1024) (x.sreg (iRa w)) v))))

/-- R426, R427: the tick after an accepted CLK_TB_SET write gives the time base the written value, any other tick 1 more, while elapsed time goes on by 1,
no host access waiting (an empty queue is one tick: the model's choice, log entry 2); before the Peat domain is up the time base stands. -/
def Obligations.TickAdvancesTheTimeBase : Prop :=
  ∀ s : State,
    (s.pending = [] → step s = .next (tick s)) ∧
    (s.busHeld = [] → (tick s).now = s.now + 1 ∧ (tick s).tb = (if s.up.peat then (s.tbJump.getD (s.tb + 1)) else s.tb)) ∧
    (s.busHeld = [] → s.up.peat = true → ∀ j, s.tbJump = some j → ∃ v, exec .timeBaseJump s = .next v ∧ v.tb = j ∧ v.tbJump = none ∧ v.now = s.now + 1)

/-- R415, R417 to R419: a lock inside the 500-tick window turns the PLL on and lets the accesses of its domain that are inside their window go on; at the
window's end the start has failed; ACLK and MCLK stop when everything they clock has been idle long enough; a lost reference clock clears its REF_OK bit
with a REF_LOST record, and a returned one sets it. -/
def Obligations.ClockStartsAndStops : Prop :=
  ∀ s : State,
    (∀ d n, (s.pll d).starting = some n → s.now < n + 500 → exec (.pllLock d) s = .next (lockPll d s)) ∧
    (∀ d n, d ≠ .phy → (s.pll d).starting = some n → s.now < n + 500 → s.clkWait = [] → s.busHeld = [] →
      ∃ v, exec (.pllLock d) s = .next v ∧ (v.pll d).on = true ∧ (v.pll d).starting = none ∧ (v.pll d).fails = 0) ∧
    (∀ d n, (s.pll d).starting = some n → n + 500 ≤ s.now → exec (.clkStartTimeout d) s = .next (drainBus (bootPll d (clockTimeout d s)))) ∧
    (s.aclk.on = true → (∀ e ∈ s.pstate, e.2 ≠ .run) → s.waking = [] → s.rf 0 Reg.PWR_PLL_OFF_TICKS 23 0 ≠ 0 →
      s.pw.aclkIdle + s.rf 0 Reg.PWR_PLL_OFF_TICKS 23 0 ≤ s.now →
      ∃ v, exec .aclkPllStop s = .next v ∧ v.aclk.on = false ∧ v.mclk = s.mclk ∧ v.mem = s.mem) ∧
    (s.mclk.on = true → mclkIdleNow s = true → s.rf 0 Reg.CLK_MCLK_PLL_OFF_TICKS 23 0 ≠ 0 →
      s.pw.mclkIdle + s.rf 0 Reg.CLK_MCLK_PLL_OFF_TICKS 23 0 ≤ s.now → (∀ w ∈ s.clkWait, w.1 ≠ .mclk) →
      ∃ v, exec .mclkPllStop s = .next v ∧ v.mclk.on = false ∧ v.aclk = s.aclk ∧ v.mem = s.mem) ∧
    (∀ k : Fin 256, unitIdle s k = true → ∃ v, exec (.unitClockStop k) s = .next v ∧ k.val ∈ v.pw.gates ∧ v.regs = s.regs) ∧
    (s.up.peat = true → s.rf 0 Reg.CLK_STATUS 8 8 = 1 → s.faults.queue.length < 1024 → ∃ v r, exec (.refclkLoss false) s = .next v ∧
      v.linkUp = false ∧ v.rf 0 Reg.CLK_STATUS 8 8 = 0 ∧ v.faults.queue = s.faults.queue ++ [r] ∧ r.cls = .refLost) ∧
    (s.up.peat = true → s.rf 0 Reg.CLK_STATUS 9 9 = 1 →
      exec (.refclkLoss true) s = .next (cwyDown (refLost 7 (s.setRf 0 Reg.CLK_STATUS 9 9 0)))) ∧
    (s.up.peat = true → ∀ c : Bool, ∃ v, exec (.refclkReturn c) s = .next v ∧
      v.rf 0 Reg.CLK_STATUS (if c then 9 else 8) (if c then 9 else 8) = 1)

/-- R124, R410, R411, R413, R414: an array without work for IDLE_CYC cycles goes from RUN to IDLE, from there after RET_TICKS to RET, and a finished wake
serves it in RUN; each control period of 2,500 ticks moves the ACLK code by the measured power, and the array clock takes the code. -/
def Obligations.ArrayPowerStatesAndPowerLoop : Prop :=
  ∀ s : State,
    (∀ p : Fin 100, s.pst p = .run → arrBusy s p = false → s.rf 0 Reg.PWR_IDLE_CYC 15 0 ≠ 0 →
      4 * s.rf 0 Reg.PWR_IDLE_CYC 15 0 ≤ (s.now - arrFrom s p) * (80 + 5 * s.rf 0 Reg.PWR_ACLK 4 0) →
      ∃ v, exec (.arrayIdleEntry p) s = .next v ∧ v.pst p = .idle ∧ (∀ j, j ≠ p.val → v.pst j = s.pst j) ∧ v.mem = s.mem ∧ v.regs = s.regs) ∧
    (∀ p : Fin 100, s.pst p = .idle → SMap.get? s.waking p = none → s.rf 0 Reg.PWR_RET_TICKS 23 0 ≠ 0 →
      arrFrom s p + s.rf 0 Reg.PWR_RET_TICKS 23 0 ≤ s.now →
      ∃ v, exec (.arrayRetEntry p) s = .next v ∧ v.pst p = .ret ∧ (∀ j, j ≠ p.val → v.pst j = s.pst j) ∧ v.mem = s.mem ∧ v.regs = s.regs) ∧
    (∀ p : Fin 100, mayWake p s = true → exec (.arrayWakeDone p) s = .next (drainBus (wakeDone p s))) ∧
    (∀ p : Fin 100, 96 ≤ p.val → mayWake p s = true → logicalOf s p ≠ none → exec (.spareInRun p) s = .next (drainBus (wakeDone p s))) ∧
    (∀ watts c limit : Nat, s.up.peat = true → s.pw.pwrFrom + 2500 ≤ s.now → c = s.pw.pwrC → limit = s.rf 0 Reg.PWR_LIMIT 11 0 →
      ∃ v, exec (.powerControlPeriod watts) s = .next v ∧ v.pw.pwrFrom = s.pw.pwrFrom + 2500 ∧
        v.pw.pwrC = (if s.rf 0 Reg.PWR_ACLK_MAX 4 0 < c then s.rf 0 Reg.PWR_ACLK_MAX 4 0
          else if limit < watts then c - 2
          else if limit - s.rf 0 Reg.PWR_HEADROOM 8 0 ≤ watts then c
          else min (s.rf 0 Reg.PWR_ACLK_MAX 4 0) (c + 1)) ∧
        v.rf 0 Reg.PWR_POWER 11 0 = min watts 4095) ∧
    (s.up.peat = true → s.pw.pwrC < 32 → ∃ v, exec .aclkChange s = .next v ∧ v.rf 0 Reg.PWR_ACLK 4 0 = s.pw.pwrC ∧ v.mem = s.mem)

/-- R18, R30, R33, R84 to R87, R92, R96: an invalidation that ends drops the cached translations of its range; a walk of a page that is not cached answers
with its physical address or its fault, which a unit records; tier-2 and SRAM accesses are served where their package or array is ready and wait where it is
not (before the fill's end an address may be filled already: a free value, log entry 171), a package idle for 100 µs enters self-refresh and leaves it on
demand, the fill's end makes tier 2 ready, and the checkpoint engine copies one entry's frame. -/
def Obligations.MemorySideCommands : Prop :=
  ∀ s : State,
    (∀ va n, s.inval = some (va, n) → ∃ v, exec .mmuInvalidationDone s = .next v ∧
      v.tlb = s.tlb.filter (fun e => decide (e.va + e.size ≤ va) || decide (va + n ≤ e.va)) ∧ v.inval = none ∧
      v.rf 0 Reg.MMU_INV_STATUS 0 0 = 0 ∧ v.rf 0 Reg.MMU_INV_STATUS 1 1 = 1 ∧ v.mem = s.mem) ∧
    (∀ (va : Fin 281474976710656) (need : Perm) (rid : W16) (pa : Nat) (s1 : State), unitsOn s = true → tlbFind s va = none →
      translate { rid := rid.toNat, va := va } va need s = (.ok pa, s1) →
      exec (.tableWalk va need rid) s = .next (s1.emit (.memReply rid.toNat .ok (leBytes 8 pa)))) ∧
    (∀ (va : Fin 281474976710656) (need : Perm) (rid : W16) (f : Fail) (s1 : State), unitsOn s = true → tlbFind s va = none →
      translate { rid := rid.toNat, va := va } va need s = (.error f, s1) →
      exec (.tableWalk va need rid) s =
        .next ((if 0x1000 ≤ rid.toNat ∧ rid.toNat < 0x2800 then s1 else unitFault rid.toNat va f s1).emit (.memReply rid.toNat f.st []))) ∧
    (∀ (q : MemReq) (ev : HbmEvent), unitsOn s = true → regionOf q.pa = .tier2 → q.len ≠ 0 → backing s q.pa ≠ none → t2Short s = false →
      (t2Awake q s = true → s.rf 0 Reg.T2_STATUS 1 1 = 1 → exec (.tier2Access q ev) s = .next (serveT2 q ev s)) ∧
      (t2Awake q s = true → s.rf 0 Reg.T2_STATUS 1 1 = 0 → exec (.tier2Access q ev) s = .next (serveT2 q ev { s with free := s.free + 1 }) ∨
        exec (.tier2Access q ev) s = .next { s with free := s.free + 1, t2Wait := s.t2Wait ++ [q] }) ∧
      (t2Awake q s = false → exec (.tier2Access q ev) s = .next { s with t2Wait := s.t2Wait ++ [q] })) ∧
    (∀ (q : MemReq) (ev : BitErr) (n o m : Nat), unitsOn s = true → regionOf q.pa = .sram n o → servingArray s n = some m →
      (s.pst m = .run → exec (.sramAccess q ev) s = .next (serveSram q ev (arrayUp m s))) ∧
      (s.pst m ≠ .run → s.aclk.on = true → exec (.sramAccess q ev) s =
        .next (beginWake m { s with sramWait := SMap.put s.sramWait m (SMap.getD s.sramWait m [] ++ [q]) }))) ∧
    (∀ pkg : Fin 32, pkg.val ∉ s.selfRef → SMap.getD s.t2Last pkg 0 + 2500 ≤ s.now → pkg.val < s.t2Count →
      (∀ q ∈ s.t2Wait, pkg.val ∉ t2Pkgs s q.pa q.len) → s.rf 0 Reg.T2_STATUS 1 1 = 1 →
      ∃ v, exec (.selfRefreshEntry pkg) s = .next v ∧ pkg.val ∈ v.selfRef ∧ v.mem = s.mem ∧ v.regs = s.regs) ∧
    (∀ pkg : Fin 32, t2Held s = false → exec (.selfRefreshExit pkg) s = .next (drainBus (drainT2 { s with selfRef := setDel s.selfRef pkg }))) ∧
    (s.rf 0 Reg.T2_STATUS 1 0 = 1 → t2Short s = false → s.t2Wait = [] → s.busHeld = [] →
      ∃ v, exec .tier2FillDone s = .next v ∧ v.rf 0 Reg.T2_STATUS 1 1 = 1 ∧ v.mem = s.mem) ∧
    (∀ r e s1, s.ckp = some r → ckpEntry r.va r.entry s = (.ok e, s1) → exec .checkpointFrameCopy s = .next (ckpStep r e s1))

/-- R77 to R81: a pseudo-channel admits and serves a request, or fails all of them once it is down; a parity error is retried with the request in its place,
and the third failed retry fails the channel; the scrubber, no checkpoint list running, reads its next word, of tier 2 or of class W HBM; a poll updates
every stack's temperature. -/
def Obligations.HbmCommands : Prop :=
  ∀ s : State,
    (∀ (pc : Fin 1024) (arr : List MemReq) (pick : Nat) (ev : HbmEvent) (s1 : State), s.rf 0 Reg.MEM_STATUS 1 1 = 1 →
      s1 = s.setPc pc { s.pc pc with
        waiting := (s.pc pc).waiting ++ (arriving pc s arr).map (fun q => (q, (s.pc pc).cyc)), cyc := (s.pc pc).cyc + 1 } →
      (pcDown s pc = none → exec (.hbmAccess pc arr pick ev) s = .next (serveOne pc pick ev (admitOne pc s1))) ∧
      (pcDown s pc ≠ none → exec (.hbmAccess pc arr pick ev) s = .next (failAll pc s1))) ∧
    (∀ (pc : Fin 1024) i r, (s.pc pc).queue.findIdx? (fun o => o.fails != 0) = some i → (s.pc pc).queue[i]? = some r →
      (exec (.interfaceRetry pc false) s =
        .next (serveHbm r.q .clean ((s.count pc Reg.MEM_PC_RETRY 1).setPc pc { s.pc pc with queue := (s.pc pc).queue.eraseIdx i }))) ∧
      (3 ≤ r.fails → exec (.interfaceRetry pc true) s = .next (failPc pc r.q (s.count pc Reg.MEM_PC_RETRY 1))) ∧
      (r.fails < 3 → ∃ v, exec (.interfaceRetry pc true) s = .next v ∧
        (v.pc pc).queue = (s.pc pc).queue.set i { r with fails := r.fails + 1 } ∧ v.mem = s.mem)) ∧
    (∀ ev pa, s.ckp = none → s.rf 0 Reg.T2_CTRL 7 0 ≠ 0 → s.rf 0 Reg.T2_STATUS 1 1 = 1 → s.t2Count ≠ 0 → pa = 0x040000000000 + s.scrubT2 →
      exec (.scrubRead true ev) s = .next (scrubWord pa (t2Pkg s pa) (t2Pkg s pa) Reg.T2_PKG_CE ev
        (scrubReach pa { s with scrubT2 := (s.scrubT2 + 64) % (s.t2Count * 0x1000000000) }))) ∧
    (∀ ev pa, s.ckp = none → s.rf 0 Reg.MEM_CTRL 15 8 ≠ 0 → s.rf 0 Reg.MEM_STATUS 1 1 = 1 → pa = nextScrub s (s.classA.length + 1) s.scrubHbm →
      isClassA s pa = false → pcDown s (hbmPc s pa) = none → exec (.scrubRead false ev) s =
        .next (scrubWord pa (hbmPc s pa) (hbmPc s pa / 32) Reg.MEM_STK_CE ev (scrubReach pa { s with scrubHbm := (pa + 64) % 0x00C000000000 }))) ∧
    (∀ temps : List Nat, s.rf 0 Reg.MEM_STATUS 0 0 = 1 → exec (.thermalPoll temps) s = .next ((List.range 32).foldl (fun u k =>
      match temps[k]? with
      | some c => pollStack k c u
      | none => u) s))

/-- R99, R105, R115: a load or stream that waited begins when its buffer allows, a load ends with its tile in place, and a mode change that no earlier
operation of another thread delays leaves the grid in its mode, every partition unowned, with only the Rush tile. -/
def Obligations.GridOperationsBeginAndEnd : Prop :=
  ∀ (a : Fin 96) (s : State),
    (∀ (part : Fin 17) o, waitingOp (s.gr a) .load part = some o → exec (.tileLoadBegin a part) s = .next (tryBegin a o s)) ∧
    (∀ (part : Fin 17) o, waitingOp (s.gr a) .stream part = some o → exec (.streamBegin a part) s = .next (tryBegin a o s)) ∧
    (∀ (part : Fin 17) (buf : Fin 2) o tile s1,
      (s.gr a).ops.find? (fun x => x.kind = .load && x.part = part.val && x.buf = buf.val && x.begun) = some o →
      readTile (thrCtx s a o.thr) a (s.gr a).mode o s = (.ok tile, s1) →
      exec (.tileLoadDone a part buf) s = .next (endOp a o { st := .ok }
        (putTile a o tile s1))) ∧
    (∀ o, (s.gr a).ops.find? (fun x => x.kind = .part) = some o → ((s.gr a).before o).any (fun p => p.part ≠ rush || p.thr = o.thr) = false →
      ∃ v, exec (.partModeChange a) s = .next v ∧ (v.gr a).mode = o.mode ∧ (v.gr a).own = [] ∧
        (∀ e ∈ (v.gr a).tiles, e.1 = tileKey rush 0) ∧ (∀ x ∈ (v.gr a).ops, ¬(x.thr = o.thr ∧ x.seq = o.seq)))

/-- R102, R106, R114, R118, R120, R144 to R146: of the partitions with a row ready the one the pointer of the weight port grants enters its row; output rows
are written, their row and column sums are checked, blocks are recomputed, the expander fetches the blocks of a stream, and a lane decodes the block it
holds. -/
def Obligations.StreamRowsAndChecks : Prop :=
  ∀ (a : Fin 96) (part : Fin 17) (s : State) (o : GOp) (p : Nat), physOf s a = some p →
    (∀ s1, rrGrant (rrPort a) (readyParts (s.gr a)) (countStall (s.gr a) p s) = some (part.val, s1) → portStream (s.gr a) part = some o →
      ((Desc.ofWord o.da).layout = 3 → exec (.weightRowEntry a part) s = .next (enterRow a p o (blockRow o o.tk) s1)) ∧
      (∀ w s2, (Desc.ofWord o.da).layout ≠ 3 → readWeights a o s1 = (.ok w, s2) → exec (.weightRowEntry a part) s = .next (enterRow a p o w s2))) ∧
    (∀ n w r flt, pendStream (s.gr a) part = some o → o.pend = (n, w) :: r → partHeld (s.gr a) part = false → rowHeld (s.gr a) o n = false →
      exec (.outputRowWrite a part flt) s = .next (writeRow a p o n w r (rowFault o n flt) s)) ∧
    (∀ k t, checkStream (s.gr a) part = some o → o.groupRows.find? (fun j => !j.chk) = some k → o.tile = some t → o.recomp = false → o.ckcol = false →
      rowWrong (tauExp s) o t k = false → exec (.rowCheck a part false) s = .next (s.setGr a ((s.gr a).setOp { o with
        keep := o.keep.map (fun j => if j.n = k.n then { j with chk := true, bad := false, mism := false } else j) }))) ∧
    (∀ t, checkStream (s.gr a) part = some o → o.tile = some t → o.recomp = false → o.groupWhole = true →
      (∀ k ∈ o.groupRows, k.chk = true ∧ k.mism = false) → (∀ l < t.pm, laneWrong (tauExp s) o t o.groupRows l = false) →
      exec (.columnCheck a part none) s = .next (passGroup a o (s.count p Reg.ARR_COL_MISMATCH 0))) ∧
    (∀ t, (s.gr a).ops.find? (fun j => j.part = part.val && j.recomp) = some o → o.tile = some t →
      exec (.recomputeDone a part true) s =
        .next (checkEvent a p { o with inj := none } (o.r0 + 256 * o.group) 0xFFFF 1 (s.count p Reg.ARR_RECOMPUTES 1))) ∧
    (∀ t o1, (s.gr a).ops.find? (fun j => j.part = part.val && j.recomp) = some o → o.tile = some t →
      o1 = { o with keep := o.keep.map (fun k => if k.n / 256 = o.group then { k with err := none, chk := true, bad := false, mism := false } else k) } →
      groupWrong (tauExp s) o1 t o1.groupRows = false →
      exec (.recomputeDone a part false) s = .next (if o1.groupWhole = true then passGroup a o1 (replayRows p o t s)
        else (replayRows p o t s).setGr a (((replayRows p o t s).gr a).setOp
          { o1 with recomp := false, inj := if o.injected = true then none else o.inj }))) ∧
    (∀ b s1, rowStream (s.gr a) part = some o → (Desc.ofWord o.da).layout = 3 → (s.gr a).fetchedAhead o < 64 → o.fetched < o.blocks →
      fetchBlock a o o.fetched s = (.ok b, s1) →
      exec (.expanderFetch a part) s = .next (settleLanes a (putStream a { o with fetched := o.fetched + 1, raw := o.raw ++ [b] } s1))) ∧
    (∀ (lane : Fin 32) l t d o1 s1, SMap.get? (s.gr a).lanes lane.val = some l → (s.gr a).ofLane l = some o → l.done = none →
      tableOf s a (cmprTable o.da) (cmprGen o.da) = some t → decodeLane a p t o l s = (d, o1, s1) →
      exec (.blockDecode a lane) s = .next (settleLanes a (s1.setGr a { (s1.gr a).setOp o1 with
        lanes := SMap.put ((s1.gr a).setOp o1).lanes lane.val { l with done := some d } })))

/-- R123, R124, R213, R216: a failing array is fenced once, then its logical number moves to the lowest free spare, or is retired with none free; the
descriptor engine runs the oldest transfer of the queue its pointer grants. -/
def Obligations.RemapAndTransferStart : Prop :=
  ∀ s : State,
    (∀ (ph : Fin 100) a t, logicalOf s ph = some a → SMap.get? s.failing ph = some t → ph.val ∉ s.fencedArr →
      ∃ v, exec (.arrayFence ph) s = .next v ∧ ph.val ∈ v.fencedArr ∧ SMap.get? v.grid a = none) ∧
    (∀ (ph : Fin 100) a p r, ph.val ∈ s.fencedArr → logicalOf s ph = some a → freeSpares s = p :: r →
      exec (.arrayRemap ph) s = .next (moveTo ph a p s)) ∧
    (∀ (ph : Fin 100) a, ph.val ∈ s.fencedArr → logicalOf s ph = some a → freeSpares s = [] →
      exec (.arrayRemap ph) s = .next (retireLogical ph a s)) ∧
    (∀ (a : Fin 96) q op r s1, rrGrant (rrDma a) ((List.range 4).filter (fun j => dmaQueue s a j ≠ [])) s = some (q, s1) →
      dmaQueue s1 a q = op :: r → exec (.dmaTransferStart a) s = .next (dmaRun a op (wakeSlot a q (setDmaQueue a q r s1))))

/-- R272, R279 to R281: on a port whose link is up, a frame of a wrong length or FCS counts in DROP_FCS, a pause frame counts nothing, one that fails the
filter counts in DROP_FILTER, one of a disabled port in DROP_PRE_EN, one that Sluice has no room for in DROP_OVF, and any other is taken. R280, R283: XOFF
is repeated after 1,000 ticks. R275 to R278: the frame at Sluice's head is reassembled when its ring has room, a lost frame ends its open sample SHORT, and
an ended sample becomes visible by WR_PTR. R283, R285: a link up lets flow control go on or holds XOFF; a link down leaves what Sluice holds, with a mark
behind it at which the samples still open end SHORT. -/
def Obligations.IntakeCommands : Prop :=
  ∀ (port : Fin 2) (s : State) (p : Nat), p = port.val →
    (∀ f : List Byte, s.rf p Reg.ITK_PSTATUS 0 0 = 1 →
      ((f.length < 64 ∨ 9216 < f.length ∨ fcsOk f = false) → ∃ v, exec (.intakeFrameReceive port f) s = .next v ∧ v = s.count p Reg.ITK_DROP_FCS 1) ∧
      (64 ≤ f.length → f.length ≤ 9216 → fcsOk f = true →
        (isPause f = true → exec (.intakeFrameReceive port f) s = .next s) ∧
        (isPause f = false → filterOk p f s = false → exec (.intakeFrameReceive port f) s = .next (s.count p Reg.ITK_DROP_FILTER 1)) ∧
        (isPause f = false → filterOk p f s = true → s.rf p Reg.ITK_PCTRL 0 0 = 0 →
          exec (.intakeFrameReceive port f) s = .next (s.count p Reg.ITK_DROP_PRE_EN 1)) ∧
        (isPause f = false → filterOk p f s = true → s.rf p Reg.ITK_PCTRL 0 0 = 1 →
          (67108864 < itkFill s p + f.length + 8 → exec (.intakeFrameReceive port f) s = .next (overflowFrame p f s)) ∧
          (itkFill s p + f.length + 8 ≤ 67108864 → exec (.intakeFrameReceive port f) s = .next (storeFrame p f s))))) ∧
    (s.rf p Reg.ITK_PSTATUS 1 0 = 3 → (s.iport p).xoffAt + 1000 ≤ s.now → ∃ v, exec (.xoffRepeat port) s = .next v ∧
      v.out = .pfc p (s.rf p Reg.ITK_PCTRL 6 4) 0xFFFF :: s.out ∧ v.mem = s.mem) ∧
    (s.mclk.on = true → (∀ n r, (s.iport p).frames = .lost n :: r → exec (.sluiceDrain port) s =
        .next (settle p (endSample p n 2 (s.setIport p { s.iport p with frames := r })))) ∧
      (∀ dis r, (s.iport p).frames = .cut dis :: r → exec (.sluiceDrain port) s = .next (settle p s)) ∧
      (∀ h o tick r, (s.iport p).frames = .seg h o tick :: r → (ringBytes s p (segStream h) = 0 ∨ ringRoom s p (segStream h) h = true) →
        exec (.sluiceDrain port) s =
          .next (settle p (flowControl p (itkFill s p) (takeSeg p h tick (s.setIport p { s.iport p with frames := r })))))) ∧
    (∀ (n : Fin 256) h r, (s.ist p n).vis = h :: r → h < 2 ^ 32 → ∃ v, exec (.sampleRecordVisible port n) s = .next v ∧
      (v.reg (256 * p + n) Reg.ITK_WR_PTR).toNat = h ∧ (v.ist p n).vis = r ∧ v.mem = s.mem) ∧
    (s.rf p Reg.ITK_PSTATUS 0 0 = 0 → s.rf 0 Reg.CLK_STATUS 9 9 ≠ 0 → s.up.cfgReady = true → p ∉ s.up.itkGone →
      exec (.intakeLinkUp port) s = .next (if itkEn s p then resumeFlow p (s.setRf p Reg.ITK_PSTATUS 0 0 1)
        else sendXoff p (s.setRf p Reg.ITK_PSTATUS 0 0 1))) ∧
    (s.rf p Reg.ITK_PSTATUS 0 0 = 1 → exec (.intakeLinkDown port) s = .next (if itkEn s p then cutPort p false (s.setRf p Reg.ITK_PSTATUS 0 0 0)
      else s.setRf p Reg.ITK_PSTATUS 0 0 0))

/-- R292 to R295, R298, R306 to R308, R312: an enabled context with room admits its oldest sample, of several for one batch stream the one that the
stream's pointer grants (a row that names another does nothing: the model's choice, log entry 18), an idle core takes the oldest eligible one, reads its
header and checks it, areas are reserved in admission order, an HEVC picture takes the lowest free buffer of its reservation, a read source moves the read
pointer on, a decoded sample is written and its record shown in admission order, and a tokeniser load that no sample waits on ends. -/
def Obligations.MediaCommands : Prop :=
  ∀ s : State,
    (∀ (ctx : Fin 1024) (c : Nat) (v : State), c = ctx.val → medEn s c = true → sourceWaits s c = true → (s.mctx c).samples.length < 64 →
      slotFree s (medBs s c) = true → (medF s c 3 1 = 5 → s.rf 0 (tokReg Reg.TOK0_STATE (medF s c 24 24)) 1 1 = 0) →
      (medBs s c = 0xFF ∧ v = s ∨ medBs s c ≠ 0xFF ∧ rrGrant (rrAdmit (medBs s c)) (admitRivals s c) s = some (c, v)) →
      (medF s c 6 4 = 0 → ∀ u r, (s.mctx c).submits = u :: r → exec (.sampleAdmit ctx) s = .next (admitSample
        (newSample v c u.id u.len (medF s c 3 1) false (.desc u.da) (some (u.a, u.thr, u.seq))) (v.setMctx c { s.mctx c with submits := r }))) ∧
      (medF s c 6 4 ≠ 0 → s.mclk.on = true → exec (.sampleAdmit ctx) s = .next (admitRing c v))) ∧
    (∀ (eng : Fin 5) k m, (coresOf eng).find? (fun j => (coreSample s j).isNone) = some k → oldestSample s eng = some m → s.mclk.on = true →
      exec (.decodeStart eng) s = .next (startOn k m s)) ∧
    (∀ (core : Fin 72) head m b h s1, coreSample s core = some m → m.stage = .header → readHead core head m (coreOn core s) = (.ok b, s1) → h = headerOf s1 m b →
      (headerCause s1 m h = .none → exec (.sampleHeaderRead core head) s = .next (notePicture m h
        (putSample { m with stage := .area, hdr := some h, length := areaLength m h } (keepParams m b s1)))) ∧
      (headerCause s1 m h ≠ .none → exec (.sampleHeaderRead core head) s = .next (advanceSource core m.ctx (markRead m (putSample
        (rejectSample m (some h) { st := (headerCause s1 m h).status } (headerCause s1 m h).code) (keepParams m b s1)))))) ∧
    (∀ (core : Fin 72) m, coreSample s core = some m → m.stage = .area → m.area = none →
      (∀ j ∈ (s.mctx m.ctx).samples, j.order < m.order → j.area ≠ none) → outUsed s m.ctx + 192 + m.length ≤ (outRing s m.ctx).2 →
      ∃ v, exec (.areaReserve core) s = .next v ∧
        v = putSample { m with area := some (s.mctx m.ctx).head, stage := if m.mt = 1 ∧ m.fail.st = .ok then .buffer else .decode }
          (s.setMctx m.ctx { s.mctx m.ctx with
            head := ((s.mctx m.ctx).head + 128 + m.length) % (outRing s m.ctx).2
            areas := (s.mctx m.ctx).areas ++ [(m.order, ((s.mctx m.ctx).head + 128 + m.length) % (outRing s m.ctx).2, false)] })) ∧
    (∀ (core : Fin 72) refs m h u, coreSample s core = some m → m.stage = .buffer → m.hdr = some h → u = markRefs m.ctx h.keep (coreOn core s) →
      (∀ b, (ctxBufs u m.ctx).find? (fun e => e.2.free) = some b → exec (.frameBufferAcquire core refs) s =
        .next (putSample { m with fb := some b.1, stage := .decode, refCon := usesConcealed u m.ctx refs }
          (setFb b.1 (fun x => { x with dec := true, poc := h.poc, dirty := false }) u))) ∧
      ((ctxBufs u m.ctx).find? (fun e => e.2.free) = none → exec (.frameBufferAcquire core refs) s =
        .next (coreIdle core (putSample { m with core := none } u)))) ∧
    (∀ (core : Fin 72) m b s1, coreSample s core = some m → m.read = false → m.stage ≠ .header → m.stage ≠ .done →
      srcRead (coreReq core) m 0 m.len s = (.ok b, s1) → exec (.sourceReadDone core) s =
        .next (advanceSource core m.ctx (markRead m (putSample { m with read := true, bytes := b } s1)))) ∧
    (∀ (core : Fin 72) d m, coreSample s core = some m → m.stage = .decode → m.read = true → s.mclk.on = true →
      exec (.decodeDone core d) s = .next (decodeDone core m d s)) ∧
    (∀ (ctx : Fin 1024) m r, (s.mctx ctx).samples = m :: r → m.stage = .done → exec (.outputRecordVisible ctx) s = .next (showRecord m s)) ∧
    (∀ k : Fin 2, s.rf 0 (tokReg Reg.TOK0_STATE k) 1 1 = 1 → setBusy k s = false → s.mclk.on = true →
      (∀ t s1, loadSet k s = (.ok t, s1) → exec (.tokLoadDone k) s = .next (endLoad k .ok { s1 with toksets := SMap.put s1.toksets k t })) ∧
      (∀ f s1, loadSet k s = (.error f, s1) → exec (.tokLoadDone k) s = .next (endLoad k f.st s1)))

/-- R320 to R323: the oldest slot with a bucket takes the next position of its bucket's open batch, the oldest batch with waiting samples composes the
next of them, a closed batch is offered in turn with the batch number of its stream, and a batch whose flush window ends is flushed. -/
def Obligations.ComposerCommands : Prop :=
  ∀ (stream : Fin 64) (s : State) (n : Nat), n = stream.val →
    (∀ c r k, (s.bst n).queue = c :: r → c.bucket = some k → s.mclk.on = true → exec (.positionAssign stream) s = .next (drain n (assignTo n k c
      (match openBatch s n k with
        | some x => if windowOver s n x then flushBatch n x s else s
        | none => s)))) ∧
    (∀ (k : Fin 16) x, (s.bst n).batches.find? (fun j => j.bucket = k.val && !j.wait.isEmpty) = some x → s.mclk.on = true →
      exec (.sampleComposeDone stream k) s = .next (composeNext n x s)) ∧
    (∀ b r, (s.bst n).closed = b :: r → exec (.batchOffer stream) s = .next (afterItems (putBst n { s.bst n with
      closed := r, offered := (s.bst n).offered ++ [((s.bst n).count, b)], count := (s.bst n).count + 1 } s))) ∧
    (∀ (k : Fin 16) x, openBatch s n k = some x → windowOver s n x = true → s.mclk.on = true →
      exec (.flushWindowEnd stream k) s = .next (drain n (flushBatch n x s)))

/-- R339, R340, R343, R352 to R354: a good flit is taken and a bad one discarded, a lost frame counts and is discarded (the model's reading, log entry 76),
a down notice takes the port down; a receiver that
discards repeats its NAK after 50 ticks; a port sends a due NAK first, then what it sends again, then a new flit, else an IDLE. R350, R351: a lane fails that is lost or shows more
corrected symbols than LANE_SER_MAX, and is dropped with a record while two lanes stay, the rest retrained; with fewer, or after 250 ticks of silence, the port is down. A trained port sends its INIT flit and goes to UP,
or stays in INIT where its peer is its own module, and a port that has reached OFF is cleared. -/
def Obligations.PortCommands : Prop :=
  ∀ (p : Fin 12) (s : State) (k : Nat), k = p.val →
    (portUp s k = true →
      (∀ b, flitOk b = true → exec (.flitReceive p (.flit b)) s =
        .next (takeFlit k (Flit.ofBytes b) (modPort k (fun x => { x with lastRx := s.now }) s))) ∧
      (∀ b, flitOk b = false → exec (.flitReceive p (.flit b)) s = .next (discardFlit k (modPort k (fun x => { x with lastRx := s.now }) s))) ∧
      exec (.flitReceive p .fecLost) s = .next (discardFlit k (s.count k Reg.CWY_FEC_UNCORR 1)) ∧
      exec (.flitReceive p .peerDown) s = .next (portDown k 4 s) ∧
      ((s.cport k).discard = true → (s.cport k).nakAt + 50 ≤ s.now →
        exec (.nakRepeat p) s = .next (s.setCport k { s.cport k with nakDue := true, nakAt := s.now })) ∧
      ((s.cport k).lastRx + 250 ≤ s.now → exec (.linkSilenceTimeout p) s = .next (portDown k 3 s)) ∧
      ((s.cport k).held = false →
        ((s.cport k).nakDue = true → exec (.flitTransmit p) s = .next (sendFlit k (bareFlit 2) (s.setCport k { s.cport k with nakDue := false }))) ∧
        (∀ r, (s.cport k).nakDue = false → (s.cport k).retry[(s.cport k).again]? = some r → exec (.flitTransmit p) s =
          .next (sendFlit k r.flit ((s.setCport k { s.cport k with again := (s.cport k).again + 1 }).count64 k Reg.CWY_FLITS_TX_LO 1))) ∧
        (∀ v m, (s.cport k).nakDue = false → (s.cport k).retry[(s.cport k).again]? = none → (s.cport k).retry.length < 768 →
          pickVc s k = some v → vcReady s k v = some m → exec (.flitTransmit p) s = .next (sendNew k m s)) ∧
        ((s.cport k).nakDue = false → (s.cport k).retry[(s.cport k).again]? = none → (768 ≤ (s.cport k).retry.length ∨ pickVc s k = none) →
          exec (.flitTransmit p) s = .next (sendFlit k (bareFlit 0) s))) ∧
      (∀ (tx : Bool) (lane : Fin 4) cause, (lanes s k tx).testBit lane = true →
        (cause = .lost ∨ ∃ n, cause = .symbols n ∧ s.rf k Reg.CWY_LANE_SER_MAX 17 0 < n) → ∃ v, exec (.laneFailure p tx ⟨lane, cause⟩) s = .next v ∧
        (if tx then (v.cport k).badTx else (v.cport k).badRx).testBit lane = true ∧ v.regs = s.regs) ∧
      (∀ (tx rx n : Nat) (s0 : State), s0 = (if lanes s k false &&& (s.cport k).badRx = 0 then s
          else { s with out := .laneDown k (lanes s k false &&& (s.cport k).badRx) :: s.out }) → tx = lanes s k true &&& (15 ^^^ (s.cport k).badTx) → rx = lanes s k false &&& (15 ^^^ (s.cport k).badRx) →
        ((s.cport k).badTx ≠ 0 ∨ (s.cport k).badRx ≠ 0) →
        n = laneCount (lanes s k true) + laneCount (lanes s k false) - laneCount tx - laneCount rx →
        (laneCount tx < 2 ∨ laneCount rx < 2 → exec (.laneDrop p) s =
          .next (portDown k 1 (((s0.setRf k Reg.CWY_PSTATE 7 4 tx).setRf k Reg.CWY_PSTATE 11 8 rx).countField k Reg.CWY_LANE_DROPS 7 0 n))) ∧
        (2 ≤ laneCount tx → 2 ≤ laneCount rx → ∃ u v, exec (.laneDrop p) s = .next v ∧
          u = ((s0.setRf k Reg.CWY_PSTATE 7 4 tx).setRf k Reg.CWY_PSTATE 11 8 rx).countField k Reg.CWY_LANE_DROPS 7 0 n ∧
          v = writeFault { cls := .laneDrop, status := .ok, disp := .masked, req := cwyReq k, unit := k, body := cwyBody u k (portState s k) 4 0 0 0 }
            (u.setCport k { s.cport k with held := true, badTx := 0, badRx := 0 }))) ∧
      ((s.cport k).held = true → exec (.portDegraded p) s = .next (setPortState k 4 (s.setCport k { s.cport k with held := false, again := 0 })))) ∧
    (∀ (m : BitVec 12) (q : BitVec 4) creds rtt, portState s k = 1 → s.rf 0 Reg.CLK_STATUS 9 9 ≠ 0 → ∃ v, exec (.portTrained p m q creds rtt) s = .next v ∧
      (v.reg k Reg.CWY_RTT_NS).toNat = rtt.toNat ∧ portState v k = (if m.toNat = moduleNum s then 2 else 3) ∧
      v.out = .initFlit k (moduleNum s) [s.rf k Reg.CWY_CRED01 10 0, s.rf k Reg.CWY_CRED01 26 16, s.rf k Reg.CWY_CRED23 10 0,
        s.rf k Reg.CWY_CRED23 26 16] :: s.out) ∧
    (∀ t, (s.cport k).offAt = some t → (t ≤ s.now ∨ (s.cport k).retry = []) → exec (.portOff p) s =
      .next (if (clearPort k 0 0 s).rf k Reg.CWY_PCTRL 0 0 = 1 then trainPort k (clearPort k 0 0 s) else clearPort k 0 0 s))

/-- R358 to R361, R368, R369, R378, R379, R382 to R386: the oldest waiting plan begins in a free slot unless it is on the abort list; its lowest ready step starts,
and the lowest step whose work is over completes; messages are taken from the port they arrive at: chunks, fetch requests, replies and failures, releases,
thermal factors, aborts; a wait whose window ends without a flit ends its plan with PEER_TIMEOUT. R25, R374, R376, R379 to R381: the update engine takes its steps one after another; a taken step sets BUSY and the UPDATING bit of its group, one
whose version has readers by then is held, and a failed check ends it. A running step reads its data and makes its writes; those whose frames a
checkpoint list still holds wait, and are made when the frames have been copied. -/
def Obligations.CollectiveCommands : Prop :=
  (∀ s : State,
     (∀ r rest k h steps parts s1, s.planReqs = r :: rest → freeSlotNo s = some k → loadPlan r.va { s with planReqs := rest } = (.ok (h, steps, parts), s1) →
       (leAt h 0 2 ∈ s1.aborts → exec .planStart s =
         .next (wakePlan (opDone r.a r.t r.seq { st := .planAborted } (drainRx (dropEarly (leAt h 0 2)
           { s1 with aborts := s1.aborts.erase (leAt h 0 2), planEnded := s1.planEnded ++ [leAt h 0 2] }))))) ∧
       (leAt h 0 2 ∉ s1.aborts → exec .planStart s = .next (beginPlan k r h steps parts s1))) ∧
     (∀ (slot : Fin 64) p i, s.plan? slot = some p → (List.range p.steps.length).find? (fun j => mayStart p j) = some i →
       exec (.planStepStart slot) s = .next (startStep slot i p s)) ∧
     (∀ (slot : Fin 64) p i s1, s.plan? slot = some p → (List.range p.steps.length).find? (fun j => stepOver s p j) = some i →
       s1 = showPlan slot (modStep slot i (fun x => { x with ph := .done }) s) →
       exec (.planStepComplete slot) s = .next (tryComplete slot (s1.setReg64 slot Reg.COL_PROGRESS_TICK_LO s1.tb.toNat))) ∧
     (∀ (p : Fin 12) m r, (s.cport p).inbox = m :: r →
       (leAt m.data 4 1 = 0 → exec (.chunkArrive p) s = .next (matchChunk p m s)) ∧
       (leAt m.data 4 1 = 1 → ∀ k pl, fetchAt m.src (leAt m.data 0 2) (leAt m.data 2 2) (takeChunk p s) = some (k, pl) →
         exec (.fetchReplyArrive p) s = .next (landFetch k (leAt m.data 2 2) pl m.data (takeChunk p s)))) ∧
     (∀ (p : Fin 12) m e s1, ctlOf s p 3 = some m → groupEntry collReq (leAt m.data 4 2 % 4096) s = (.ok e, s1) →
       (gTwo e = true ∨ beingWritten (leAt m.data 4 2 % 4096) s1 = false) →
       exec (.fetchRequestReceive p) s = .next (serveFetch e m (takeCtl p 3 s1))) ∧
     (∀ (p : Fin 12) m f s1, ctlOf s p 3 = some m → groupEntry collReq (leAt m.data 4 2 % 4096) s = (.error f, s1) →
       exec (.fetchRequestReceive p) s = .next (fetchFails m .descriptorInvalid (takeCtl p 3 s1))) ∧
     (∀ (p : Fin 12) m k pl, ctlOf s p 5 = some m → fetchAt m.src (leAt m.data 2 2) (leAt m.data 22 2) (takeCtl p 5 s) = some (k, pl) →
       exec (.fetchFailReceive p) s =
         .next (endPlan k { fail := { st := statusOfCode (leAt m.data 1 1) }, mod_ := m.src, step := leAt m.data 22 2 } (takeCtl p 5 s))) ∧
     (∀ (p : Fin 12) m, ctlOf s p 4 = some m →
       exec (.releaseReceive p) s = .next (releaseReader (leAt m.data 4 2 % 4096) (leAt m.data 16 4) (takeCtl p 4 s))) ∧
     (∀ (p : Fin 12) m, ctlOf s p 2 = some m → ∃ v, exec (.slowReceive p) s = .next v ∧
       (v.reg m.src Reg.COL_PEER_FACTOR).toNat = leAt m.data 1 1 % 16 ∧ v.mem = s.mem) ∧
     (s.slowDue = true → exec .slowSend s = .next (sendSlow (s.plans.flatMap (fun e => e.2.parts)) { s with slowDue := false })) ∧
     (∀ (slot : Fin 64) (step : Fin 4096) p, s.plan? slot = some p → (p.stAt step).ph = .ready → (p.stAt step).at_ + p.timeout * 25 * (p.stAt step).f ≤ s.now →
       exec (.peerTimeoutExpiry slot step) s =
         .next (endPlan slot { fail := { st := .peerTimeout }, mod_ := sSrc (p.step step), step := step } (s.count 0 Reg.COL_TIMEOUTS 1))) ∧
     (∀ (p : Fin 12) m k, ctlOf s p 1 = some m → planSlot (takeCtl p 1 s) (leAt m.data 2 2) = some k → exec (.abortReceive p) s =
       .next (endPlan k { fail := { st := .planAborted }, mod_ := m.src, tell := false } ((takeCtl p 1 s).count 0 Reg.COL_ABORTS 1))) ∧
     (∀ (p : Fin 12) m, ctlOf s p 1 = some m → planSlot (takeCtl p 1 s) (leAt m.data 2 2) = none → leAt m.data 2 2 ∉ (takeCtl p 1 s).planEnded →
       leAt m.data 2 2 ∉ (takeCtl p 1 s).aborts → ∃ v, exec (.abortReceive p) s = .next v ∧ leAt m.data 2 2 ∈ v.aborts ∧ v.aborts.length ≤ max 256 (takeCtl p 1 s).aborts.length)) ∧
  (∀ s : State,
     (∀ u r x s1, s.lodeRun = none → s.lodeQ = u :: r → takeRun u { s with lodeQ := r } = (.ok x, s1) →
       (updHeld x.ent u.group s1 = false → ∃ v, exec .lodeUpdateStart s = .next v ∧ v.lodeRun = some x ∧ v.rf 0 Reg.LOD_STATUS 0 0 = 1 ∧
         v.rf u.group Reg.LOD_GSTATE 1 1 = 1 ∧ v.lodeQ = s1.lodeQ) ∧
       (updHeld x.ent u.group s1 = true → exec .lodeUpdateStart s = .next (startNext r.length (holdUpd u s1)))) ∧
     (∀ u r f s1, s.lodeRun = none → s.lodeQ = u :: r → takeRun u { s with lodeQ := r } = (.error f, s1) →
       exec .lodeUpdateStart s = .next (updFails u f s1)) ∧
     (s.lodeParts = [] → ∀ x, s.lodeRun = some x →
       (∀ d s1, readRun x s = (.ok d, s1) →
         exec .lodeUpdateWritten s = .next (writeRun_ x d s1) ∧
         (∀ w, w = lodeWrites x d (s1.reg64 0 Reg.LOD_SEED_LO) s1.lodeGen → s1.ckp = none →
           (∀ s2, putPieces w.1 { s1 with lodeGen := w.2 } = (.ok (), s2) → exec .lodeUpdateWritten s = .next (updDone x.u (lodeIdle x.u s2))))) ∧
       (∀ f s1, readRun x s = (.error f, s1) → exec .lodeUpdateWritten s = .next (updFails x.u f (lodeIdle x.u s1)))) ∧
     (∀ p, s.lodeParts = [p] → s.lodeRun = none → s.ckp = none → ∀ s1, putPieces p.left { s with lodeParts := [] } = (.ok (), s1) →
       exec .lodeUpdateWritten s = .next (updDone p.run.u s1)))

/-- R441 to R445: an entry is taken from the queue that R39 grants, a queue whose entry cannot be read stops; a NOP completes with OK, a COPY starts when
requests go upstream, ends with what its transfer came to, or is illegal; a BARRIER completes after all before it. R442: a doorbell inside an enabled queue
moves its pointer, any other sets DB_ERR. -/
def Obligations.HostQueueEntries : Prop :=
  ∀ s : State,
    (∀ e q s1 raw s2, s.rf 0 Reg.HST_INFLIGHT 16 0 < 65536 → rrGrant rrSq ((List.range 256).filter (mayTake s)) s = some (q, s1) →
      readEntry q e s1 = (.ok raw, s2) → exec (.submissionTake e) s = .next (takeEntry q raw s2)) ∧
    (∀ e q s1 f s2, s.rf 0 Reg.HST_INFLIGHT 16 0 < 65536 → rrGrant rrSq ((List.range 256).filter (mayTake s)) s = some (q, s1) →
      readEntry q e s1 = (.error f, s2) → exec (.submissionTake e) s = .next (fetchError q f s2)) ∧
    (∀ (q : Fin 256) k, startable (s.sq q) 0 = some k → exec (.nopEntry q) s = .next (modEntry q k (HEntry.done .ok) s)) ∧
    (∀ (q : Fin 256) k e, startable (s.sq q) 2 = some k → (s.sq q).ents[k]? = some e →
      (copyOk e.raw = false → exec (.copyEntry q) s = .next (modEntry q k (HEntry.done .descriptorInvalid) s)) ∧
      (copyOk e.raw = true → s.bme = true → s.d3hot = false → exec (.copyEntry q) s = .next (modEntry q k HEntry.start s))) ∧
    (∀ (q : Fin 256) k e data good, (s.sq q).ents.findIdx? (fun x => x.started && x.st.isNone && leAt x.raw 0 1 == 2) = some k →
      (s.sq q).ents[k]? = some e → s.bme = true →
      (∀ s1, copyRun e.raw data good s = (.ok (), s1) → exec (.copyComplete q data good) s = .next (modEntry q k (HEntry.done .ok) s1)) ∧
      (∀ f s1, copyRun e.raw data good s = (.error f, s1) → exec (.copyComplete q data good) s = .next (modEntry q k (HEntry.done f.st)
        (writeFault (hostRecord q (leAt e.raw 4 2) e.idx (leAt e.raw 8 8) 0 f) s1)))) ∧
    (∀ (q : Fin 256) k, startable (s.sq q) 3 = some k → (∀ e ∈ (s.sq q).ents.take k, e.st ≠ none) →
      exec (.barrierEntry q) s = .next (modEntry q k (HEntry.done .ok) s)) ∧
    (∀ (q : Fin 256) (v : W32), s.up.cfgReady = true → s.linkUp = true → hostBusy s = false →
      (s.rf q Reg.SQ_CTRL 0 0 = 1 → v.toNat < s.rf q Reg.SQ_SIZE 16 0 →
        exec (.sqTailDoorbell q v true false) s = .next (s.setRf q Reg.SQ_TAIL 15 0 v.toNat)) ∧
      (s.rf q Reg.CQ_CTRL 0 0 = 1 → v.toNat < s.rf q Reg.CQ_SIZE 16 0 →
        exec (.cqHeadDoorbell q v true false) s = .next (s.setRf q Reg.CQ_HEAD 15 0 v.toNat)) ∧
      (s.rf q Reg.SQ_CTRL 0 0 = 0 ∨ s.rf q Reg.SQ_SIZE 16 0 ≤ v.toNat → ∃ t, exec (.sqTailDoorbell q v true false) s = .next t ∧
        t.rf 0 Reg.HST_STATUS 0 0 = 1 ∧ t.rf 0 Reg.HST_DB_ERR_Q 7 0 = q ∧ t.rf q Reg.SQ_TAIL 15 0 = s.rf q Reg.SQ_TAIL 15 0) ∧
      (s.rf q Reg.CQ_CTRL 0 0 = 0 ∨ s.rf q Reg.CQ_SIZE 16 0 ≤ v.toNat → ∃ t, exec (.cqHeadDoorbell q v true false) s = .next t ∧
        t.rf 0 Reg.HST_STATUS 0 0 = 1 ∧ t.rf 0 Reg.HST_DB_ERR_Q 7 0 = q ∧ t.rf q Reg.CQ_HEAD 15 0 = s.rf q Reg.CQ_HEAD 15 0))

/-- R446 to R449: the oldest taken entry, once complete, is written with its phase at the tail of its completion queue, which advances, inverts its phase
as it wraps, and counts toward the interrupt; a failed write stops the queue. R449: the end of the coalescing window signals; an unmasked vector, bus
mastering and D0 deliver what is pending. R432: D3hot. -/
def Obligations.CompletionsAndInterrupts : Prop :=
  ∀ s : State,
    (∀ (q : Fin 256) good e r st, (s.sq q).ents = e :: r → e.st = some st → cqOpen s e.cq = true →
      (∀ s1, putCompl e.cq (complBytes q e.cq e st s) good s = (.ok (), s1) →
        exec (.completionWrite q good) s = .next (coalesce e.cq (advanceTail e.cq (dropEntry q e.cq s1)))) ∧
      (∀ f s1, putCompl e.cq (complBytes q e.cq e st s) good s = (.error f, s1) →
        exec (.completionWrite q good) s = .next (writeError q e.cq e f s1))) ∧
    (∀ q : Fin 256, (s.cq q).coalN ≠ 0 → s.rf q Reg.CQ_COAL 31 16 ≠ 0 → (s.cq q).coalAt + 25 * s.rf q Reg.CQ_COAL 31 16 ≤ s.now →
      ∃ v, exec (.coalesceWindowEnd q) s = .next v ∧ v = sendMsix (s.rf q Reg.CQ_CTRL 26 16) (s.setCq q { s.cq q with coalN := 0 })) ∧
    (s.up.cfgReady = true →
      (∀ vec : Fin 2048, exec (.msixUnmask vec) s = .next (deliverPending { s with msixOn := setIns s.msixOn vec })) ∧
      (∀ vec : Fin 2048, s.bme = true → s.d3hot = false → ∃ v, exec (.msixUnmask vec) s = .next v ∧ vec.val ∈ v.msixOn ∧ vec.val ∉ v.msixPend) ∧
      (∀ on : Bool, ∃ v, exec (.busMasterEnableChange on) s = .next v ∧ v.bme = on ∧ v.regs = s.regs ∧ v.mem = s.mem) ∧
      exec .d3hotEntry s = .next { s with d3hot := true }) ∧
    (∃ v, exec .d0Return s = .next v ∧ v.d3hot = false ∧ v.regs = s.regs ∧ v.mem = s.mem)

/-- R428, R429, R431, R433, R434, R456: the link comes up at a supported rate and width while the domain is up, PERST# is high and PCIe REFCLK is present;
accesses to the device window reach the region behind them in their turn, a poisoned one is dropped and reported; a configuration read answers the identity
fields, and Request Retry Status before configuration ready. -/
def Obligations.PcieLinkAndWindow : Prop :=
  ∀ s : State,
    (∀ (rate : Fin 8) (width : Fin 32) flit, (rate.val = 4 ∨ rate.val = 5 ∨ rate.val = 6 ∧ flit = true) → (width.val = 4 ∨ width.val = 8 ∨ width.val = 16) →
      s.up.peat = true → s.up.safe = false → s.up.perst = false → s.rf 0 Reg.CLK_STATUS 8 8 = 1 → s.linkUp = false →
      ∃ v, exec (.pcieLinkUp rate width flit) s = .next v ∧ v.linkUp = true ∧ v.rf 0 Reg.HST_LINK 3 0 = rate ∧ v.rf 0 Reg.HST_LINK 8 4 = width ∧
        (v.rf 0 Reg.HST_LINK 9 9 = 1 ↔ flit = true)) ∧
    (s.linkUp = true →
      (∀ off, s.up.cfgReady = false → ∃ v, exec (.configRequest off) s = .next v ∧ v.out = .config none :: s.out ∧ v.regs = s.regs) ∧
      (∀ off : Fin 4096, s.up.cfgReady = true → ∃ v w, exec (.configRequest off) s = .next v ∧ v.out = .config (some w) :: s.out ∧ v.regs = s.regs ∧
        (off.val / 4 = 0 → w.toNat = Config.vendorId.toNat + 2 ^ 16 * 0x0960) ∧
        (off.val / 4 = 2 → w.toNat = s.rf 0 Reg.GLB_STEPPING 7 0 + 2 ^ 8 * 0x120000))) ∧
    (s.linkUp = true → s.up.cfgReady = true →
      (∀ (off : Fin 68719476736) (len : Fin 4097), hostBusy s = false → exec (.bar2Read off len) s =
        .next (windowAct { rid := hostRid, pa := s.reg64 0 Reg.HST_WIN_BASE_LO + off, len := len, wdata := none } s)) ∧
      (∀ (off : Fin 68719476736) (d : List Byte), d.length ≤ 4096 → hostBusy s = false → exec (.bar2Write off d false) s =
        .next (windowAct { rid := hostRid, pa := s.reg64 0 Reg.HST_WIN_BASE_LO + off, len := d.length, wdata := some d } s)) ∧
      (∀ (off : Fin 68719476736) (d : List Byte), d.length ≤ 4096 → ∃ v, exec (.bar2Write off d true) s = .next v ∧
        v.rf 0 Reg.HST_STATUS 4 4 = 1 ∧ v.out = .aer :: s.out ∧ v.mem = s.mem))

/-- R391, R394, R397 to R404, R472, R473: an enabled dispatcher takes the oldest startable WORK entry; an item that may start begins on the array of its
placement with its batch, a join of the evaluation kind completes at once; its tables are bound and its image loaded before its threads start; with all its threads DONE it completes or waits for its one
replay, which begins on the same array; a step whose items have all completed is recorded, and windows that have ended are closed. -/
def Obligations.DispatcherCommands : Prop :=
  ∀ s : State,
    (∀ (q : Fin 256) k e, s.rf 0 Reg.DSP_CTRL 0 0 = 1 → startable (s.sq q) 1 = some k → (s.sq q).ents[k]? = some e →
      exec (.workEntry q) s = .next (takeItem (Item.fresh (itemId q e.idx) e.raw) (modEntry q k HEntry.start s))) ∧
    (∀ (id : W64) i, s.item? id.toNat = some i →
      (itemMayStart s i = true →
        (i.nthr = 0 → exec (.itemStart id) s = .next (finishItem i s)) ∧
        (∀ st, i.nthr ≠ 0 → placeFail s i = some st → exec (.itemStart id) s = .next (afterItems (endItem i.id st s))) ∧
        (∀ a b batch, i.nthr ≠ 0 → placeFail s i = none → placeItem s i = some (a, b) → startBatch s i = some batch →
          exec (.itemStart id) s = .next (beginAttempt i a b batch s))) ∧
      (∀ p, physOf s i.arr = some p → s.pst p = .run →
        (i.phase = .bind → exec (.tableBindDone id) s = .next (bindItem i i.arr p s)) ∧
        (i.phase = .load → s.rf 0 Reg.MEM_STATUS 1 1 = 1 → (∀ k ∈ i.threads, (s.th i.arr k).st = .free) →
          (∀ s1, loadImage i p s = (.ok (), s1) → exec (.imageLoadDone id) s = .next (startThreads i s1)) ∧
          (∀ f s1, loadImage i p s = (.error f, s1) →
            exec (.imageLoadDone id) s = .next (startFail i.id f false (writeFault (imageRecord p f.va i.id f) s1))))) ∧
      (i.phase = .run → threadsDone s i = true →
        (i.willReplay s = false → exec (.workItemComplete id) s = .next (finishItem i (endAttempt i s))) ∧
        (i.willReplay s = true →
          exec (.workItemComplete id) s = .next ((endAttempt i s).modItem i.id (fun j => { j with phase := .replay })))) ∧
      (i.phase = .replay →
        (physOf s i.arr = none → exec (.replayStart id) s = .next (finishItem { i with fail := mkFail .internal 0 }
          (s.modItem i.id (fun j => { j with fail := mkFail .internal 0 })))) ∧
        (∀ p, physOf s i.arr = some p → i.nthr ≤ freeThreads s i.arr → imageClash s i.arr i = false → exec (.replayStart id) s =
          .next (beginAttempt i i.arr false i.batch ((s.modItem i.id (fun j => { j with replays := j.replays + 1 })).count 0 Reg.FLT_REPLAYS 1))))) ∧
    (∀ n, s.openStep = some n → atBoundary s n = true → exec .stepBoundary s = .next (recordBoundary n s)) ∧
    exec .measurementWindowEnd s = .next (closeWindows s)

/-- R451, R452, R504 to R509, R512, R516, R517: power comes up when PWR_EN is asserted, input is good, no trip is latched and 100 ms have passed; PWR_EN low,
loss of input and every trip power the module down, and everything but what fuses, flash and pins hold is lost; input beyond the ratings is a fault of the model,
as the spec gives it no behaviour; PERST# asserted after configuration ready triggers a warm start. -/
def Obligations.PowerPins : Prop :=
  ∀ s : State,
    (∀ temps, s.up.pwrEn = false → exec (.pwrEnAssert temps) s = .next (tryPower { s with
      up := { s.up with pwrEn := true, tripSeen := s.up.tripSeen && !temps.all (fun e => decide (e.2 + 10 ≤ tripLevel e.1)) } })) ∧
    (s.up.powered = false → s.up.pwrEn = true → s.up.tripLatch = false → s.up.tripSeen = false → (∀ t, s.up.downAt = some t → t + 2500000 ≤ s.now) →
      (s.up.inputGood = false → 59000 ≤ s.up.inputMv → s.up.inputMv.toNat ≤ bulkNow s → ∃ v, exec .inputGood s = .next v ∧
        v.up.powered = true ∧ v.up.inputGood = true ∧ v.rf 0 Reg.GLB_START 3 0 = 0 ∧ v.mem = s.mem) ∧
      (s.up.inputGood = true → ∃ v, exec .powerDownRestart s = .next v ∧ v.up.powered = true ∧ v.mem = s.mem)) ∧
    (∀ mv held, -100000 ≤ mv → mv ≤ 100000 → ∃ v, exec (.inputApply mv held) s = .next v ∧ v.up.inputMv = mv ∧ v.up.bulkMv = held ∧
      (0 ≤ mv → v.mem = s.mem ∧ v.regs = s.regs) ∧ (mv < 0 → v.up.powered = false ∧ v.up.inputGood = false)) ∧
    (∀ mv held, mv < -100000 ∨ 100000 < mv → exec (.inputApply mv held) s = .fault .beyondRatings) ∧
    (∀ c ∈ [.inputLoss, .overvoltageTrip, .overcurrentTrip, .reversePolarity, .refclkAoTrip], s.up.powered = true → s.up.pwrEn = true → ∃ v, exec c s = .next v ∧
      v.up.powered = false ∧ v.up.peat = false ∧ v.up.inputGood = false ∧ v.up.downAt = some s.now ∧ v.mem = [] ∧ v.faults.queue = [] ∧ v.pending = s.pending) ∧
    (s.up.pwrEn = true → s.up.powered = true → ∃ v, exec .pwrEnDeassert s = .next v ∧ v.up.pwrEn = false ∧ v.up.powered = false ∧ v.up.tripLatch = false ∧
      v.mem = [] ∧ v.up.downAt = some s.now) ∧
    (∀ (x : Sensor) temp, s.up.powered = true → tripLevel x ≤ temp → ∃ v, exec (.thermalTrip x temp) s = .next v ∧
      v.up.tripLatch = true ∧ v.up.powered = false ∧ v.mem = []) ∧
    (∀ chk, s.up.perst = false → s.up.cfgReady = false → exec (.perstAssert chk) s = .next { s with up := { s.up with perst := true }, linkUp := false }) ∧
    (∀ chk, s.up.perst = false → s.up.cfgReady = true →
      exec (.perstAssert chk) s = .next (warmTrigger 5 chk { s with up := { s.up with perst := true }, linkUp := false })) ∧
    exec .perstDeassert s = .next { s with up := { s.up with perst := false } }

/-- R425, R454, R455, R459 to R465: the stages of a start, each once the one before it is done: the Peat domain starts its time base at 0, the fuses give the
map, the first stage chooses the images, the management port and configuration open, HBM is trained, tested and zero-filled; a failing stage, or 1 s without
configuration ready, fails the start, and a failed one is tried again cold. -/
def Obligations.StartSequence : Prop :=
  ∀ (s : State) (b : Boot), s.up.boot = some b → b.failed = none →
    (∀ strap : Fin 64, s.up.peat = false → ∃ v, exec (.peatDomainUp strap) s = .next v ∧ v.up.peat = true ∧ v.tb = 0 ∧ v.up.modId = strap ∧
      (v.reg 0 Reg.CWY_MODULE).toNat = strap) ∧
    (b.kind ≠ 2 → b.fuses = false → s.up.peat = true →
      exec (.fuseLoadDone true) s = .next (modBoot (fun x => { x with fuses := true }) (buildMap (setConfig s))) ∧
      exec (.fuseLoadDone false) s = .next (failStart s)) ∧
    (b.stage1 = false → (b.kind = 2 ∨ b.fuses = true) →
      (runImages (b.kind == 2) s = none → exec .firstStageVerified s = .next (failStart s)) ∧
      (∀ t, runImages (b.kind == 2) s = some t → ∃ v, exec .firstStageVerified s = .next v ∧ v.starting = some { b with stage1 := true } ∧
        v.rf 0 Reg.GLB_START 10 10 = t.rf 0 Reg.SEC_BOOT (copyBit 1) (copyBit 1))) ∧
    (b.stage1 = true → exec .managementPortReady s = .next { s with up := { s.up with mgmtReady := true } }) ∧
    (∀ pkgs ports, b.stage1 = true → s.up.mgmtReady = true → s.up.perst = false → s.up.cfgReady = false → s.aclk.on = true → s.fclk.on = true → s.mclk.on = true →
      exec (.configurationReady pkgs ports) s = .next (completeStart (openConfig b pkgs ports s))) ∧
    (b.trained = false → b.stage1 = true →
      (∀ temps failed, exec (.hbmTrainingDone temps failed true) s = .next (failStart s)) ∧
      (∀ temps failed, ∃ v, exec (.hbmTrainingDone temps failed false) s = .next v ∧ v.rf 0 Reg.MEM_STATUS 0 0 = 1 ∧
        v.starting = some { b with trained := true })) ∧
    (∀ failed, b.trained = true → b.tested = false → s.rf 0 Reg.GLB_START 11 11 = 1 → exec (.memoryTestDone failed) s =
      .next (modBoot (fun x => { x with tested := true }) (failed.foldl (fun t p => failTest t p.val) s))) ∧
    (∀ lost, b.trained = true → b.filled = false → (s.rf 0 Reg.GLB_START 11 11 ≠ 1 ∨ b.tested = true) → ∃ v, exec (.hbmZeroFillDone lost) s = .next v ∧
      v.rf 0 Reg.MEM_STATUS 1 1 = 1 ∧ (s.up.cfgReady = true → v.up.boot = none ∧ v.rf 0 Reg.GLB_START 9 8 = 0)) ∧
    (s.up.cfgReady = false → b.at_ + 25000000 ≤ s.now → exec .startTimeout s = .next (failStart s)) ∧
    (∀ n, exec .startRetry { s with up := { s.up with boot := some { b with failed := some n } } } =
      .next (beginCold 2 0 { s with up := { s.up with boot := some { b with failed := some n } } }))

/-- R470, R486, R494, R495, R503: a packet sent again on the fabric is counted, a parity error of a unit writes its record and fails the unit, the oldest
unspilled journal entry is copied to its slot of the ring, a commit ends with copy A written from B, a repair with the copy restored, and the TAP answers
at its debug level. -/
def Obligations.JournalParityAndRepair : Prop :=
  ∀ s : State,
    (unitsOn s = true → exec .fabricPacketResend s = .next (s.count 0 Reg.FLT_FABRIC_RETRY 1)) ∧
    (∀ unit q s1, unitsOn s = true → writeFaultId (parityRecord unit s) s = (q, s1) →
      exec (.internalParityError unit) s = .next (failUnit unit q s1)) ∧
    (∀ good e addr, s.up.peat = true → s.rf 0 Reg.JRN_CTRL 0 0 = 1 → s.jrn.unspilled ≠ 0 → spillHeld s + 1 < spillSlots s →
      (s.rf 0 Reg.JRN_CTRL 1 1 = 1 ∨ s.bme = true ∧ s.d3hot = false) → s.jrn.ring[s.jrn.unspilled - 1]? = some e →
      addr = s.reg64 0 Reg.JRN_SPILL_BASE_LO + 32 * s.rf 0 Reg.JRN_SPILL_WR 23 0 →
      (∀ s1, spillPut addr e.bytes good s = (.ok (), s1) → exec (.journalSpillWrite good) s = .next (spillDone s1)) ∧
      (∀ f s1, spillPut addr e.bytes good s = (.error f, s1) → exec (.journalSpillWrite good) s = .next (spillFault addr f s1))) ∧
    (∀ ty eid, s.sec.fwCommit = some (ty, eid) → ∃ v, exec .fwCommitDone s = .next v ∧ v.sec.fwCommit = none ∧ v.sec.fwOpen = none ∧
      v.rf 0 Reg.SEC_UPDATE 1 0 = 0 ∧ v.mem = s.mem) ∧
    (∀ i r, s.sec.repair = i :: r → ∃ v, exec .flashRepairDone s = .next v ∧ v.sec.repair = r ∧
      v.sec.flash = s.sec.flash.set i (s.sec.flash.getD (if i % 2 = 0 then i + 1 else i - 1) .blank) ∧ (r = [] → v.rf 0 Reg.SEC_UPDATE 1 0 = 0)) ∧
    (s.up.peat = true →
      exec (.jtagAccess .idcode) s = .next (s.emit (.jtag .idcode)) ∧ exec (.jtagAccess .bypass) s = .next (s.emit (.jtag .bypass)) ∧
      (s.rf 0 Reg.SEC_DBG 1 0 = 0 → ∀ i ∈ [JtagIns.boundary, .full, .regRead 0], exec (.jtagAccess i) s = .next (s.emit (.jtag .bypass))) ∧
      (s.rf 0 Reg.SEC_DBG 1 0 = 2 → exec (.jtagAccess .full) s = .next (s.emit (.jtag (.scan 2)))))

/-- R493 to R495, R500 to R503: with the management port ready, no request pending and the module not in SAFE state, each Nolivo command answers SUCCESS and has
its effect; out-of-range operands answer INVALID; a reset command answers before it starts; a debug level is set by a token and cleared by DEBUG_LOCK. -/
def Obligations.NolivoCommands : Prop :=
  ∀ s : State, s.up.peat = true → s.up.mgmtReady = true → portBusy s = false → s.up.safe = false →
    exec .getInfo s = .next (s.emit (.nolivo 0 (infoBytes s))) ∧
    exec .telemetry s = .next (s.emit (.nolivo 0 (telemetryBytes s))) ∧
    (∀ (limit aclk : W32) (eid : Byte) u, u = busWrite ⟨.mgmt, Reg.PWR_ACLK_MAX, aclk, eid.toNat⟩ (busWrite ⟨.mgmt, Reg.PWR_LIMIT, limit, eid.toNat⟩ s) →
      exec (.setPower limit aclk eid) s =
        .next (u.emit (.nolivo (if 1500 ≤ limit.toNat ∧ limit.toNat ≤ 3500 ∧ aclk.toNat ≤ 24 then 0 else 2) []))) ∧
    (∀ chk, exec (.resetCmd 0 chk) s = .next (warmTrigger 4 chk (s.emit (.nolivo 0 []))) ∧
      exec (.resetCmd 1 chk) s = .next (coldTrigger (s.emit (.nolivo 0 [])))) ∧
    (∀ opts eid : Byte, opts.toNat < 2 → ∃ v, exec (.bootOptions opts eid) s = .next v ∧ v.up.optMemtest = (opts == 1) ∧
      v.rf 0 Reg.SEC_BOOT_OPT 0 0 = opts.toNat ∧ v.out.head? = some (.nolivo 0 [])) ∧
    (∀ ty : Byte, 1 ≤ ty.toNat → ty.toNat ≤ 3 → s.sec.fwOpen = none → s.sec.repair = [] → ∃ v, exec (.fwBegin ty) s = .next v ∧
      v.sec.fwOpen = some (ty.toNat, 0) ∧ v.rf 0 Reg.SEC_UPDATE 1 0 = 1 ∧ v.out = .nolivo 0 [] :: s.out) ∧
    (∀ (off : W32) data ty next, s.sec.fwOpen = some (ty, next) → off.toNat = next → data ≠ [] → data.length ≤ 1024 → next + data.length ≤ copySize ty →
      ∃ v, exec (.fwData off data) s = .next v ∧ v.sec.fwOpen = some (ty, next + data.length) ∧ v.out = .nolivo 0 [] :: s.out) ∧
    (∀ (eid : Byte) ty next, s.sec.fwOpen = some (ty, next) →
      (copyFits ty (s.flashCopy ty 1) s = true → copyValid ty (s.flashCopy ty 1) s = true → ∃ v, exec (.fwCommit eid) s = .next v ∧
        v.sec.fwCommit = some (ty, eid.toNat) ∧ v.rf 0 Reg.SEC_UPDATE 1 0 = 2 ∧ v.out = s.out) ∧
      (copyFits ty (s.flashCopy ty 1) s = false → exec (.fwCommit eid) s = .next (endCommit .verifyFailed eid (s.reg 0 Reg.SEC_UPDATE).toNat s))) ∧
    (∀ ty v eid : Byte, 1 ≤ ty.toNat → ty.toNat ≤ 3 → v.toNat ≤ 63 →
      (svnOk ty.toNat v.toNat s = false → exec (.svnCommit ty v eid) s = .next (s.emit (.nolivo 3 []))) ∧
      (svnOk ty.toNat v.toNat s = true → ∃ t, exec (.svnCommit ty v eid) s = .next t ∧ v.toNat ≤ svnMin t ty.toNat ∧ svnMin s ty.toNat ≤ svnMin t ty.toNat ∧
        t.out.head? = some (.nolivo 0 []))) ∧
    (∀ slot eid : Byte, slot.toNat < 4 →
      (revokeOk slot.toNat s = false → exec (.keyRevoke slot eid) s = .next (s.emit (.nolivo 3 []))) ∧
      (revokeOk slot.toNat s = true → ∃ t, exec (.keyRevoke slot eid) s = .next t ∧ slotRevoked t slot.toNat = true ∧ t.out.head? = some (.nolivo 0 []))) ∧
    (∀ (fseq : W32) (n : Byte) bad l s1, 1 ≤ n.toNat → n.toNat ≤ 4 → readRecords n.toNat fseq.toNat bad s = (l, s1) →
      exec (.faultRead fseq n bad) s = .next (s1.emit (.nolivo 0 l))) ∧
    (∃ v, exec .faultAck s = .next v ∧ v.rf 0 Reg.FLT_STATUS 0 0 = 0 ∧ v.faults = s.faults ∧ v.out = .nolivo 0 [] :: s.out) ∧
    (∀ (seq : W32) (n : Byte) bad l s1, 1 ≤ n.toNat → n.toNat ≤ 8 → seq.toNat < 2 ^ 24 → readEntries n.toNat seq.toNat bad s = (l, s1) →
      exec (.journalRead seq n bad) s = .next (s1.emit (.nolivo 0 l))) ∧
    (∀ (set clear : W32) (eid : Byte), set.toNat < 2 ^ 18 → clear.toNat < 2 ^ 18 → ∃ u, exec (.lockCmd set clear eid) s = .next (u.emit (.nolivo 0 [])) ∧
      u = busWrite ⟨.mgmt, Reg.HST_MLOCK, ((s.reg 0 Reg.HST_MLOCK) &&& ~~~clear) ||| set, eid.toNat⟩ s) ∧
    (∀ off : W32, off.toNat % 4 = 0 → off.toNat < 2 ^ 26 → busOpen .mgmt off.toNat s = true → exec (.regRead off) s = .next (busRead .mgmt off.toNat s)) ∧
    (∀ (off val : W32) (eid : Byte), off.toNat % 4 = 0 → off.toNat < 2 ^ 26 → busOpen .mgmt off.toNat s = true → off.toNat / 2 ^ 20 ≠ 0x10 →
      exec (.regWrite off val eid) s = .next ((busWrite ⟨.mgmt, off.toNat, val, eid.toNat⟩ s).emit (.nolivo (writeCode off.toNat val).num []))) ∧
    (∃ v n, exec .debugChallenge s = .next v ∧ v.sec.dbgNonce = some n ∧ n.length = 16 ∧ v.out = .nolivo 0 n :: s.out) ∧
    (∀ t : List Byte, tokenShape t = true → ∃ v, exec (.debugUnlock t) s = .next v ∧ v.sec.dbgNonce = none ∧
      v.rf 0 Reg.SEC_DBG 1 0 = (if tokenMatches t s then leAt t 4 1 else s.rf 0 Reg.SEC_DBG 1 0) ∧
      v.out = .nolivo (if tokenMatches t s then 0 else 3) [] :: s.out) ∧
    (∃ v, exec .debugLock s = .next v ∧ v.rf 0 Reg.SEC_DBG 1 0 = 0 ∧ v.mem = s.mem ∧ v.out = .nolivo 0 [] :: s.out)

/-- R496 to R499: on an open transport the responder answers GET_VERSION at any stage and every other request once its stage of the negotiation is reached,
else ERROR UnexpectedRequest; CHALLENGE and signed measurements carry the Alias key's signature over the nonce (message contents and error codes are the
model's reading of SPDM 1.2, log entry 153, PRESUMED). -/
def Obligations.SpdmResponder : Prop :=
  ∀ (tr : SpdmPort) (s : State), spdmOpen tr s = true →
    (∃ v, exec (.getVersion tr) s = .next v ∧ v.out = .spdm tr (.version [0x12]) :: s.out ∧ spdmStage tr v = 1) ∧
    (1 ≤ spdmStage tr s → ∃ v r, exec (.getCapabilities tr) s = .next v ∧ v.out = .spdm tr r :: s.out ∧ spdmStage tr v = 2) ∧
    (2 ≤ spdmStage tr s → ∀ sm2 sm3 m d : Bool, ∃ v, exec (.negotiateAlgorithms tr sm2 sm3 m d) s = .next v ∧
      v.out = .spdm tr (.algorithms sm2 sm3 m d) :: s.out ∧ (sm2 = true → sm3 = true → spdmStage tr v = 3)) ∧
    (3 ≤ spdmStage tr s →
      exec (.getDigests tr) s = .next (s.emit (.spdm tr (.digests (chainDigest s)))) ∧
      (∀ (off len : W16), exec (.getCertificate tr 0 off len) s = .next (s.emit (.spdm tr (certPart 0 off.toNat len.toNat s)))) ∧
      (∀ nonce : List Byte, nonce.length = 32 → exec (.challenge tr 0 nonce) s =
        .next (s.emit (.spdm tr (.challengeAuth (chainDigest s) nonce (aliasSig (chainDigest s ++ nonce) s))))) ∧
      (∀ (index : Byte) l, namedMeasurements index.toNat s = some l → ∀ nonce : List Byte,
        exec (.getMeasurements tr index false nonce) s = .next (s.emit (.spdm tr (.measurements l [] []))) ∧
        (nonce.length = 32 → exec (.getMeasurements tr index true nonce) s =
          .next (s.emit (.spdm tr (.measurements l nonce (aliasSig (measBytes l ++ nonce) s)))))) ∧
      (∀ (index : Byte) sign nonce, namedMeasurements index.toNat s = none →
        exec (.getMeasurements tr index sign nonce) s = .next (s.emit (.spdm tr (.error 0x01))))) ∧
    (∀ c n, (c, n) ∈ [(Instr.getCapabilities tr, 1), (.negotiateAlgorithms tr true true true true, 2), (.getDigests tr, 3)] → spdmStage tr s < n →
      exec c s = .next (s.emit (.spdm tr (.error 0x04))))

/-- R10, R466: after a cold start every field of every register of every instance reads as its Cold column says; the time base and elapsed time are 0, no
command waits, memory lists no byte, no thread, item, plan or sample exists, the journal is empty, and the fault queue holds the START record alone. -/
def Obligations.ResetState : Prop :=
  (∀ (off inst : Nat) (r : RegDef) (f : FieldDef), regDef? off = some r → f ∈ r.fields → State.reset.rf inst off f.hi f.lo = f.cold) ∧
  State.reset.tb = 0 ∧ State.reset.now = 0 ∧ State.reset.pending = [] ∧ State.reset.mem = [] ∧ State.reset.thr = [] ∧ State.reset.items = [] ∧
  State.reset.plans = [] ∧ State.reset.med = [] ∧ State.reset.jrn.ring = [] ∧ State.reset.faults.queue.map (·.cls) = [.start] ∧
  State.reset.faults.queue.map (·.disp) = [.notice] ∧ State.reset.up.cfgReady = true ∧ State.reset.up.powered = true

/-- The memory of the state after reset is in canonical form: addresses strictly rising, no byte equal to what an unlisted address reads as. -/
def Obligations.ResetMemoryIsCanonical : Prop := MemCanon State.reset

/-- Whatever the command at the front of the queue, a tick included, a step from a state whose memory is in canonical form answers only states whose memory
is in canonical form: no command stores twice at one address or keeps a zero byte, in states no run reaches as well. -/
def Obligations.StepKeepsMemoryCanonical : Prop := ∀ s v : State, MemCanon s → step s = .next v → MemCanon v

/-- R156, R159: the word of a thread command and the command a word selects agree, with every field at every value its width admits: decoding the encoded word
gives the command and its fields back, and a word that decodes is the encoding of what it decodes to. -/
def Obligations.InstructionWordsRoundTrip : Prop :=
  ∀ (a : Fin 96) (t : Fin 64),
    (∀ e ∈ threadRows a t, ∀ x : WordFields, x.fits →
      encodeWord e.2.1 e.2.2 x < 2 ^ 64 ∧ decodeWord a t (encodeWord e.2.1 e.2.2 x) = some (e.1, x)) ∧
    (∀ (w : Nat) (i : Instr) (x : WordFields), w < 2 ^ 64 → decodeWord a t w = some (i, x) →
      x.fits ∧ ∃ c f, (i, c, f) ∈ threadRows a t ∧ encodeWord c f x = w)
end

