-- ==== Sys2Proof/Laws/Tables.lean ====
section
/-! SUPPORT. Laws/Tables.lean: what reading a sparse table gives after each write, and that every write keeps the canonical form. -/

namespace Sys2Proof.Machine

@[simp] theorem SMap.get?_put_self {α : Type} (m : SMap α) (k : Nat) (v : α) : SMap.get? (SMap.put m k v) k = some v := by
  induction m with
  | nil => simp [SMap.put, SMap.get?]
  | cons e r ih =>
    obtain ⟨a, w⟩ := e
    simp only [SMap.put]
    split
    · simp [SMap.get?]
    · split
      · simp [SMap.get?]
      · rename_i h
        simp [SMap.get?, ih, Ne.symm h]

theorem SMap.get?_put_of_ne {α : Type} (m : SMap α) {j k : Nat} (v : α) (h : j ≠ k) :
    SMap.get? (SMap.put m k v) j = SMap.get? m j := by
  induction m with
  | nil => simp [SMap.put, SMap.get?, Ne.symm h]
  | cons e r ih =>
    obtain ⟨a, w⟩ := e
    simp only [SMap.put]
    split
    · simp [SMap.get?, Ne.symm h]
    · split
      · rename_i hk
        subst hk
        simp [SMap.get?, Ne.symm h]
      · simp only [SMap.get?, ih]

@[simp] theorem SMap.get?_del_self {α : Type} (m : SMap α) (k : Nat) : SMap.get? (SMap.del m k) k = none := by
  induction m with
  | nil => simp [SMap.del, SMap.get?]
  | cons e r ih =>
    obtain ⟨a, w⟩ := e
    by_cases h : a = k
    · simpa [SMap.del, h] using ih
    · simpa [SMap.del, SMap.get?, h] using ih

theorem SMap.get?_del_of_ne {α : Type} (m : SMap α) {j k : Nat} (h : j ≠ k) : SMap.get? (SMap.del m k) j = SMap.get? m j := by
  induction m with
  | nil => simp [SMap.del, SMap.get?]
  | cons e r ih =>
    obtain ⟨a, w⟩ := e
    by_cases hk : a = k
    · subst hk
      simpa [SMap.del, SMap.get?, Ne.symm h] using ih
    · by_cases hj : a = j
      · simp [SMap.del, SMap.get?, hj, h]
      · simpa [SMap.del, SMap.get?, hk, hj] using ih

@[simp] theorem SMap.getD_set_self {α : Type} [DecidableEq α] (d : α) (m : SMap α) (k : Nat) (v : α) :
    SMap.getD (SMap.set d m k v) k d = v := by
  unfold SMap.set
  split
  · simp [SMap.getD, *]
  · simp [SMap.getD]

theorem SMap.getD_set_of_ne {α : Type} [DecidableEq α] (d : α) (m : SMap α) {j k : Nat} (v : α) (h : j ≠ k) :
    SMap.getD (SMap.set d m k v) j d = SMap.getD m j d := by
  unfold SMap.set
  split
  · simp [SMap.getD, SMap.get?_del_of_ne m h]
  · simp [SMap.getD, SMap.get?_put_of_ne m v h]

theorem SMap.risingFrom_mono {α : Type} {m : SMap α} {j k : Nat} (hk : j ≤ k) (h : SMap.risingFrom k m = true) :
    SMap.risingFrom j m = true := by
  cases m with
  | nil => rfl
  | cons e r =>
    obtain ⟨a, v⟩ := e
    simp only [SMap.risingFrom, Bool.and_eq_true, decide_eq_true_eq] at h ⊢
    exact ⟨by omega, h.2⟩

theorem SMap.risingFrom_put {α : Type} (m : SMap α) {j k : Nat} (v : α) (hk : j ≤ k) (h : SMap.risingFrom j m = true) :
    SMap.risingFrom j (SMap.put m k v) = true := by
  induction m generalizing j with
  | nil => simp [SMap.put, SMap.risingFrom, hk]
  | cons e r ih =>
    obtain ⟨a, w⟩ := e
    simp only [SMap.risingFrom, Bool.and_eq_true, decide_eq_true_eq] at h
    simp only [SMap.put]
    split
    · simp only [SMap.risingFrom, Bool.and_eq_true, decide_eq_true_eq]
      exact ⟨hk, by omega, h.2⟩
    · split
      · rename_i hka
        subst hka
        simp only [SMap.risingFrom, Bool.and_eq_true, decide_eq_true_eq]
        exact h
      · simp only [SMap.risingFrom, Bool.and_eq_true, decide_eq_true_eq]
        exact ⟨h.1, ih (by omega) h.2⟩

theorem SMap.risingFrom_filter {α : Type} (m : SMap α) {j : Nat} (p : Nat × α → Bool) (h : SMap.risingFrom j m = true) :
    SMap.risingFrom j (m.filter p) = true := by
  induction m generalizing j with
  | nil => simp [SMap.risingFrom]
  | cons e r ih =>
    obtain ⟨a, w⟩ := e
    simp only [SMap.risingFrom, Bool.and_eq_true, decide_eq_true_eq] at h
    by_cases hp : p (a, w)
    · simp only [List.filter_cons, hp, if_true, SMap.risingFrom, Bool.and_eq_true, decide_eq_true_eq]
      exact ⟨h.1, ih h.2⟩
    · simp only [List.filter_cons, hp, Bool.false_eq_true, if_false]
      exact ih (SMap.risingFrom_mono (by omega) h.2)

theorem SMap.mem_put {α : Type} {m : SMap α} {k : Nat} {v : α} {e : Nat × α} (h : e ∈ SMap.put m k v) : e = (k, v) ∨ e ∈ m := by
  induction m with
  | nil => simpa [SMap.put] using h
  | cons x r ih =>
    obtain ⟨a, w⟩ := x
    simp only [SMap.put] at h
    split at h
    · simpa using h
    · split at h
      · simp only [List.mem_cons] at h ⊢
        tauto
      · simp only [List.mem_cons] at h ⊢
        rcases h with h | h
        · tauto
        · rcases ih h with h | h <;> tauto

/-- A canonical table stays canonical when entries are dropped. -/
theorem SMap.canon_filter {α : Type} [DecidableEq α] {d : α} {m : SMap α} (p : Nat × α → Bool) (h : SMap.canon d m = true) :
    SMap.canon d (m.filter p) = true := by
  simp only [SMap.canon, Bool.and_eq_true, List.all_eq_true] at h ⊢
  exact ⟨SMap.risingFrom_filter m p h.1, fun e he => h.2 e (List.mem_of_mem_filter he)⟩

/-- A canonical table stays canonical when a value other than the default is put. -/
theorem SMap.canon_put {α : Type} [DecidableEq α] {d : α} {m : SMap α} (k : Nat) {v : α} (hv : v ≠ d) (h : SMap.canon d m = true) :
    SMap.canon d (SMap.put m k v) = true := by
  simp only [SMap.canon, Bool.and_eq_true, List.all_eq_true] at h ⊢
  refine ⟨SMap.risingFrom_put m v (Nat.zero_le k) h.1, fun e he => ?_⟩
  rcases SMap.mem_put he with rfl | he
  · simpa using hv
  · exact h.2 e he

/-- A canonical table stays canonical under every write of SMap.set. -/
theorem SMap.canon_set {α : Type} [DecidableEq α] {d : α} {m : SMap α} (k : Nat) (v : α) (h : SMap.canon d m = true) :
    SMap.canon d (SMap.set d m k v) = true := by
  unfold SMap.set
  split
  · exact SMap.canon_filter _ h
  · exact SMap.canon_put k ‹_› h

end Sys2Proof.Machine
end

