-- ==== Sys2Proof/Laws/Memory.lean ====
section
/-! SUPPORT. Laws/Memory.lean: every memory operation keeps the canonical form of memory; a read after a write. -/

namespace Sys2Proof.Machine

theorem memWrite_wf (l : List Byte) : ∀ (m : SMap Byte) (pa : Nat), Memory.wf m = true → Memory.wf (memWrite m pa l) = true := by
  induction l with
  | nil => intro m pa h; simpa [memWrite] using h
  | cons b r ih => intro m pa h; exact ih _ _ (SMap.canon_set pa b h)

theorem rawWrite_wf (s : State) (pa : Nat) (l : List Byte) (h : Memory.wf s.mem = true) : Memory.wf (rawWrite s pa l).mem = true :=
  memWrite_wf l s.mem pa h

theorem zeroRange_wf (pa n : Nat) (s : State) (h : Memory.wf s.mem = true) : Memory.wf (zeroRange pa n s).mem = true :=
  SMap.canon_filter _ h

theorem mergeEntries_wf (add : SMap Byte) (hadd : ∀ e ∈ add, e.2 ≠ 0) :
    ∀ m : SMap Byte, Memory.wf m = true → Memory.wf (mergeEntries m add) = true := by
  induction add with
  | nil => intro m h; simpa [mergeEntries] using h
  | cons e r ih =>
    intro m h
    exact ih (fun x hx => hadd x (List.mem_cons_of_mem _ hx)) _ (SMap.canon_put e.1 (hadd e List.mem_cons_self) h)

theorem copyRange_wf (src dst n : Nat) (s : State) (h : Memory.wf s.mem = true) : Memory.wf (copyRange src dst n s).mem = true := by
  refine mergeEntries_wf _ (fun e he => ?_) _ (zeroRange_wf dst n s h)
  simp only [shiftEntries, List.mem_map, List.mem_filter] at he
  obtain ⟨x, ⟨hx, -⟩, rfl⟩ := he
  simp only [Memory.wf, SMap.canon, Bool.and_eq_true, List.all_eq_true] at h
  simpa using h.2 x hx

theorem writeScales_mem (pa n : Nat) (sc : Option Nat) (s : State) : (writeScales pa n sc s).mem = s.mem := by
  have key : ∀ (l : List Nat) (t : State),
      (l.foldl (fun t w => t.setScale w (sc.getD 127)) t).mem = t.mem := by
    intro l
    induction l with
    | nil => intro t; rfl
    | cons i r ih => intro t; exact ih _
  exact key _ s

/-- A byte after one store. -/
theorem byte_set (m : SMap Byte) (a k : Nat) (b : Byte) :
    SMap.getD (SMap.set 0 m k b) a 0 = if a = k then b else SMap.getD m a 0 := by
  split
  · rename_i h; subst h; simp
  · rename_i h; exact SMap.getD_set_of_ne _ _ _ h

theorem byte_memWrite (l : List Byte) : ∀ (m : SMap Byte) (pa a : Nat),
    SMap.getD (memWrite m pa l) a 0 = if pa ≤ a ∧ a < pa + l.length then l.getD (a - pa) 0 else SMap.getD m a 0 := by
  induction l with
  | nil =>
    intro m pa a
    have : ¬(pa ≤ a ∧ a < pa + ([] : List Byte).length) := by simp only [List.length_nil]; omega
    rw [if_neg this]; rfl
  | cons b r ih =>
    intro m pa a
    simp only [memWrite, ih, byte_set, List.length_cons]
    by_cases h0 : a = pa
    · subst h0
      have h1 : ¬(a + 1 ≤ a ∧ a < a + 1 + r.length) := by omega
      have h2 : a ≤ a ∧ a < a + (r.length + 1) := by omega
      simp [h2]
    · by_cases h1 : pa + 1 ≤ a ∧ a < pa + 1 + r.length
      · have h2 : pa ≤ a ∧ a < pa + (r.length + 1) := by omega
        have h3 : a - pa = (a - (pa + 1)) + 1 := by omega
        rw [if_pos h1, if_pos h2, h3, List.getD_cons_succ]
      · have h2 : ¬(pa ≤ a ∧ a < pa + (r.length + 1)) := by omega
        rw [if_neg h1, if_neg h2, if_neg h0]

/-- A store of a list changes the bytes from its address on and no other. -/
theorem byte_rawWrite (s : State) (pa a : Nat) (l : List Byte) :
    (rawWrite s pa l).byte a = if pa ≤ a ∧ a < pa + l.length then l.getD (a - pa) 0 else s.byte a :=
  byte_memWrite l s.mem pa a

end Sys2Proof.Machine
end

