-- ==== Sys2Proof/Laws/State.lean ====
section
/-! SUPPORT. Laws/State.lean: one lemma per field per update: what an update of one field leaves of the others, and reads after writes. -/

namespace Sys2Proof.Machine

@[simp] theorem State.setReg_now (s : State) (inst off : Nat) (v : W32) : (s.setReg inst off v).now = s.now := rfl
@[simp] theorem State.setReg_tb (s : State) (inst off : Nat) (v : W32) : (s.setReg inst off v).tb = s.tb := rfl
@[simp] theorem State.setReg_tbJump (s : State) (inst off : Nat) (v : W32) : (s.setReg inst off v).tbJump = s.tbJump := rfl
@[simp] theorem State.setReg_free (s : State) (inst off : Nat) (v : W32) : (s.setReg inst off v).free = s.free := rfl
@[simp] theorem State.setReg_out (s : State) (inst off : Nat) (v : W32) : (s.setReg inst off v).out = s.out := rfl
@[simp] theorem State.setReg_halfPcie (s : State) (inst off : Nat) (v : W32) : (s.setReg inst off v).halfPcie = s.halfPcie := rfl
@[simp] theorem State.setReg_halfMgmt (s : State) (inst off : Nat) (v : W32) : (s.setReg inst off v).halfMgmt = s.halfMgmt := rfl
@[simp] theorem State.setReg_faults (s : State) (inst off : Nat) (v : W32) : (s.setReg inst off v).faults = s.faults := rfl
@[simp] theorem State.setReg_jrn (s : State) (inst off : Nat) (v : W32) : (s.setReg inst off v).jrn = s.jrn := rfl
@[simp] theorem State.setReg_mem (s : State) (inst off : Nat) (v : W32) : (s.setReg inst off v).mem = s.mem := rfl
@[simp] theorem State.setReg_scales (s : State) (inst off : Nat) (v : W32) : (s.setReg inst off v).scales = s.scales := rfl
@[simp] theorem State.setReg_bad (s : State) (inst off : Nat) (v : W32) : (s.setReg inst off v).bad = s.bad := rfl
@[simp] theorem State.setReg_classA (s : State) (inst off : Nat) (v : W32) : (s.setReg inst off v).classA = s.classA := rfl
@[simp] theorem State.setReg_conv (s : State) (inst off : Nat) (v : W32) : (s.setReg inst off v).conv = s.conv := rfl
@[simp] theorem State.setReg_convHeld (s : State) (inst off : Nat) (v : W32) : (s.setReg inst off v).convHeld = s.convHeld := rfl
@[simp] theorem State.setReg_tlb (s : State) (inst off : Nat) (v : W32) : (s.setReg inst off v).tlb = s.tlb := rfl
@[simp] theorem State.setReg_inval (s : State) (inst off : Nat) (v : W32) : (s.setReg inst off v).inval = s.inval := rfl
@[simp] theorem State.setReg_pcs (s : State) (inst off : Nat) (v : W32) : (s.setReg inst off v).pcs = s.pcs := rfl
@[simp] theorem State.setReg_scrubHbm (s : State) (inst off : Nat) (v : W32) : (s.setReg inst off v).scrubHbm = s.scrubHbm := rfl
@[simp] theorem State.setReg_scrubT2 (s : State) (inst off : Nat) (v : W32) : (s.setReg inst off v).scrubT2 = s.scrubT2 := rfl
@[simp] theorem State.setReg_selfRef (s : State) (inst off : Nat) (v : W32) : (s.setReg inst off v).selfRef = s.selfRef := rfl
@[simp] theorem State.setReg_t2Last (s : State) (inst off : Nat) (v : W32) : (s.setReg inst off v).t2Last = s.t2Last := rfl
@[simp] theorem State.setReg_t2Wait (s : State) (inst off : Nat) (v : W32) : (s.setReg inst off v).t2Wait = s.t2Wait := rfl
@[simp] theorem State.setReg_t2Kept (s : State) (inst off : Nat) (v : W32) : (s.setReg inst off v).t2Kept = s.t2Kept := rfl
@[simp] theorem State.setReg_t2Counts (s : State) (inst off : Nat) (v : W32) : (s.setReg inst off v).t2Counts = s.t2Counts := rfl
@[simp] theorem State.setReg_pool (s : State) (inst off : Nat) (v : W32) : (s.setReg inst off v).pool = s.pool := rfl
@[simp] theorem State.setReg_poolCyc (s : State) (inst off : Nat) (v : W32) : (s.setReg inst off v).poolCyc = s.poolCyc := rfl
@[simp] theorem State.setReg_poolDone (s : State) (inst off : Nat) (v : W32) : (s.setReg inst off v).poolDone = s.poolDone := rfl
@[simp] theorem State.setReg_rr (s : State) (inst off : Nat) (v : W32) : (s.setReg inst off v).rr = s.rr := rfl
@[simp] theorem State.setReg_ckp (s : State) (inst off : Nat) (v : W32) : (s.setReg inst off v).ckp = s.ckp := rfl
@[simp] theorem State.setReg_ckpArmed (s : State) (inst off : Nat) (v : W32) : (s.setReg inst off v).ckpArmed = s.ckpArmed := rfl
@[simp] theorem State.setReg_aclk (s : State) (inst off : Nat) (v : W32) : (s.setReg inst off v).aclk = s.aclk := rfl
@[simp] theorem State.setReg_fclk (s : State) (inst off : Nat) (v : W32) : (s.setReg inst off v).fclk = s.fclk := rfl
@[simp] theorem State.setReg_mclk (s : State) (inst off : Nat) (v : W32) : (s.setReg inst off v).mclk = s.mclk := rfl
@[simp] theorem State.setReg_clkWait (s : State) (inst off : Nat) (v : W32) : (s.setReg inst off v).clkWait = s.clkWait := rfl
@[simp] theorem State.setReg_busHeld (s : State) (inst off : Nat) (v : W32) : (s.setReg inst off v).busHeld = s.busHeld := rfl
@[simp] theorem State.setReg_msixOn (s : State) (inst off : Nat) (v : W32) : (s.setReg inst off v).msixOn = s.msixOn := rfl
@[simp] theorem State.setReg_msixPend (s : State) (inst off : Nat) (v : W32) : (s.setReg inst off v).msixPend = s.msixPend := rfl
@[simp] theorem State.setReg_bme (s : State) (inst off : Nat) (v : W32) : (s.setReg inst off v).bme = s.bme := rfl
@[simp] theorem State.setReg_d3hot (s : State) (inst off : Nat) (v : W32) : (s.setReg inst off v).d3hot = s.d3hot := rfl
@[simp] theorem State.setReg_pstate (s : State) (inst off : Nat) (v : W32) : (s.setReg inst off v).pstate = s.pstate := rfl
@[simp] theorem State.setReg_lmap (s : State) (inst off : Nat) (v : W32) : (s.setReg inst off v).lmap = s.lmap := rfl
@[simp] theorem State.setReg_lretired (s : State) (inst off : Nat) (v : W32) : (s.setReg inst off v).lretired = s.lretired := rfl
@[simp] theorem State.setReg_defective (s : State) (inst off : Nat) (v : W32) : (s.setReg inst off v).defective = s.defective := rfl
@[simp] theorem State.setReg_pretired (s : State) (inst off : Nat) (v : W32) : (s.setReg inst off v).pretired = s.pretired := rfl
@[simp] theorem State.setReg_redir (s : State) (inst off : Nat) (v : W32) : (s.setReg inst off v).redir = s.redir := rfl
@[simp] theorem State.setReg_waking (s : State) (inst off : Nat) (v : W32) : (s.setReg inst off v).waking = s.waking := rfl
@[simp] theorem State.setReg_sramWait (s : State) (inst off : Nat) (v : W32) : (s.setReg inst off v).sramWait = s.sramWait := rfl
@[simp] theorem State.setReg_grid (s : State) (inst off : Nat) (v : W32) : (s.setReg inst off v).grid = s.grid := rfl
@[simp] theorem State.setReg_failing (s : State) (inst off : Nat) (v : W32) : (s.setReg inst off v).failing = s.failing := rfl
@[simp] theorem State.setReg_lastEvt (s : State) (inst off : Nat) (v : W32) : (s.setReg inst off v).lastEvt = s.lastEvt := rfl
@[simp] theorem State.setReg_tabs (s : State) (inst off : Nat) (v : W32) : (s.setReg inst off v).tabs = s.tabs := rfl
@[simp] theorem State.setReg_binds (s : State) (inst off : Nat) (v : W32) : (s.setReg inst off v).binds = s.binds := rfl
@[simp] theorem State.setReg_fencedArr (s : State) (inst off : Nat) (v : W32) : (s.setReg inst off v).fencedArr = s.fencedArr := rfl
@[simp] theorem State.setReg_accUse (s : State) (inst off : Nat) (v : W32) : (s.setReg inst off v).accUse = s.accUse := rfl
@[simp] theorem State.setReg_thr (s : State) (inst off : Nat) (v : W32) : (s.setReg inst off v).thr = s.thr := rfl
@[simp] theorem State.setReg_bars (s : State) (inst off : Nat) (v : W32) : (s.setReg inst off v).bars = s.bars := rfl
@[simp] theorem State.setReg_dma (s : State) (inst off : Nat) (v : W32) : (s.setReg inst off v).dma = s.dma := rfl
@[simp] theorem State.setReg_rowst (s : State) (inst off : Nat) (v : W32) : (s.setReg inst off v).rowst = s.rowst := rfl
@[simp] theorem State.setReg_vecGen (s : State) (inst off : Nat) (v : W32) : (s.setReg inst off v).vecGen = s.vecGen := rfl
@[simp] theorem State.setReg_imgs (s : State) (inst off : Nat) (v : W32) : (s.setReg inst off v).imgs = s.imgs := rfl
@[simp] theorem State.setReg_iports (s : State) (inst off : Nat) (v : W32) : (s.setReg inst off v).iports = s.iports := rfl
@[simp] theorem State.setReg_istreams (s : State) (inst off : Nat) (v : W32) : (s.setReg inst off v).istreams = s.istreams := rfl
@[simp] theorem State.setReg_med (s : State) (inst off : Nat) (v : W32) : (s.setReg inst off v).med = s.med := rfl
@[simp] theorem State.setReg_medCount (s : State) (inst off : Nat) (v : W32) : (s.setReg inst off v).medCount = s.medCount := rfl
@[simp] theorem State.setReg_fbs (s : State) (inst off : Nat) (v : W32) : (s.setReg inst off v).fbs = s.fbs := rfl
@[simp] theorem State.setReg_medLast (s : State) (inst off : Nat) (v : W32) : (s.setReg inst off v).medLast = s.medLast := rfl
@[simp] theorem State.setReg_toksets (s : State) (inst off : Nat) (v : W32) : (s.setReg inst off v).toksets = s.toksets := rfl
@[simp] theorem State.setReg_bstreams (s : State) (inst off : Nat) (v : W32) : (s.setReg inst off v).bstreams = s.bstreams := rfl
@[simp] theorem State.setReg_batGen (s : State) (inst off : Nat) (v : W32) : (s.setReg inst off v).batGen = s.batGen := rfl
@[simp] theorem State.setReg_cports (s : State) (inst off : Nat) (v : W32) : (s.setReg inst off v).cports = s.cports := rfl
@[simp] theorem State.setReg_outbox (s : State) (inst off : Nat) (v : W32) : (s.setReg inst off v).outbox = s.outbox := rfl
@[simp] theorem State.setReg_msgCount (s : State) (inst off : Nat) (v : W32) : (s.setReg inst off v).msgCount = s.msgCount := rfl
@[simp] theorem State.setReg_slowDue (s : State) (inst off : Nat) (v : W32) : (s.setReg inst off v).slowDue = s.slowDue := rfl
@[simp] theorem State.setReg_planReqs (s : State) (inst off : Nat) (v : W32) : (s.setReg inst off v).planReqs = s.planReqs := rfl
@[simp] theorem State.setReg_plans (s : State) (inst off : Nat) (v : W32) : (s.setReg inst off v).plans = s.plans := rfl
@[simp] theorem State.setReg_planRuns (s : State) (inst off : Nat) (v : W32) : (s.setReg inst off v).planRuns = s.planRuns := rfl
@[simp] theorem State.setReg_planEnded (s : State) (inst off : Nat) (v : W32) : (s.setReg inst off v).planEnded = s.planEnded := rfl
@[simp] theorem State.setReg_aborts (s : State) (inst off : Nat) (v : W32) : (s.setReg inst off v).aborts = s.aborts := rfl
@[simp] theorem State.setReg_early (s : State) (inst off : Nat) (v : W32) : (s.setReg inst off v).early = s.early := rfl
@[simp] theorem State.setReg_slotWait (s : State) (inst off : Nat) (v : W32) : (s.setReg inst off v).slotWait = s.slotWait := rfl
@[simp] theorem State.setReg_colGen (s : State) (inst off : Nat) (v : W32) : (s.setReg inst off v).colGen = s.colGen := rfl
@[simp] theorem State.setReg_lodeQ (s : State) (inst off : Nat) (v : W32) : (s.setReg inst off v).lodeQ = s.lodeQ := rfl
@[simp] theorem State.setReg_lodeHeld (s : State) (inst off : Nat) (v : W32) : (s.setReg inst off v).lodeHeld = s.lodeHeld := rfl
@[simp] theorem State.setReg_lodeRun (s : State) (inst off : Nat) (v : W32) : (s.setReg inst off v).lodeRun = s.lodeRun := rfl
@[simp] theorem State.setReg_lodeParts (s : State) (inst off : Nat) (v : W32) : (s.setReg inst off v).lodeParts = s.lodeParts := rfl
@[simp] theorem State.setReg_lodeCnt (s : State) (inst off : Nat) (v : W32) : (s.setReg inst off v).lodeCnt = s.lodeCnt := rfl
@[simp] theorem State.setReg_lodeGen (s : State) (inst off : Nat) (v : W32) : (s.setReg inst off v).lodeGen = s.lodeGen := rfl
@[simp] theorem State.setReg_items (s : State) (inst off : Nat) (v : W32) : (s.setReg inst off v).items = s.items := rfl
@[simp] theorem State.setReg_shares (s : State) (inst off : Nat) (v : W32) : (s.setReg inst off v).shares = s.shares := rfl
@[simp] theorem State.setReg_openStep (s : State) (inst off : Nat) (v : W32) : (s.setReg inst off v).openStep = s.openStep := rfl
@[simp] theorem State.setReg_lastStep (s : State) (inst off : Nat) (v : W32) : (s.setReg inst off v).lastStep = s.lastStep := rfl
@[simp] theorem State.setReg_evalOk (s : State) (inst off : Nat) (v : W32) : (s.setReg inst off v).evalOk = s.evalOk := rfl
@[simp] theorem State.setReg_winCost (s : State) (inst off : Nat) (v : W32) : (s.setReg inst off v).winCost = s.winCost := rfl
@[simp] theorem State.setReg_winK (s : State) (inst off : Nat) (v : W32) : (s.setReg inst off v).winK = s.winK := rfl
@[simp] theorem State.setReg_lastWin (s : State) (inst off : Nat) (v : W32) : (s.setReg inst off v).lastWin = s.lastWin := rfl
@[simp] theorem State.setReg_cost (s : State) (inst off : Nat) (v : W32) : (s.setReg inst off v).cost = s.cost := rfl
@[simp] theorem State.setReg_winCount (s : State) (inst off : Nat) (v : W32) : (s.setReg inst off v).winCount = s.winCount := rfl
@[simp] theorem State.setReg_winFrom (s : State) (inst off : Nat) (v : W32) : (s.setReg inst off v).winFrom = s.winFrom := rfl
@[simp] theorem State.setReg_winTicks (s : State) (inst off : Nat) (v : W32) : (s.setReg inst off v).winTicks = s.winTicks := rfl
@[simp] theorem State.setReg_batchBase (s : State) (inst off : Nat) (v : W32) : (s.setReg inst off v).batchBase = s.batchBase := rfl
@[simp] theorem State.setReg_released (s : State) (inst off : Nat) (v : W32) : (s.setReg inst off v).released = s.released := rfl
@[simp] theorem State.setReg_relDue (s : State) (inst off : Nat) (v : W32) : (s.setReg inst off v).relDue = s.relDue := rfl
@[simp] theorem State.setReg_readyCount (s : State) (inst off : Nat) (v : W32) : (s.setReg inst off v).readyCount = s.readyCount := rfl
@[simp] theorem State.setReg_pw (s : State) (inst off : Nat) (v : W32) : (s.setReg inst off v).pw = s.pw := rfl
@[simp] theorem State.setReg_sqs (s : State) (inst off : Nat) (v : W32) : (s.setReg inst off v).sqs = s.sqs := rfl
@[simp] theorem State.setReg_cqs (s : State) (inst off : Nat) (v : W32) : (s.setReg inst off v).cqs = s.cqs := rfl
@[simp] theorem State.setReg_linkUp (s : State) (inst off : Nat) (v : W32) : (s.setReg inst off v).linkUp = s.linkUp := rfl
@[simp] theorem State.setReg_up (s : State) (inst off : Nat) (v : W32) : (s.setReg inst off v).up = s.up := rfl
@[simp] theorem State.setReg_sec (s : State) (inst off : Nat) (v : W32) : (s.setReg inst off v).sec = s.sec := rfl
@[simp] theorem State.setReg_pending (s : State) (inst off : Nat) (v : W32) : (s.setReg inst off v).pending = s.pending := rfl
@[simp] theorem State.emit_now (s : State) (o : Out) : (s.emit o).now = s.now := rfl
@[simp] theorem State.emit_tb (s : State) (o : Out) : (s.emit o).tb = s.tb := rfl
@[simp] theorem State.emit_tbJump (s : State) (o : Out) : (s.emit o).tbJump = s.tbJump := rfl
@[simp] theorem State.emit_free (s : State) (o : Out) : (s.emit o).free = s.free := rfl
@[simp] theorem State.emit_regs (s : State) (o : Out) : (s.emit o).regs = s.regs := rfl
@[simp] theorem State.emit_halfPcie (s : State) (o : Out) : (s.emit o).halfPcie = s.halfPcie := rfl
@[simp] theorem State.emit_halfMgmt (s : State) (o : Out) : (s.emit o).halfMgmt = s.halfMgmt := rfl
@[simp] theorem State.emit_faults (s : State) (o : Out) : (s.emit o).faults = s.faults := rfl
@[simp] theorem State.emit_jrn (s : State) (o : Out) : (s.emit o).jrn = s.jrn := rfl
@[simp] theorem State.emit_mem (s : State) (o : Out) : (s.emit o).mem = s.mem := rfl
@[simp] theorem State.emit_scales (s : State) (o : Out) : (s.emit o).scales = s.scales := rfl
@[simp] theorem State.emit_bad (s : State) (o : Out) : (s.emit o).bad = s.bad := rfl
@[simp] theorem State.emit_classA (s : State) (o : Out) : (s.emit o).classA = s.classA := rfl
@[simp] theorem State.emit_conv (s : State) (o : Out) : (s.emit o).conv = s.conv := rfl
@[simp] theorem State.emit_convHeld (s : State) (o : Out) : (s.emit o).convHeld = s.convHeld := rfl
@[simp] theorem State.emit_tlb (s : State) (o : Out) : (s.emit o).tlb = s.tlb := rfl
@[simp] theorem State.emit_inval (s : State) (o : Out) : (s.emit o).inval = s.inval := rfl
@[simp] theorem State.emit_pcs (s : State) (o : Out) : (s.emit o).pcs = s.pcs := rfl
@[simp] theorem State.emit_scrubHbm (s : State) (o : Out) : (s.emit o).scrubHbm = s.scrubHbm := rfl
@[simp] theorem State.emit_scrubT2 (s : State) (o : Out) : (s.emit o).scrubT2 = s.scrubT2 := rfl
@[simp] theorem State.emit_selfRef (s : State) (o : Out) : (s.emit o).selfRef = s.selfRef := rfl
@[simp] theorem State.emit_t2Last (s : State) (o : Out) : (s.emit o).t2Last = s.t2Last := rfl
@[simp] theorem State.emit_t2Wait (s : State) (o : Out) : (s.emit o).t2Wait = s.t2Wait := rfl
@[simp] theorem State.emit_t2Kept (s : State) (o : Out) : (s.emit o).t2Kept = s.t2Kept := rfl
@[simp] theorem State.emit_t2Counts (s : State) (o : Out) : (s.emit o).t2Counts = s.t2Counts := rfl
@[simp] theorem State.emit_pool (s : State) (o : Out) : (s.emit o).pool = s.pool := rfl
@[simp] theorem State.emit_poolCyc (s : State) (o : Out) : (s.emit o).poolCyc = s.poolCyc := rfl
@[simp] theorem State.emit_poolDone (s : State) (o : Out) : (s.emit o).poolDone = s.poolDone := rfl
@[simp] theorem State.emit_rr (s : State) (o : Out) : (s.emit o).rr = s.rr := rfl
@[simp] theorem State.emit_ckp (s : State) (o : Out) : (s.emit o).ckp = s.ckp := rfl
@[simp] theorem State.emit_ckpArmed (s : State) (o : Out) : (s.emit o).ckpArmed = s.ckpArmed := rfl
@[simp] theorem State.emit_aclk (s : State) (o : Out) : (s.emit o).aclk = s.aclk := rfl
@[simp] theorem State.emit_fclk (s : State) (o : Out) : (s.emit o).fclk = s.fclk := rfl
@[simp] theorem State.emit_mclk (s : State) (o : Out) : (s.emit o).mclk = s.mclk := rfl
@[simp] theorem State.emit_clkWait (s : State) (o : Out) : (s.emit o).clkWait = s.clkWait := rfl
@[simp] theorem State.emit_busHeld (s : State) (o : Out) : (s.emit o).busHeld = s.busHeld := rfl
@[simp] theorem State.emit_msixOn (s : State) (o : Out) : (s.emit o).msixOn = s.msixOn := rfl
@[simp] theorem State.emit_msixPend (s : State) (o : Out) : (s.emit o).msixPend = s.msixPend := rfl
@[simp] theorem State.emit_bme (s : State) (o : Out) : (s.emit o).bme = s.bme := rfl
@[simp] theorem State.emit_d3hot (s : State) (o : Out) : (s.emit o).d3hot = s.d3hot := rfl
@[simp] theorem State.emit_pstate (s : State) (o : Out) : (s.emit o).pstate = s.pstate := rfl
@[simp] theorem State.emit_lmap (s : State) (o : Out) : (s.emit o).lmap = s.lmap := rfl
@[simp] theorem State.emit_lretired (s : State) (o : Out) : (s.emit o).lretired = s.lretired := rfl
@[simp] theorem State.emit_defective (s : State) (o : Out) : (s.emit o).defective = s.defective := rfl
@[simp] theorem State.emit_pretired (s : State) (o : Out) : (s.emit o).pretired = s.pretired := rfl
@[simp] theorem State.emit_redir (s : State) (o : Out) : (s.emit o).redir = s.redir := rfl
@[simp] theorem State.emit_waking (s : State) (o : Out) : (s.emit o).waking = s.waking := rfl
@[simp] theorem State.emit_sramWait (s : State) (o : Out) : (s.emit o).sramWait = s.sramWait := rfl
@[simp] theorem State.emit_grid (s : State) (o : Out) : (s.emit o).grid = s.grid := rfl
@[simp] theorem State.emit_failing (s : State) (o : Out) : (s.emit o).failing = s.failing := rfl
@[simp] theorem State.emit_lastEvt (s : State) (o : Out) : (s.emit o).lastEvt = s.lastEvt := rfl
@[simp] theorem State.emit_tabs (s : State) (o : Out) : (s.emit o).tabs = s.tabs := rfl
@[simp] theorem State.emit_binds (s : State) (o : Out) : (s.emit o).binds = s.binds := rfl
@[simp] theorem State.emit_fencedArr (s : State) (o : Out) : (s.emit o).fencedArr = s.fencedArr := rfl
@[simp] theorem State.emit_accUse (s : State) (o : Out) : (s.emit o).accUse = s.accUse := rfl
@[simp] theorem State.emit_thr (s : State) (o : Out) : (s.emit o).thr = s.thr := rfl
@[simp] theorem State.emit_bars (s : State) (o : Out) : (s.emit o).bars = s.bars := rfl
@[simp] theorem State.emit_dma (s : State) (o : Out) : (s.emit o).dma = s.dma := rfl
@[simp] theorem State.emit_rowst (s : State) (o : Out) : (s.emit o).rowst = s.rowst := rfl
@[simp] theorem State.emit_vecGen (s : State) (o : Out) : (s.emit o).vecGen = s.vecGen := rfl
@[simp] theorem State.emit_imgs (s : State) (o : Out) : (s.emit o).imgs = s.imgs := rfl
@[simp] theorem State.emit_iports (s : State) (o : Out) : (s.emit o).iports = s.iports := rfl
@[simp] theorem State.emit_istreams (s : State) (o : Out) : (s.emit o).istreams = s.istreams := rfl
@[simp] theorem State.emit_med (s : State) (o : Out) : (s.emit o).med = s.med := rfl
@[simp] theorem State.emit_medCount (s : State) (o : Out) : (s.emit o).medCount = s.medCount := rfl
@[simp] theorem State.emit_fbs (s : State) (o : Out) : (s.emit o).fbs = s.fbs := rfl
@[simp] theorem State.emit_medLast (s : State) (o : Out) : (s.emit o).medLast = s.medLast := rfl
@[simp] theorem State.emit_toksets (s : State) (o : Out) : (s.emit o).toksets = s.toksets := rfl
@[simp] theorem State.emit_bstreams (s : State) (o : Out) : (s.emit o).bstreams = s.bstreams := rfl
@[simp] theorem State.emit_batGen (s : State) (o : Out) : (s.emit o).batGen = s.batGen := rfl
@[simp] theorem State.emit_cports (s : State) (o : Out) : (s.emit o).cports = s.cports := rfl
@[simp] theorem State.emit_outbox (s : State) (o : Out) : (s.emit o).outbox = s.outbox := rfl
@[simp] theorem State.emit_msgCount (s : State) (o : Out) : (s.emit o).msgCount = s.msgCount := rfl
@[simp] theorem State.emit_slowDue (s : State) (o : Out) : (s.emit o).slowDue = s.slowDue := rfl
@[simp] theorem State.emit_planReqs (s : State) (o : Out) : (s.emit o).planReqs = s.planReqs := rfl
@[simp] theorem State.emit_plans (s : State) (o : Out) : (s.emit o).plans = s.plans := rfl
@[simp] theorem State.emit_planRuns (s : State) (o : Out) : (s.emit o).planRuns = s.planRuns := rfl
@[simp] theorem State.emit_planEnded (s : State) (o : Out) : (s.emit o).planEnded = s.planEnded := rfl
@[simp] theorem State.emit_aborts (s : State) (o : Out) : (s.emit o).aborts = s.aborts := rfl
@[simp] theorem State.emit_early (s : State) (o : Out) : (s.emit o).early = s.early := rfl
@[simp] theorem State.emit_slotWait (s : State) (o : Out) : (s.emit o).slotWait = s.slotWait := rfl
@[simp] theorem State.emit_colGen (s : State) (o : Out) : (s.emit o).colGen = s.colGen := rfl
@[simp] theorem State.emit_lodeQ (s : State) (o : Out) : (s.emit o).lodeQ = s.lodeQ := rfl
@[simp] theorem State.emit_lodeHeld (s : State) (o : Out) : (s.emit o).lodeHeld = s.lodeHeld := rfl
@[simp] theorem State.emit_lodeRun (s : State) (o : Out) : (s.emit o).lodeRun = s.lodeRun := rfl
@[simp] theorem State.emit_lodeParts (s : State) (o : Out) : (s.emit o).lodeParts = s.lodeParts := rfl
@[simp] theorem State.emit_lodeCnt (s : State) (o : Out) : (s.emit o).lodeCnt = s.lodeCnt := rfl
@[simp] theorem State.emit_lodeGen (s : State) (o : Out) : (s.emit o).lodeGen = s.lodeGen := rfl
@[simp] theorem State.emit_items (s : State) (o : Out) : (s.emit o).items = s.items := rfl
@[simp] theorem State.emit_shares (s : State) (o : Out) : (s.emit o).shares = s.shares := rfl
@[simp] theorem State.emit_openStep (s : State) (o : Out) : (s.emit o).openStep = s.openStep := rfl
@[simp] theorem State.emit_lastStep (s : State) (o : Out) : (s.emit o).lastStep = s.lastStep := rfl
@[simp] theorem State.emit_evalOk (s : State) (o : Out) : (s.emit o).evalOk = s.evalOk := rfl
@[simp] theorem State.emit_winCost (s : State) (o : Out) : (s.emit o).winCost = s.winCost := rfl
@[simp] theorem State.emit_winK (s : State) (o : Out) : (s.emit o).winK = s.winK := rfl
@[simp] theorem State.emit_lastWin (s : State) (o : Out) : (s.emit o).lastWin = s.lastWin := rfl
@[simp] theorem State.emit_cost (s : State) (o : Out) : (s.emit o).cost = s.cost := rfl
@[simp] theorem State.emit_winCount (s : State) (o : Out) : (s.emit o).winCount = s.winCount := rfl
@[simp] theorem State.emit_winFrom (s : State) (o : Out) : (s.emit o).winFrom = s.winFrom := rfl
@[simp] theorem State.emit_winTicks (s : State) (o : Out) : (s.emit o).winTicks = s.winTicks := rfl
@[simp] theorem State.emit_batchBase (s : State) (o : Out) : (s.emit o).batchBase = s.batchBase := rfl
@[simp] theorem State.emit_released (s : State) (o : Out) : (s.emit o).released = s.released := rfl
@[simp] theorem State.emit_relDue (s : State) (o : Out) : (s.emit o).relDue = s.relDue := rfl
@[simp] theorem State.emit_readyCount (s : State) (o : Out) : (s.emit o).readyCount = s.readyCount := rfl
@[simp] theorem State.emit_pw (s : State) (o : Out) : (s.emit o).pw = s.pw := rfl
@[simp] theorem State.emit_sqs (s : State) (o : Out) : (s.emit o).sqs = s.sqs := rfl
@[simp] theorem State.emit_cqs (s : State) (o : Out) : (s.emit o).cqs = s.cqs := rfl
@[simp] theorem State.emit_linkUp (s : State) (o : Out) : (s.emit o).linkUp = s.linkUp := rfl
@[simp] theorem State.emit_up (s : State) (o : Out) : (s.emit o).up = s.up := rfl
@[simp] theorem State.emit_sec (s : State) (o : Out) : (s.emit o).sec = s.sec := rfl
@[simp] theorem State.emit_pending (s : State) (o : Out) : (s.emit o).pending = s.pending := rfl
@[simp] theorem State.setTh_now (s : State) (a t : Nat) (x : Thread) : (s.setTh a t x).now = s.now := rfl
@[simp] theorem State.setTh_tb (s : State) (a t : Nat) (x : Thread) : (s.setTh a t x).tb = s.tb := rfl
@[simp] theorem State.setTh_tbJump (s : State) (a t : Nat) (x : Thread) : (s.setTh a t x).tbJump = s.tbJump := rfl
@[simp] theorem State.setTh_free (s : State) (a t : Nat) (x : Thread) : (s.setTh a t x).free = s.free := rfl
@[simp] theorem State.setTh_out (s : State) (a t : Nat) (x : Thread) : (s.setTh a t x).out = s.out := rfl
@[simp] theorem State.setTh_regs (s : State) (a t : Nat) (x : Thread) : (s.setTh a t x).regs = s.regs := rfl
@[simp] theorem State.setTh_halfPcie (s : State) (a t : Nat) (x : Thread) : (s.setTh a t x).halfPcie = s.halfPcie := rfl
@[simp] theorem State.setTh_halfMgmt (s : State) (a t : Nat) (x : Thread) : (s.setTh a t x).halfMgmt = s.halfMgmt := rfl
@[simp] theorem State.setTh_faults (s : State) (a t : Nat) (x : Thread) : (s.setTh a t x).faults = s.faults := rfl
@[simp] theorem State.setTh_jrn (s : State) (a t : Nat) (x : Thread) : (s.setTh a t x).jrn = s.jrn := rfl
@[simp] theorem State.setTh_mem (s : State) (a t : Nat) (x : Thread) : (s.setTh a t x).mem = s.mem := rfl
@[simp] theorem State.setTh_scales (s : State) (a t : Nat) (x : Thread) : (s.setTh a t x).scales = s.scales := rfl
@[simp] theorem State.setTh_bad (s : State) (a t : Nat) (x : Thread) : (s.setTh a t x).bad = s.bad := rfl
@[simp] theorem State.setTh_classA (s : State) (a t : Nat) (x : Thread) : (s.setTh a t x).classA = s.classA := rfl
@[simp] theorem State.setTh_conv (s : State) (a t : Nat) (x : Thread) : (s.setTh a t x).conv = s.conv := rfl
@[simp] theorem State.setTh_convHeld (s : State) (a t : Nat) (x : Thread) : (s.setTh a t x).convHeld = s.convHeld := rfl
@[simp] theorem State.setTh_tlb (s : State) (a t : Nat) (x : Thread) : (s.setTh a t x).tlb = s.tlb := rfl
@[simp] theorem State.setTh_inval (s : State) (a t : Nat) (x : Thread) : (s.setTh a t x).inval = s.inval := rfl
@[simp] theorem State.setTh_pcs (s : State) (a t : Nat) (x : Thread) : (s.setTh a t x).pcs = s.pcs := rfl
@[simp] theorem State.setTh_scrubHbm (s : State) (a t : Nat) (x : Thread) : (s.setTh a t x).scrubHbm = s.scrubHbm := rfl
@[simp] theorem State.setTh_scrubT2 (s : State) (a t : Nat) (x : Thread) : (s.setTh a t x).scrubT2 = s.scrubT2 := rfl
@[simp] theorem State.setTh_selfRef (s : State) (a t : Nat) (x : Thread) : (s.setTh a t x).selfRef = s.selfRef := rfl
@[simp] theorem State.setTh_t2Last (s : State) (a t : Nat) (x : Thread) : (s.setTh a t x).t2Last = s.t2Last := rfl
@[simp] theorem State.setTh_t2Wait (s : State) (a t : Nat) (x : Thread) : (s.setTh a t x).t2Wait = s.t2Wait := rfl
@[simp] theorem State.setTh_t2Kept (s : State) (a t : Nat) (x : Thread) : (s.setTh a t x).t2Kept = s.t2Kept := rfl
@[simp] theorem State.setTh_t2Counts (s : State) (a t : Nat) (x : Thread) : (s.setTh a t x).t2Counts = s.t2Counts := rfl
@[simp] theorem State.setTh_pool (s : State) (a t : Nat) (x : Thread) : (s.setTh a t x).pool = s.pool := rfl
@[simp] theorem State.setTh_poolCyc (s : State) (a t : Nat) (x : Thread) : (s.setTh a t x).poolCyc = s.poolCyc := rfl
@[simp] theorem State.setTh_poolDone (s : State) (a t : Nat) (x : Thread) : (s.setTh a t x).poolDone = s.poolDone := rfl
@[simp] theorem State.setTh_rr (s : State) (a t : Nat) (x : Thread) : (s.setTh a t x).rr = s.rr := rfl
@[simp] theorem State.setTh_ckp (s : State) (a t : Nat) (x : Thread) : (s.setTh a t x).ckp = s.ckp := rfl
@[simp] theorem State.setTh_ckpArmed (s : State) (a t : Nat) (x : Thread) : (s.setTh a t x).ckpArmed = s.ckpArmed := rfl
@[simp] theorem State.setTh_aclk (s : State) (a t : Nat) (x : Thread) : (s.setTh a t x).aclk = s.aclk := rfl
@[simp] theorem State.setTh_fclk (s : State) (a t : Nat) (x : Thread) : (s.setTh a t x).fclk = s.fclk := rfl
@[simp] theorem State.setTh_mclk (s : State) (a t : Nat) (x : Thread) : (s.setTh a t x).mclk = s.mclk := rfl
@[simp] theorem State.setTh_clkWait (s : State) (a t : Nat) (x : Thread) : (s.setTh a t x).clkWait = s.clkWait := rfl
@[simp] theorem State.setTh_busHeld (s : State) (a t : Nat) (x : Thread) : (s.setTh a t x).busHeld = s.busHeld := rfl
@[simp] theorem State.setTh_msixOn (s : State) (a t : Nat) (x : Thread) : (s.setTh a t x).msixOn = s.msixOn := rfl
@[simp] theorem State.setTh_msixPend (s : State) (a t : Nat) (x : Thread) : (s.setTh a t x).msixPend = s.msixPend := rfl
@[simp] theorem State.setTh_bme (s : State) (a t : Nat) (x : Thread) : (s.setTh a t x).bme = s.bme := rfl
@[simp] theorem State.setTh_d3hot (s : State) (a t : Nat) (x : Thread) : (s.setTh a t x).d3hot = s.d3hot := rfl
@[simp] theorem State.setTh_pstate (s : State) (a t : Nat) (x : Thread) : (s.setTh a t x).pstate = s.pstate := rfl
@[simp] theorem State.setTh_lmap (s : State) (a t : Nat) (x : Thread) : (s.setTh a t x).lmap = s.lmap := rfl
@[simp] theorem State.setTh_lretired (s : State) (a t : Nat) (x : Thread) : (s.setTh a t x).lretired = s.lretired := rfl
@[simp] theorem State.setTh_defective (s : State) (a t : Nat) (x : Thread) : (s.setTh a t x).defective = s.defective := rfl
@[simp] theorem State.setTh_pretired (s : State) (a t : Nat) (x : Thread) : (s.setTh a t x).pretired = s.pretired := rfl
@[simp] theorem State.setTh_redir (s : State) (a t : Nat) (x : Thread) : (s.setTh a t x).redir = s.redir := rfl
@[simp] theorem State.setTh_waking (s : State) (a t : Nat) (x : Thread) : (s.setTh a t x).waking = s.waking := rfl
@[simp] theorem State.setTh_sramWait (s : State) (a t : Nat) (x : Thread) : (s.setTh a t x).sramWait = s.sramWait := rfl
@[simp] theorem State.setTh_grid (s : State) (a t : Nat) (x : Thread) : (s.setTh a t x).grid = s.grid := rfl
@[simp] theorem State.setTh_failing (s : State) (a t : Nat) (x : Thread) : (s.setTh a t x).failing = s.failing := rfl
@[simp] theorem State.setTh_lastEvt (s : State) (a t : Nat) (x : Thread) : (s.setTh a t x).lastEvt = s.lastEvt := rfl
@[simp] theorem State.setTh_tabs (s : State) (a t : Nat) (x : Thread) : (s.setTh a t x).tabs = s.tabs := rfl
@[simp] theorem State.setTh_binds (s : State) (a t : Nat) (x : Thread) : (s.setTh a t x).binds = s.binds := rfl
@[simp] theorem State.setTh_fencedArr (s : State) (a t : Nat) (x : Thread) : (s.setTh a t x).fencedArr = s.fencedArr := rfl
@[simp] theorem State.setTh_accUse (s : State) (a t : Nat) (x : Thread) : (s.setTh a t x).accUse = s.accUse := rfl
@[simp] theorem State.setTh_bars (s : State) (a t : Nat) (x : Thread) : (s.setTh a t x).bars = s.bars := rfl
@[simp] theorem State.setTh_dma (s : State) (a t : Nat) (x : Thread) : (s.setTh a t x).dma = s.dma := rfl
@[simp] theorem State.setTh_rowst (s : State) (a t : Nat) (x : Thread) : (s.setTh a t x).rowst = s.rowst := rfl
@[simp] theorem State.setTh_vecGen (s : State) (a t : Nat) (x : Thread) : (s.setTh a t x).vecGen = s.vecGen := rfl
@[simp] theorem State.setTh_imgs (s : State) (a t : Nat) (x : Thread) : (s.setTh a t x).imgs = s.imgs := rfl
@[simp] theorem State.setTh_iports (s : State) (a t : Nat) (x : Thread) : (s.setTh a t x).iports = s.iports := rfl
@[simp] theorem State.setTh_istreams (s : State) (a t : Nat) (x : Thread) : (s.setTh a t x).istreams = s.istreams := rfl
@[simp] theorem State.setTh_med (s : State) (a t : Nat) (x : Thread) : (s.setTh a t x).med = s.med := rfl
@[simp] theorem State.setTh_medCount (s : State) (a t : Nat) (x : Thread) : (s.setTh a t x).medCount = s.medCount := rfl
@[simp] theorem State.setTh_fbs (s : State) (a t : Nat) (x : Thread) : (s.setTh a t x).fbs = s.fbs := rfl
@[simp] theorem State.setTh_medLast (s : State) (a t : Nat) (x : Thread) : (s.setTh a t x).medLast = s.medLast := rfl
@[simp] theorem State.setTh_toksets (s : State) (a t : Nat) (x : Thread) : (s.setTh a t x).toksets = s.toksets := rfl
@[simp] theorem State.setTh_bstreams (s : State) (a t : Nat) (x : Thread) : (s.setTh a t x).bstreams = s.bstreams := rfl
@[simp] theorem State.setTh_batGen (s : State) (a t : Nat) (x : Thread) : (s.setTh a t x).batGen = s.batGen := rfl
@[simp] theorem State.setTh_cports (s : State) (a t : Nat) (x : Thread) : (s.setTh a t x).cports = s.cports := rfl
@[simp] theorem State.setTh_outbox (s : State) (a t : Nat) (x : Thread) : (s.setTh a t x).outbox = s.outbox := rfl
@[simp] theorem State.setTh_msgCount (s : State) (a t : Nat) (x : Thread) : (s.setTh a t x).msgCount = s.msgCount := rfl
@[simp] theorem State.setTh_slowDue (s : State) (a t : Nat) (x : Thread) : (s.setTh a t x).slowDue = s.slowDue := rfl
@[simp] theorem State.setTh_planReqs (s : State) (a t : Nat) (x : Thread) : (s.setTh a t x).planReqs = s.planReqs := rfl
@[simp] theorem State.setTh_plans (s : State) (a t : Nat) (x : Thread) : (s.setTh a t x).plans = s.plans := rfl
@[simp] theorem State.setTh_planRuns (s : State) (a t : Nat) (x : Thread) : (s.setTh a t x).planRuns = s.planRuns := rfl
@[simp] theorem State.setTh_planEnded (s : State) (a t : Nat) (x : Thread) : (s.setTh a t x).planEnded = s.planEnded := rfl
@[simp] theorem State.setTh_aborts (s : State) (a t : Nat) (x : Thread) : (s.setTh a t x).aborts = s.aborts := rfl
@[simp] theorem State.setTh_early (s : State) (a t : Nat) (x : Thread) : (s.setTh a t x).early = s.early := rfl
@[simp] theorem State.setTh_slotWait (s : State) (a t : Nat) (x : Thread) : (s.setTh a t x).slotWait = s.slotWait := rfl
@[simp] theorem State.setTh_colGen (s : State) (a t : Nat) (x : Thread) : (s.setTh a t x).colGen = s.colGen := rfl
@[simp] theorem State.setTh_lodeQ (s : State) (a t : Nat) (x : Thread) : (s.setTh a t x).lodeQ = s.lodeQ := rfl
@[simp] theorem State.setTh_lodeHeld (s : State) (a t : Nat) (x : Thread) : (s.setTh a t x).lodeHeld = s.lodeHeld := rfl
@[simp] theorem State.setTh_lodeRun (s : State) (a t : Nat) (x : Thread) : (s.setTh a t x).lodeRun = s.lodeRun := rfl
@[simp] theorem State.setTh_lodeParts (s : State) (a t : Nat) (x : Thread) : (s.setTh a t x).lodeParts = s.lodeParts := rfl
@[simp] theorem State.setTh_lodeCnt (s : State) (a t : Nat) (x : Thread) : (s.setTh a t x).lodeCnt = s.lodeCnt := rfl
@[simp] theorem State.setTh_lodeGen (s : State) (a t : Nat) (x : Thread) : (s.setTh a t x).lodeGen = s.lodeGen := rfl
@[simp] theorem State.setTh_items (s : State) (a t : Nat) (x : Thread) : (s.setTh a t x).items = s.items := rfl
@[simp] theorem State.setTh_shares (s : State) (a t : Nat) (x : Thread) : (s.setTh a t x).shares = s.shares := rfl
@[simp] theorem State.setTh_openStep (s : State) (a t : Nat) (x : Thread) : (s.setTh a t x).openStep = s.openStep := rfl
@[simp] theorem State.setTh_lastStep (s : State) (a t : Nat) (x : Thread) : (s.setTh a t x).lastStep = s.lastStep := rfl
@[simp] theorem State.setTh_evalOk (s : State) (a t : Nat) (x : Thread) : (s.setTh a t x).evalOk = s.evalOk := rfl
@[simp] theorem State.setTh_winCost (s : State) (a t : Nat) (x : Thread) : (s.setTh a t x).winCost = s.winCost := rfl
@[simp] theorem State.setTh_winK (s : State) (a t : Nat) (x : Thread) : (s.setTh a t x).winK = s.winK := rfl
@[simp] theorem State.setTh_lastWin (s : State) (a t : Nat) (x : Thread) : (s.setTh a t x).lastWin = s.lastWin := rfl
@[simp] theorem State.setTh_cost (s : State) (a t : Nat) (x : Thread) : (s.setTh a t x).cost = s.cost := rfl
@[simp] theorem State.setTh_winCount (s : State) (a t : Nat) (x : Thread) : (s.setTh a t x).winCount = s.winCount := rfl
@[simp] theorem State.setTh_winFrom (s : State) (a t : Nat) (x : Thread) : (s.setTh a t x).winFrom = s.winFrom := rfl
@[simp] theorem State.setTh_winTicks (s : State) (a t : Nat) (x : Thread) : (s.setTh a t x).winTicks = s.winTicks := rfl
@[simp] theorem State.setTh_batchBase (s : State) (a t : Nat) (x : Thread) : (s.setTh a t x).batchBase = s.batchBase := rfl
@[simp] theorem State.setTh_released (s : State) (a t : Nat) (x : Thread) : (s.setTh a t x).released = s.released := rfl
@[simp] theorem State.setTh_relDue (s : State) (a t : Nat) (x : Thread) : (s.setTh a t x).relDue = s.relDue := rfl
@[simp] theorem State.setTh_readyCount (s : State) (a t : Nat) (x : Thread) : (s.setTh a t x).readyCount = s.readyCount := rfl
@[simp] theorem State.setTh_pw (s : State) (a t : Nat) (x : Thread) : (s.setTh a t x).pw = s.pw := rfl
@[simp] theorem State.setTh_sqs (s : State) (a t : Nat) (x : Thread) : (s.setTh a t x).sqs = s.sqs := rfl
@[simp] theorem State.setTh_cqs (s : State) (a t : Nat) (x : Thread) : (s.setTh a t x).cqs = s.cqs := rfl
@[simp] theorem State.setTh_linkUp (s : State) (a t : Nat) (x : Thread) : (s.setTh a t x).linkUp = s.linkUp := rfl
@[simp] theorem State.setTh_up (s : State) (a t : Nat) (x : Thread) : (s.setTh a t x).up = s.up := rfl
@[simp] theorem State.setTh_sec (s : State) (a t : Nat) (x : Thread) : (s.setTh a t x).sec = s.sec := rfl
@[simp] theorem State.setTh_pending (s : State) (a t : Nat) (x : Thread) : (s.setTh a t x).pending = s.pending := rfl
@[simp] theorem State.setGr_now (s : State) (a : Nat) (g : Grid) : (s.setGr a g).now = s.now := rfl
@[simp] theorem State.setGr_tb (s : State) (a : Nat) (g : Grid) : (s.setGr a g).tb = s.tb := rfl
@[simp] theorem State.setGr_tbJump (s : State) (a : Nat) (g : Grid) : (s.setGr a g).tbJump = s.tbJump := rfl
@[simp] theorem State.setGr_free (s : State) (a : Nat) (g : Grid) : (s.setGr a g).free = s.free := rfl
@[simp] theorem State.setGr_out (s : State) (a : Nat) (g : Grid) : (s.setGr a g).out = s.out := rfl
@[simp] theorem State.setGr_regs (s : State) (a : Nat) (g : Grid) : (s.setGr a g).regs = s.regs := rfl
@[simp] theorem State.setGr_halfPcie (s : State) (a : Nat) (g : Grid) : (s.setGr a g).halfPcie = s.halfPcie := rfl
@[simp] theorem State.setGr_halfMgmt (s : State) (a : Nat) (g : Grid) : (s.setGr a g).halfMgmt = s.halfMgmt := rfl
@[simp] theorem State.setGr_faults (s : State) (a : Nat) (g : Grid) : (s.setGr a g).faults = s.faults := rfl
@[simp] theorem State.setGr_jrn (s : State) (a : Nat) (g : Grid) : (s.setGr a g).jrn = s.jrn := rfl
@[simp] theorem State.setGr_mem (s : State) (a : Nat) (g : Grid) : (s.setGr a g).mem = s.mem := rfl
@[simp] theorem State.setGr_scales (s : State) (a : Nat) (g : Grid) : (s.setGr a g).scales = s.scales := rfl
@[simp] theorem State.setGr_bad (s : State) (a : Nat) (g : Grid) : (s.setGr a g).bad = s.bad := rfl
@[simp] theorem State.setGr_classA (s : State) (a : Nat) (g : Grid) : (s.setGr a g).classA = s.classA := rfl
@[simp] theorem State.setGr_conv (s : State) (a : Nat) (g : Grid) : (s.setGr a g).conv = s.conv := rfl
@[simp] theorem State.setGr_convHeld (s : State) (a : Nat) (g : Grid) : (s.setGr a g).convHeld = s.convHeld := rfl
@[simp] theorem State.setGr_tlb (s : State) (a : Nat) (g : Grid) : (s.setGr a g).tlb = s.tlb := rfl
@[simp] theorem State.setGr_inval (s : State) (a : Nat) (g : Grid) : (s.setGr a g).inval = s.inval := rfl
@[simp] theorem State.setGr_pcs (s : State) (a : Nat) (g : Grid) : (s.setGr a g).pcs = s.pcs := rfl
@[simp] theorem State.setGr_scrubHbm (s : State) (a : Nat) (g : Grid) : (s.setGr a g).scrubHbm = s.scrubHbm := rfl
@[simp] theorem State.setGr_scrubT2 (s : State) (a : Nat) (g : Grid) : (s.setGr a g).scrubT2 = s.scrubT2 := rfl
@[simp] theorem State.setGr_selfRef (s : State) (a : Nat) (g : Grid) : (s.setGr a g).selfRef = s.selfRef := rfl
@[simp] theorem State.setGr_t2Last (s : State) (a : Nat) (g : Grid) : (s.setGr a g).t2Last = s.t2Last := rfl
@[simp] theorem State.setGr_t2Wait (s : State) (a : Nat) (g : Grid) : (s.setGr a g).t2Wait = s.t2Wait := rfl
@[simp] theorem State.setGr_t2Kept (s : State) (a : Nat) (g : Grid) : (s.setGr a g).t2Kept = s.t2Kept := rfl
@[simp] theorem State.setGr_t2Counts (s : State) (a : Nat) (g : Grid) : (s.setGr a g).t2Counts = s.t2Counts := rfl
@[simp] theorem State.setGr_pool (s : State) (a : Nat) (g : Grid) : (s.setGr a g).pool = s.pool := rfl
@[simp] theorem State.setGr_poolCyc (s : State) (a : Nat) (g : Grid) : (s.setGr a g).poolCyc = s.poolCyc := rfl
@[simp] theorem State.setGr_poolDone (s : State) (a : Nat) (g : Grid) : (s.setGr a g).poolDone = s.poolDone := rfl
@[simp] theorem State.setGr_rr (s : State) (a : Nat) (g : Grid) : (s.setGr a g).rr = s.rr := rfl
@[simp] theorem State.setGr_ckp (s : State) (a : Nat) (g : Grid) : (s.setGr a g).ckp = s.ckp := rfl
@[simp] theorem State.setGr_ckpArmed (s : State) (a : Nat) (g : Grid) : (s.setGr a g).ckpArmed = s.ckpArmed := rfl
@[simp] theorem State.setGr_aclk (s : State) (a : Nat) (g : Grid) : (s.setGr a g).aclk = s.aclk := rfl
@[simp] theorem State.setGr_fclk (s : State) (a : Nat) (g : Grid) : (s.setGr a g).fclk = s.fclk := rfl
@[simp] theorem State.setGr_mclk (s : State) (a : Nat) (g : Grid) : (s.setGr a g).mclk = s.mclk := rfl
@[simp] theorem State.setGr_clkWait (s : State) (a : Nat) (g : Grid) : (s.setGr a g).clkWait = s.clkWait := rfl
@[simp] theorem State.setGr_busHeld (s : State) (a : Nat) (g : Grid) : (s.setGr a g).busHeld = s.busHeld := rfl
@[simp] theorem State.setGr_msixOn (s : State) (a : Nat) (g : Grid) : (s.setGr a g).msixOn = s.msixOn := rfl
@[simp] theorem State.setGr_msixPend (s : State) (a : Nat) (g : Grid) : (s.setGr a g).msixPend = s.msixPend := rfl
@[simp] theorem State.setGr_bme (s : State) (a : Nat) (g : Grid) : (s.setGr a g).bme = s.bme := rfl
@[simp] theorem State.setGr_d3hot (s : State) (a : Nat) (g : Grid) : (s.setGr a g).d3hot = s.d3hot := rfl
@[simp] theorem State.setGr_pstate (s : State) (a : Nat) (g : Grid) : (s.setGr a g).pstate = s.pstate := rfl
@[simp] theorem State.setGr_lmap (s : State) (a : Nat) (g : Grid) : (s.setGr a g).lmap = s.lmap := rfl
@[simp] theorem State.setGr_lretired (s : State) (a : Nat) (g : Grid) : (s.setGr a g).lretired = s.lretired := rfl
@[simp] theorem State.setGr_defective (s : State) (a : Nat) (g : Grid) : (s.setGr a g).defective = s.defective := rfl
@[simp] theorem State.setGr_pretired (s : State) (a : Nat) (g : Grid) : (s.setGr a g).pretired = s.pretired := rfl
@[simp] theorem State.setGr_redir (s : State) (a : Nat) (g : Grid) : (s.setGr a g).redir = s.redir := rfl
@[simp] theorem State.setGr_waking (s : State) (a : Nat) (g : Grid) : (s.setGr a g).waking = s.waking := rfl
@[simp] theorem State.setGr_sramWait (s : State) (a : Nat) (g : Grid) : (s.setGr a g).sramWait = s.sramWait := rfl
@[simp] theorem State.setGr_failing (s : State) (a : Nat) (g : Grid) : (s.setGr a g).failing = s.failing := rfl
@[simp] theorem State.setGr_lastEvt (s : State) (a : Nat) (g : Grid) : (s.setGr a g).lastEvt = s.lastEvt := rfl
@[simp] theorem State.setGr_tabs (s : State) (a : Nat) (g : Grid) : (s.setGr a g).tabs = s.tabs := rfl
@[simp] theorem State.setGr_binds (s : State) (a : Nat) (g : Grid) : (s.setGr a g).binds = s.binds := rfl
@[simp] theorem State.setGr_fencedArr (s : State) (a : Nat) (g : Grid) : (s.setGr a g).fencedArr = s.fencedArr := rfl
@[simp] theorem State.setGr_accUse (s : State) (a : Nat) (g : Grid) : (s.setGr a g).accUse = s.accUse := rfl
@[simp] theorem State.setGr_thr (s : State) (a : Nat) (g : Grid) : (s.setGr a g).thr = s.thr := rfl
@[simp] theorem State.setGr_bars (s : State) (a : Nat) (g : Grid) : (s.setGr a g).bars = s.bars := rfl
@[simp] theorem State.setGr_dma (s : State) (a : Nat) (g : Grid) : (s.setGr a g).dma = s.dma := rfl
@[simp] theorem State.setGr_rowst (s : State) (a : Nat) (g : Grid) : (s.setGr a g).rowst = s.rowst := rfl
@[simp] theorem State.setGr_vecGen (s : State) (a : Nat) (g : Grid) : (s.setGr a g).vecGen = s.vecGen := rfl
@[simp] theorem State.setGr_imgs (s : State) (a : Nat) (g : Grid) : (s.setGr a g).imgs = s.imgs := rfl
@[simp] theorem State.setGr_iports (s : State) (a : Nat) (g : Grid) : (s.setGr a g).iports = s.iports := rfl
@[simp] theorem State.setGr_istreams (s : State) (a : Nat) (g : Grid) : (s.setGr a g).istreams = s.istreams := rfl
@[simp] theorem State.setGr_med (s : State) (a : Nat) (g : Grid) : (s.setGr a g).med = s.med := rfl
@[simp] theorem State.setGr_medCount (s : State) (a : Nat) (g : Grid) : (s.setGr a g).medCount = s.medCount := rfl
@[simp] theorem State.setGr_fbs (s : State) (a : Nat) (g : Grid) : (s.setGr a g).fbs = s.fbs := rfl
@[simp] theorem State.setGr_medLast (s : State) (a : Nat) (g : Grid) : (s.setGr a g).medLast = s.medLast := rfl
@[simp] theorem State.setGr_toksets (s : State) (a : Nat) (g : Grid) : (s.setGr a g).toksets = s.toksets := rfl
@[simp] theorem State.setGr_bstreams (s : State) (a : Nat) (g : Grid) : (s.setGr a g).bstreams = s.bstreams := rfl
@[simp] theorem State.setGr_batGen (s : State) (a : Nat) (g : Grid) : (s.setGr a g).batGen = s.batGen := rfl
@[simp] theorem State.setGr_cports (s : State) (a : Nat) (g : Grid) : (s.setGr a g).cports = s.cports := rfl
@[simp] theorem State.setGr_outbox (s : State) (a : Nat) (g : Grid) : (s.setGr a g).outbox = s.outbox := rfl
@[simp] theorem State.setGr_msgCount (s : State) (a : Nat) (g : Grid) : (s.setGr a g).msgCount = s.msgCount := rfl
@[simp] theorem State.setGr_slowDue (s : State) (a : Nat) (g : Grid) : (s.setGr a g).slowDue = s.slowDue := rfl
@[simp] theorem State.setGr_planReqs (s : State) (a : Nat) (g : Grid) : (s.setGr a g).planReqs = s.planReqs := rfl
@[simp] theorem State.setGr_plans (s : State) (a : Nat) (g : Grid) : (s.setGr a g).plans = s.plans := rfl
@[simp] theorem State.setGr_planRuns (s : State) (a : Nat) (g : Grid) : (s.setGr a g).planRuns = s.planRuns := rfl
@[simp] theorem State.setGr_planEnded (s : State) (a : Nat) (g : Grid) : (s.setGr a g).planEnded = s.planEnded := rfl
@[simp] theorem State.setGr_aborts (s : State) (a : Nat) (g : Grid) : (s.setGr a g).aborts = s.aborts := rfl
@[simp] theorem State.setGr_early (s : State) (a : Nat) (g : Grid) : (s.setGr a g).early = s.early := rfl
@[simp] theorem State.setGr_slotWait (s : State) (a : Nat) (g : Grid) : (s.setGr a g).slotWait = s.slotWait := rfl
@[simp] theorem State.setGr_colGen (s : State) (a : Nat) (g : Grid) : (s.setGr a g).colGen = s.colGen := rfl
@[simp] theorem State.setGr_lodeQ (s : State) (a : Nat) (g : Grid) : (s.setGr a g).lodeQ = s.lodeQ := rfl
@[simp] theorem State.setGr_lodeHeld (s : State) (a : Nat) (g : Grid) : (s.setGr a g).lodeHeld = s.lodeHeld := rfl
@[simp] theorem State.setGr_lodeRun (s : State) (a : Nat) (g : Grid) : (s.setGr a g).lodeRun = s.lodeRun := rfl
@[simp] theorem State.setGr_lodeParts (s : State) (a : Nat) (g : Grid) : (s.setGr a g).lodeParts = s.lodeParts := rfl
@[simp] theorem State.setGr_lodeCnt (s : State) (a : Nat) (g : Grid) : (s.setGr a g).lodeCnt = s.lodeCnt := rfl
@[simp] theorem State.setGr_lodeGen (s : State) (a : Nat) (g : Grid) : (s.setGr a g).lodeGen = s.lodeGen := rfl
@[simp] theorem State.setGr_items (s : State) (a : Nat) (g : Grid) : (s.setGr a g).items = s.items := rfl
@[simp] theorem State.setGr_shares (s : State) (a : Nat) (g : Grid) : (s.setGr a g).shares = s.shares := rfl
@[simp] theorem State.setGr_openStep (s : State) (a : Nat) (g : Grid) : (s.setGr a g).openStep = s.openStep := rfl
@[simp] theorem State.setGr_lastStep (s : State) (a : Nat) (g : Grid) : (s.setGr a g).lastStep = s.lastStep := rfl
@[simp] theorem State.setGr_evalOk (s : State) (a : Nat) (g : Grid) : (s.setGr a g).evalOk = s.evalOk := rfl
@[simp] theorem State.setGr_winCost (s : State) (a : Nat) (g : Grid) : (s.setGr a g).winCost = s.winCost := rfl
@[simp] theorem State.setGr_winK (s : State) (a : Nat) (g : Grid) : (s.setGr a g).winK = s.winK := rfl
@[simp] theorem State.setGr_lastWin (s : State) (a : Nat) (g : Grid) : (s.setGr a g).lastWin = s.lastWin := rfl
@[simp] theorem State.setGr_cost (s : State) (a : Nat) (g : Grid) : (s.setGr a g).cost = s.cost := rfl
@[simp] theorem State.setGr_winCount (s : State) (a : Nat) (g : Grid) : (s.setGr a g).winCount = s.winCount := rfl
@[simp] theorem State.setGr_winFrom (s : State) (a : Nat) (g : Grid) : (s.setGr a g).winFrom = s.winFrom := rfl
@[simp] theorem State.setGr_winTicks (s : State) (a : Nat) (g : Grid) : (s.setGr a g).winTicks = s.winTicks := rfl
@[simp] theorem State.setGr_batchBase (s : State) (a : Nat) (g : Grid) : (s.setGr a g).batchBase = s.batchBase := rfl
@[simp] theorem State.setGr_released (s : State) (a : Nat) (g : Grid) : (s.setGr a g).released = s.released := rfl
@[simp] theorem State.setGr_relDue (s : State) (a : Nat) (g : Grid) : (s.setGr a g).relDue = s.relDue := rfl
@[simp] theorem State.setGr_readyCount (s : State) (a : Nat) (g : Grid) : (s.setGr a g).readyCount = s.readyCount := rfl
@[simp] theorem State.setGr_pw (s : State) (a : Nat) (g : Grid) : (s.setGr a g).pw = s.pw := rfl
@[simp] theorem State.setGr_sqs (s : State) (a : Nat) (g : Grid) : (s.setGr a g).sqs = s.sqs := rfl
@[simp] theorem State.setGr_cqs (s : State) (a : Nat) (g : Grid) : (s.setGr a g).cqs = s.cqs := rfl
@[simp] theorem State.setGr_linkUp (s : State) (a : Nat) (g : Grid) : (s.setGr a g).linkUp = s.linkUp := rfl
@[simp] theorem State.setGr_up (s : State) (a : Nat) (g : Grid) : (s.setGr a g).up = s.up := rfl
@[simp] theorem State.setGr_sec (s : State) (a : Nat) (g : Grid) : (s.setGr a g).sec = s.sec := rfl
@[simp] theorem State.setGr_pending (s : State) (a : Nat) (g : Grid) : (s.setGr a g).pending = s.pending := rfl
@[simp] theorem State.modItem_now (s : State) (id : Nat) (f : Item → Item) : (s.modItem id f).now = s.now := rfl
@[simp] theorem State.modItem_tb (s : State) (id : Nat) (f : Item → Item) : (s.modItem id f).tb = s.tb := rfl
@[simp] theorem State.modItem_tbJump (s : State) (id : Nat) (f : Item → Item) : (s.modItem id f).tbJump = s.tbJump := rfl
@[simp] theorem State.modItem_free (s : State) (id : Nat) (f : Item → Item) : (s.modItem id f).free = s.free := rfl
@[simp] theorem State.modItem_out (s : State) (id : Nat) (f : Item → Item) : (s.modItem id f).out = s.out := rfl
@[simp] theorem State.modItem_regs (s : State) (id : Nat) (f : Item → Item) : (s.modItem id f).regs = s.regs := rfl
@[simp] theorem State.modItem_halfPcie (s : State) (id : Nat) (f : Item → Item) : (s.modItem id f).halfPcie = s.halfPcie := rfl
@[simp] theorem State.modItem_halfMgmt (s : State) (id : Nat) (f : Item → Item) : (s.modItem id f).halfMgmt = s.halfMgmt := rfl
@[simp] theorem State.modItem_faults (s : State) (id : Nat) (f : Item → Item) : (s.modItem id f).faults = s.faults := rfl
@[simp] theorem State.modItem_jrn (s : State) (id : Nat) (f : Item → Item) : (s.modItem id f).jrn = s.jrn := rfl
@[simp] theorem State.modItem_mem (s : State) (id : Nat) (f : Item → Item) : (s.modItem id f).mem = s.mem := rfl
@[simp] theorem State.modItem_scales (s : State) (id : Nat) (f : Item → Item) : (s.modItem id f).scales = s.scales := rfl
@[simp] theorem State.modItem_bad (s : State) (id : Nat) (f : Item → Item) : (s.modItem id f).bad = s.bad := rfl
@[simp] theorem State.modItem_classA (s : State) (id : Nat) (f : Item → Item) : (s.modItem id f).classA = s.classA := rfl
@[simp] theorem State.modItem_conv (s : State) (id : Nat) (f : Item → Item) : (s.modItem id f).conv = s.conv := rfl
@[simp] theorem State.modItem_convHeld (s : State) (id : Nat) (f : Item → Item) : (s.modItem id f).convHeld = s.convHeld := rfl
@[simp] theorem State.modItem_tlb (s : State) (id : Nat) (f : Item → Item) : (s.modItem id f).tlb = s.tlb := rfl
@[simp] theorem State.modItem_inval (s : State) (id : Nat) (f : Item → Item) : (s.modItem id f).inval = s.inval := rfl
@[simp] theorem State.modItem_pcs (s : State) (id : Nat) (f : Item → Item) : (s.modItem id f).pcs = s.pcs := rfl
@[simp] theorem State.modItem_scrubHbm (s : State) (id : Nat) (f : Item → Item) : (s.modItem id f).scrubHbm = s.scrubHbm := rfl
@[simp] theorem State.modItem_scrubT2 (s : State) (id : Nat) (f : Item → Item) : (s.modItem id f).scrubT2 = s.scrubT2 := rfl
@[simp] theorem State.modItem_selfRef (s : State) (id : Nat) (f : Item → Item) : (s.modItem id f).selfRef = s.selfRef := rfl
@[simp] theorem State.modItem_t2Last (s : State) (id : Nat) (f : Item → Item) : (s.modItem id f).t2Last = s.t2Last := rfl
@[simp] theorem State.modItem_t2Wait (s : State) (id : Nat) (f : Item → Item) : (s.modItem id f).t2Wait = s.t2Wait := rfl
@[simp] theorem State.modItem_t2Kept (s : State) (id : Nat) (f : Item → Item) : (s.modItem id f).t2Kept = s.t2Kept := rfl
@[simp] theorem State.modItem_t2Counts (s : State) (id : Nat) (f : Item → Item) : (s.modItem id f).t2Counts = s.t2Counts := rfl
@[simp] theorem State.modItem_pool (s : State) (id : Nat) (f : Item → Item) : (s.modItem id f).pool = s.pool := rfl
@[simp] theorem State.modItem_poolCyc (s : State) (id : Nat) (f : Item → Item) : (s.modItem id f).poolCyc = s.poolCyc := rfl
@[simp] theorem State.modItem_poolDone (s : State) (id : Nat) (f : Item → Item) : (s.modItem id f).poolDone = s.poolDone := rfl
@[simp] theorem State.modItem_rr (s : State) (id : Nat) (f : Item → Item) : (s.modItem id f).rr = s.rr := rfl
@[simp] theorem State.modItem_ckp (s : State) (id : Nat) (f : Item → Item) : (s.modItem id f).ckp = s.ckp := rfl
@[simp] theorem State.modItem_ckpArmed (s : State) (id : Nat) (f : Item → Item) : (s.modItem id f).ckpArmed = s.ckpArmed := rfl
@[simp] theorem State.modItem_aclk (s : State) (id : Nat) (f : Item → Item) : (s.modItem id f).aclk = s.aclk := rfl
@[simp] theorem State.modItem_fclk (s : State) (id : Nat) (f : Item → Item) : (s.modItem id f).fclk = s.fclk := rfl
@[simp] theorem State.modItem_mclk (s : State) (id : Nat) (f : Item → Item) : (s.modItem id f).mclk = s.mclk := rfl
@[simp] theorem State.modItem_clkWait (s : State) (id : Nat) (f : Item → Item) : (s.modItem id f).clkWait = s.clkWait := rfl
@[simp] theorem State.modItem_busHeld (s : State) (id : Nat) (f : Item → Item) : (s.modItem id f).busHeld = s.busHeld := rfl
@[simp] theorem State.modItem_msixOn (s : State) (id : Nat) (f : Item → Item) : (s.modItem id f).msixOn = s.msixOn := rfl
@[simp] theorem State.modItem_msixPend (s : State) (id : Nat) (f : Item → Item) : (s.modItem id f).msixPend = s.msixPend := rfl
@[simp] theorem State.modItem_bme (s : State) (id : Nat) (f : Item → Item) : (s.modItem id f).bme = s.bme := rfl
@[simp] theorem State.modItem_d3hot (s : State) (id : Nat) (f : Item → Item) : (s.modItem id f).d3hot = s.d3hot := rfl
@[simp] theorem State.modItem_pstate (s : State) (id : Nat) (f : Item → Item) : (s.modItem id f).pstate = s.pstate := rfl
@[simp] theorem State.modItem_lmap (s : State) (id : Nat) (f : Item → Item) : (s.modItem id f).lmap = s.lmap := rfl
@[simp] theorem State.modItem_lretired (s : State) (id : Nat) (f : Item → Item) : (s.modItem id f).lretired = s.lretired := rfl
@[simp] theorem State.modItem_defective (s : State) (id : Nat) (f : Item → Item) : (s.modItem id f).defective = s.defective := rfl
@[simp] theorem State.modItem_pretired (s : State) (id : Nat) (f : Item → Item) : (s.modItem id f).pretired = s.pretired := rfl
@[simp] theorem State.modItem_redir (s : State) (id : Nat) (f : Item → Item) : (s.modItem id f).redir = s.redir := rfl
@[simp] theorem State.modItem_waking (s : State) (id : Nat) (f : Item → Item) : (s.modItem id f).waking = s.waking := rfl
@[simp] theorem State.modItem_sramWait (s : State) (id : Nat) (f : Item → Item) : (s.modItem id f).sramWait = s.sramWait := rfl
@[simp] theorem State.modItem_grid (s : State) (id : Nat) (f : Item → Item) : (s.modItem id f).grid = s.grid := rfl
@[simp] theorem State.modItem_failing (s : State) (id : Nat) (f : Item → Item) : (s.modItem id f).failing = s.failing := rfl
@[simp] theorem State.modItem_lastEvt (s : State) (id : Nat) (f : Item → Item) : (s.modItem id f).lastEvt = s.lastEvt := rfl
@[simp] theorem State.modItem_tabs (s : State) (id : Nat) (f : Item → Item) : (s.modItem id f).tabs = s.tabs := rfl
@[simp] theorem State.modItem_binds (s : State) (id : Nat) (f : Item → Item) : (s.modItem id f).binds = s.binds := rfl
@[simp] theorem State.modItem_fencedArr (s : State) (id : Nat) (f : Item → Item) : (s.modItem id f).fencedArr = s.fencedArr := rfl
@[simp] theorem State.modItem_accUse (s : State) (id : Nat) (f : Item → Item) : (s.modItem id f).accUse = s.accUse := rfl
@[simp] theorem State.modItem_thr (s : State) (id : Nat) (f : Item → Item) : (s.modItem id f).thr = s.thr := rfl
@[simp] theorem State.modItem_bars (s : State) (id : Nat) (f : Item → Item) : (s.modItem id f).bars = s.bars := rfl
@[simp] theorem State.modItem_dma (s : State) (id : Nat) (f : Item → Item) : (s.modItem id f).dma = s.dma := rfl
@[simp] theorem State.modItem_rowst (s : State) (id : Nat) (f : Item → Item) : (s.modItem id f).rowst = s.rowst := rfl
@[simp] theorem State.modItem_vecGen (s : State) (id : Nat) (f : Item → Item) : (s.modItem id f).vecGen = s.vecGen := rfl
@[simp] theorem State.modItem_imgs (s : State) (id : Nat) (f : Item → Item) : (s.modItem id f).imgs = s.imgs := rfl
@[simp] theorem State.modItem_iports (s : State) (id : Nat) (f : Item → Item) : (s.modItem id f).iports = s.iports := rfl
@[simp] theorem State.modItem_istreams (s : State) (id : Nat) (f : Item → Item) : (s.modItem id f).istreams = s.istreams := rfl
@[simp] theorem State.modItem_med (s : State) (id : Nat) (f : Item → Item) : (s.modItem id f).med = s.med := rfl
@[simp] theorem State.modItem_medCount (s : State) (id : Nat) (f : Item → Item) : (s.modItem id f).medCount = s.medCount := rfl
@[simp] theorem State.modItem_fbs (s : State) (id : Nat) (f : Item → Item) : (s.modItem id f).fbs = s.fbs := rfl
@[simp] theorem State.modItem_medLast (s : State) (id : Nat) (f : Item → Item) : (s.modItem id f).medLast = s.medLast := rfl
@[simp] theorem State.modItem_toksets (s : State) (id : Nat) (f : Item → Item) : (s.modItem id f).toksets = s.toksets := rfl
@[simp] theorem State.modItem_bstreams (s : State) (id : Nat) (f : Item → Item) : (s.modItem id f).bstreams = s.bstreams := rfl
@[simp] theorem State.modItem_batGen (s : State) (id : Nat) (f : Item → Item) : (s.modItem id f).batGen = s.batGen := rfl
@[simp] theorem State.modItem_cports (s : State) (id : Nat) (f : Item → Item) : (s.modItem id f).cports = s.cports := rfl
@[simp] theorem State.modItem_outbox (s : State) (id : Nat) (f : Item → Item) : (s.modItem id f).outbox = s.outbox := rfl
@[simp] theorem State.modItem_msgCount (s : State) (id : Nat) (f : Item → Item) : (s.modItem id f).msgCount = s.msgCount := rfl
@[simp] theorem State.modItem_slowDue (s : State) (id : Nat) (f : Item → Item) : (s.modItem id f).slowDue = s.slowDue := rfl
@[simp] theorem State.modItem_planReqs (s : State) (id : Nat) (f : Item → Item) : (s.modItem id f).planReqs = s.planReqs := rfl
@[simp] theorem State.modItem_plans (s : State) (id : Nat) (f : Item → Item) : (s.modItem id f).plans = s.plans := rfl
@[simp] theorem State.modItem_planRuns (s : State) (id : Nat) (f : Item → Item) : (s.modItem id f).planRuns = s.planRuns := rfl
@[simp] theorem State.modItem_planEnded (s : State) (id : Nat) (f : Item → Item) : (s.modItem id f).planEnded = s.planEnded := rfl
@[simp] theorem State.modItem_aborts (s : State) (id : Nat) (f : Item → Item) : (s.modItem id f).aborts = s.aborts := rfl
@[simp] theorem State.modItem_early (s : State) (id : Nat) (f : Item → Item) : (s.modItem id f).early = s.early := rfl
@[simp] theorem State.modItem_slotWait (s : State) (id : Nat) (f : Item → Item) : (s.modItem id f).slotWait = s.slotWait := rfl
@[simp] theorem State.modItem_colGen (s : State) (id : Nat) (f : Item → Item) : (s.modItem id f).colGen = s.colGen := rfl
@[simp] theorem State.modItem_lodeQ (s : State) (id : Nat) (f : Item → Item) : (s.modItem id f).lodeQ = s.lodeQ := rfl
@[simp] theorem State.modItem_lodeHeld (s : State) (id : Nat) (f : Item → Item) : (s.modItem id f).lodeHeld = s.lodeHeld := rfl
@[simp] theorem State.modItem_lodeRun (s : State) (id : Nat) (f : Item → Item) : (s.modItem id f).lodeRun = s.lodeRun := rfl
@[simp] theorem State.modItem_lodeParts (s : State) (id : Nat) (f : Item → Item) : (s.modItem id f).lodeParts = s.lodeParts := rfl
@[simp] theorem State.modItem_lodeCnt (s : State) (id : Nat) (f : Item → Item) : (s.modItem id f).lodeCnt = s.lodeCnt := rfl
@[simp] theorem State.modItem_lodeGen (s : State) (id : Nat) (f : Item → Item) : (s.modItem id f).lodeGen = s.lodeGen := rfl
@[simp] theorem State.modItem_shares (s : State) (id : Nat) (f : Item → Item) : (s.modItem id f).shares = s.shares := rfl
@[simp] theorem State.modItem_openStep (s : State) (id : Nat) (f : Item → Item) : (s.modItem id f).openStep = s.openStep := rfl
@[simp] theorem State.modItem_lastStep (s : State) (id : Nat) (f : Item → Item) : (s.modItem id f).lastStep = s.lastStep := rfl
@[simp] theorem State.modItem_evalOk (s : State) (id : Nat) (f : Item → Item) : (s.modItem id f).evalOk = s.evalOk := rfl
@[simp] theorem State.modItem_winCost (s : State) (id : Nat) (f : Item → Item) : (s.modItem id f).winCost = s.winCost := rfl
@[simp] theorem State.modItem_winK (s : State) (id : Nat) (f : Item → Item) : (s.modItem id f).winK = s.winK := rfl
@[simp] theorem State.modItem_lastWin (s : State) (id : Nat) (f : Item → Item) : (s.modItem id f).lastWin = s.lastWin := rfl
@[simp] theorem State.modItem_cost (s : State) (id : Nat) (f : Item → Item) : (s.modItem id f).cost = s.cost := rfl
@[simp] theorem State.modItem_winCount (s : State) (id : Nat) (f : Item → Item) : (s.modItem id f).winCount = s.winCount := rfl
@[simp] theorem State.modItem_winFrom (s : State) (id : Nat) (f : Item → Item) : (s.modItem id f).winFrom = s.winFrom := rfl
@[simp] theorem State.modItem_winTicks (s : State) (id : Nat) (f : Item → Item) : (s.modItem id f).winTicks = s.winTicks := rfl
@[simp] theorem State.modItem_batchBase (s : State) (id : Nat) (f : Item → Item) : (s.modItem id f).batchBase = s.batchBase := rfl
@[simp] theorem State.modItem_released (s : State) (id : Nat) (f : Item → Item) : (s.modItem id f).released = s.released := rfl
@[simp] theorem State.modItem_relDue (s : State) (id : Nat) (f : Item → Item) : (s.modItem id f).relDue = s.relDue := rfl
@[simp] theorem State.modItem_readyCount (s : State) (id : Nat) (f : Item → Item) : (s.modItem id f).readyCount = s.readyCount := rfl
@[simp] theorem State.modItem_pw (s : State) (id : Nat) (f : Item → Item) : (s.modItem id f).pw = s.pw := rfl
@[simp] theorem State.modItem_sqs (s : State) (id : Nat) (f : Item → Item) : (s.modItem id f).sqs = s.sqs := rfl
@[simp] theorem State.modItem_cqs (s : State) (id : Nat) (f : Item → Item) : (s.modItem id f).cqs = s.cqs := rfl
@[simp] theorem State.modItem_linkUp (s : State) (id : Nat) (f : Item → Item) : (s.modItem id f).linkUp = s.linkUp := rfl
@[simp] theorem State.modItem_up (s : State) (id : Nat) (f : Item → Item) : (s.modItem id f).up = s.up := rfl
@[simp] theorem State.modItem_sec (s : State) (id : Nat) (f : Item → Item) : (s.modItem id f).sec = s.sec := rfl
@[simp] theorem State.modItem_pending (s : State) (id : Nat) (f : Item → Item) : (s.modItem id f).pending = s.pending := rfl

@[simp] theorem State.th_setTh_self (s : State) (a t : Nat) (x : Thread) : (s.setTh a t x).th a t = x := by
  simp [State.setTh, State.th]

theorem State.th_setTh_of_ne (s : State) {a t a' t' : Nat} (x : Thread) (h : 64 * a' + t' ≠ 64 * a + t) :
    (s.setTh a t x).th a' t' = s.th a' t' := by
  simp [State.setTh, State.th, SMap.getD_set_of_ne _ _ _ h]

@[simp] theorem State.gr_setGr_self (s : State) (a : Nat) (g : Grid) : (s.setGr a g).gr a = g := by
  simp [State.setGr, State.gr]

theorem State.gr_setGr_of_ne (s : State) {a b : Nat} (g : Grid) (h : b ≠ a) : (s.setGr a g).gr b = s.gr b := by
  simp [State.setGr, State.gr, SMap.getD_set_of_ne _ _ _ h]

@[simp] theorem State.reg_setReg_self (s : State) (i off : Nat) (v : W32) : (s.setReg i off v).reg i off = v := by
  simp [State.setReg, State.reg]

theorem State.reg_setReg_of_ne (s : State) {i off j o : Nat} (v : W32) (h : regKey j o ≠ regKey i off) :
    (s.setReg i off v).reg j o = s.reg j o := by
  simp [State.setReg, State.reg, SMap.get?_put_of_ne _ _ h]

@[simp] theorem Thread.sreg_setS_self (x : Thread) (r : Nat) (v : W64) (h : r ≠ 0) : (x.setS r v).sreg r = v := by
  simp [Thread.setS, Thread.sreg, h]

theorem Thread.sreg_setS_of_ne (x : Thread) {r k : Nat} (v : W64) (h : k ≠ r) : (x.setS r v).sreg k = x.sreg k := by
  by_cases hr : r = 0
  · simp [Thread.setS, hr]
  · by_cases hk : k = 0
    · simp [Thread.sreg, hk]
    · simp [Thread.setS, Thread.sreg, hr, hk, SMap.getD_set_of_ne _ _ _ h]

@[simp] theorem Thread.setS_zero (x : Thread) (v : W64) : x.setS 0 v = x := by simp [Thread.setS]

@[simp] theorem Thread.sreg_zero (x : Thread) : x.sreg 0 = 0 := by simp [Thread.sreg]

end Sys2Proof.Machine
end

