-- ==== Sys2Proof/Laws/Access.lean ====
section
/-! SUPPORT. Laws/Access.lean: what the shared operations of records, counters, translation and physical access do to memory: reads, walks
and records leave it as it is, and every write keeps its canonical form. -/

namespace Sys2Proof.Machine

@[simp] theorem State.setRf_mem (s : State) (i o h l n : Nat) : (s.setRf i o h l n).mem = s.mem := rfl

@[simp] theorem State.count_mem (s : State) (i o n : Nat) : (s.count i o n).mem = s.mem := rfl

@[simp] theorem State.drawFree_mem (s : State) : s.drawFree.2.mem = s.mem := rfl

@[simp] theorem sendMsix_mem (v : Nat) (s : State) : (sendMsix v s).mem = s.mem := by
  unfold sendMsix; split <;> rfl

@[simp] theorem raiseEvt_mem (e : Evt) (s : State) : (raiseEvt e s).mem = s.mem := by
  simp only [raiseEvt]; split <;> simp

@[simp] theorem faultFlags_mem (r : FaultIn) (o : Bool) (s : State) : (faultFlags r o s).mem = s.mem := by
  simp only [faultFlags]; split <;> split <;> rfl

@[simp] theorem dropFault_mem (r : FaultIn) (s : State) : (dropFault r s).mem = s.mem := by
  simp only [dropFault]; split <;> rfl

@[simp] theorem writeFaultQuiet_mem (r : FaultIn) (s : State) : (writeFaultQuiet r s).2.mem = s.mem := by
  simp only [writeFaultQuiet]; split <;> simp

@[simp] theorem writeFaultId_mem (r : FaultIn) (s : State) : (writeFaultId r s).2.mem = s.mem := by
  simp only [writeFaultId]; split <;> simp

@[simp] theorem countUe_mem (s : State) (pa : Nat) : (countUe s pa).mem = s.mem := by
  unfold countUe; split <;> rfl

@[simp] theorem healWhole_mem (pa n : Nat) (s : State) : (healWhole pa n s).mem = s.mem := rfl

/-- A fold of steps that keep the canonical form keeps it. -/
theorem foldl_wf {α : Type} (f : State → α → State) (h : ∀ s x, Memory.wf s.mem = true → Memory.wf (f s x).mem = true) (l : List α) :
    ∀ s : State, Memory.wf s.mem = true → Memory.wf (l.foldl f s).mem = true := by
  induction l with
  | nil => intro s hs; exact hs
  | cons x r ih => intro s hs; exact ih _ (h s x hs)

theorem landing_wf (b z pa : Nat) (l : List Byte) (s : State) (h : Memory.wf s.mem = true) : Memory.wf (landing b z pa l s).mem = true :=
  foldl_wf _ (fun t i ht => by split; exacts [ht, rawWrite_wf _ _ _ ht]) _ _ h

theorem freeRuns_wf (l : List (Nat × Nat)) (s : State) (h : Memory.wf s.mem = true) : Memory.wf (freeRuns l s).mem = true := by
  unfold freeRuns
  exact foldl_wf _ (fun u r hu => foldl_wf _ (fun v i hv => rawWrite_wf _ _ _ (by simpa using hv)) _ u hu) l s h

theorem spoilReduced_wf (c : Ctx) (pa n : Nat) (s : State) (h : Memory.wf s.mem = true) : Memory.wf (spoilReduced c pa n s).mem = true := by
  unfold spoilReduced
  split
  · exact h
  · refine foldl_wf _ (fun u e hu => ?_) _ _ h
    dsimp only
    split
    exacts [hu, freeRuns_wf _ _ hu]

/-- Where no running plan reduces into the bytes of a write, R362 changes nothing. -/
theorem spoilReduced_eq (c : Ctx) (pa n : Nat) (s : State) (h : ∀ e ∈ s.plans, ∀ r ∈ e.2.red, metElems pa n r = none) :
    spoilReduced c pa n s = s := by
  unfold spoilReduced
  split
  · rfl
  · have key : ∀ (l : List (Nat × Plan)) (u : State), (∀ e ∈ l, ∀ r ∈ e.2.red, metElems pa n r = none) →
        l.foldl (fun u e =>
          let q := e.2.red.filterMap (metElems pa n)
          if q = [] then u else freeRuns q { u with plans := SMap.put u.plans e.1 { e.2 with hit := e.2.hit ++ q } }) u = u := by
      intro l
      induction l with
      | nil => intro u _; rfl
      | cons e r ih =>
        intro u hl
        have he : e.2.red.filterMap (metElems pa n) = [] := List.filterMap_eq_nil_iff.2 (hl e (by simp))
        simp only [List.foldl_cons, he, if_true]
        exact ih u (fun x hx => hl x (by simp [hx]))
    exact key _ _ h

@[simp] theorem State.setPll_mem (s : State) (d : ClkDomain) (p : Pll) : (s.setPll d p).mem = s.mem := by cases d <;> rfl

@[simp] theorem beginPll_mem (d : ClkDomain) (s : State) : (beginPll d s).mem = s.mem := by
  unfold beginPll; dsimp only; split <;> [rfl; (split <;> simp)]

@[simp] theorem pllStarted_mem (d : ClkDomain) (s : State) : (pllStarted d s).mem = s.mem := by simp [pllStarted]

@[simp] theorem pllStartFailed_mem (d : ClkDomain) (s : State) : (pllStartFailed d s).mem = s.mem := by
  simp only [pllStartFailed]; split <;> simp [writeFault]

@[simp] theorem pllNotStarted_mem (d : ClkDomain) (s : State) : (pllNotStarted d s).mem = s.mem := by
  simp only [pllNotStarted]; split <;> simp

@[simp] theorem noteTimeout_mem (d : ClkDomain) (rid item : Nat) (re : Bool) (s : State) : (noteTimeout d rid item re s).2.mem = s.mem := by
  simp [noteTimeout, State.setReg64]

theorem reachArray_mem (c : Ctx) (p : Nat) (s : State) : (reachArray c p s).2.mem = s.mem := by
  unfold reachArray
  split
  · rfl
  · split
    · simp
    · dsimp only; split <;> simp [arrayUp]

/-- Reaching a memory in a unit's own row leaves what the memory holds. -/
theorem unitReach_mem (c : Ctx) (pa n : Nat) (s : State) : (unitReach c pa n s).2.mem = s.mem := by
  have key : ∀ (l : List Nat) (t : State), (l.foldl (fun t g => admitUnit c.rid (hbmPc t g) t) t).mem = t.mem := by
    intro l
    induction l with
    | nil => intro t; rfl
    | cons g r ih => intro t; exact ih _
  unfold unitReach
  split
  · rfl
  · split
    · rfl
    · split
      · exact key _ _
      · rfl
      · exact reachArray_mem _ _ _
      · rfl

theorem servedRead_mem (c : Ctx) (pa n : Nat) (s : State) : (servedRead c pa n s).2.mem = s.mem := by
  unfold servedRead
  split
  · rfl
  · split
    · simp
    · split <;> simp

/-- A physical read leaves memory as it is. -/
theorem physRead_mem (c : Ctx) (pa n : Nat) (s : State) : (physRead c pa n s).2.mem = s.mem := by
  have h := unitReach_mem c pa n s
  unfold physRead
  split
  · rename_i heq; rw [heq] at h; exact h
  · rename_i heq; rw [heq] at h; exact (servedRead_mem _ _ _ _).trans h

@[simp] theorem unparkRange_mem (pa n : Nat) (s : State) : (unparkRange pa n s).mem = s.mem := by
  unfold unparkRange; split <;> rfl

theorem servedWrite_wf (c : Ctx) (pa : Nat) (l : List Byte) (sc : Option Nat) (s : State) (h : Memory.wf s.mem = true) :
    Memory.wf (servedWrite c pa l sc s).2.mem = true := by
  have hs : ∀ (b : Nat) (p : Prop) [Decidable p] (t : State), Memory.wf t.mem = true →
      Memory.wf (spoilReduced c b l.length (unparkRange b l.length (if p then writeScales b l.length sc t else t))).mem = true := by
    intro b p _ t ht
    apply spoilReduced_wf
    rw [unparkRange_mem]
    split
    · rw [writeScales_mem]; exact ht
    · exact ht
  unfold servedWrite
  split
  · exact h
  · split
    · exact h
    · split
      · simpa using h
      · dsimp only
        split
        · exact hs _ _ _ (landing_wf _ _ _ _ _ (by simpa using h))
        · exact hs _ _ _ (rawWrite_wf _ _ _ (by simpa using h))

/-- A physical write keeps the canonical form, whatever it meets. -/
theorem physWrite_wf (c : Ctx) (pa : Nat) (l : List Byte) (sc : Option Nat) (s : State) (h : Memory.wf s.mem = true) :
    Memory.wf (physWrite c pa l sc s).2.mem = true := by
  have hu := unitReach_mem c pa l.length s
  unfold physWrite
  split
  · exact h
  · split
    · rename_i heq; rw [heq] at hu; rw [hu]; exact h
    · rename_i heq; rw [heq] at hu; exact servedWrite_wf _ _ _ _ _ (by rw [hu]; exact h)

theorem walkRead_mem (c : Ctx) (pa : Nat) (s : State) : (walkRead c pa s).2.mem = s.mem := by
  have h := physRead_mem c pa 8 s
  unfold walkRead
  split
  · rfl
  · split <;> simp_all

theorem walkFrom_mem (c : Ctx) (va : Nat) : ∀ (k tab : Nat) (s : State), (walkFrom c va k tab s).2.mem = s.mem := by
  intro k
  induction k with
  | zero => intro tab s; rfl
  | succ k ih =>
    intro tab s
    have h := walkRead_mem c (tab + 8 * levelIndex (3 - k) va) s
    simp only [walkFrom]
    split
    · simp_all
    · rename_i heq
      rw [heq] at h
      split
      · exact h
      · split
        · split <;> exact h
        · rw [ih]; exact h

theorem walkTables_mem (c : Ctx) (va : Nat) (s : State) : (walkTables c va s).2.mem = s.mem := walkFrom_mem c va 3 _ s

theorem lookup_mem (c : Ctx) (va : Nat) (s : State) : (lookup c va s).2.mem = s.mem := by
  have h1 := walkTables_mem c va s
  have h2 := walkTables_mem c va s.drawFree.2
  unfold lookup
  split
  · split
    · rename_i heq; rw [heq] at h1; exact h1
    · exact h1
  · dsimp only
    split
    · rfl
    · split
      · rename_i heq; rw [heq] at h2; exact h2
      · exact h2

/-- Translation leaves memory as it is. -/
theorem translate_mem (c : Ctx) (va : Nat) (need : Perm) (s : State) : (translate c va need s).2.mem = s.mem := by
  have h := lookup_mem c va s
  unfold translate mmuFault
  split
  · rfl
  · split
    · rename_i heq; rw [heq] at h; dsimp only; split <;> simpa using h
    · rename_i heq
      rw [heq] at h
      dsimp only
      split
      · simpa using h
      · split
        · simpa using h
        · split <;> simpa using h

/-- A read at virtual addresses leaves memory as it is. -/
theorem vReadAux_mem (c : Ctx) (need : Perm) : ∀ (k va n : Nat) (s : State), (vReadAux c need k va n s).2.mem = s.mem := by
  intro k
  induction k with
  | zero => intros; rfl
  | succ k ih =>
    intro va n s
    have ht := translate_mem { c with va := va } va need s
    simp only [vReadAux]
    split
    · rfl
    · split
      · rename_i heq; rw [heq] at ht; exact ht
      · rename_i pa s1 heq
        rw [heq] at ht
        have hp := physRead_mem { c with va := va, lin := true } pa (chunkLen va n) s1
        split
        · rename_i heq2; rw [heq2] at hp; exact hp.trans ht
        · rename_i s2 heq2
          rw [heq2] at hp
          have hr := ih (va + chunkLen va n) (n - chunkLen va n) s2
          split
          · rename_i heq3; rw [heq3] at hr; exact hr.trans (hp.trans ht)
          · rename_i heq3; rw [heq3] at hr; exact hr.trans (hp.trans ht)

theorem vRead_mem (c : Ctx) (need : Perm) (va n : Nat) (s : State) : (vRead c need va n s).2.mem = s.mem :=
  vReadAux_mem c need _ va n s

/-- A write at virtual addresses keeps the canonical form. -/
theorem vWriteAux_wf (c : Ctx) (sc : Option Nat) : ∀ (k va : Nat) (l : List Byte) (s : State), Memory.wf s.mem = true →
    Memory.wf (vWriteAux c sc k va l s).2.mem = true := by
  intro k
  induction k with
  | zero => intro va l s h; exact h
  | succ k ih =>
    intro va l s h
    have ht := translate_mem { c with va := va } va .w s
    simp only [vWriteAux]
    split
    · exact h
    · split
      · rename_i heq; rw [heq] at ht; rw [ht]; exact h
      · rename_i pa s1 heq
        rw [heq] at ht
        have hp := physWrite_wf { c with va := va, lin := true } pa (l.take (chunkLen va l.length)) sc s1 (by rw [ht]; exact h)
        split
        · rename_i heq2; rw [heq2] at hp; exact hp
        · rename_i s2 heq2
          rw [heq2] at hp
          exact ih _ _ _ hp

theorem vWrite_wf (c : Ctx) (va : Nat) (l : List Byte) (sc : Option Nat) (s : State) (h : Memory.wf s.mem = true) :
    Memory.wf (vWrite c va l sc s).2.mem = true :=
  vWriteAux_wf c sc _ va l s h

end Sys2Proof.Machine
end

