-- ==== Sys2Proof/Laws/Dispatch.lean ====
section
/-! SUPPORT. Laws/Dispatch.lean: one equation per command, that exec calls the command's meaning. -/

namespace Sys2Proof.Machine

variable (s : State)

@[simp] theorem exec_registerWrite (a : RegAcc) (whole poison : Bool) : exec (.registerWrite a whole poison) s = execRegisterWrite a whole poison s := rfl
@[simp] theorem exec_loHalfWrite (a : RegAcc) : exec (.loHalfWrite a) s = execLoHalfWrite a s := rfl
@[simp] theorem exec_hiHalfWrite (a : RegAcc) : exec (.hiHalfWrite a) s = execHiHalfWrite a s := rfl
@[simp] theorem exec_loHalfRead (port : Port) (off : Nat) : exec (.loHalfRead port off) s = execLoHalfRead port off s := rfl
@[simp] theorem exec_rcRegisterRead (port : Port) (off : Nat) : exec (.rcRegisterRead port off) s = execRcRegisterRead port off s := rfl
@[simp] theorem exec_tbSetWrite (port : Port) (val : W32) (rid : W16) : exec (.tbSetWrite port val rid) s = execTbSetWrite port val rid s := rfl
@[simp] theorem exec_timeBaseJump : exec (.timeBaseJump) s = execTimeBaseJump s := rfl
@[simp] theorem exec_fclassDataWrite (port : Port) (val : W32) (rid : W16) : exec (.fclassDataWrite port val rid) s = execFclassDataWrite port val rid s := rfl
@[simp] theorem exec_fclassConversionDone (frame : Fin 393216) : exec (.fclassConversionDone frame) s = execFclassConversionDone frame s := rfl
@[simp] theorem exec_mmuInvGo (port : Port) (val : W32) (rid : W16) : exec (.mmuInvGo port val rid) s = execMmuInvGo port val rid s := rfl
@[simp] theorem exec_mmuInvalidationDone : exec (.mmuInvalidationDone) s = execMmuInvalidationDone s := rfl
@[simp] theorem exec_tableWalk (va : Fin 281474976710656) (need : Perm) (rid : W16) : exec (.tableWalk va need rid) s = execTableWalk va need rid s := rfl
@[simp] theorem exec_hbmAccess (pc : Fin 1024) (arrive : List MemReq) (pick : Nat) (ev : HbmEvent) : exec (.hbmAccess pc arrive pick ev) s = execHbmAccess pc arrive pick ev s := rfl
@[simp] theorem exec_interfaceRetry (pc : Fin 1024) (fails : Bool) : exec (.interfaceRetry pc fails) s = execInterfaceRetry pc fails s := rfl
@[simp] theorem exec_scrubRead (tier2 : Bool) (ev : HbmEvent) : exec (.scrubRead tier2 ev) s = execScrubRead tier2 ev s := rfl
@[simp] theorem exec_thermalPoll (temps : List Nat) : exec (.thermalPoll temps) s = execThermalPoll temps s := rfl
@[simp] theorem exec_tier2Access (q : MemReq) (ev : HbmEvent) : exec (.tier2Access q ev) s = execTier2Access q ev s := rfl
@[simp] theorem exec_selfRefreshEntry (pkg : Fin 32) : exec (.selfRefreshEntry pkg) s = execSelfRefreshEntry pkg s := rfl
@[simp] theorem exec_selfRefreshExit (pkg : Fin 32) : exec (.selfRefreshExit pkg) s = execSelfRefreshExit pkg s := rfl
@[simp] theorem exec_tier2FillDone : exec (.tier2FillDone) s = execTier2FillDone s := rfl
@[simp] theorem exec_sramAccess (q : MemReq) (ev : BitErr) : exec (.sramAccess q ev) s = execSramAccess q ev s := rfl
@[simp] theorem exec_poolAccess (bank : Fin 64) (arrive : List PoolReq) (ev : BitErr) : exec (.poolAccess bank arrive ev) s = execPoolAccess bank arrive ev s := rfl
@[simp] theorem exec_poolAtomic (bank : Fin 64) (arrive : List PoolReq) (ev : BitErr) : exec (.poolAtomic bank arrive ev) s = execPoolAtomic bank arrive ev s := rfl
@[simp] theorem exec_poolVectorReduction (bank : Fin 64) (arrive : List PoolReq) (ev : BitErr) : exec (.poolVectorReduction bank arrive ev) s = execPoolVectorReduction bank arrive ev s := rfl
@[simp] theorem exec_ckpArm (port : Port) (val : W32) (rid : W16) : exec (.ckpArm port val rid) s = execCkpArm port val rid s := rfl
@[simp] theorem exec_ckpStart (port : Port) (val : W32) (rid : W16) : exec (.ckpStart port val rid) s = execCkpStart port val rid s := rfl
@[simp] theorem exec_checkpointFrameCopy : exec (.checkpointFrameCopy) s = execCheckpointFrameCopy s := rfl
@[simp] theorem exec_weightRowEntry (a : Fin 96) (part : Fin 17) : exec (.weightRowEntry a part) s = execWeightRowEntry a part s := rfl
@[simp] theorem exec_outputRowWrite (a : Fin 96) (part : Fin 17) (flt : Option (Fin 256 × W32)) : exec (.outputRowWrite a part flt) s = execOutputRowWrite a part flt s := rfl
@[simp] theorem exec_rowCheck (a : Fin 96) (part : Fin 17) (bad : Bool) : exec (.rowCheck a part bad) s = execRowCheck a part bad s := rfl
@[simp] theorem exec_columnCheck (a : Fin 96) (part : Fin 17) (bad : Option (Fin 256)) : exec (.columnCheck a part bad) s = execColumnCheck a part bad s := rfl
@[simp] theorem exec_recomputeDone (a : Fin 96) (part : Fin 17) (again : Bool) : exec (.recomputeDone a part again) s = execRecomputeDone a part again s := rfl
@[simp] theorem exec_streamBegin (a : Fin 96) (part : Fin 17) : exec (.streamBegin a part) s = execStreamBegin a part s := rfl
@[simp] theorem exec_tileLoadBegin (a : Fin 96) (part : Fin 17) : exec (.tileLoadBegin a part) s = execTileLoadBegin a part s := rfl
@[simp] theorem exec_tileLoadDone (a : Fin 96) (part : Fin 17) (buf : Fin 2) : exec (.tileLoadDone a part buf) s = execTileLoadDone a part buf s := rfl
@[simp] theorem exec_partModeChange (a : Fin 96) : exec (.partModeChange a) s = execPartModeChange a s := rfl
@[simp] theorem exec_injectElem (port : Port) (val : W32) (rid : W16) : exec (.injectElem port val rid) s = execInjectElem port val rid s := rfl
@[simp] theorem exec_injectCkcol (port : Port) (val : W32) (rid : W16) : exec (.injectCkcol port val rid) s = execInjectCkcol port val rid s := rfl
@[simp] theorem exec_arrayFence (phys : Fin 100) : exec (.arrayFence phys) s = execArrayFence phys s := rfl
@[simp] theorem exec_arrayRemap (phys : Fin 100) : exec (.arrayRemap phys) s = execArrayRemap phys s := rfl
@[simp] theorem exec_spareInRun (phys : Fin 100) : exec (.spareInRun phys) s = execSpareInRun phys s := rfl
@[simp] theorem exec_expanderFetch (a : Fin 96) (part : Fin 17) : exec (.expanderFetch a part) s = execExpanderFetch a part s := rfl
@[simp] theorem exec_blockDecode (a : Fin 96) (lane : Fin 32) : exec (.blockDecode a lane) s = execBlockDecode a lane s := rfl
@[simp] theorem exec_tableBindDone (item : W64) : exec (.tableBindDone item) s = execTableBindDone item s := rfl
@[simp] theorem exec_expFlush (port : Port) (val : W32) (rid : W16) : exec (.expFlush port val rid) s = execExpFlush port val rid s := rfl
@[simp] theorem exec_add (a : Fin 96) (t : Fin 64) : exec (.add a t) s = execAdd a t s := rfl
@[simp] theorem exec_sub (a : Fin 96) (t : Fin 64) : exec (.sub a t) s = execSub a t s := rfl
@[simp] theorem exec_andR (a : Fin 96) (t : Fin 64) : exec (.andR a t) s = execAndR a t s := rfl
@[simp] theorem exec_orR (a : Fin 96) (t : Fin 64) : exec (.orR a t) s = execOrR a t s := rfl
@[simp] theorem exec_xorR (a : Fin 96) (t : Fin 64) : exec (.xorR a t) s = execXorR a t s := rfl
@[simp] theorem exec_shl (a : Fin 96) (t : Fin 64) : exec (.shl a t) s = execShl a t s := rfl
@[simp] theorem exec_shr (a : Fin 96) (t : Fin 64) : exec (.shr a t) s = execShr a t s := rfl
@[simp] theorem exec_sar (a : Fin 96) (t : Fin 64) : exec (.sar a t) s = execSar a t s := rfl
@[simp] theorem exec_mul (a : Fin 96) (t : Fin 64) : exec (.mul a t) s = execMul a t s := rfl
@[simp] theorem exec_mulh (a : Fin 96) (t : Fin 64) : exec (.mulh a t) s = execMulh a t s := rfl
@[simp] theorem exec_mulhu (a : Fin 96) (t : Fin 64) : exec (.mulhu a t) s = execMulhu a t s := rfl
@[simp] theorem exec_minR (a : Fin 96) (t : Fin 64) : exec (.minR a t) s = execMinR a t s := rfl
@[simp] theorem exec_maxR (a : Fin 96) (t : Fin 64) : exec (.maxR a t) s = execMaxR a t s := rfl
@[simp] theorem exec_minu (a : Fin 96) (t : Fin 64) : exec (.minu a t) s = execMinu a t s := rfl
@[simp] theorem exec_maxu (a : Fin 96) (t : Fin 64) : exec (.maxu a t) s = execMaxu a t s := rfl
@[simp] theorem exec_addi (a : Fin 96) (t : Fin 64) : exec (.addi a t) s = execAddi a t s := rfl
@[simp] theorem exec_subi (a : Fin 96) (t : Fin 64) : exec (.subi a t) s = execSubi a t s := rfl
@[simp] theorem exec_andi (a : Fin 96) (t : Fin 64) : exec (.andi a t) s = execAndi a t s := rfl
@[simp] theorem exec_ori (a : Fin 96) (t : Fin 64) : exec (.ori a t) s = execOri a t s := rfl
@[simp] theorem exec_xori (a : Fin 96) (t : Fin 64) : exec (.xori a t) s = execXori a t s := rfl
@[simp] theorem exec_shli (a : Fin 96) (t : Fin 64) : exec (.shli a t) s = execShli a t s := rfl
@[simp] theorem exec_shri (a : Fin 96) (t : Fin 64) : exec (.shri a t) s = execShri a t s := rfl
@[simp] theorem exec_sari (a : Fin 96) (t : Fin 64) : exec (.sari a t) s = execSari a t s := rfl
@[simp] theorem exec_muli (a : Fin 96) (t : Fin 64) : exec (.muli a t) s = execMuli a t s := rfl
@[simp] theorem exec_mulhi (a : Fin 96) (t : Fin 64) : exec (.mulhi a t) s = execMulhi a t s := rfl
@[simp] theorem exec_mulhui (a : Fin 96) (t : Fin 64) : exec (.mulhui a t) s = execMulhui a t s := rfl
@[simp] theorem exec_mini (a : Fin 96) (t : Fin 64) : exec (.mini a t) s = execMini a t s := rfl
@[simp] theorem exec_maxi (a : Fin 96) (t : Fin 64) : exec (.maxi a t) s = execMaxi a t s := rfl
@[simp] theorem exec_minui (a : Fin 96) (t : Fin 64) : exec (.minui a t) s = execMinui a t s := rfl
@[simp] theorem exec_maxui (a : Fin 96) (t : Fin 64) : exec (.maxui a t) s = execMaxui a t s := rfl
@[simp] theorem exec_cmpEq (a : Fin 96) (t : Fin 64) : exec (.cmpEq a t) s = execCmpEq a t s := rfl
@[simp] theorem exec_cmpNe (a : Fin 96) (t : Fin 64) : exec (.cmpNe a t) s = execCmpNe a t s := rfl
@[simp] theorem exec_cmpLt (a : Fin 96) (t : Fin 64) : exec (.cmpLt a t) s = execCmpLt a t s := rfl
@[simp] theorem exec_cmpLtu (a : Fin 96) (t : Fin 64) : exec (.cmpLtu a t) s = execCmpLtu a t s := rfl
@[simp] theorem exec_cmpGe (a : Fin 96) (t : Fin 64) : exec (.cmpGe a t) s = execCmpGe a t s := rfl
@[simp] theorem exec_cmpGeu (a : Fin 96) (t : Fin 64) : exec (.cmpGeu a t) s = execCmpGeu a t s := rfl
@[simp] theorem exec_cmpiEq (a : Fin 96) (t : Fin 64) : exec (.cmpiEq a t) s = execCmpiEq a t s := rfl
@[simp] theorem exec_cmpiNe (a : Fin 96) (t : Fin 64) : exec (.cmpiNe a t) s = execCmpiNe a t s := rfl
@[simp] theorem exec_cmpiLt (a : Fin 96) (t : Fin 64) : exec (.cmpiLt a t) s = execCmpiLt a t s := rfl
@[simp] theorem exec_cmpiLtu (a : Fin 96) (t : Fin 64) : exec (.cmpiLtu a t) s = execCmpiLtu a t s := rfl
@[simp] theorem exec_cmpiGe (a : Fin 96) (t : Fin 64) : exec (.cmpiGe a t) s = execCmpiGe a t s := rfl
@[simp] theorem exec_cmpiGeu (a : Fin 96) (t : Fin 64) : exec (.cmpiGeu a t) s = execCmpiGeu a t s := rfl
@[simp] theorem exec_plog (a : Fin 96) (t : Fin 64) : exec (.plog a t) s = execPlog a t s := rfl
@[simp] theorem exec_br (a : Fin 96) (t : Fin 64) : exec (.br a t) s = execBr a t s := rfl
@[simp] theorem exec_call (a : Fin 96) (t : Fin 64) : exec (.call a t) s = execCall a t s := rfl
@[simp] theorem exec_jr (a : Fin 96) (t : Fin 64) : exec (.jr a t) s = execJr a t s := rfl
@[simp] theorem exec_callr (a : Fin 96) (t : Fin 64) : exec (.callr a t) s = execCallr a t s := rfl
@[simp] theorem exec_bnzDec (a : Fin 96) (t : Fin 64) : exec (.bnzDec a t) s = execBnzDec a t s := rfl
@[simp] theorem exec_ldB (a : Fin 96) (t : Fin 64) : exec (.ldB a t) s = execLdB a t s := rfl
@[simp] theorem exec_ldH (a : Fin 96) (t : Fin 64) : exec (.ldH a t) s = execLdH a t s := rfl
@[simp] theorem exec_ldW (a : Fin 96) (t : Fin 64) : exec (.ldW a t) s = execLdW a t s := rfl
@[simp] theorem exec_ldD (a : Fin 96) (t : Fin 64) : exec (.ldD a t) s = execLdD a t s := rfl
@[simp] theorem exec_ldBs (a : Fin 96) (t : Fin 64) : exec (.ldBs a t) s = execLdBs a t s := rfl
@[simp] theorem exec_ldHs (a : Fin 96) (t : Fin 64) : exec (.ldHs a t) s = execLdHs a t s := rfl
@[simp] theorem exec_ldWs (a : Fin 96) (t : Fin 64) : exec (.ldWs a t) s = execLdWs a t s := rfl
@[simp] theorem exec_stB (a : Fin 96) (t : Fin 64) : exec (.stB a t) s = execStB a t s := rfl
@[simp] theorem exec_stH (a : Fin 96) (t : Fin 64) : exec (.stH a t) s = execStH a t s := rfl
@[simp] theorem exec_stW (a : Fin 96) (t : Fin 64) : exec (.stW a t) s = execStW a t s := rfl
@[simp] theorem exec_stD (a : Fin 96) (t : Fin 64) : exec (.stD a t) s = execStD a t s := rfl
@[simp] theorem exec_ldDesc (a : Fin 96) (t : Fin 64) : exec (.ldDesc a t) s = execLdDesc a t s := rfl
@[simp] theorem exec_stDesc (a : Fin 96) (t : Fin 64) : exec (.stDesc a t) s = execStDesc a t s := rfl
@[simp] theorem exec_dsetBase (a : Fin 96) (t : Fin 64) : exec (.dsetBase a t) s = execDsetBase a t s := rfl
@[simp] theorem exec_daddBase (a : Fin 96) (t : Fin 64) : exec (.daddBase a t) s = execDaddBase a t s := rfl
@[simp] theorem exec_loadDataReturn (a : Fin 96) (t : Fin 64) (ev : BitErr) : exec (.loadDataReturn a t ev) s = execLoadDataReturn a t ev s := rfl
@[simp] theorem exec_atomAddF32 (a : Fin 96) (t : Fin 64) : exec (.atomAddF32 a t) s = execAtomAddF32 a t s := rfl
@[simp] theorem exec_atomAddBf16 (a : Fin 96) (t : Fin 64) : exec (.atomAddBf16 a t) s = execAtomAddBf16 a t s := rfl
@[simp] theorem exec_atomAddI32 (a : Fin 96) (t : Fin 64) : exec (.atomAddI32 a t) s = execAtomAddI32 a t s := rfl
@[simp] theorem exec_atomMaxF32 (a : Fin 96) (t : Fin 64) : exec (.atomMaxF32 a t) s = execAtomMaxF32 a t s := rfl
@[simp] theorem exec_atomMaxBf16 (a : Fin 96) (t : Fin 64) : exec (.atomMaxBf16 a t) s = execAtomMaxBf16 a t s := rfl
@[simp] theorem exec_atomMaxI32 (a : Fin 96) (t : Fin 64) : exec (.atomMaxI32 a t) s = execAtomMaxI32 a t s := rfl
@[simp] theorem exec_atomMinF32 (a : Fin 96) (t : Fin 64) : exec (.atomMinF32 a t) s = execAtomMinF32 a t s := rfl
@[simp] theorem exec_atomMinBf16 (a : Fin 96) (t : Fin 64) : exec (.atomMinBf16 a t) s = execAtomMinBf16 a t s := rfl
@[simp] theorem exec_atomMinI32 (a : Fin 96) (t : Fin 64) : exec (.atomMinI32 a t) s = execAtomMinI32 a t s := rfl
@[simp] theorem exec_atomSwapW (a : Fin 96) (t : Fin 64) : exec (.atomSwapW a t) s = execAtomSwapW a t s := rfl
@[simp] theorem exec_atomSwapD (a : Fin 96) (t : Fin 64) : exec (.atomSwapD a t) s = execAtomSwapD a t s := rfl
@[simp] theorem exec_atomCasD (a : Fin 96) (t : Fin 64) : exec (.atomCasD a t) s = execAtomCasD a t s := rfl
@[simp] theorem exec_red (a : Fin 96) (t : Fin 64) : exec (.red a t) s = execRed a t s := rfl
@[simp] theorem exec_syncWait (a : Fin 96) (t : Fin 64) : exec (.syncWait a t) s = execSyncWait a t s := rfl
@[simp] theorem exec_syncTest (a : Fin 96) (t : Fin 64) : exec (.syncTest a t) s = execSyncTest a t s := rfl
@[simp] theorem exec_syncWaitall (a : Fin 96) (t : Fin 64) : exec (.syncWaitall a t) s = execSyncWaitall a t s := rfl
@[simp] theorem exec_syncFence (a : Fin 96) (t : Fin 64) : exec (.syncFence a t) s = execSyncFence a t s := rfl
@[simp] theorem exec_syncBar (a : Fin 96) (t : Fin 64) : exec (.syncBar a t) s = execSyncBar a t s := rfl
@[simp] theorem exec_syncSemP (a : Fin 96) (t : Fin 64) : exec (.syncSemP a t) s = execSyncSemP a t s := rfl
@[simp] theorem exec_semRetry (a : Fin 96) (t : Fin 64) : exec (.semRetry a t) s = execSemRetry a t s := rfl
@[simp] theorem exec_syncSemV (a : Fin 96) (t : Fin 64) : exec (.syncSemV a t) s = execSyncSemV a t s := rfl
@[simp] theorem exec_sget (a : Fin 96) (t : Fin 64) : exec (.sget a t) s = execSget a t s := rfl
@[simp] theorem exec_trap (a : Fin 96) (t : Fin 64) : exec (.trap a t) s = execTrap a t s := rfl
@[simp] theorem exec_halt (a : Fin 96) (t : Fin 64) : exec (.halt a t) s = execHalt a t s := rfl
@[simp] theorem exec_nop (a : Fin 96) (t : Fin 64) : exec (.nop a t) s = execNop a t s := rfl
@[simp] theorem exec_illegalInstruction (a : Fin 96) (t : Fin 64) : exec (.illegalInstruction a t) s = execIllegalInstruction a t s := rfl
@[simp] theorem exec_asyncOpComplete (a : Fin 96) (t : Fin 64) (unit : Fin 11) : exec (.asyncOpComplete a t unit) s = execAsyncOpComplete a t unit s := rfl
@[simp] theorem exec_itemThreadsHalt (item : BitVec 64) : exec (.itemThreadsHalt item) s = execItemThreadsHalt item s := rfl
@[simp] theorem exec_waitLimitExpiry (a : Fin 96) (t : Fin 64) : exec (.waitLimitExpiry a t) s = execWaitLimitExpiry a t s := rfl
@[simp] theorem exec_runLimitExpiry (a : Fin 96) (t : Fin 64) : exec (.runLimitExpiry a t) s = execRunLimitExpiry a t s := rfl
@[simp] theorem exec_dmaCopy (a : Fin 96) (t : Fin 64) : exec (.dmaCopy a t) s = execDmaCopy a t s := rfl
@[simp] theorem exec_dmaGather (a : Fin 96) (t : Fin 64) : exec (.dmaGather a t) s = execDmaGather a t s := rfl
@[simp] theorem exec_dmaScatter (a : Fin 96) (t : Fin 64) : exec (.dmaScatter a t) s = execDmaScatter a t s := rfl
@[simp] theorem exec_dmaFill (a : Fin 96) (t : Fin 64) : exec (.dmaFill a t) s = execDmaFill a t s := rfl
@[simp] theorem exec_dmaProg (a : Fin 96) (t : Fin 64) : exec (.dmaProg a t) s = execDmaProg a t s := rfl
@[simp] theorem exec_dmaTransferStart (a : Fin 96) : exec (.dmaTransferStart a) s = execDmaTransferStart a s := rfl
@[simp] theorem exec_mxmLoad (a : Fin 96) (t : Fin 64) : exec (.mxmLoad a t) s = execMxmLoad a t s := rfl
@[simp] theorem exec_mxmStream (a : Fin 96) (t : Fin 64) : exec (.mxmStream a t) s = execMxmStream a t s := rfl
@[simp] theorem exec_mxmPart (a : Fin 96) (t : Fin 64) : exec (.mxmPart a t) s = execMxmPart a t s := rfl
@[simp] theorem exec_mvLoad (a : Fin 96) (t : Fin 64) : exec (.mvLoad a t) s = execMvLoad a t s := rfl
@[simp] theorem exec_mvStream (a : Fin 96) (t : Fin 64) : exec (.mvStream a t) s = execMvStream a t s := rfl
@[simp] theorem exec_vecAlu (a : Fin 96) (t : Fin 64) : exec (.vecAlu a t) s = execVecAlu a t s := rfl
@[simp] theorem exec_vecMath (a : Fin 96) (t : Fin 64) : exec (.vecMath a t) s = execVecMath a t s := rfl
@[simp] theorem exec_vecAct (a : Fin 96) (t : Fin 64) : exec (.vecAct a t) s = execVecAct a t s := rfl
@[simp] theorem exec_vecDactOut (a : Fin 96) (t : Fin 64) : exec (.vecDactOut a t) s = execVecDactOut a t s := rfl
@[simp] theorem exec_vecDactIn (a : Fin 96) (t : Fin 64) : exec (.vecDactIn a t) s = execVecDactIn a t s := rfl
@[simp] theorem exec_vecRed (a : Fin 96) (t : Fin 64) : exec (.vecRed a t) s = execVecRed a t s := rfl
@[simp] theorem exec_rowNorm (a : Fin 96) (t : Fin 64) : exec (.rowNorm a t) s = execRowNorm a t s := rfl
@[simp] theorem exec_rowDnorm (a : Fin 96) (t : Fin 64) : exec (.rowDnorm a t) s = execRowDnorm a t s := rfl
@[simp] theorem exec_rowSoftmax (a : Fin 96) (t : Fin 64) : exec (.rowSoftmax a t) s = execRowSoftmax a t s := rfl
@[simp] theorem exec_rowDsoftmax (a : Fin 96) (t : Fin 64) : exec (.rowDsoftmax a t) s = execRowDsoftmax a t s := rfl
@[simp] theorem exec_rowTopk (a : Fin 96) (t : Fin 64) : exec (.rowTopk a t) s = execRowTopk a t s := rfl
@[simp] theorem exec_rowTag (a : Fin 96) (t : Fin 64) : exec (.rowTag a t) s = execRowTag a t s := rfl
@[simp] theorem exec_rowTreset (a : Fin 96) (t : Fin 64) : exec (.rowTreset a t) s = execRowTreset a t s := rfl
@[simp] theorem exec_rowSpill (a : Fin 96) (t : Fin 64) : exec (.rowSpill a t) s = execRowSpill a t s := rfl
@[simp] theorem exec_collPlan (a : Fin 96) (t : Fin 64) : exec (.collPlan a t) s = execCollPlan a t s := rfl
@[simp] theorem exec_collSlot (a : Fin 96) (t : Fin 64) : exec (.collSlot a t) s = execCollSlot a t s := rfl
@[simp] theorem exec_collDone (a : Fin 96) (t : Fin 64) : exec (.collDone a t) s = execCollDone a t s := rfl
@[simp] theorem exec_medSubmit (a : Fin 96) (t : Fin 64) : exec (.medSubmit a t) s = execMedSubmit a t s := rfl
@[simp] theorem exec_medRelease (a : Fin 96) (t : Fin 64) : exec (.medRelease a t) s = execMedRelease a t s := rfl
@[simp] theorem exec_medAdvance (a : Fin 96) (t : Fin 64) : exec (.medAdvance a t) s = execMedAdvance a t s := rfl
@[simp] theorem exec_intakeFrameReceive (port : Fin 2) (frame : List Byte) : exec (.intakeFrameReceive port frame) s = execIntakeFrameReceive port frame s := rfl
@[simp] theorem exec_xoffRepeat (port : Fin 2) : exec (.xoffRepeat port) s = execXoffRepeat port s := rfl
@[simp] theorem exec_sluiceDrain (port : Fin 2) : exec (.sluiceDrain port) s = execSluiceDrain port s := rfl
@[simp] theorem exec_sampleRecordVisible (port : Fin 2) (stream : Fin 256) : exec (.sampleRecordVisible port stream) s = execSampleRecordVisible port stream s := rfl
@[simp] theorem exec_intakeLinkUp (port : Fin 2) : exec (.intakeLinkUp port) s = execIntakeLinkUp port s := rfl
@[simp] theorem exec_intakeLinkDown (port : Fin 2) : exec (.intakeLinkDown port) s = execIntakeLinkDown port s := rfl
@[simp] theorem exec_intakeEnable (port : Port) (val : W32) (rid : W16) : exec (.intakeEnable port val rid) s = execIntakeEnable port val rid s := rfl
@[simp] theorem exec_intakeDisable (port : Port) (val : W32) (rid : W16) : exec (.intakeDisable port val rid) s = execIntakeDisable port val rid s := rfl
@[simp] theorem exec_itkRdPtrWrite (port : Port) (val : W32) (rid : W16) : exec (.itkRdPtrWrite port val rid) s = execItkRdPtrWrite port val rid s := rfl
@[simp] theorem exec_contextEnable (port : Port) (val : W32) (rid : W16) : exec (.contextEnable port val rid) s = execContextEnable port val rid s := rfl
@[simp] theorem exec_contextDisable (port : Port) (val : W32) (rid : W16) : exec (.contextDisable port val rid) s = execContextDisable port val rid s := rfl
@[simp] theorem exec_inWrPtrWrite (port : Port) (val : W32) (rid : W16) : exec (.inWrPtrWrite port val rid) s = execInWrPtrWrite port val rid s := rfl
@[simp] theorem exec_outRdPtrWrite (port : Port) (val : W32) (rid : W16) : exec (.outRdPtrWrite port val rid) s = execOutRdPtrWrite port val rid s := rfl
@[simp] theorem exec_sampleAdmit (ctx : Fin 1024) : exec (.sampleAdmit ctx) s = execSampleAdmit ctx s := rfl
@[simp] theorem exec_decodeStart (eng : Fin 5) : exec (.decodeStart eng) s = execDecodeStart eng s := rfl
@[simp] theorem exec_sampleHeaderRead (core : Fin 72) (head : Nat) : exec (.sampleHeaderRead core head) s = execSampleHeaderRead core head s := rfl
@[simp] theorem exec_areaReserve (core : Fin 72) : exec (.areaReserve core) s = execAreaReserve core s := rfl
@[simp] theorem exec_frameBufferAcquire (core : Fin 72) (refs : List Int) : exec (.frameBufferAcquire core refs) s = execFrameBufferAcquire core refs s := rfl
@[simp] theorem exec_sourceReadDone (core : Fin 72) : exec (.sourceReadDone core) s = execSourceReadDone core s := rfl
@[simp] theorem exec_decodeDone (core : Fin 72) (d : DecodeIn) : exec (.decodeDone core d) s = execDecodeDone core d s := rfl
@[simp] theorem exec_outputRecordVisible (ctx : Fin 1024) : exec (.outputRecordVisible ctx) s = execOutputRecordVisible ctx s := rfl
@[simp] theorem exec_medFbRelease (port : Port) (val : W32) (rid : W16) : exec (.medFbRelease port val rid) s = execMedFbRelease port val rid s := rfl
@[simp] theorem exec_tokLoad (port : Port) (set : Fin 2) (val : W32) (rid : W16) : exec (.tokLoad port set val rid) s = execTokLoad port set val rid s := rfl
@[simp] theorem exec_tokLoadDone (set : Fin 2) : exec (.tokLoadDone set) s = execTokLoadDone set s := rfl
@[simp] theorem exec_positionAssign (stream : Fin 64) : exec (.positionAssign stream) s = execPositionAssign stream s := rfl
@[simp] theorem exec_sampleComposeDone (stream : Fin 64) (bucket : Fin 16) : exec (.sampleComposeDone stream bucket) s = execSampleComposeDone stream bucket s := rfl
@[simp] theorem exec_batchOffer (stream : Fin 64) : exec (.batchOffer stream) s = execBatchOffer stream s := rfl
@[simp] theorem exec_flushWindowEnd (stream : Fin 64) (bucket : Fin 16) : exec (.flushWindowEnd stream bucket) s = execFlushWindowEnd stream bucket s := rfl
@[simp] theorem exec_flush (port : Port) (val : W32) (rid : W16) : exec (.flush port val rid) s = execFlush port val rid s := rfl
@[simp] theorem exec_streamEnable (port : Port) (val : W32) (rid : W16) : exec (.streamEnable port val rid) s = execStreamEnable port val rid s := rfl
@[simp] theorem exec_streamDisable (port : Port) (val : W32) (rid : W16) : exec (.streamDisable port val rid) s = execStreamDisable port val rid s := rfl
@[simp] theorem exec_batRelease (port : Port) (val : W32) (rid : W16) : exec (.batRelease port val rid) s = execBatRelease port val rid s := rfl
@[simp] theorem exec_flitReceive (p : Fin 12) (f : FlitIn) : exec (.flitReceive p f) s = execFlitReceive p f s := rfl
@[simp] theorem exec_nakRepeat (p : Fin 12) : exec (.nakRepeat p) s = execNakRepeat p s := rfl
@[simp] theorem exec_flitTransmit (p : Fin 12) : exec (.flitTransmit p) s = execFlitTransmit p s := rfl
@[simp] theorem exec_laneFailure (p : Fin 12) (tx : Bool) (ev : LaneEvent) : exec (.laneFailure p tx ev) s = execLaneFailure p tx ev s := rfl
@[simp] theorem exec_laneDrop (p : Fin 12) : exec (.laneDrop p) s = execLaneDrop p s := rfl
@[simp] theorem exec_portDegraded (p : Fin 12) : exec (.portDegraded p) s = execPortDegraded p s := rfl
@[simp] theorem exec_linkSilenceTimeout (p : Fin 12) : exec (.linkSilenceTimeout p) s = execLinkSilenceTimeout p s := rfl
@[simp] theorem exec_portEnable (port : Port) (val : W32) (rid : W16) : exec (.portEnable port val rid) s = execPortEnable port val rid s := rfl
@[simp] theorem exec_portTrained (p : Fin 12) (peerModule : BitVec 12) (peerPort : BitVec 4) (creds : List Nat) (rtt : W16) : exec (.portTrained p peerModule peerPort creds rtt) s = execPortTrained p peerModule peerPort creds rtt s := rfl
@[simp] theorem exec_portDisable (port : Port) (val : W32) (rid : W16) : exec (.portDisable port val rid) s = execPortDisable port val rid s := rfl
@[simp] theorem exec_portOff (p : Fin 12) : exec (.portOff p) s = execPortOff p s := rfl
@[simp] theorem exec_windowEnable (port : Port) (val : W32) (rid : W16) : exec (.windowEnable port val rid) s = execWindowEnable port val rid s := rfl
@[simp] theorem exec_planStart : exec (.planStart) s = execPlanStart s := rfl
@[simp] theorem exec_planStepStart (slot : Fin 64) : exec (.planStepStart slot) s = execPlanStepStart slot s := rfl
@[simp] theorem exec_chunkArrive (p : Fin 12) : exec (.chunkArrive p) s = execChunkArrive p s := rfl
@[simp] theorem exec_planStepComplete (slot : Fin 64) : exec (.planStepComplete slot) s = execPlanStepComplete slot s := rfl
@[simp] theorem exec_fetchRequestReceive (p : Fin 12) : exec (.fetchRequestReceive p) s = execFetchRequestReceive p s := rfl
@[simp] theorem exec_fetchReplyArrive (p : Fin 12) : exec (.fetchReplyArrive p) s = execFetchReplyArrive p s := rfl
@[simp] theorem exec_fetchFailReceive (p : Fin 12) : exec (.fetchFailReceive p) s = execFetchFailReceive p s := rfl
@[simp] theorem exec_releaseReceive (p : Fin 12) : exec (.releaseReceive p) s = execReleaseReceive p s := rfl
@[simp] theorem exec_slowReceive (p : Fin 12) : exec (.slowReceive p) s = execSlowReceive p s := rfl
@[simp] theorem exec_slowSend : exec (.slowSend) s = execSlowSend s := rfl
@[simp] theorem exec_peerTimeoutExpiry (slot : Fin 64) (step : Fin 4096) : exec (.peerTimeoutExpiry slot step) s = execPeerTimeoutExpiry slot step s := rfl
@[simp] theorem exec_abortReceive (p : Fin 12) : exec (.abortReceive p) s = execAbortReceive p s := rfl
@[simp] theorem exec_lodeUpdateStart : exec (.lodeUpdateStart) s = execLodeUpdateStart s := rfl
@[simp] theorem exec_lodeUpdateWritten : exec (.lodeUpdateWritten) s = execLodeUpdateWritten s := rfl
@[simp] theorem exec_verWrite (port : Port) (val : W32) (rid : W16) : exec (.verWrite port val rid) s = execVerWrite port val rid s := rfl
@[simp] theorem exec_nopEntry (q : Fin 256) : exec (.nopEntry q) s = execNopEntry q s := rfl
@[simp] theorem exec_workEntry (q : Fin 256) : exec (.workEntry q) s = execWorkEntry q s := rfl
@[simp] theorem exec_copyEntry (q : Fin 256) : exec (.copyEntry q) s = execCopyEntry q s := rfl
@[simp] theorem exec_copyComplete (q : Fin 256) (data : List Byte) (good : Bool) : exec (.copyComplete q data good) s = execCopyComplete q data good s := rfl
@[simp] theorem exec_barrierEntry (q : Fin 256) : exec (.barrierEntry q) s = execBarrierEntry q s := rfl
@[simp] theorem exec_submissionTake (entry : Option (List Byte)) : exec (.submissionTake entry) s = execSubmissionTake entry s := rfl
@[simp] theorem exec_itemStart (item : W64) : exec (.itemStart item) s = execItemStart item s := rfl
@[simp] theorem exec_imageLoadDone (item : W64) : exec (.imageLoadDone item) s = execImageLoadDone item s := rfl
@[simp] theorem exec_workItemComplete (item : W64) : exec (.workItemComplete item) s = execWorkItemComplete item s := rfl
@[simp] theorem exec_replayStart (item : W64) : exec (.replayStart item) s = execReplayStart item s := rfl
@[simp] theorem exec_stepBoundary : exec (.stepBoundary) s = execStepBoundary s := rfl
@[simp] theorem exec_measurementWindowEnd : exec (.measurementWindowEnd) s = execMeasurementWindowEnd s := rfl
@[simp] theorem exec_dispatcherEnable (port : Port) (val : W32) (rid : W16) : exec (.dispatcherEnable port val rid) s = execDispatcherEnable port val rid s := rfl
@[simp] theorem exec_dispatcherDisable (port : Port) (val : W32) (rid : W16) : exec (.dispatcherDisable port val rid) s = execDispatcherDisable port val rid s := rfl
@[simp] theorem exec_arrayIdleEntry (phys : Fin 100) : exec (.arrayIdleEntry phys) s = execArrayIdleEntry phys s := rfl
@[simp] theorem exec_arrayRetEntry (phys : Fin 100) : exec (.arrayRetEntry phys) s = execArrayRetEntry phys s := rfl
@[simp] theorem exec_aclkPllStop : exec (.aclkPllStop) s = execAclkPllStop s := rfl
@[simp] theorem exec_arrayWakeDone (phys : Fin 100) : exec (.arrayWakeDone phys) s = execArrayWakeDone phys s := rfl
@[simp] theorem exec_pwrOff (port : Port) (val : W32) (rid : W16) : exec (.pwrOff port val rid) s = execPwrOff port val rid s := rfl
@[simp] theorem exec_pwrOn (port : Port) (val : W32) (rid : W16) : exec (.pwrOn port val rid) s = execPwrOn port val rid s := rfl
@[simp] theorem exec_powerControlPeriod (watts : Nat) : exec (.powerControlPeriod watts) s = execPowerControlPeriod watts s := rfl
@[simp] theorem exec_aclkChange : exec (.aclkChange) s = execAclkChange s := rfl
@[simp] theorem exec_pwrLimitWrite (port : Port) (field : Fin 3) (val : W32) (rid : W16) : exec (.pwrLimitWrite port field val rid) s = execPwrLimitWrite port field val rid s := rfl
@[simp] theorem exec_unitClockStop (unit : Fin 256) : exec (.unitClockStop unit) s = execUnitClockStop unit s := rfl
@[simp] theorem exec_mclkPllStop : exec (.mclkPllStop) s = execMclkPllStop s := rfl
@[simp] theorem exec_pllLock (d : ClkDomain) : exec (.pllLock d) s = execPllLock d s := rfl
@[simp] theorem exec_clkStartTimeout (d : ClkDomain) : exec (.clkStartTimeout d) s = execClkStartTimeout d s := rfl
@[simp] theorem exec_refclkLoss (cwy : Bool) : exec (.refclkLoss cwy) s = execRefclkLoss cwy s := rfl
@[simp] theorem exec_bar2Read (off : Fin 68719476736) (len : Fin 4097) : exec (.bar2Read off len) s = execBar2Read off len s := rfl
@[simp] theorem exec_bar2Write (off : Fin 68719476736) (data : List Byte) (poison : Bool) : exec (.bar2Write off data poison) s = execBar2Write off data poison s := rfl
@[simp] theorem exec_sqTailDoorbell (q : Fin 256) (val : W32) (whole poison : Bool) : exec (.sqTailDoorbell q val whole poison) s = execSqTailDoorbell q val whole poison s := rfl
@[simp] theorem exec_cqHeadDoorbell (q : Fin 256) (val : W32) (whole poison : Bool) : exec (.cqHeadDoorbell q val whole poison) s = execCqHeadDoorbell q val whole poison s := rfl
@[simp] theorem exec_sqEnable (val : W32) (rid : W16) : exec (.sqEnable val rid) s = execSqEnable val rid s := rfl
@[simp] theorem exec_sqDisable (val : W32) (rid : W16) : exec (.sqDisable val rid) s = execSqDisable val rid s := rfl
@[simp] theorem exec_cqEnable (val : W32) (rid : W16) : exec (.cqEnable val rid) s = execCqEnable val rid s := rfl
@[simp] theorem exec_cqDisable (val : W32) (rid : W16) : exec (.cqDisable val rid) s = execCqDisable val rid s := rfl
@[simp] theorem exec_completionWrite (q : Fin 256) (good : Bool) : exec (.completionWrite q good) s = execCompletionWrite q good s := rfl
@[simp] theorem exec_coalesceWindowEnd (q : Fin 256) : exec (.coalesceWindowEnd q) s = execCoalesceWindowEnd q s := rfl
@[simp] theorem exec_evtMaskWrite (val : W32) (rid : W16) : exec (.evtMaskWrite val rid) s = execEvtMaskWrite val rid s := rfl
@[simp] theorem exec_busMasterEnableChange (on : Bool) : exec (.busMasterEnableChange on) s = execBusMasterEnableChange on s := rfl
@[simp] theorem exec_d3hotEntry : exec (.d3hotEntry) s = execD3hotEntry s := rfl
@[simp] theorem exec_d0Return : exec (.d0Return) s = execD0Return s := rfl
@[simp] theorem exec_configRequest (off : Fin 4096) : exec (.configRequest off) s = execConfigRequest off s := rfl
@[simp] theorem exec_pcieLinkUp (rate : Fin 8) (width : Fin 32) (flit : Bool) : exec (.pcieLinkUp rate width flit) s = execPcieLinkUp rate width flit s := rfl
@[simp] theorem exec_hstResetWarm (val : W32) (rid : W16) (chk : WarmCheck) : exec (.hstResetWarm val rid chk) s = execHstResetWarm val rid chk s := rfl
@[simp] theorem exec_pwrEnAssert (temps : List (Sensor × Nat)) : exec (.pwrEnAssert temps) s = execPwrEnAssert temps s := rfl
@[simp] theorem exec_pwrEnDeassert : exec (.pwrEnDeassert) s = execPwrEnDeassert s := rfl
@[simp] theorem exec_inputApply (mv : Int) (held : Nat) : exec (.inputApply mv held) s = execInputApply mv held s := rfl
@[simp] theorem exec_inputGood : exec (.inputGood) s = execInputGood s := rfl
@[simp] theorem exec_inputLoss : exec (.inputLoss) s = execInputLoss s := rfl
@[simp] theorem exec_overvoltageTrip : exec (.overvoltageTrip) s = execOvervoltageTrip s := rfl
@[simp] theorem exec_overcurrentTrip : exec (.overcurrentTrip) s = execOvercurrentTrip s := rfl
@[simp] theorem exec_reversePolarity : exec (.reversePolarity) s = execReversePolarity s := rfl
@[simp] theorem exec_refclkAoTrip : exec (.refclkAoTrip) s = execRefclkAoTrip s := rfl
@[simp] theorem exec_thermalTrip (sensor : Sensor) (temp : Nat) : exec (.thermalTrip sensor temp) s = execThermalTrip sensor temp s := rfl
@[simp] theorem exec_powerDownRestart : exec (.powerDownRestart) s = execPowerDownRestart s := rfl
@[simp] theorem exec_perstAssert (chk : WarmCheck) : exec (.perstAssert chk) s = execPerstAssert chk s := rfl
@[simp] theorem exec_perstDeassert : exec (.perstDeassert) s = execPerstDeassert s := rfl
@[simp] theorem exec_peatDomainUp (strap : Fin 64) : exec (.peatDomainUp strap) s = execPeatDomainUp strap s := rfl
@[simp] theorem exec_fuseLoadDone (good : Bool) : exec (.fuseLoadDone good) s = execFuseLoadDone good s := rfl
@[simp] theorem exec_firstStageVerified : exec (.firstStageVerified) s = execFirstStageVerified s := rfl
@[simp] theorem exec_managementPortReady : exec (.managementPortReady) s = execManagementPortReady s := rfl
@[simp] theorem exec_configurationReady (pkgs : W32) (ports : Fin 4) : exec (.configurationReady pkgs ports) s = execConfigurationReady pkgs ports s := rfl
@[simp] theorem exec_hbmTrainingDone (temps : List Nat) (failed : List (Fin 1024)) (dead : Bool) : exec (.hbmTrainingDone temps failed dead) s = execHbmTrainingDone temps failed dead s := rfl
@[simp] theorem exec_memoryTestDone (failed : List (Fin 1024)) : exec (.memoryTestDone failed) s = execMemoryTestDone failed s := rfl
@[simp] theorem exec_hbmZeroFillDone (lost : Bool) : exec (.hbmZeroFillDone lost) s = execHbmZeroFillDone lost s := rfl
@[simp] theorem exec_startTimeout : exec (.startTimeout) s = execStartTimeout s := rfl
@[simp] theorem exec_startRetry : exec (.startRetry) s = execStartRetry s := rfl
@[simp] theorem exec_fabricPacketResend : exec (.fabricPacketResend) s = execFabricPacketResend s := rfl
@[simp] theorem exec_internalParityError (unit : ParityUnit) : exec (.internalParityError unit) s = execInternalParityError unit s := rfl
@[simp] theorem exec_fltHeadSeqWrite (val : W32) (rid : W16) : exec (.fltHeadSeqWrite val rid) s = execFltHeadSeqWrite val rid s := rfl
@[simp] theorem exec_jrnRdWrite (val : W32) (rid : W16) (ev : BitErr) : exec (.jrnRdWrite val rid ev) s = execJrnRdWrite val rid ev s := rfl
@[simp] theorem exec_spillEnable (val : W32) (rid : W16) : exec (.spillEnable val rid) s = execSpillEnable val rid s := rfl
@[simp] theorem exec_jrnSpillRdWrite (val : W32) (rid : W16) : exec (.jrnSpillRdWrite val rid) s = execJrnSpillRdWrite val rid s := rfl
@[simp] theorem exec_journalSpillWrite (good : Bool) : exec (.journalSpillWrite good) s = execJournalSpillWrite good s := rfl
@[simp] theorem exec_getInfo : exec (.getInfo) s = execGetInfo s := rfl
@[simp] theorem exec_telemetry : exec (.telemetry) s = execTelemetry s := rfl
@[simp] theorem exec_setPower (limit aclk : W32) (eid : Byte) : exec (.setPower limit aclk eid) s = execSetPower limit aclk eid s := rfl
@[simp] theorem exec_resetCmd (cold : Byte) (chk : WarmCheck) : exec (.resetCmd cold chk) s = execResetCmd cold chk s := rfl
@[simp] theorem exec_bootOptions (opts : Byte) (eid : Byte) : exec (.bootOptions opts eid) s = execBootOptions opts eid s := rfl
@[simp] theorem exec_fwBegin (ty : Byte) : exec (.fwBegin ty) s = execFwBegin ty s := rfl
@[simp] theorem exec_fwData (off : W32) (data : List Byte) : exec (.fwData off data) s = execFwData off data s := rfl
@[simp] theorem exec_fwCommit (eid : Byte) : exec (.fwCommit eid) s = execFwCommit eid s := rfl
@[simp] theorem exec_fwCommitDone : exec (.fwCommitDone) s = execFwCommitDone s := rfl
@[simp] theorem exec_flashRepairDone : exec (.flashRepairDone) s = execFlashRepairDone s := rfl
@[simp] theorem exec_svnCommit (ty v : Byte) (eid : Byte) : exec (.svnCommit ty v eid) s = execSvnCommit ty v eid s := rfl
@[simp] theorem exec_keyRevoke (slot : Byte) (eid : Byte) : exec (.keyRevoke slot eid) s = execKeyRevoke slot eid s := rfl
@[simp] theorem exec_faultRead (fseq : W32) (count : Byte) (bad : List BitErr) : exec (.faultRead fseq count bad) s = execFaultRead fseq count bad s := rfl
@[simp] theorem exec_faultAck : exec (.faultAck) s = execFaultAck s := rfl
@[simp] theorem exec_journalRead (seq : W32) (count : Byte) (bad : List BitErr) : exec (.journalRead seq count bad) s = execJournalRead seq count bad s := rfl
@[simp] theorem exec_lockCmd (set clear : W32) (eid : Byte) : exec (.lockCmd set clear eid) s = execLockCmd set clear eid s := rfl
@[simp] theorem exec_regRead (off : W32) : exec (.regRead off) s = execRegRead off s := rfl
@[simp] theorem exec_regWrite (off val : W32) (eid : Byte) : exec (.regWrite off val eid) s = execRegWrite off val eid s := rfl
@[simp] theorem exec_debugChallenge : exec (.debugChallenge) s = execDebugChallenge s := rfl
@[simp] theorem exec_debugUnlock (token : List Byte) : exec (.debugUnlock token) s = execDebugUnlock token s := rfl
@[simp] theorem exec_debugLock : exec (.debugLock) s = execDebugLock s := rfl
@[simp] theorem exec_getVersion (tr : SpdmPort) : exec (.getVersion tr) s = execGetVersion tr s := rfl
@[simp] theorem exec_getCapabilities (tr : SpdmPort) : exec (.getCapabilities tr) s = execGetCapabilities tr s := rfl
@[simp] theorem exec_negotiateAlgorithms (tr : SpdmPort) (sm2 sm3 measSm3 dmtf : Bool) : exec (.negotiateAlgorithms tr sm2 sm3 measSm3 dmtf) s = execNegotiateAlgorithms tr sm2 sm3 measSm3 dmtf s := rfl
@[simp] theorem exec_getDigests (tr : SpdmPort) : exec (.getDigests tr) s = execGetDigests tr s := rfl
@[simp] theorem exec_getCertificate (tr : SpdmPort) (slot : Fin 8) (off len : W16) : exec (.getCertificate tr slot off len) s = execGetCertificate tr slot off len s := rfl
@[simp] theorem exec_challenge (tr : SpdmPort) (slot : Fin 8) (nonce : List Byte) : exec (.challenge tr slot nonce) s = execChallenge tr slot nonce s := rfl
@[simp] theorem exec_getMeasurements (tr : SpdmPort) (index : Byte) (sign : Bool) (nonce : List Byte) : exec (.getMeasurements tr index sign nonce) s = execGetMeasurements tr index sign nonce s := rfl
@[simp] theorem exec_refclkReturn (cwy : Bool) : exec (.refclkReturn cwy) s = execRefclkReturn cwy s := rfl
@[simp] theorem exec_msixUnmask (vec : Fin 2048) : exec (.msixUnmask vec) s = execMsixUnmask vec s := rfl
@[simp] theorem exec_jtagAccess (ins : JtagIns) : exec (.jtagAccess ins) s = execJtagAccess ins s := rfl

end Sys2Proof.Machine
end

