-- ==== Sys2Proof/Laws/Threads.lean ====
section
/-! SUPPORT. Laws/Threads.lean: one lemma for each shared operation of the thread instructions: issue, the advance of the PC, the issue of an
asynchronous operation and the accumulator elements it holds. -/

namespace Sys2Proof.Machine

/-- An instruction that its thread issues runs its body on the fetched word (R153, R157). -/
theorem issue_eq_of_issues {s u : State} {a : Fin 96} {t : Fin 64} {w ext : Nat} (h : Issues s a t w ext u)
    (body : Nat → Nat → State → State) : issue (iCls w) (iFunc w) body a t s = body w ext u := by
  obtain ⟨⟨h1, h2, h3, h4, h5⟩, hg⟩ := h
  unfold issue
  rw [h2]
  simp_all
  intro hl hp
  simp [iLen, hl] at h5
  omega

/-- A PC that stays in the program store only moves past the instruction (R157, R163). -/
theorem advance_eq (a t w : Nat) (s : State) (h : (s.th a t).pc + iLen w < psWords) :
    advance a t w s = s.setTh a t ((s.th a t).after w) := by
  have h2 : (((s.th a t).pc + iLen w : Nat) : Int) < (psWords : Int) := by exact_mod_cast h
  simp only [advance, goTo, Thread.after]
  rw [if_pos ⟨by omega, h2⟩, Int.toNat_natCast]

/-- An asynchronous instruction whose thread has room in its token window takes the next token (R169). -/
theorem issueAsync_eq (a t unit w : Nat) (k : Nat → State → State) (s : State) (h : windowFull (s.th a t) = false) :
    issueAsync a t unit w k s =
      advance a t w (k (nextSeq (s.th a t).seq) (s.setTh a t ((s.th a t).withToken w unit))) := by
  simp [issueAsync, h, Thread.withToken]

/-- A full window makes the thread wait (R152, R169). -/
theorem issueAsync_full (a t unit w : Nat) (k : Nat → State → State) (s : State) (h : windowFull (s.th a t) = true) :
    issueAsync a t unit w k s = waitFor a t (.slot 31) s := by
  simp [issueAsync, h]

/-- Settling the accumulator elements of an operation leaves memory and threads (R225). -/
@[simp] theorem dropAcc_mem (a t q : Nat) (s : State) : (dropAcc a t q s).mem = s.mem := by
  unfold dropAcc; split <;> rfl

@[simp] theorem dropAcc_thr (a t q : Nat) (s : State) : (dropAcc a t q s).thr = s.thr := by
  unfold dropAcc; split <;> rfl

@[simp] theorem dropAcc_th (a t q j k : Nat) (s : State) : (dropAcc a t q s).th j k = s.th j k := by
  simp [State.th]

end Sys2Proof.Machine
end

