-- ==== Sys2Proof/Tests/Slice0.lean ====
section
/-! SUPPORT. Tests/Slice0.lean: the model's own tests: values worked out by hand from the rules, terms that WellFormed refuses, and a witness
for the hypotheses of every statement. -/

set_option Elab.async false

namespace Sys2Proof.Tests

open Sys2Proof Sys2Proof.Machine

/-- Whether an outcome is a next state. -/
def isNext (o : Host.Outcome State Fault Refusal) : Bool :=
  match o with
  | .next _ => true
  | _ => false

/-- A property of the next state; false for a stop. -/
def after (o : Host.Outcome State Fault Refusal) (f : State → Bool) : Bool :=
  match o with
  | .next s => f s
  | _ => false

/-- The value of a result that is one. -/
def okOf {α β : Type} (r : Except α β) : Option β :=
  match r with
  | .ok x => some x
  | .error _ => none

/-- The state after reset with array 0 awake. -/
def s0 : State := { State.reset with pstate := [(0, .run)] }

/-- A thread 0 of array 0 that is READY at an instruction word. -/
def onWord (x : Thread) (w : Nat) (s : State) : State :=
  rawWrite (s.setTh 0 0 { x with st := .ready }) (psAddr 0 x.pc) (leBytes 8 w)

/-- A thread with two scalar registers set: s1 and s2. -/
def thr12 (x y : Nat) : Thread := (Thread.free.setS 1 (BitVec.ofNat 64 x)).setS 2 (BitVec.ofNat 64 y)

/-- A word with RD 3, RA 1, RB 2 and an immediate. -/
def word (cls func imm : Nat) : Nat := encodeWord cls func ⟨0, false, false, 3, 1, 2, imm⟩

/-- A word with only RD and an immediate. -/
def wordD (cls func imm : Nat) : Nat := encodeWord cls func ⟨0, false, false, 3, 0, 0, imm⟩

/-- Does thread 0 of array 0 issue a word: every condition of `Issues`. -/
def issuesB (s : State) (w ext : Nat) : Bool :=
  (s.th 0 0).st == .ready && okOf (fetchIns 0 0 s).1 == some (w, ext) && (fetchIns 0 0 s).2.thr == s.thr && (illegalCause w ext).isNone &&
    decide ((s.th 0 0).pc + iLen w < psWords) && guardHolds (s.th 0 0).p (iPg w) (iPn w)

theorem okOf_eq {α β γ : Type} {r : Except α β × γ} {x : β} (h : okOf r.1 = some x) : r = (.ok x, r.2) := by
  obtain ⟨e, t⟩ := r
  cases e <;> simp_all [okOf]

theorem issues_of_b {s : State} {w ext : Nat} (h : issuesB s w ext = true) : Issues s 0 0 w ext (fetchIns 0 0 s).2 := by
  simp only [issuesB, Bool.and_eq_true, beq_iff_eq, decide_eq_true_eq, Option.isNone_iff_eq_none] at h
  exact ⟨⟨h.1.1.1.1.1, okOf_eq h.1.1.1.1.2, h.1.1.1.2, h.1.1.2, h.1.2⟩, h.2⟩

/-- Immediates that make the words of the classes legal. -/
def immOf (cls func : Nat) : Nat :=
  match cls, func with
  | 0x7, 0x1 => 0x01
  | 0x6, 0x4 => 0x20
  | _, _ => 0

-- Witnesses of the thread commands' statements: words of every row on a small state, at the limits of the ranges the clauses name.

/-- The state after reset with translation on: VA 0 to 1 GiB is the Pool, 1 GiB to 2 GiB the SRAM windows, both in tables at HBM address 0. -/
def sMap : State :=
  rawWrite (s0.setRf 0 Reg.MMU_CTRL 0 0 1) 0 (leBytes 8 (poolBase + 0xF) ++ leBytes 8 (sramBase + 0xF))

/-- First VA of the SRAM windows in `sMap`. -/
def vaSram : Nat := 0x40000000

/-- Every row of the thread commands issues on some state (R157). -/
theorem witness_every_row_issues : ∀ e ∈ threadRows 0 0,
    let w := encodeWord e.2.1 e.2.2 ⟨0, false, false, 0, 0, 0, immOf e.2.1 e.2.2⟩
    issuesB (onWord Thread.free w s0) w 0 = true ∧ iCls w = e.2.1 ∧ iFunc w = e.2.2 := by decide +kernel

theorem witness_ScalarArithmetic : ∀ k < 15,
    issuesB (onWord (thr12 7 3) (word 0x0 k 0) s0) (word 0x0 k 0) 0 = true ∧ iFunc (word 0x0 k 0) = k ∧ ((aluRows 0 0)[k]?).isSome = true ∧
    issuesB (onWord (thr12 7 3) (encodeWord 0x1 k ⟨0, false, false, 3, 1, 0, 5⟩) s0) (encodeWord 0x1 k ⟨0, false, false, 3, 1, 0, 5⟩) 0 = true ∧
    iFunc (encodeWord 0x1 k ⟨0, false, false, 3, 1, 0, 5⟩) = k ∧ ((aluImmRows 0 0)[k]?).isSome = true := by decide +kernel

/-- The long form of class 0x1 carries its 64-bit immediate in the extension (R158). -/
theorem witness_ScalarArithmetic_long :
    let w := encodeWord 0x1 0x0 ⟨0, false, true, 3, 1, 0, 0⟩
    issuesB (rawWrite (onWord (thr12 7 3) w s0) (psAddr 0 1) (leBytes 8 0x123456789)) w 0x123456789 = true := by decide +kernel

theorem witness_Comparisons :
    (∀ k < 6, issuesB (onWord (thr12 7 3) (word 0x2 k 0) s0) (word 0x2 k 0) 0 = true ∧ iFunc (word 0x2 k 0) = k ∧ ((cmpRows 0 0)[k]?).isSome = true) ∧
    (∀ k < 6, let w := encodeWord 0x2 (8 + k) ⟨0, false, false, 3, 1, 0, 5⟩
      issuesB (onWord (thr12 7 3) w s0) w 0 = true ∧ iFunc w = 8 + k ∧ ((cmpImmRows 0 0)[k]?).isSome = true) ∧
    issuesB (onWord (thr12 7 3) (word 0x2 0xE 15) s0) (word 0x2 0xE 15) 0 = true := by decide +kernel

/-- Branch targets at both ends of the program store, and just outside it. -/
theorem witness_Branches : ∀ imm ∈ [0, 131071, 131072, 0xFFFFFFFF],
    (let w := encodeWord 0x3 0x0 ⟨0, false, false, 0, 0, 0, imm⟩; issuesB (onWord Thread.free w s0) w 0 = true) ∧
    (let w := encodeWord 0x3 0x1 ⟨0, false, false, 3, 0, 0, imm⟩; issuesB (onWord Thread.free w s0) w 0 = true) ∧
    (let w := encodeWord 0x3 0x4 ⟨0, false, false, 0, 1, 0, imm⟩;
      issuesB (onWord (thr12 1 0) w s0) w 0 = true ∧ issuesB (onWord (thr12 2 0) w s0) w 0 = true) ∧
    (let w := encodeWord 0x3 0x2 ⟨0, false, false, 0, 1, 0, 0⟩; issuesB (onWord (thr12 imm 0) w s0) w 0 = true) ∧
    (let w := encodeWord 0x3 0x3 ⟨0, false, false, 3, 1, 0, 0⟩; issuesB (onWord (thr12 imm 0) w s0) w 0 = true) := by decide +kernel

theorem witness_FalseGuard : ∀ w ∈ [encodeWord 0x0 0x0 ⟨1, false, false, 3, 1, 2, 0⟩, encodeWord 0x7 0x3 ⟨0, true, false, 0, 0, 0, 0⟩],
    let s := onWord (thr12 7 3) w s0
    (okOf (fetchIns 0 0 s).1 = some (w, 0) ∧ illegalCause w 0 = none) ∧ guardHolds (s.th 0 0).p (iPg w) (iPn w) = false ∧
    (threadRows 0 0).any (fun e => e.2 == (iCls w, iFunc w)) = true := by decide +kernel

theorem witness_Control : ∀ e ∈ [(0x0, 0, 0), (0x1, 3, 0x00), (0x1, 3, 0x0E), (0x2, 0, 0xFFFF), (0x3, 0, 0)],
    let w := encodeWord 0x7 e.1 ⟨0, false, false, e.2.1, 0, 0, e.2.2⟩
    issuesB (onWord Thread.free w s0) w 0 = true := by decide +kernel

theorem witness_IllegalWord : ∀ e ∈ [(encodeWord 0xF 0 ⟨0, false, false, 0, 0, 0, 0⟩, 0x01), (encodeWord 0x0 0xF ⟨0, false, false, 0, 0, 0, 0⟩, 0x01),
      (0x2000, 0x02), (encodeWord 0x0 0x0 ⟨0, false, true, 0, 0, 0, 0⟩, 0x03), (encodeWord 0x7 0x1 ⟨0, false, false, 0, 0, 0, 0x0F⟩, 0x05)],
    let s := onWord Thread.free e.1 s0
    (s.th 0 0).st = .ready ∧ okOf (fetchIns 0 0 s).1 = some (e.1, 0) ∧ illegalCause e.1 0 = some e.2 := by decide +kernel

theorem witness_ThreadHalt : let s := onWord Thread.free 0 s0
    ((s.th 0 0).st = .ready ∧ (s.th 0 0).faulted = false ∧ s.faults.queue.length < 1024) ∧
    ((progFault 0 0 0x04 s).faults.queue.getLast?.map (fun r => (r.fseq, r.cls, r.disp, r.req))) = some (2, .thread, .reported, 0x1000) := by
  decide +kernel

/-- Loads issue from any address, and return where translation, place, alignment and memory allow them. -/
theorem witness_Loads : ∀ e ∈ loadRows 0 0,
    (let w := encodeWord 0x4 e.2 ⟨0, false, false, 3, 1, 0, 0⟩; issuesB (onWord (thr12 vaSram 0) w sMap) w 0 = true ∧ iFunc w = e.2) ∧
    (let s := sMap.setTh 0 0 { Thread.free with st := .wait, wait := .load e.2 3 vaSram };
      let r := checkedPa (thrCtx s 0 0) vaSram .r (scalarPlace false) (specLen e.2) s;
      okOf r.1 = some sramBase ∧ ((okOf (physRead (thrCtx s 0 0) sramBase (specLen e.2) r.2).1).map (·.length)) = some (specLen e.2) ∧
      (physRead (thrCtx s 0 0) sramBase (specLen e.2) r.2).2.thr = s.thr) := by decide +kernel

theorem witness_Stores : ∀ e ∈ storeRows 0 0,
    let w := encodeWord 0x4 e.2 (if e.2 = 0xD then ⟨0, false, false, 3, 1, 0, 0⟩ else ⟨0, false, false, 0, 1, 2, 0⟩)
    let s := onWord (thr12 vaSram 0x1122334455667788) w sMap
    let u := (fetchIns 0 0 s).2
    let r := checkedPa (thrCtx u 0 0) (memAddr (u.th 0 0) w) .w (scalarPlace true) (specLen e.2) u
    issuesB s w 0 = true ∧ iFunc w = e.2 ∧ okOf r.1 = some sramBase ∧ r.2.thr = u.thr ∧ backing r.2 sramBase = some sramBase ∧
      refusedAt r.2 sramBase (specLen e.2) = none ∧ partBad r.2 sramBase (specLen e.2) = none ∧ r.2.plans = [] := by decide +kernel

theorem witness_DescriptorBase : ∀ k ∈ [0xE, 0xF],
    let w := encodeWord 0x4 k ⟨0, false, false, 3, 1, 0, if k = 0xF then 5 else 0⟩
    issuesB (onWord (thr12 (2 ^ 48 - 1) 0) w s0) w 0 = true := by decide +kernel

theorem witness_PoolOperations :
    (∀ k < 12, let w := word 0x5 k 0
      let s := onWord (thr12 64 5) w sMap
      let u := (fetchIns 0 0 s).2
      let r := checkedPa (thrCtx u 0 0) (memAddr (u.th 0 0) w) .rw inPool (specAtom k 5 0).1 u
      issuesB s w 0 = true ∧ iFunc w = k ∧ okOf r.1 = some (poolBase + 64) ∧ r.2.thr = u.thr ∧ ((atomRows 0 0)[k]?).isSome = true) ∧
    (∀ k ∈ [0x5, 0x6], let w := encodeWord 0x6 k ⟨0, false, false, 3, 1, 0, 0⟩
      let s := onWord (thr12 64 5) w sMap
      let u := (fetchIns 0 0 s).2
      let r := checkedPa (thrCtx u 0 0) (memAddr (u.th 0 0) w) .rw inPool 4 u
      issuesB s w 0 = true ∧ okOf r.1 = some (poolBase + 64) ∧ r.2.thr = u.thr) := by decide +kernel

/-- One request alone at bank 0. -/
def sPool (op : PoolOp) (rid : Nat) : State := { s0 with pool := [(0, [⟨rid, 0, poolBase, op, 0, 0, false⟩])] }

theorem witness_BankCycle : ∀ e ∈ [(PoolOp.add .i32 5, 0x1000), (.cas 0 7, 0x1000), (.semV, 0x2A00), (.read 64, 0x30), (.write (leBytes 64 9), 0x30),
      (redOp 0 (leBytes 256 1), 0x1000)],
    let s := sPool e.1 e.2
    unitsOn s = true ∧ (SMap.getD s.pool 0 []).map (·.pa) = [poolBase] ∧ inPool poolBase = true ∧ poolBank poolBase = 0 ∧ s.bad = [] ∧
      (rawRead s poolBase (poolWidth e.1)).length = poolWidth e.1 ∧
      (isAtomic e.1 || isRed e.1 || e.1 == .read 64 || e.1 == .write (leBytes 64 9)) = true := by decide +kernel

theorem witness_DmaIssue : ∀ k < 5,
    let w := encodeWord 0x8 k ⟨0, false, false, 3, 0, 0, 0⟩
    let s := onWord Thread.free w s0
    issuesB s w 0 = true ∧ windowFull (s.th 0 0) = false ∧ (dmaQueue (fetchIns 0 0 s).2 0 0).length < 64 ∧
      ([Instr.dmaCopy 0 0, .dmaGather 0 0, .dmaScatter 0 0, .dmaFill 0 0, .dmaProg 0 0][k]?).isSome = true := by decide +kernel

theorem witness_GridIssue :
    (∀ e ∈ [(0x9, 0x0), (0x9, 0x1), (0x9, 0x2), (0xA, 0x0), (0xA, 0x1)], let w := encodeWord e.1 e.2 ⟨0, false, false, 3, 0, 0, 0⟩
      let s := onWord Thread.free w s0
      issuesB s w 0 = true ∧ windowFull (s.th 0 0) = false ∧ ownedByOther (s.gr 0) 0 0 = false ∧ (s.gr 0).own = []) ∧
    (∀ k ∈ [0x0, 0x1], let w := encodeWord 0x9 k ⟨0, false, false, 3, 0, 0, 0⟩
      let s := (onWord Thread.free w s0).setGr 0 { s0.gr 0 with own := [(0, 1)] }
      issuesB s w 0 = true ∧ ownedByOther ((fetchIns 0 0 s).2.gr 0) (iImm w % 16) 0 = true) := by decide +kernel

theorem witness_VectorAndRow : ∀ e ∈ (List.range 6).map (fun k => (0xB, k, 6)) ++ (List.range 8).map (fun k => (0xC, k, 7)),
    let w := encodeWord e.1 e.2.1 ⟨0, false, false, 3, 0, 0, 0⟩
    let s := onWord Thread.free w s0
    issuesB s w 0 = true ∧ windowFull (s.th 0 0) = false ∧ unitBusy (fetchIns 0 0 s).2 0 e.2.2 < 64 := by decide +kernel

theorem witness_Red :
    let w := encodeWord 0x5 0xC ⟨0, false, false, 3, 1, 2, 0⟩
    let s := onWord (thr12 vaSram 256) w sMap
    let u := (fetchIns 0 0 s).2
    let v := u.setTh 0 0 ((u.th 0 0).withToken w 10)
    let r := checkedPa (thrCtx v 0 0) vaSram .r (inOwnLocal v 0) 256 v
    let q := checkedPa (thrCtx v 0 0) 256 .rw inPool 256 r.2
    issuesB s w 0 = true ∧ windowFull (u.th 0 0) = false ∧ okOf r.1 = some sramBase ∧ okOf q.1 = some (poolBase + 256) ∧
      ((okOf (physRead { thrCtx v 0 0 with va := vaSram } sramBase 256 q.2).1).map (·.length)) = some 256 ∧
      (physRead { thrCtx v 0 0 with va := vaSram } sramBase 256 q.2).2.thr = v.thr := by decide +kernel

/-- A thread with one token of unit 4, open or completed. -/
def thrTok (fin : Option Status) : Thread := { Thread.free.setS 1 1 with seq := 1, toks := [⟨1, 4, 0, none, fin⟩] }

theorem witness_Tokens :
    let on := fun (x : Thread) (f imm : Nat) => let w := encodeWord 0x6 f ⟨0, false, false, 3, if f < 2 then 1 else 0, 0, imm⟩
      issuesB (onWord x w s0) w 0
    (on (thrTok (some .ok)) 0 0 = true ∧ tokState (thrTok (some .ok)) 1 = .done .ok) ∧ (on (thrTok none) 0 0 = true ∧ tokState (thrTok none) 1 = .running) ∧
    (on { thrTok none with seq := 40, toks := [] } 0 0 = true ∧ tokState { thrTok none with seq := 40, toks := [] } 1 = .old) ∧
    (on { thrTok none with seq := 0, toks := [] } 0 0 = true ∧ tokState { thrTok none with seq := 0, toks := [] } 1 = .future) ∧
    on (thrTok none) 1 0 = true ∧ on (thrTok none) 2 0 = true ∧ on (thrTok (some .ok)) 2 0 = true := by decide +kernel

/-- sync.fence takes no destination register: with and without the unit of the open token; and an instruction at a full window. -/
theorem witness_Fence_and_window :
    (let w := encodeWord 0x6 0x3 ⟨0, false, false, 0, 0, 0, 0x20⟩; issuesB (onWord (thrTok none) w s0) w 0 = true ∧ (iImm w).testBit 4 = false) ∧
    (let w := encodeWord 0x6 0x3 ⟨0, false, false, 0, 0, 0, 0x10⟩; issuesB (onWord (thrTok none) w s0) w 0 = true ∧ (iImm w).testBit 4 = true) ∧
    (∀ e ∈ [(0x5, 0xC), (0xA, 0x0), (0xD, 0x2)], let w := encodeWord e.1 e.2 ⟨0, false, false, 3, 0, 0, 0⟩
      let x := { Thread.free with seq := 32, toks := (List.range 32).map (fun k => ⟨32 - k, 5, 0, none, none⟩) }
      issuesB (onWord x w s0) w 0 = true ∧ (x.toks[31]?).map (·.fin) = some none) := by decide +kernel

/-- Barriers at the ends of the range of counts: idle, one arrival short, count 0, count 65, another count, another item. -/
theorem witness_Barriers :
    let on := fun (n : Nat) (b : SMap Barrier) => let w := encodeWord 0x6 0x4 ⟨0, false, false, 0, 0, 0, n * 16⟩
      issuesB (onWord Thread.free w { s0 with bars := b }) w 0 && bits (iImm w) 11 4 == n
    on 2 [] = true ∧ on 64 [] = true ∧ on 2 [(0, ⟨0, 2, [1]⟩)] = true ∧ on 1 [] = true ∧ on 0 [] = true ∧ on 65 [] = true ∧
      on 2 [(0, ⟨0, 3, [1]⟩)] = true ∧ on 2 [(0, ⟨9, 2, [1]⟩)] = true := by decide +kernel

theorem witness_TokensComplete :
    let t := fun (w f : Option Fail) => (Thread.mk .ready 0 [] 1 [] 2 false [⟨2, 4, 0, none, none⟩, ⟨1, 4, 0, w, none⟩] .ok .none 0 0 0 f.isSome)
    ((t none none).toks.reverse.find? (fun j => j.unit = 4 ∧ j.fin.isNone)).map (·.work) = some none ∧
    ((t (some { st := .ok }) none).toks.reverse.find? (fun j => j.unit = 4 ∧ j.fin.isNone)).map (·.seq) = some 1 ∧
    ((s0.setTh 0 0 { (thrTok none) with st := .drain, toks := [⟨1, 4, 0, some { st := .ok }, none⟩] }).th 0 0).st = .drain := by decide +kernel

/-- A work item that runs on array 0. -/
def anItem : Item := { Item.fresh 5 (leBytes 128 1) with phase := .run, arr := 0 }

theorem witness_ItemHaltAndWatchdogs :
    (let s := { s0 with items := [{ anItem with haltAt := some 0 }] };
      (s.item? 5).map (fun i => i.haltAt.isSome) = some true) ∧
    (let s := { s0 with now := 2 ^ 40, items := [anItem] }.setTh 0 0 { Thread.free with st := .wait, item := 5 };
      (s.item? 5).map (fun i => decide (i.haltAt = none) && decide ((s.th 0 0).waitAt + i.waitLimit < s.now)) = some true) ∧
    (let s := { s0 with now := 2 ^ 40, items := [{ anItem with raw := (leBytes 128 1).set 60 7 }] }.setTh 0 0 { Thread.free with st := .ready, item := 5 };
      (s.item? 5).isSome = true) := by decide +kernel

-- Witnesses of the statements about registers: each access reaches its register, and the condition of its clause holds.

/-- The instance and the mask that an access reaches, when it meets every condition of `Reaches`. -/
def reachesI (a : RegAcc) (s : State) : Option (Nat × Nat) :=
  match admitWrite a s with
  | .yes _ i m s1 =>
    if s1 = s ∧ clockNeeded a.off s = none ∧ (a.port = .mgmt ∨ hostBusy s = false) ∧ pulseWaits a s = false then some (i, m) else none
  | .no _ => none

/-- The word an access of the PCIe port gives its register. -/
def newOf (a : RegAcc) (s : State) : W32 :=
  match regDef? a.off, reachesI a s with
  | some r, some (i, m) => newWord a r i m s
  | _, _ => 0

theorem reaches_of {a : RegAcc} {s : State} {i m : Nat} (h : reachesI a s = some (i, m)) : ∃ r, Reaches a r i m s := by
  unfold reachesI at h
  split at h
  · rename_i r j k s1 he
    split at h
    · rename_i hc
      simp only [Option.some.injEq, Prod.mk.injEq] at h
      obtain ⟨rfl, rfl⟩ := h
      obtain ⟨h1, h2, h3, h4⟩ := hc
      subst h1
      refine ⟨r, he, h2, fun hp => ?_, h4⟩
      rcases h3 with h3 | h3
      · simp [hp] at h3
      · exact h3
    · simp at h
  · simp at h

/-- The state after reset with every PLL running. -/
def sReg : State := { s0 with aclk := ⟨true, none, 0, false⟩, mclk := ⟨true, none, 0, false⟩ }

/-- An access of the PCIe port. -/
def pw (off : Nat) (val : W32) : RegAcc := ⟨.pcie, off, val, 7⟩

/-- Every register row reaches its register with all bits on a state with the clocks running. -/
theorem witness_register_rows_reach : ∀ off ∈ [Reg.GLB_SCRATCH, Reg.MEM_FCLASS_DATA, Reg.ARR_INJECT, Reg.EXP_CTRL, Reg.MMU_INV_CTRL, Reg.CKP_CTRL,
      Reg.ITK_PCTRL, Reg.ITK_RD_PTR, Reg.CWY_PCTRL, Reg.CWY_WIN_EN, Reg.MED_CTX_CTRL, Reg.MED_IN_WR_PTR, Reg.MED_OUT_RD_PTR, Reg.MED_FB_RELEASE,
      Reg.TOK0_LOAD, Reg.TOK1_LOAD, Reg.BAT_SCTRL, Reg.BAT_FLUSH, Reg.BAT_RELEASE, Reg.LOD_VER, Reg.DSP_CTRL, Reg.SQ_CTRL, Reg.CQ_CTRL,
      Reg.HST_EVT_MASK, Reg.HST_RESET, Reg.PWR_LIMIT, Reg.PWR_HEADROOM, Reg.PWR_ACLK_MAX, Reg.PWR_OFF_CTRL, Reg.FLT_HEAD_SEQ, Reg.JRN_RD,
      Reg.JRN_CTRL, Reg.JRN_SPILL_RD, Reg.CLK_TB_SET_HI, Reg.SQ_BASE_HI], reachesI (pw off 1) sReg = some (0, 2 ^ 32 - 1) := by decide +kernel

theorem witness_PlainWrite_rule : ruleAt Reg.GLB_SCRATCH = WriteRule.plain ∧ pairRuleAt Reg.MMU_INV_VA_LO = PairRule.plain := ⟨rfl, rfl⟩

/-- A low half is held, and its high half, with a low half pending and without, reaches its pair. -/
theorem witness_PairWrites :
    (regDef? Reg.MMU_INV_VA_LO).map (·.pair) = some .lo ∧ (regDef? Reg.MMU_INV_VA_HI).map (·.pair) = some .hi ∧
    reachesI (pw Reg.MMU_INV_VA_LO 5) sReg = some (0, 2 ^ 32 - 1) ∧ reachesI (pw Reg.MMU_INV_VA_HI 5) sReg = some (0, 2 ^ 32 - 1) ∧
    ((sReg.setHalf .pcie { sReg.half .pcie with pendLo := some (Reg.MMU_INV_VA_LO, 9) }).half .pcie).pendLo = some (Reg.MMU_INV_VA_LO, 9) := by
  decide +kernel

theorem witness_FieldsFollowTheirAccessCode : ∀ off ∈ [Reg.GLB_SCRATCH, Reg.DSP_CTRL, Reg.LOD_STATUS, Reg.HST_REFUSED, Reg.HST_RESET],
    ((regDef? off).map (fun r => r.off == off && !r.fields.isEmpty)) = some true := by decide +kernel

/-- What each port may not write: the management port a plain register, the PCIe port HST_MLOCK and a register of a locked block. -/
theorem witness_RefusedWrites :
    let locked := sReg.setRf 0 Reg.HST_MLOCK 3 3 1
    (∀ e ∈ [(Port.mgmt, Reg.GLB_SCRATCH, sReg), (.pcie, Reg.HST_MLOCK, sReg), (.pcie, Reg.PWR_HEADROOM, locked)],
      busOpen e.1 e.2.1 e.2.2 = true ∧ (match admitWrite ⟨e.1, e.2.1, 1, 0⟩ e.2.2 with
        | .no s1 => decide (s1 = refuseWrite ⟨e.1, e.2.1, 1, 0⟩ e.2.2)
        | .yes .. => false) = true) := by decide +kernel

theorem witness_RegisterReads : ∀ e ∈ [(Reg.MMU_INV_VA_LO, PairRole.lo), (Reg.HST_REFUSED, .single)],
    ((regDef? e.1).map (fun r => (r.pair == e.2, instOfReg r .pcie sReg, woMask r == 0,
      if e.2 == .single then accMask r (· == .rc) == 2 ^ 32 - 1 else accMask r (· == .rc) == 0))) = some (true, some 0, true, true) ∧
    busOpen .pcie e.1 sReg = true ∧ clockNeeded e.1 sReg = none ∧ liveReg 0 e.1 sReg = none ∧ liveReg 0 (e.1 + 4) sReg = none := by decide +kernel

theorem witness_CommandRows :
    logicalOf sReg 0 = some 0 ∧ sReg.inval = none ∧ ({ sReg with inval := some (0, 65536) } : State).inval ≠ none ∧
    sReg.rf 0 Reg.CKP_STATUS 8 8 = 0 ∧ sReg.rf 0 Reg.CKP_STATUS 9 9 = 0 ∧ sReg.rf 0 Reg.DSP_STATUS 1 1 = 0 := by decide +kernel

/-- An Intake port whose stream 0 has a ring of 2 MiB, and a Causeway port with its cold credits. -/
theorem witness_EnableRows :
    let s := (sReg.setRf 0 Reg.ITK_RING_SIZE 11 0 1).setReg 0 Reg.ITK_MAX_SAMPLE 4096
    let on := s.setRf 0 Reg.ITK_PCTRL 0 0 1
    let up := on.setRf 0 Reg.ITK_PSTATUS 0 0 1
    (enableOk 0 s = true ∧ fld (newOf (pw Reg.ITK_PCTRL 1) s) 0 0 = 1) ∧
    (fld (newOf (pw Reg.ITK_PCTRL 0x30) up) 0 0 = 0 ∧ fld (newOf (pw Reg.ITK_PCTRL 0x30) up) 6 4 = fld (up.reg 0 Reg.ITK_PCTRL) 6 4) ∧
    ((newOf (pw Reg.ITK_RD_PTR 64) s).toNat = 64 ∧ (newOf (pw Reg.ITK_RD_PTR 0x1FFFC0) s).toNat < ringBytes s 0 0 ∧ boundTo s 1024 1 0 = false) ∧
    (credsOk sReg 0 = true ∧ portState sReg 0 = 0 ∧ fld (newOf (pw Reg.CWY_PCTRL 1) sReg) 0 0 = 1) ∧
    (let c := (sReg.setRf 0 Reg.CWY_PCTRL 0 0 1).setRf 0 Reg.CWY_PSTATE 2 0 3;
      portUp c 0 = true ∧ fld (newOf (pw Reg.CWY_PCTRL 0) c) 0 0 = 0) ∧
    windowOk (sReg.setRf 0 Reg.CWY_WIN_SIZE 23 0 1) 0 = true := by decide +kernel

theorem witness_FrameClassConversion :
    (sReg.conv = [] ∧ changedFrames 0 (sReg.reg 0 Reg.MEM_FCLASS_DATA) (newOf (pw Reg.MEM_FCLASS_DATA 1) sReg) = [(0, true)]) ∧
    ({ sReg with conv := [0] } : State).conv ≠ [] ∧ ({ sReg with conv := [393215] } : State).conv = [393215] := by decide +kernel

theorem witness_MediaRegisterRows :
    let s := ((sReg.setRf 0 Reg.MED_OUT_RING_SIZE 11 0 1).setRf 0 Reg.MED_IN_RING_SIZE 11 0 1)
    let v := BitVec.ofNat 32 (0x30 + 0xFF0000)
    let on := s.setReg 0 Reg.MED_CTX_CTRL (v ||| 1)
    (ctxEnableOk 0 (newOf (pw Reg.MED_CTX_CTRL (v ||| 1)) s) s = true ∧ fld (newOf (pw Reg.MED_CTX_CTRL (v ||| 1)) s) 0 0 = 1) ∧
    newOf (pw Reg.MED_CTX_CTRL v) on = setFld (on.reg 0 Reg.MED_CTX_CTRL) 0 0 0 ∧
    ((newOf (pw Reg.MED_IN_WR_PTR 0x1FFFC0) s).toNat % 64 = 0 ∧
      (newOf (pw Reg.MED_IN_WR_PTR 0x1FFFC0) s).toNat < s.rf 0 Reg.MED_IN_RING_SIZE 11 0 * 0x200000) ∧
    medBs on 0 = 0xFF := by decide +kernel

/-- A batch stream that may be enabled: one image bucket of 16 by 16 values in three channels, two buffers. -/
def sBat : State :=
  ((((((sReg.setReg 0 Reg.BAT_N 2).setReg 0 Reg.BAT_NBUF 2).setReg 0 Reg.BAT_SLOT_QUOTA 4).setReg 0 Reg.BAT_BUF_SIZE 8).setReg 0 Reg.BAT_BUCKET
    0x301).setReg 0 Reg.BAT_DIM0 16).setReg 0 Reg.BAT_DIM1 16

theorem witness_ComposerRegisterRows :
    let on := sBat.setRf 0 Reg.BAT_SCTRL 0 0 1
    (fld (newOf (pw Reg.BAT_SCTRL 1) sBat) 0 0 = 1 ∧ batStreamOk (sBat.setReg 0 Reg.BAT_SCTRL (newOf (pw Reg.BAT_SCTRL 1) sBat)) 0 = true) ∧
    (fld (newOf (pw Reg.BAT_SCTRL 0) on) 0 0 = 0 ∧
      newOf (pw Reg.BAT_SCTRL 0) on = setFld (setFld (on.reg 0 Reg.BAT_SCTRL) 0 0 0) 16 16 (fld (newOf (pw Reg.BAT_SCTRL 0) on) 16 16)) := by
  decide +kernel

/-- Enabled queues: completion queue 0 of 2 entries, submission queue 0 of 2 entries, both in host memory. -/
def sQ : State :=
  (((sReg.setReg 0 Reg.CQ_SIZE 2).setReg 0 Reg.SQ_SIZE 2).setReg 0 Reg.CQ_CTRL 1).setReg 0 Reg.SQ_CTRL 1

theorem witness_HostRegisterRows :
    let off := sQ.setReg 0 Reg.SQ_CTRL 0
    let none_ := off.setReg 0 Reg.CQ_CTRL 0
    (queueOk off (sqSize off 0) (fld (newOf (pw Reg.SQ_CTRL 1) off) 1 1) = true ∧ cqEn off (fld (newOf (pw Reg.SQ_CTRL 1) off) 15 8) = true ∧
      fld (off.reg 0 Reg.SQ_CTRL) 0 0 = 0 ∧ fld (newOf (pw Reg.SQ_CTRL 1) off) 0 0 = 1) ∧
    (withEn (sQ.reg 0 Reg.SQ_CTRL) 0 = withEn (newOf (pw Reg.SQ_CTRL 0) sQ) 0 ∧ fld (newOf (pw Reg.SQ_CTRL 0) sQ) 0 0 = 0) ∧
    (queueOk none_ (cqSize none_ 0) (fld (newOf (pw Reg.CQ_CTRL 1) none_) 1 1) = true ∧ fld (newOf (pw Reg.CQ_CTRL 1) none_) 0 0 = 1) ∧
    (cqNamed off 0 = false ∧ withEn (off.reg 0 Reg.CQ_CTRL) 0 = withEn (newOf (pw Reg.CQ_CTRL 0) off) 0) ∧
    cqNamed sQ 0 = true := by decide +kernel

/-- The dispatcher with one array pinned to branch 0, and one whose step is open. -/
theorem witness_DispatcherRegisterRows :
    let s := sReg.setRf 0 Reg.DSP_SHARE 14 8 1
    (isEnable s = true ∧ ((List.range 64).map (pinCount s)).foldl (· + ·) 0 = 1 ∧ 1 ≤ (usable s).length ∧
      fld (newOf (pw Reg.DSP_CTRL 1) s) 0 0 = 1) ∧
    (isEnable { s with openStep := some 1 } = false) ∧ (s.lodeHeld = [] ∧ s.lodeQ = [] ∧ s.lodeRun = none) := by decide +kernel

/-- Both ends of every range of R414, an array that goes off and one that comes on, and the ends of the fault queue. -/
theorem witness_PeatRows :
    (∀ n ∈ [1500, 3500], (newOf (pw Reg.PWR_LIMIT (BitVec.ofNat 32 n)) sReg).toNat = n) ∧
    (∀ n ∈ [10, 500], (newOf (pw Reg.PWR_HEADROOM (BitVec.ofNat 32 n)) sReg).toNat = n) ∧
    (∀ n ∈ [0, 24], (newOf (pw Reg.PWR_ACLK_MAX (BitVec.ofNat 32 n)) sReg).toNat = n) ∧
    (∀ l ∈ [0, 95], physOf sReg l = some l ∧ sReg.pst l ≠ .off ∧ arrHeld sReg l = false ∧
      ({ sReg with pstate := [(l, .off)] } : State).pst l = .off) ∧
    (sReg.faults.head = 1 ∧ sReg.faults.next = 2) ∧ spillSlots (sReg.setRf 0 Reg.JRN_SPILL_SIZE 15 0 1) = 128 ∧
    (fld (newOf (pw Reg.JRN_SPILL_RD 127) sReg) 23 0 = 127 ∧ sReg.rf 0 Reg.DSP_CTRL 0 0 = 0) := by decide +kernel

-- Witnesses of the statements about clocks, power, the memory side and the grid.

/-- A plan header of R355: PLAN_ID 1, a kind, one step, TIMEOUT_US 100, no participants. -/
def aHdr (kind : Nat) : List Byte := leBytes 2 1 ++ leBytes 2 kind ++ leBytes 4 1 ++ leBytes 4 100 ++ leBytes 52 0

/-- A plan with one step record, in slot 0: kind 0 reduction, 1 fetch. -/
def aPlan (kind : Nat) (step : List Byte) (x : StepSt) : Plan := ⟨1, aHdr kind, [step], [0], [x], 0, 0, 1, 0, [], []⟩

/-- A step as it runs, in a phase. -/
def inPhase (ph : SPhase) : StepSt := ⟨ph, 0, 1, [], false, false, false, 0⟩

theorem witness_CollectiveAndMedia :
    (let w := encodeWord 0xD 0x0 ⟨0, false, false, 3, 1, 0, 0⟩;
      issuesB (onWord (thr12 64 0) w s0) w 0 = true ∧ windowFull (thr12 64 0) = false) ∧
    (∀ f ∈ [0x1, 0x2], let w := encodeWord 0xD f ⟨0, false, false, 3, 1, 2, 0⟩
      let s := { onWord (thr12 1 0) w s0 with plans := [(0, aPlan 1 [] { inPhase .work with landed := true })] }
      let v := (fetchIns 0 0 s).2.setTh 0 0 (((fetchIns 0 0 s).2.th 0 0).withToken w 8)
      issuesB s w 0 = true ∧ (gatherAt 1 0 v).map (fun e => ((e.2.stAt 0).landed, (e.2.stAt 0).marked)) = some (true, false)) ∧
    (∀ f ∈ [0x0, 0x1, 0x2], let w := encodeWord 0xE f ⟨0, false, false, 3, 1, 0, 0⟩
      let s := onWord (thr12 1 0) w s0
      issuesB s w 0 = true ∧ unitBusy (fetchIns 0 0 s).2 0 9 < 64) := by decide +kernel

theorem witness_Tick : s0.busHeld = [] ∧ s0.up.peat = true ∧ s0.pending = [] ∧ ({ s0 with tbJump := some 5 } : State).tbJump = some 5 := by decide +kernel

/-- A start in its last tick of the window and one tick later, idle PLLs, an idle unit, both reference clocks lost and returned. -/
theorem witness_Clocks :
    (let s := { s0 with now := 499, aclk := ⟨false, some 0, 0, false⟩ };
      ((s.pll .aclk).starting = some 0 ∧ s.now < 0 + 500) ∧ s.clkWait = [] ∧ s.busHeld = []) ∧
    (let s := { s0 with now := 500, aclk := ⟨false, some 0, 0, false⟩ }; (s.pll .aclk).starting = some 0 ∧ 0 + 500 ≤ s.now) ∧
    (let s := { State.reset with aclk := ⟨true, none, 0, false⟩, now := 2 ^ 24 };
      s.aclk.on = true ∧ (∀ e ∈ s.pstate, e.2 ≠ .run) ∧ s.waking = [] ∧ s.rf 0 Reg.PWR_PLL_OFF_TICKS 23 0 ≠ 0 ∧
      s.pw.aclkIdle + s.rf 0 Reg.PWR_PLL_OFF_TICKS 23 0 ≤ s.now) ∧
    (let s := { sReg with now := 2 ^ 24 };
      s.mclk.on = true ∧ mclkIdleNow s = true ∧ s.rf 0 Reg.CLK_MCLK_PLL_OFF_TICKS 23 0 ≠ 0 ∧
      s.pw.mclkIdle + s.rf 0 Reg.CLK_MCLK_PLL_OFF_TICKS 23 0 ≤ s.now) ∧
    unitIdle s0 0 = true ∧ unitIdle s0 191 = true ∧ s0.rf 0 Reg.CLK_STATUS 8 8 = 1 ∧ s0.rf 0 Reg.CLK_STATUS 9 9 = 1 ∧ s0.faults.queue.length < 1024 := by
  decide +kernel

theorem witness_ArrayPower :
    (let s := { s0 with now := 2 ^ 24 };
      s.pst 0 = .run ∧ arrBusy s 0 = false ∧ s.rf 0 Reg.PWR_IDLE_CYC 15 0 ≠ 0 ∧
      4 * s.rf 0 Reg.PWR_IDLE_CYC 15 0 ≤ (s.now - arrFrom s 0) * (80 + 5 * s.rf 0 Reg.PWR_ACLK 4 0)) ∧
    (let s := { s0 with now := 2 ^ 24, pstate := [(1, .idle)] };
      s.pst 1 = .idle ∧ SMap.get? s.waking 1 = none ∧ s.rf 0 Reg.PWR_RET_TICKS 23 0 ≠ 0 ∧ arrFrom s 1 + s.rf 0 Reg.PWR_RET_TICKS 23 0 ≤ s.now) ∧
    mayWake 1 { sReg with waking := [(1, 0)] } = true ∧
    (let s := { sReg with waking := [(96, 0)], lmap := [(0, 96)] }; mayWake 96 s = true ∧ logicalOf s 96 ≠ none) ∧
    (let s := { s0 with now := 2500 }; s.up.peat = true ∧ s.pw.pwrFrom + 2500 ≤ s.now ∧ s.pw.pwrC < 32) := by decide +kernel

theorem witness_MemorySide :
    ({ s0 with inval := some (0, 65536) } : State).inval = some (0, 65536) ∧
    (tlbFind sMap 0 = none ∧ okOf (translate { rid := 5, va := 0 } 0 .r sMap).1 = some poolBase) ∧
    (tlbFind sMap (2 ^ 48 - 1) = none ∧ (translate { rid := 5, va := 2 ^ 48 - 1 } (2 ^ 48 - 1) .r sMap).1.isOk = false) ∧
    (∀ pa ∈ [t2Base, t2Base + 0x20000000000 - 64], let q : MemReq := ⟨0x30, pa, 64, none⟩;
      regionOf q.pa = .tier2 ∧ t2Short s0 = false ∧ t2Ready q s0 = true ∧ t2Ready q { s0 with selfRef := List.range 32 } = false) ∧
    (regionOf sramBase = .sram 0 0 ∧ servingArray s0 0 = some 0 ∧ s0.pst 0 = .run ∧ unitsOn s0 = true) ∧
    (s0.selfRef = [] ∧ SMap.getD s0.t2Last 0 0 + 2500 ≤ ({ s0 with now := 2500 } : State).now ∧ s0.t2Wait = [] ∧ s0.rf 0 Reg.T2_STATUS 1 1 = 1) ∧
    (s0.setRf 0 Reg.T2_STATUS 1 0 1).rf 0 Reg.T2_STATUS 1 0 = 1 ∧ t2Short (s0.setRf 0 Reg.T2_STATUS 1 0 1) = false ∧
    (ckpEntry 0 0 { sMap with ckp := some ⟨0, 1, 0, 0, []⟩ }).1.isOk = true := by decide +kernel

/-- A request that waits at pseudo-channel 0. -/
def aReq : MemReq := ⟨0x30, 0, 64, none⟩

theorem witness_Hbm :
    s0.rf 0 Reg.MEM_STATUS 1 0 = 3 ∧ pcDown s0 0 = none ∧ pcDown (s0.setReg 0 Reg.MEM_PC 1) 0 ≠ none ∧
    (∀ n ∈ [1, 2, 3], let s := s0.setPc 0 { s0.pc 0 with queue := [⟨aReq, 0, 0⟩, ⟨aReq, 0, n⟩] };
      (s.pc 0).queue.findIdx? (fun o => o.fails != 0) = some 1 ∧ (s.pc 0).queue[1]? = some ⟨aReq, 0, n⟩) ∧
    s0.ckp = none ∧ s0.rf 0 Reg.T2_CTRL 7 0 ≠ 0 ∧ s0.rf 0 Reg.T2_STATUS 1 1 = 1 ∧ s0.t2Count = 32 ∧
    s0.rf 0 Reg.MEM_CTRL 15 8 ≠ 0 ∧ nextScrub s0 1 0 = 0 ∧ isClassA s0 0 = false ∧ hbmPc s0 0 = 0 := by decide +kernel

/-- A descriptor of INT8 elements of rank 1 and size 0, with a LAYOUT: every element it names is padding. -/
def padDesc (layout : Nat) : BitVec 512 := BitVec.ofNat 512 (2 ^ 48 * 2 + 2 ^ 52 * layout + 2 ^ 55)

/-- A tile of zeros. -/
def aTile : Tile := plainTile 0 .i8s 32 4

/-- A grid operation of the Rush path. -/
def aGop (kind : GKind) : GOp :=
  ⟨kind, 0, 1, 0, 16, 0, 0, padDesc 1, 0, false, true, 0, 0, false, some aTile, 0, 0, 4, 1, 0, 0, [], [], [], [], 0, 0, { st := .ok }, false, none⟩

/-- Array 0 with one operation in its grid. -/
def onGrid (o : GOp) : State := s0.setGr 0 { Grid.empty with ops := [o] }

theorem witness_GridOperations :
    waitingOp ((onGrid (aGop .load)).gr 0) .load 16 = some (aGop .load) ∧ waitingOp ((onGrid (aGop .stream)).gr 0) .stream 16 = some (aGop .stream) ∧
    (let o := { aGop .load with begun := true };
      ((onGrid o).gr 0).ops.find? (fun x => x.kind = .load && x.part = 16 && x.buf = 0 && x.begun) = some o) ∧
    (((onGrid (aGop .part)).gr 0).ops.find? (fun x => x.kind = .part) = some (aGop .part) ∧
      (((onGrid (aGop .part)).gr 0).before (aGop .part)).any (fun p => p.part ≠ rush || p.thr = 0) = false) := by decide +kernel

/-- The Rush tile of a load that has begun reads: 256 rows of 4 lanes of padding. -/
theorem witness_TileRead :
    (readTile (thrCtx (onGrid { aGop .load with begun := true }) 0 0) 0 0 { aGop .load with begun := true } (onGrid { aGop .load with begun := true })).1.isOk = true := by
  decide +kernel

/-- One row that is written and waits for its checks. -/
def aRow (chk : Bool) : KRow := ⟨0, [(127, [])], List.replicate 16 0, none, chk, false, false⟩

theorem witness_StreamRows :
    physOf s0 0 = some 0 ∧ physOf s0 95 = some 95 ∧
    (let o := { aGop .stream with begun := true }; let s := onGrid o;
      rowStream (s.gr 0) 16 = some o ∧ partHeld (s.gr 0) 16 = false ∧ portFree (s.gr 0) o = true ∧ (Desc.ofWord o.da).layout ≠ 3 ∧
      (readWeights 0 o s).1.isOk = true) ∧
    (let o := { aGop .stream with begun := true, entered := 1, pend := [(0, [(127, [])])] }; let s := onGrid o;
      pendStream (s.gr 0) 16 = some o ∧ partHeld (s.gr 0) 16 = false ∧ rowHeld (s.gr 0) o 0 = false) ∧
    (let o := { aGop .stream with begun := true, entered := 1, keep := [aRow false] }; let s := onGrid o;
      checkStream (s.gr 0) 16 = some o ∧ o.groupRows.find? (fun j => !j.chk) = some (aRow false) ∧ o.ckcol = false ∧
      rowWrong (tauExp s) o aTile (aRow false) = false) ∧
    (let o := { aGop .stream with begun := true, entered := 1, keep := [aRow true] }; let s := onGrid o;
      checkStream (s.gr 0) 16 = some o ∧ o.groupWhole = true ∧ (∀ k ∈ o.groupRows, k.chk = true ∧ k.mism = false) ∧
      (∀ l < aTile.pm, laneWrong (tauExp s) o aTile o.groupRows l = false)) ∧
    (let o := { aGop .stream with begun := true, entered := 1, keep := [aRow true], recomp := true }; let s := onGrid o;
      (s.gr 0).ops.find? (fun j => j.part = 16 && j.recomp) = some o ∧ { o with keep := [aRow true] }.groupWhole = true) ∧
    (let o := { aGop .stream with begun := true, da := padDesc 3 }; let s := onGrid o;
      rowStream (s.gr 0) 16 = some o ∧ (Desc.ofWord o.da).layout = 3 ∧ o.raw.length < 64 ∧ o.fetched < o.blocks ∧ (fetchBlock 0 o 0 s).1.isOk = true) ∧
    (let o := { aGop .stream with begun := true, da := padDesc 3, raw := [(0, 0, [])] };
      let s := { onGrid o with tabs := [(0, ⟨0, 0, .i8s, [], [], 0, [], 0⟩)] };
      rowStream (s.gr 0) 16 = some o ∧ (tableOf s 0 (cmprTable o.da) (cmprGen o.da)).isSome = true ∧ o.look.length < 8) := by decide +kernel

/-- A queued transfer. -/
def aDma : DmaOp := ⟨0, 1, 0, 0, 0, 0, 0, []⟩

theorem witness_RemapAndTransfer :
    (logicalOf s0 0 = some 0 ∧ SMap.get? ({ s0 with failing := [(0, 0)] } : State).failing 0 = some 0 ∧ s0.fencedArr = []) ∧
    (let s := { s0 with fencedArr := [0] }; logicalOf s 0 = some 0 ∧ freeSpares s = [96, 97, 98, 99]) ∧
    (let s := { s0 with fencedArr := [0], pretired := [96, 97, 98, 99] }; logicalOf s 0 = some 0 ∧ freeSpares s = []) ∧
    (∀ q < 4, let s := setDmaQueue 0 q [aDma] s0;
      (rrGrant (rrDma 0) ((List.range 4).filter (fun j => dmaQueue s 0 j ≠ [])) s).map (fun e => (e.1, dmaQueue e.2 0 e.1)) = some (q, [aDma])) := by
  decide +kernel

-- Witnesses of the statements about the Intake, the media engines and the composer.

/-- A frame of a payload behind a header of 12 address octets and an EtherType, padded to 60 octets, with its FCS. -/
def ethFrame (etype : Nat) (payload : List Byte) : List Byte :=
  let b := List.replicate 12 0#8 ++ [BitVec.ofNat 8 (etype / 256), BitVec.ofNat 8 etype] ++ payload
  let p := b ++ List.replicate (60 - b.length) 0#8
  p ++ leBytes 4 (crcReflected 0xEDB88320 p)

/-- A segment header of stream 0 with OFFSET 0, LENGTH 0, LAST clear. -/
def aSeg : List Byte := leBytes 24 1

/-- Port 0 with its link up, its EtherType 0x88B5, and a ring of 2 MiB for stream 0; enabled or not. -/
def sItk (en : Nat) : State :=
  (((sReg.setRf 0 Reg.ITK_PSTATUS 0 0 1).setRf 0 Reg.ITK_ETYPE 15 0 0x88B5).setRf 0 Reg.ITK_RING_SIZE 11 0 1).setRf 0 Reg.ITK_PCTRL 0 0 en

theorem witness_Intake_frames :
    (let f := ethFrame 0x88B5 aSeg;
      64 ≤ f.length ∧ f.length ≤ 9216 ∧ fcsOk f = true ∧ isPause f = false ∧ filterOk 0 f (sItk 0) = true ∧ filterOk 0 f sReg = false ∧
      (sItk 1).rf 0 Reg.ITK_PSTATUS 0 0 = 1 ∧ (sItk 0).rf 0 Reg.ITK_PCTRL 0 0 = 0 ∧ (sItk 1).rf 0 Reg.ITK_PCTRL 0 0 = 1 ∧ filterOk 0 f (sItk 1) = true ∧
      itkFill (sItk 1) 0 + f.length + 8 ≤ 67108864 ∧
      67108864 < itkFill ((sItk 1).setReg 0 Reg.ITK_FILL 67108864) 0 + f.length + 8) ∧
    (let f := ethFrame 0x8808 [1, 1]; fcsOk f = true ∧ isPause f = true) ∧ fcsOk (List.replicate 64 0#8) = false := by decide +kernel

theorem witness_Intake_rest :
    ((sItk 1).setRf 0 Reg.ITK_PSTATUS 1 0 3).rf 0 Reg.ITK_PSTATUS 1 0 = 3 ∧ ((sItk 1).iport 0).xoffAt + 1000 ≤ ({ sItk 1 with now := 1000 } : State).now ∧
    (sItk 1).mclk.on = true ∧ (((sItk 1).setIport 0 { frames := [.lost 0], xoffAt := 0 }).iport 0).frames = [.lost 0] ∧
    ((((sItk 1).setIport 0 { frames := [.seg aSeg 32 0], xoffAt := 0 }).iport 0).frames = [.seg aSeg 32 0] ∧
      ringBytes (sItk 1) 0 (segStream aSeg) ≠ 0 ∧ ringRoom (sItk 1) 0 (segStream aSeg) aSeg = true) ∧
    (((sItk 1).setIst 0 0 { IStream.empty with vis := [64] }).ist 0 0).vis = [64] ∧
    (sReg.rf 0 Reg.ITK_PSTATUS 0 0 = 0 ∧ sReg.rf 0 Reg.CLK_STATUS 9 9 ≠ 0 ∧ sReg.up.cfgReady = true ∧ sReg.up.itkGone = []) := by decide +kernel

/-- An admitted text sample of context 0 (MTYPE 5) at a stage, its source 8 bytes at VA 0. -/
def aSample (stage : MStage) (core : Option Nat) : MSample :=
  ⟨0, 0, 7, .ring 0 0x200000 0, 8, 5, 0, [11, 0, 0, 0, 0, 0], false, none, core, stage, none, none, 0, none, false, [], false, { st := .ok }, 0, []⟩

/-- Context 0 enabled with some samples, its output ring 2 MiB at VA 0, on `sMap` with every clock running. -/
def sMed (l : List MSample) : State :=
  ((({ sMap with aclk := ⟨true, none, 0, false⟩, mclk := ⟨true, none, 0, false⟩ }.setReg 0 Reg.MED_CTX_CTRL (BitVec.ofNat 32 0xFF000B)).setRf 0
    Reg.MED_OUT_RING_SIZE 11 0 1).setRf 0 Reg.MED_IN_RING_SIZE 11 0 1).setMctx 0 { MCtx.empty with samples := l }

theorem witness_Media_admission :
    medEn (sMed []) 0 = true ∧ slotFree (sMed []) (medBs (sMed []) 0) = true ∧ medF (sMed []) 0 6 4 = 0 ∧ (sMed []).rf 0 (tokReg Reg.TOK0_STATE 0) 1 1 = 0 ∧
    medF ((sMed []).setRf 0 Reg.MED_CTX_CTRL 6 4 1) 0 6 4 ≠ 0 ∧ (sMed []).mclk.on = true ∧
    (coresOf 4).find? (fun j => (coreSample (sMed [aSample .queued none]) j).isNone) = some 64 ∧
    oldestSample (sMed [aSample .queued none]) 4 = some (aSample .queued none) := by decide +kernel

theorem witness_Media_header :
    let m := aSample .header (some 64)
    let s := sMed [m]
    coreSample s 64 = some m ∧ (okOf (readHead 64 0 m (coreOn 64 s)).1).map (headerCause (readHead 64 0 m (coreOn 64 s)).2 m ∘ headerOf s m) = some .none ∧
    headerCause s { m with len := 0 } (headerOf s m []) = .zeroLength := by decide +kernel

theorem witness_Media_rest :
    (let m := aSample .area (some 64); let s := sMed [m];
      coreSample s 64 = some m ∧ m.area = none ∧ outUsed s 0 + 192 + m.length ≤ (outRing s 0).2) ∧
    (let m := { aSample .buffer (some 0) with cfg := [3, 0, 0, 0, 0, 0], mtype := 1 };
      let s := { sMed [m] with fbs := [(3, ⟨0, false, false, false, 0, false⟩)] };
      coreSample s 0 = some m ∧ ((ctxBufs (markRefs 0 [] s) 0).find? (fun e => e.2.free)).map (·.1) = some 3 ∧
      (ctxBufs (markRefs 0 [] { s with fbs := [(3, ⟨0, true, false, false, 0, false⟩)] }) 0).find? (fun e => e.2.free) = none) ∧
    (let m := aSample .decode (some 64); let s := sMed [m];
      coreSample s 64 = some m ∧ (srcRead (coreReq 64) m 0 8 s).1.isOk = true) ∧
    (coreSample (sMed [{ aSample .decode (some 64) with read := true }]) 64).map (·.read) = some true ∧
    ((sMed [aSample .done none]).mctx 0).samples = [aSample .done none] ∧
    (∀ k < 2, let s := (sMed []).setRf 0 (tokReg Reg.TOK0_STATE k) 1 1 1;
      s.rf 0 (tokReg Reg.TOK0_STATE k) 1 1 = 1 ∧ setBusy k s = false ∧ (loadSet k s).1.isOk = true ∧
      (loadSet k (s.setRf 0 (tokReg Reg.TOK0_NMERGE k) 17 0 261889)).1.isOk = false) := by decide +kernel

/-- A batch of bucket 0 in buffer 0 with one position assigned and not composed. -/
def aBatch (wait : List (Nat × CSample)) : Batch := ⟨0, 0, 1, 0, 0, false, false, wait, 1, 0, false, false⟩

/-- A sample the composer has put in bucket 0. -/
def aCs : CSample := ⟨0, 0, some 0, false, false, [], 0, true⟩

theorem witness_Composer :
    ((sBat.setBst 0 { BStream.empty with queue := [aCs] }).bst 0).queue = [aCs] ∧ sBat.mclk.on = true ∧
    (((sBat.setBst 0 { BStream.empty with batches := [aBatch [(0, aCs)]] }).bst 0).batches.find? (fun j => j.bucket = 0 && !j.wait.isEmpty)).isSome = true ∧
    ((sBat.setBst 0 { BStream.empty with closed := [0] }).bst 0).closed = [0] ∧
    (let s := { (sBat.setReg 0 Reg.BAT_FLUSH_US 1).setBst 0 { BStream.empty with batches := [aBatch []] } with now := 25 };
      openBatch s 0 0 = some (aBatch []) ∧ windowOver s 0 (aBatch []) = true ∧ (aBatch []).filled < bstN s 0) := by decide +kernel

-- Witnesses of the statements about Causeway ports, plans and Lode.

/-- Port 0 in UP with all lanes, its port registers as `x`. -/
def sPort (x : CPort) : State :=
  ((((sReg.setRf 0 Reg.CWY_PCTRL 0 0 1).setRf 0 Reg.CWY_PSTATE 2 0 3).setRf 0 Reg.CWY_PSTATE 7 4 15).setRf 0 Reg.CWY_PSTATE 11 8 15).setCport 0 x

/-- A message of one flit on channel 0, and a flit in the retry buffer. -/
def aMsg : CMsg := ⟨1, 0, 1, 0, 0x00A0, none, none, [([1], 0)], true, false⟩
/-- A flit sent and not acknowledged. -/
def aRetry : RFlit := ⟨0, 0, true, 1, 0, 0, [1], 1, none, 0⟩

theorem witness_Port_receive :
    portUp (sPort CPort.empty) 0 = true ∧ portUp ((sPort CPort.empty).setRf 0 Reg.CWY_PSTATE 2 0 4) 0 = true ∧
    flitOk (bareFlit 0).bytes = true ∧ flitOk (List.replicate 256 0#8) = false ∧
    (let s := { sPort { CPort.empty with discard := true } with now := 50 }; (s.cport 0).discard = true ∧ (s.cport 0).nakAt + 50 ≤ s.now) ∧
    (s0.cport 0).lastRx + 250 ≤ ({ s0 with now := 250 } : State).now ∧
    (let s := { sPort CPort.empty with now := 250 }; portUp s 0 = true ∧ (s.cport 0).lastRx + 250 ≤ s.now) := by decide +kernel

theorem witness_Port_send :
    ((sPort { CPort.empty with nakDue := true }).cport 0).nakDue = true ∧
    ((sPort { CPort.empty with retry := [aRetry] }).cport 0).retry[0]? = some aRetry ∧
    (let s := sPort { CPort.empty with cred := [1, 0, 0, 0], msgs := [aMsg] };
      (s.cport 0).held = false ∧ (s.cport 0).retry.length < 768 ∧ pickVc s 0 = some 0 ∧ vcReady s 0 0 = some aMsg) ∧
    pickVc (sPort CPort.empty) 0 = none := by decide +kernel

theorem witness_Port_lanes :
    (lanes (sPort CPort.empty) 0 true).testBit 0 = true ∧ (lanes (sPort CPort.empty) 0 false).testBit 3 = true ∧
    (let x := { CPort.empty with badTx := 3 }; laneCount (lanes (sPort x) 0 true &&& (15 ^^^ x.badTx)) = 2) ∧
    (let x := { CPort.empty with badTx := 7 }; laneCount (lanes (sPort x) 0 true &&& (15 ^^^ x.badTx)) = 1) ∧
    ((sPort { CPort.empty with held := true }).cport 0).held = true ∧
    (let s := sReg.setRf 0 Reg.CWY_PSTATE 2 0 1; portState s 0 = 1 ∧ s.rf 0 Reg.CLK_STATUS 9 9 ≠ 0) ∧
    ((sReg.setCport 0 { CPort.empty with offAt := some 0 }).cport 0).offAt = some 0 := by decide +kernel

/-- Translation with VA 0 to 1 GiB in HBM from 4 GiB on, 1 GiB to 2 GiB the SRAM windows. -/
def sPlan : State := rawWrite (sReg.setRf 0 Reg.MMU_CTRL 0 0 1) 0 (leBytes 8 (0x100000000 + 0xF) ++ leBytes 8 (sramBase + 0xF))

/-- A SEND step to module 1 of one FP32-pair element, by OP. -/
def aStep (op src dest : Nat) : List Byte :=
  leBytes 4 op ++ leBytes 2 src ++ leBytes 2 dest ++ leBytes 2 0 ++ leBytes 2 0xFFFF ++ leBytes 4 1 ++ leBytes 16 0

/-- A plan with its header at the end of the first gigabyte and its step at the start of the second. -/
def sPlanReq : State :=
  { rawWrite (rawWrite sPlan (0x100000000 + 0x3FFFFFC0) (aHdr 0)) sramBase (aStep 0 0 1) with planReqs := [⟨0, 0, 1, 0x3FFFFFC0, 0⟩] }

theorem witness_PlanStart :
    freeSlotNo sPlanReq = some 0 ∧ (okOf (loadPlan 0x3FFFFFC0 { sPlanReq with planReqs := [] }).1).map (fun e => (leAt e.1 0 2, e.2.1, e.2.2)) =
      some (1, [aStep 0 0 1], []) ∧
    (loadPlan 0x3FFFFFC0 { sPlanReq with planReqs := [] }).2.aborts = [] ∧
    (loadPlan 0x3FFFFFC0 { sPlanReq with planReqs := [], aborts := [1] }).2.aborts = [1] := by decide +kernel

/-- A plan in slot 0. -/
def inSlot (p : Plan) (s : State) : State := { s with plans := [(0, p)] }

/-- Port 0 with messages waiting for the collective engine: chunks and control messages. -/
def withMsgs (inbox ctl : List (List Byte)) (s : State) : State :=
  s.setCport 0 { CPort.empty with inbox := inbox.map (fun d => ⟨1, d, 1, none⟩), ctl := ctl.map (fun d => ⟨1, d, 1, none⟩) }

theorem witness_Steps :
    (let p := aPlan 0 (aStep 0 0 1) (inPhase .idle); (List.range p.steps.length).find? (fun j => mayStart p j) = some 0) ∧
    (let p := aPlan 0 (aStep 0 0 1) (inPhase .work); (List.range p.steps.length).find? (fun j => stepOver (inSlot p s0) p j) = some 0) ∧
    (let p := aPlan 0 (aStep 1 1 0) (inPhase .ready); let s := { inSlot p s0 with now := 2500 };
      (p.stAt 0).ph = .ready ∧ (p.stAt 0).at_ + p.timeout * 25 * (p.stAt 0).f ≤ s.now) := by decide +kernel

theorem witness_Messages :
    (let s := withMsgs [leBytes 16 0] [] s0; (s.cport 0).inbox = [⟨1, leBytes 16 0, 1, none⟩] ∧ leAt (leBytes 16 0) 4 1 = 0) ∧
    (let d := leBytes 2 1 ++ leBytes 2 0 ++ leBytes 12 1
      let s := inSlot (aPlan 1 (aStep 6 1 0) (inPhase .ready)) (withMsgs [d] [] s0)
      leAt d 4 1 = 1 ∧ (fetchAt 1 1 0 (takeChunk 0 s)).map (·.1) = some 0) ∧
    (let d := leBytes 24 3; let s := withMsgs [] [d] sPlan;
      ctlOf s 0 3 = some ⟨1, d, 1, none⟩ ∧ (groupEntry collReq (leAt d 4 2 % 4096) s).1.isOk = true ∧
        beingWritten (leAt d 4 2 % 4096) (groupEntry collReq (leAt d 4 2 % 4096) s).2 = false) ∧
    (let d := leBytes 2 5 ++ leBytes 2 1 ++ leBytes 20 0
      let s := inSlot (aPlan 1 (aStep 6 1 0) (inPhase .ready)) (withMsgs [] [d] s0)
      ctlOf s 0 5 = some ⟨1, d, 1, none⟩ ∧ (fetchAt 1 (leAt d 2 2) (leAt d 22 2) (takeCtl 0 5 s)).map (·.1) = some 0) ∧
    (∀ ty ∈ [2, 4], ctlOf (withMsgs [] [leBytes 24 ty] s0) 0 ty = some ⟨1, leBytes 24 ty, 1, none⟩) ∧
    (let d := leBytes 2 1 ++ leBytes 2 1;
      (let s := inSlot (aPlan 0 (aStep 0 0 1) (inPhase .ready)) (withMsgs [] [d] s0); ctlOf s 0 1 = some ⟨1, d, 1, none⟩ ∧ planSlot (takeCtl 0 1 s) 1 = some 0) ∧
      (let s := withMsgs [] [d] s0; planSlot (takeCtl 0 1 s) 1 = none ∧ (takeCtl 0 1 s).planEnded = [] ∧ (takeCtl 0 1 s).aborts = [])) := by
  decide +kernel

/-- An update step of no elements of group 0, and group 0 with NELEM 1. -/
def anUpd : Upd := ⟨0, 1, 0, 0, 0, 0, 0, 0⟩
/-- The group table's first entry. -/
def sLode : State := { rawWrite sPlan 0x100000000 (leBytes 64 0 ++ leBytes 64 1) with lodeQ := [anUpd] }

/-- A run of that step with a frozen group without state. -/
def aRun : LodeRun := ⟨anUpd, leBytes 64 0 ++ leBytes 64 1, 0, [], [], false⟩

theorem witness_Lode :
    sLode.lodeRun = none ∧ (takeRun anUpd { sLode with lodeQ := [] }).1.isOk = true ∧ (takeRun { anUpd with off := 2 } { sLode with lodeQ := [] }).1.isOk = false ∧
    (readRun aRun { sLode with lodeRun := some aRun }).1.isOk = true ∧
    (readRun { aRun with u := { anUpd with count := 1, addr := 2 ^ 48 } } sLode).1.isOk = false := by decide +kernel

-- Witnesses of the statements about the host interface, the dispatcher and the start of the module.

/-- Queue 0 with taken entries, on `sQ`. -/
def sSq (l : List HEntry) : State := sQ.setSq 0 { HSq.empty with ents := l }

/-- A taken entry of an opcode that has not started. -/
def anEnt (op : Nat) : HEntry := ⟨0, leBytes 128 op, 0, false, none, 0⟩

/-- The 128 bytes of a COPY of 64 bytes from host memory to VA 0; DIR is byte 28. -/
def aCopy (dir : Nat) : List Byte := leBytes 24 2 ++ leBytes 4 64 ++ leBytes 4 dir ++ leBytes 96 0

theorem witness_Submission :
    (let s := { sQ.setRf 0 Reg.SQ_TAIL 15 0 1 with bme := true };
      s.rf 0 Reg.HST_INFLIGHT 16 0 < 65536 ∧ (rrGrant rrSq ((List.range 256).filter (mayTake s)) s).map (·.1) = some 0 ∧
      (readEntry 0 (some (leBytes 128 0)) s).1.isOk = true ∧ (readEntry 0 none s).1.isOk = false) ∧
    startable ((sSq [anEnt 0]).sq 0) 0 = some 0 ∧ startable ((sSq [anEnt 3]).sq 0) 3 = some 0 := by decide +kernel

theorem witness_Copies :
    (startable ((sSq [anEnt 2]).sq 0) 2 = some 0 ∧ copyOk (anEnt 2).raw = false) ∧
    (startable ((sSq [{ anEnt 2 with raw := aCopy 0 }]).sq 0) 2 = some 0 ∧ copyOk (aCopy 0) = true ∧ copyOk (aCopy 2) = false) ∧
    (let e := { anEnt 2 with raw := aCopy 0, started := true };
      let s := { sMap.setSq 0 { HSq.empty with ents := [e] } with bme := true };
      (s.sq 0).ents.findIdx? (fun x => x.started && x.st.isNone && leAt x.raw 0 1 == 2) = some 0 ∧ (s.sq 0).ents[0]? = some e ∧
      (copyRun e.raw (leBytes 64 7) true s).1.isOk = true ∧ (copyRun e.raw [] false s).1.isOk = false) := by decide +kernel

/-- A doorbell at the ends of its queue, just outside it, and on a disabled queue. -/
theorem witness_Doorbells :
    sQ.up.cfgReady = true ∧ sQ.linkUp = true ∧ hostBusy sQ = false ∧ sQ.rf 0 Reg.SQ_CTRL 0 0 = 1 ∧ sQ.rf 0 Reg.SQ_SIZE 16 0 = 2 ∧
    sQ.rf 0 Reg.CQ_CTRL 0 0 = 1 ∧ sQ.rf 0 Reg.CQ_SIZE 16 0 = 2 ∧ sQ.rf 1 Reg.SQ_CTRL 0 0 = 0 ∧ sQ.rf 1 Reg.CQ_CTRL 0 0 = 0 := by decide +kernel

theorem witness_Completions :
    (let e := { anEnt 0 with st := some .ok };
      let s := { sSq [e] with bme := true };
      (s.sq 0).ents = [e] ∧ cqOpen s 0 = true ∧ (putCompl 0 (complBytes 0 0 e .ok s) true s).1.isOk = true ∧
      (putCompl 0 (complBytes 0 0 e .ok s) false s).1.isOk = false) ∧
    (let s := { (sQ.setRf 0 Reg.CQ_COAL 31 16 1).setCq 0 { sQ.cq 0 with coalN := 1 } with now := 25 };
      (s.cq 0).coalN ≠ 0 ∧ s.rf 0 Reg.CQ_COAL 31 16 ≠ 0 ∧ (s.cq 0).coalAt + 25 * s.rf 0 Reg.CQ_COAL 31 16 ≤ s.now) := by decide +kernel

theorem witness_Pcie :
    (let s := { sReg with linkUp := false };
      s.up.peat = true ∧ s.up.safe = false ∧ s.up.perst = false ∧ s.rf 0 Reg.CLK_STATUS 8 8 = 1) ∧
    ({ sReg with up := { sReg.up with cfgReady := false } } : State).up.cfgReady = false ∧ sReg.up.cfgReady = true ∧ sReg.linkUp = true ∧
    hostBusy sReg = false := by decide +kernel

/-- Work item 5 of queue 0, one thread, any array, in a phase, alone on an enabled dispatcher with array 0 in branch 0. -/
def sItem (ph : IPhase) (raw : List Byte) : State :=
  { sReg.setRf 0 Reg.DSP_CTRL 0 0 1 with items := [{ Item.fresh 5 raw with phase := ph }], shares := [(0, 0)], openStep := some 0 }

/-- NTHR 1, no DEP; PLACE 1 on an array where `parr` is less than 96. -/
def aWork (parr : Nat) : List Byte :=
  leBytes 97 1 ++ leBytes 1 1 ++ leBytes 1 (if parr < 96 then 16 else 0) ++ leBytes 1 (if parr < 96 then parr else 0) ++ leBytes 2 0 ++ leBytes 2 0 ++
  leBytes 8 0xFFFFFFFFFFFFFFFF ++ leBytes 16 0

theorem witness_Dispatcher :
    (let s := (sSq [anEnt 1]).setRf 0 Reg.DSP_CTRL 0 0 1; s.rf 0 Reg.DSP_CTRL 0 0 = 1 ∧ startable (s.sq 0) 1 = some 0) ∧
    (let s := sItem .ready (aWork 96);
      (s.item? 5).map (fun i => itemMayStart s i && (placeFail s i).isNone && placeItem s i == some (0, false) && startBatch s i == some none) = some true) ∧
    (let s := { sItem .ready (aWork 7) with lretired := [7] }; (s.item? 5).map (fun i => (itemMayStart s i, placeFail s i)) = some (true, some .internal)) ∧
    (let s := { sItem .ready (aWork 7) with pstate := [(7, .off)] };
      (s.item? 5).map (fun i => (itemMayStart s i, placeFail s i)) = some (true, some .descriptorInvalid)) := by decide +kernel

theorem witness_ItemPhases :
    (physOf s0 0 = some 0 ∧ s0.pst 0 = .run ∧ s0.rf 0 Reg.MEM_STATUS 1 1 = 1) ∧
    (let raw := (aWork 96).set 98 8; let s := sItem .load raw;
      (s.item? 5).map (fun i => (decide (i.nthr ≤ (freeList s i.arr).length), (loadImage i 0 s).1.isOk)) = some (true, true)) ∧
    (let raw := (aWork 96).set 8 1; let s := sItem .load raw; (s.item? 5).map (fun i => ((loadImage i 0 s).1.isOk)) = some false) ∧
    (let s := sItem .run (aWork 96); (s.item? 5).map (fun i => (threadsDone s i, i.willReplay s)) = some (true, false)) ∧
    (let s := sItem .replay (aWork 96);
      (s.item? 5).map (fun i => (decide (i.nthr ≤ freeThreads s i.arr), imageClash s i.arr i, physOf s i.arr)) = some (true, false, some 0)) ∧
    physOf { s0 with lretired := [0] } 0 = none ∧
    (let s := { sItem .done ((aWork 96).set 98 4) with openStep := some 0 }; atBoundary s 0 = true) := by decide +kernel

/-- An item that met a reason of R472 and may run once more. -/
theorem witness_Replay :
    let s := { (sItem .run ((aWork 96).set 98 1)) with items := [{ Item.fresh 5 ((aWork 96).set 98 1) with phase := .run, reason := true, fail := mkFail .internal 0 }] }
    (s.item? 5).map (fun i => (threadsDone s i, i.willReplay s)) = some (true, true) := by decide +kernel

/-- Pins of a module without power, good input and no trip. -/
def upOff : UpState := { State.reset.up with powered := false, peat := false, inputGood := false, downAt := none }

theorem witness_PowerPins :
    (let s := { State.reset with up := { upOff with inputMv := 59000, bulkMv := 59000 } };
      s.up.pwrEn = true ∧ s.up.tripLatch = false ∧ s.up.tripSeen = false ∧ 59000 ≤ s.up.inputMv ∧ s.up.inputMv.toNat ≤ bulkNow s) ∧
    (let s := { State.reset with up := { upOff with inputGood := true, downAt := some 0 }, now := 2500000 };
      s.up.powered = false ∧ s.up.inputGood = true ∧ (∀ t, s.up.downAt = some t → t + 2500000 ≤ s.now)) ∧
    State.reset.up.powered = true ∧ State.reset.up.perst = false ∧ State.reset.up.cfgReady = true ∧ tripLevel (.die 0) = 110 ∧
    ({ State.reset with up := { State.reset.up with cfgReady := false } } : State).up.cfgReady = false := by
  refine ⟨by decide +kernel, ⟨by decide +kernel, by decide +kernel, fun t h => ?_⟩, by decide +kernel⟩
  simp at h
  subst h
  decide +kernel

/-- A cold start that has come to some stage. -/
def sBoot (f s1 tr te : Bool) : State :=
  { sReg with up := { State.reset.up with peat := f, boot := some ⟨0, 0, 0, 0, f, s1, tr, te, false, none⟩, cfgReady := false, mgmtReady := s1 } }

theorem witness_StartSequence :
    ((sBoot false false false false).up.peat = false) ∧
    (let s := { sBoot false false false false with up := { (sBoot false false false false).up with peat := true } };
      s.up.peat = true ∧ (s.up.boot.map (fun b => (b.kind, b.fuses, b.failed))) = some (0, false, none)) ∧
    (runImages false (sBoot true false false false)).isSome = true ∧
    runImages false { sBoot true false false false with sec := { State.reset.sec with flash := List.replicate 6 .blank } } = none ∧
    (let s := { sBoot true true false false with fclk := ⟨true, none, 0, false⟩ };
      s.up.mgmtReady = true ∧ s.up.perst = false ∧ s.up.cfgReady = false ∧ s.aclk.on = true ∧ s.fclk.on = true ∧ s.mclk.on = true) ∧
    ((sBoot true true true false).setRf 0 Reg.GLB_START 11 11 1).rf 0 Reg.GLB_START 11 11 = 1 ∧
    ({ sBoot true true true false with now := 25000000 } : State).up.boot.map (fun b => decide (b.at_ + 25000000 ≤ 25000000)) = some true := by
  decide +kernel

/-- A journal with one entry that is not spilled, and a spill ring of 2 MiB. -/
def sSpill (memory : Nat) : State :=
  { ((sReg.setRf 0 Reg.JRN_SPILL_SIZE 15 0 1).setRf 0 Reg.JRN_CTRL 0 0 1).setRf 0 Reg.JRN_CTRL 1 1 memory with
    bme := true, jrn := ⟨[⟨0, 0, 1, 0, 0, .pcie, false, 0, 1⟩], 2, 1, 0, []⟩ }

theorem witness_JournalAndRepair :
    (let s := sSpill 0;
      s.up.peat = true ∧ s.rf 0 Reg.JRN_CTRL 0 0 = 1 ∧ s.jrn.unspilled ≠ 0 ∧ spillHeld s + 1 < spillSlots s ∧ s.bme = true ∧ s.d3hot = false ∧
      (s.jrn.ring[s.jrn.unspilled - 1]?).map (fun e => ((spillPut 0 e.bytes true s).1.isOk, (spillPut 0 e.bytes false s).1.isOk)) = some (true, false)) ∧
    (sSpill 1).rf 0 Reg.JRN_CTRL 1 1 = 1 ∧
    ({ sReg with sec := { sReg.sec with fwCommit := some (1, 8) } } : State).sec.fwCommit = some (1, 8) ∧
    ({ sReg with sec := { sReg.sec with repair := [0] } } : State).sec.repair = [0] ∧
    (sReg.rf 0 Reg.SEC_DBG 1 0 = 0 ∧ (sReg.setRf 0 Reg.SEC_DBG 1 0 2).rf 0 Reg.SEC_DBG 1 0 = 2) := by decide +kernel

theorem witness_Nolivo :
    sReg.up.peat = true ∧ sReg.up.mgmtReady = true ∧ portBusy sReg = false ∧ sReg.up.safe = false ∧ sReg.sec.fwOpen = none ∧ sReg.sec.repair = [] ∧
    (let s := { sReg with sec := { sReg.sec with fwOpen := some (1, 0) } };
      s.sec.fwOpen = some (1, 0) ∧ 0 + 1024 ≤ copySize 1 ∧ copyFits 1 (s.flashCopy 1 1) s = true ∧ copyValid 1 (s.flashCopy 1 1) s = true) ∧
    (let s := { sReg with sec := { sReg.sec with flash := List.replicate 6 .blank, fwOpen := some (1, 0) } }; copyFits 1 (s.flashCopy 1 1) s = false) ∧
    (∀ ty ∈ [1, 2, 3], svnOk ty 0 sReg = true ∧ svnOk ty 63 sReg = false) ∧ revokeOk 0 sReg = false ∧ revokeOk 3 sReg = true ∧
    busOpen .mgmt Reg.GLB_SCRATCH sReg = true ∧ Reg.GLB_SCRATCH / 2 ^ 20 ≠ 0x10 ∧ Reg.GLB_SCRATCH % 4 = 0 ∧ Reg.GLB_SCRATCH < 2 ^ 26 ∧
    tokenShape (leBytes 4 0x59444247 ++ leBytes 4 1 ++ leBytes 152 0) = true := by decide +kernel

theorem witness_Spdm :
    (∀ tr ∈ [SpdmPort.mctp, .doe], spdmOpen tr sReg = true ∧ spdmStage tr sReg = 0) ∧
    spdmStage .mctp { sReg with sec := { sReg.sec with spdmMctp := 3 } } = 3 ∧ spdmStage .doe { sReg with sec := { sReg.sec with spdmDoe := 3 } } = 3 ∧
    (∀ i ∈ [0, 1, 8, 0xFF], (namedMeasurements i sReg).isSome = true) ∧ namedMeasurements 9 sReg = none ∧ namedMeasurements 254 sReg = none := by
  refine ⟨by decide +kernel, by decide +kernel, by decide +kernel, ?_, rfl, rfl⟩
  intro i hi
  simp at hi
  rcases hi with rfl | rfl | rfl | rfl <;> rfl

theorem witness_InstructionWords :
    (∀ e ∈ threadRows 0 0, ∀ x ∈ [WordFields.mk 0 false false 0 0 0 0, ⟨7, true, true, 31, 31, 31, 2 ^ 32 - 1⟩],
      decide (x.pg < 8 ∧ x.rd < 32 ∧ x.ra < 32 ∧ x.rb < 32 ∧ x.imm < 2 ^ 32) = true ∧ encodeWord e.2.1 e.2.2 x < 2 ^ 64) ∧
    decodeWord 0 0 0 = some (.add 0 0, ⟨0, false, false, 0, 0, 0, 0⟩) := by decide +kernel

theorem witness_MemCanon : MemCanon State.reset := rfl

-- Terms that WellFormed refuses, one for each of its checks, and boundary terms that it takes.

/-- A register access that is well formed. -/
def okAcc : RegAcc := ⟨.pcie, 0x3FFFFFC, 0, 0xFFFF⟩

theorem smoke_register_access :
    (Instr.registerWrite okAcc true false).wf = true ∧ (Instr.registerWrite { okAcc with off := 2 } true false).wf = false ∧
    (Instr.registerWrite { okAcc with off := 0x4000000 } true false).wf = false ∧ (Instr.registerWrite { okAcc with rid := 0x10000 } true false).wf = false ∧
    (Instr.loHalfWrite { okAcc with off := 2 }).wf = false ∧ (Instr.hiHalfWrite { okAcc with off := 2 }).wf = false ∧
    (Instr.loHalfRead .pcie 3).wf = false ∧ (Instr.rcRegisterRead .mgmt 0x4000000).wf = false ∧ (Instr.jtagAccess (.regRead 1)).wf = false := by decide

theorem smoke_memory_request :
    (Instr.tier2Access ⟨0xFFFF, 281474976710655, 1, some [7]⟩ .clean).wf = true ∧
    (Instr.tier2Access ⟨0x10000, 0, 1, none⟩ .clean).wf = false ∧ (Instr.tier2Access ⟨0, 0, 0, none⟩ .clean).wf = false ∧
    (Instr.tier2Access ⟨0, 281474976710655, 2, none⟩ .clean).wf = false ∧ (Instr.sramAccess ⟨0, 0, 2, some [7]⟩ .none).wf = false ∧
    (Instr.hbmAccess 0 [⟨0, 0, 0, none⟩] 0 .clean).wf = false ∧ (Instr.hbmAccess 0 [⟨0, 0, 257, none⟩] 0 .clean).wf = false := by decide

/-- A request at a Pool bank. -/
def poolTerm (rid pa : Nat) (op : PoolOp) : PoolReq := ⟨rid, 0, pa, op, 0, 0, false⟩

theorem smoke_pool_request : ∀ q ∈ [poolTerm 0x10000 0 .semV, poolTerm 0 281474976710656 .semV, poolTerm 0 0 (.redAdd .fp32 [1]), poolTerm 0 0 (.redMax .fp32 []),
      poolTerm 0 0 (.redMin .fp32 [1]), poolTerm 0 0 (.redPair [])],
    (Instr.poolAccess 0 [q] .none).wf = false ∧ (Instr.poolAtomic 0 [q] .none).wf = false ∧ (Instr.poolVectorReduction 0 [q] .none).wf = false := by decide

theorem smoke_lengths :
    (Instr.thermalPoll [1]).wf = false ∧ (Instr.thermalPoll (List.replicate 32 256)).wf = false ∧ 
    (Instr.flitReceive 0 (.flit [])).wf = false ∧ (Instr.portTrained 0 0 0 [1] 0).wf = false ∧ (Instr.submissionTake (some [1])).wf = false ∧
    (Instr.powerControlPeriod 4096).wf = false ∧ (Instr.bar2Read 0 0).wf = false ∧ (Instr.bar2Write 0 [] false).wf = false ∧
    (Instr.pwrEnAssert [(.die 0, 256)]).wf = false ∧ (Instr.thermalTrip (.die 0) 256).wf = false ∧ (Instr.hbmTrainingDone [1] [] false).wf = false ∧
    (Instr.hbmTrainingDone (List.replicate 32 256) [] false).wf = false ∧ (Instr.fwData 0 []).wf = false ∧ (Instr.challenge .mctp 0 [1]).wf = false ∧
    (Instr.getMeasurements .mctp 0 true [1]).wf = false ∧ (Instr.getMeasurements .mctp 0 false []).wf = true := by decide

theorem smoke_long_data : (Instr.bar2Write 0 (List.replicate 4097 0) false).wf = false ∧ (Instr.fwData 0 (List.replicate 1025 0)).wf = false := by
  decide +kernel

theorem smoke_copy_data (d : List Byte) (h : d.length = 4294967296) (good : Bool) : (Instr.copyComplete 0 d good).wf = false := by
  simp [Instr.wf, h]

-- Values worked out by hand from the rules, and the worked examples of the spec.

/-- The value a step of one instruction word leaves in a scalar register of thread 0. -/
def regAfter (c : Instr) (w r : Nat) (x : Thread) : Option W64 :=
  match exec c (onWord x w s0) with
  | .next v => some ((v.th 0 0).sreg r)
  | _ => none

/-- R161: addition wraps; s0 stays 0 (R154). -/
theorem test_add_wraps : regAfter (.add 0 0) (word 0x0 0x0 0) 3 (thr12 (2 ^ 64 - 1) 2) = some 1 ∧
    regAfter (.add 0 0) (encodeWord 0x0 0x0 ⟨0, false, false, 0, 1, 2, 0⟩) 0 (thr12 1 2) = some 0 := by decide +kernel

/-- R161: sub gives RA − RB, not RB − RA. -/
theorem test_sub_order : regAfter (.sub 0 0) (word 0x0 0x1 0) 3 (thr12 3 5) = some (BitVec.ofInt 64 (-2)) := by decide +kernel

/-- R161: the shift amount is taken modulo 64, and sar keeps the sign. -/
theorem test_shifts : regAfter (.sar 0 0) (word 0x0 0x7 0) 3 (thr12 (2 ^ 64 - 8) 65) = some (BitVec.ofInt 64 (-4)) ∧
    regAfter (.shr 0 0) (word 0x0 0x6 0) 3 (thr12 (2 ^ 64 - 8) 65) = some (BitVec.ofNat 64 (2 ^ 63 - 4)) := by decide +kernel

/-- R161: −1 times 1 has the high half −1; as unsigned, 2^64 − 1 times 2 has the high half 1. -/
theorem test_mulh : regAfter (.mulh 0 0) (word 0x0 0x9 0) 3 (thr12 (2 ^ 64 - 1) 1) = some (BitVec.ofInt 64 (-1)) ∧
    regAfter (.mulhu 0 0) (word 0x0 0xA 0) 3 (thr12 (2 ^ 64 - 1) 2) = some 1 := by decide +kernel

/-- R158, R161: the 32-bit immediate is sign-extended. -/
theorem test_addi_immediate : regAfter (.addi 0 0) (encodeWord 0x1 0x0 ⟨0, false, false, 3, 1, 0, 0xFFFFFFFF⟩) 3 (thr12 0 0) = some (BitVec.ofInt 64 (-1)) := by
  decide +kernel

/-- R162: −1 is below 0 as signed and above it as unsigned; p3 takes the result. -/
theorem test_compare_sign :
    (after (exec (.cmpLt 0 0) (onWord (thr12 (2 ^ 64 - 1) 0) (word 0x2 2 0) s0)) (fun v => (v.th 0 0).p.toNat.testBit 3)) = true ∧
    (after (exec (.cmpLtu 0 0) (onWord (thr12 (2 ^ 64 - 1) 0) (word 0x2 3 0) s0)) (fun v => !(v.th 0 0).p.toNat.testBit 3)) = true := by decide +kernel

/-- R164: a byte load sign-extends or not when its data returns. -/
theorem test_load_extension : ∀ e ∈ [(0x0, 0x80), (0x4, 2 ^ 64 - 128)],
    after (exec (.loadDataReturn 0 0 .none) (rawWrite (sMap.setTh 0 0 { Thread.free with st := .wait, wait := .load e.1 3 vaSram }) sramBase [0x80]))
      (fun v => ((v.th 0 0).sreg 3).toNat == e.2) = true := by decide +kernel

/-- The word of the DMA example: dma.copy.l s12, d5, d3, q1 is 0x0000_0001_051B_1080. -/
theorem test_word_dma : encodeWord 0x8 0x0 ⟨0, false, true, 12, 3, 5, 1⟩ = 0x00000001051B1080 ∧
    (decodeWord 0 0 0x00000001051B1080).map (·.1) = some (.dmaCopy 0 0) := by decide +kernel

/-- The words of the examples of mxm.stream and vec.act: 0x0000_0130_0713_8091 and 0x0000_0706_0025_00B2. -/
theorem test_words_compute : (decodeWord 0 0 0x0000013007138091) = some (.mxmStream 0 0, ⟨0, false, false, 14, 2, 7, 0x130⟩) ∧
    (decodeWord 0 0 0x00000706002500B2) = some (.vecAct 0 0, ⟨0, false, false, 20, 4, 0, 0x706⟩) := by decide +kernel

/-- R39: Lode wins with the pointer at 0, then 0x1085, then 0x10C0, each pointer one above the last winner. -/
theorem test_round_robin : rrWinner 0 [0x1085, 0x10C0, 0x0021] = some 0x0021 ∧ rrWinner 0x0022 [0x1085, 0x10C0] = some 0x1085 ∧
    rrWinner 0x1086 [0x1085, 0x10C0] = some 0x10C0 := by decide +kernel

/-- R47, R48: 1000.0 sets the scale 129 of an E4M3 block and is stored as 0x78; −0.7 is 0xA3 and 0.001 is 0x00. -/
theorem test_block_scale : quantBlock false .e4m3 [.fin false 1000 0, f32 0xBF333333, f32 0x3A83126F] = (129, [0x78, 0xA3, 0x00]) := by decide +kernel

/-- R54 to R59: FP32 0.3 is 0x2A in E4M3, 460.0 and 464.0 are 0x7E, 464.03125 overflows. -/
theorem test_convert_e4m3 : enc .e4m3 (f32 0x3E99999A) = 0x2A ∧ enc .e4m3 (.fin false 460 0) = 0x7E ∧ enc .e4m3 (.fin false 464 0) = 0x7E ∧
    enc .e4m3 (.fin false 14849 (-5)) = 0x7F := by decide +kernel

/-- R64: 1 + 2^−8 to BF16 rounds up when the draw is 0x8000 or more, 1 + 3 × 2^−10 when it is 0xA000 or more. -/
theorem test_stochastic : encode (.draw 0x7FFF) false .bf16 (.fin false 257 (-8)) = 0x3F80 ∧ encode (.draw 0x8000) false .bf16 (.fin false 257 (-8)) = 0x3F81 ∧
    encode (.draw 0x9FFF) false .bf16 (.fin false 1027 (-10)) = 0x3F80 ∧ encode (.draw 0xA000) false .bf16 (.fin false 1027 (-10)) = 0x3F81 := by decide +kernel

/-- R50: 3 × 2^136 is +infinity, 1.5 × 2^−149 rounds to 2^−148. -/
theorem test_partial_range : enc .fp32 (.fin false 3 136) = 0x7F800000 ∧ enc .fp32 (.fin false 3 (-150)) = 2 := by decide +kernel

/-- R70: PA 0x0012_3456_7800 is pseudo-channel 841 and local address 0x48D_1000. -/
theorem test_hbm_interleave : hbmPc s0 0x001234567800 = 841 ∧ hbmLocal 0x001234567800 = 0x48D1000 := by decide +kernel

/-- R134: the canonical codes of the example table are 0, 100, 101, 110 (escape), 1110 and 1111. -/
theorem test_canonical_codes : canonCodes ⟨0, 0, .e4m3, [0x00, 0x38, 0xB8, 0x30, 0xB0], [1, 3, 3, 4, 4], 3, [], 0⟩ =
    [(0, 1, 0), (1, 3, 4), (2, 3, 5), (5, 3, 6), (3, 4, 14), (4, 4, 15)] := by decide +kernel

/-- R136: the payload 0x4F 0xC7 0x84 decodes to 0, 1.0, −0.5, the escaped 1.5, 0, 0 and 1.0. -/
theorem test_expander_symbols :
    let t : CodeTab := ⟨0, 0, .e4m3, [0x00, 0x38, 0xB8, 0x30, 0xB0], [1, 3, 3, 4, 4], 3, [], 0⟩
    (decodeBlock t (List.replicate 8 0x7C ++ [0x4F, 0xC7, 0x84] ++ List.replicate 53 0)).codes.take 7 = [0x00, 0x38, 0xB0, 0x3C, 0x00, 0x00, 0x38] ∧
    (decodeBlock t (List.replicate 8 0x7C ++ [0x4F, 0xC7, 0x84] ++ List.replicate 53 0)).bad = none := by decide +kernel

/-- R198: REFLECT with SIZE 3 and SIZE 5. -/
theorem test_reflect : (List.range 13).map (fun k => padIndex 3 ((k : Int) - 5) 3) = [1, 0, 1, 2, 1, 0, 1, 2, 1, 0, 1, 2, 1].map some ∧
    (List.range 11).map (fun k => padIndex 3 ((k : Int) - 3) 5) = [3, 2, 1, 0, 1, 2, 3, 4, 3, 2, 1].map some := by decide +kernel

/-- R242: the indices of the routing example are 1, 3 and 5. -/
theorem test_topk : (topk 3 [.fin false 1 (-1), .fin false 2 0, .fin true 1 0, .fin false 2 0, .fin false 1 (-2), .fin false 7 (-2), .fin false 0 0,
    .fin true 1 (-1)]).map (·.1) = [1, 3, 5] := by decide +kernel

/-- R279: SKID_US 250 gives XOFF_LEVEL 54,590,432. -/
theorem test_xoff_level : xoffLevel (s0.setRf 0 Reg.ITK_SKID_US 9 0 250) 0 = 54590432 := by decide +kernel

/-- R309 to R311: the tokens of 48 61 C3 28 20 31, and its invalid byte at offset 2 as token 1. -/
theorem test_tokeniser : tokenise ⟨[(0x48, 0x61), (0x20, 0x31)], List.range 258, 999⟩ [0x48, 0x61, 0xC3, 0x28, 0x20, 0x31] = ([256, 999, 0x28, 257], [(2, 1)]) := by
  decide +kernel

/-- R405: the targets of the example are 59, 17, 13 and 7, two moves from 58, 19, 12 and 7. -/
theorem test_shares :
    let ls : List Load := [⟨0, 488, 58⟩, ⟨1, 144, 19⟩, ⟨2, 112, 12⟩, ⟨3, 56, 7⟩]
    (targets 96 ls).map (·.2) = [59, 17, 13, 7] ∧ moveCount (targets 96 ls) = 2 := by decide +kernel

/-- R482: the words of the journal example, and the address of PWR_LIMIT. -/
theorem test_journal_entry :
    let e : JEntry := ⟨0, 0x1D, 0x03A0F2, Reg.PWR_LIMIT / 4, 0, .mgmt, false, 3500, 2600⟩
    Reg.PWR_LIMIT = 0x30004 ∧ leAt e.bytes 6 2 = 0x1D ∧ leAt e.bytes 8 8 = 0x080000C00103A0F2 ∧ leAt e.bytes 16 8 = 0xDAC ∧ leAt e.bytes 24 8 = 0xA28 := by
  decide +kernel

/-- R392: queue 5, index 4,107 is ITEM 0x0005_0000_0000_100B. -/
theorem test_item_id : itemId 5 4107 = 0x000500000000100B := by decide +kernel

/-- R338, R272: CRC-32C and the CRC-32 of Ethernet of the nine digits are 0xE3069283 and 0xCBF43926. -/
theorem test_crcs : crc32c [0x31, 0x32, 0x33, 0x34, 0x35, 0x36, 0x37, 0x38, 0x39] = 0xE3069283 ∧
    crcReflected 0xEDB88320 [0x31, 0x32, 0x33, 0x34, 0x35, 0x36, 0x37, 0x38, 0x39] = 0xCBF43926 := by decide +kernel

/-- R89: an FP32 add of 2^−24 to 1.0 ties to even and leaves 1.0, and the thread's old value is 1.0. -/
theorem test_atomic_tie :
    let s := rawWrite { s0.setTh 0 3 { Thread.free with st := .wait, wait := .atom 1 } with pool := [(0, [⟨0x1003, 0, poolBase, .add .fp32 0x33800000, 0, 0, false⟩])] } poolBase (leBytes 4 0x3F800000)
    after (exec (.poolAtomic 0 [] .none) s) (fun v => leNat (rawRead v poolBase 4) == 0x3F800000 && (SMap.get? v.poolDone 0x1003).map (·.2) == some 0x3F800000) = true := by
  decide +kernel

/-- R8, R427: the pair of a low and a high half takes effect with the high half: here CLK_TB_SET, 2^32 × 1 + 7, at the next tick. -/
theorem test_time_base_set :
    let s := { sReg with pending := [.loHalfWrite (pw Reg.CLK_TB_SET_LO 7), .tbSetWrite .pcie 1 0] }
    after (step s) (fun v => after (step v) (fun u => after (step u) (fun t => t.tb == 0x100000007 && t.now == s.now + 1))) = true := by decide +kernel

/-- The queue of commands runs first in, first out. -/
theorem test_queue_order : after (step { s0 with pending := [.busMasterEnableChange true, .busMasterEnableChange false] })
    (fun v => v.bme && v.pending == [.busMasterEnableChange false]) = true := by decide +kernel

/-- R504: input beyond the ratings has no behaviour. -/
theorem test_beyond_ratings : exec (.inputApply 100001 0) State.reset = .fault .beyondRatings := rfl

/-- The zero word at both ends of the program store, and words of classes 0x0 to 0x2 that are illegal. -/
theorem witness_ZeroWord_and_illegal_words :
    (∀ pc ∈ [0, 131070, 131071], let s := onWord { Thread.free with pc := pc } 0 s0;
      (s.th 0 0).st = .ready ∧ (s.th 0 0).pc = pc ∧ okOf (fetchIns 0 0 s).1 = some (0, 0) ∧ (fetchIns 0 0 s).2.thr = s.thr) ∧
    (∀ w ∈ [word 0x0 0x0 1, word 0x1 0x0 0, word 0x0 0xF 0, word 0x2 0x6 0, word 0x2 0xE 16, encodeWord 0x2 0x0 ⟨0, false, false, 8, 1, 2, 0⟩],
      let s := onWord Thread.free w s0;
      (s.th 0 0).st = .ready ∧ okOf (fetchIns 0 0 s).1 = some (w, 0) ∧ (illegalCause w 0).isSome = true) := by decide +kernel

/-- RC registers: a whole one, one with other bits, and a pair. -/
theorem witness_RcRegisters : ∀ e ∈ [(Reg.HST_REFUSED, 2 ^ 32 - 1), (Reg.PWR_PEAK, 0xFFF), (Reg.PWR_ENERGY_LO, 2 ^ 32 - 1), (Reg.CWY_MESH_CNT, 2 ^ 32 - 1)],
    ((regDef? e.1).map (fun r => (instOfReg r .pcie sReg, woMask r, accMask r (· == .rc), decide (r.pair ≠ .hi)))) = some (some 0, 0, e.2, true) ∧
    busOpen .pcie e.1 sReg = true ∧ clockNeeded e.1 sReg = none ∧ liveReg 0 e.1 sReg = none ∧ liveReg 0 (e.1 + 4) sReg = none := by decide +kernel


/-- R225: a vec read of accumulator row 3 while a stream that adds to it is open draws a free value; a read of row 4 does not. -/
theorem test_R225_open_stream :
    let d : Desc := { Desc.ofWord 0 with fmt := 7, layout := 4, rank := 2, size := [4, 2], stride := [1, 256] };
    let v : View := ⟨d, accBase 0, 3, 5⟩;
    let s := noteAcc ⟨0, 0, 1, .add, [(accBase 0 + 3 * 1024, 1024)]⟩ s0;
    (vecElem { rid := 0x1001 } 0 v [1, 0] s).2.free = 1 ∧ (vecElem { rid := 0x1001 } 0 v [1, 1] s).2.free = 0 ∧
      (dropAcc 0 0 1 s).accUse = [] := by decide +kernel

/-- R362: a thread's write of one byte meets the FP32 element of a reducing step; a write of another requester does not. -/
theorem test_R362_met_element :
    let p := { aPlan 0 (leBytes 32 0) (inPhase .idle) with red := [(poolBase, 8, 4)] };
    let s := inSlot p s0;
    let hits := fun (rid : Nat) => ((physWrite { rid := rid } (poolBase + 5) [7] none s).2.plans.map (fun e => e.2.hit));
    hits 0x1003 = [[(poolBase + 4, 4)]] ∧ hits 0x20 = [[]] := by decide +kernel

/-- R204: a transfer that shifts two bytes by one meets its own writes; one that takes them from three bytes on does not. -/
theorem test_R204_overlap :
    let s := rawWrite s0 poolBase [1, 2, 3, 4, 5];
    let write := fun (l : List WElem) (t : State) => rawWrite t (poolBase + 1) (l.map (fun e => BitVec.ofNat 8 e.code));
    let read := fun (o : Nat) (e : WElem) (t : State) => { e with code := leNat (rawRead t (poolBase + o + e.l) 1) };
    let es := (List.range 2).map (fun i => WElem.mk i [i] 0 false none);
    readsOwn (read 0) write es s = true ∧ readsOwn (read 3) write es s = false := by decide +kernel

/-- R303, R304: the example's damage in interval 31 at MCU 57, next marker RST1: MCUs 57 of row 31 to the end of row 33 are filled. -/
theorem test_R304_jpeg_restart :
    scanDamage [(412390, 3777)] 120 8160 900000 1 31 [(415000, 1)] = [(412390, 3777, 4080)] := by decide +kernel

/-- R303: without a marker after the damage everything up to the end is filled; a marker out of sequence fills the intervals it skips. -/
theorem test_R303_jpeg_markers :
    scanDamage [(50, 5)] 4 16 100 9 1 [] = [(50, 5, 16)] ∧ scanDamage [] 4 16 100 9 0 [(20, 0), (40, 2), (60, 3)] = [(40, 8, 12)] := by
  decide +kernel

/-- R301: a row with the Sub filter and one with the Paeth filter, three bytes to a pixel. -/
theorem test_R301_png_filters :
    unfilter 1 3 [] [1, 2, 3, 4, 5, 255] = [1, 2, 3, 5, 7, 2] ∧ unfilter 4 1 [10, 20] [1, 1] = [11, 21] := by decide +kernel

/-- R287: the second fixed predictor of FLAC from two warm-up values. -/
theorem test_R287_flac_predictor : flacPredict (flacFixed 2) 0 [10, 12] [1, -1] = [10, 12, 15, 17] := by decide +kernel

end Sys2Proof.Tests
end

section
/-! PROOFS. Register fields: what a field reads after a field is set, that the fields of every register of the map stand apart, and the words
that a cold start and a write put together field by field (R7, R10). -/

namespace Sys2Proof.Machine

/-- A bit of a number with bits [hi:lo] replaced: inside the range a bit of the new value, outside it the old bit. -/
theorem testBit_putBits (v x : Nat) {hi lo : Nat} (h : lo ≤ hi) (k : Nat) :
    (putBits v hi lo x).testBit k = if lo ≤ k ∧ k ≤ hi then x.testBit (k - lo) else v.testBit k := by
  simp only [putBits, Nat.testBit_or, Nat.testBit_shiftLeft, Nat.testBit_shiftRight, Nat.testBit_mod_two_pow]
  rcases Nat.lt_or_ge k lo with hk | hk
  · simp [hk, show ¬ lo ≤ k by omega, show ¬ hi + 1 ≤ k by omega]
  · rcases Nat.lt_or_ge hi k with hk' | hk'
    · simp [hk, show hi + 1 ≤ k by omega, show ¬ k ≤ hi by omega, show ¬ k < lo by omega, show ¬ k - lo < hi + 1 - lo by omega]
    · simp [hk, hk', show ¬ hi + 1 ≤ k by omega, show ¬ k < lo by omega, show k - lo < hi + 1 - lo by omega]

theorem testBit_fld (v : W32) (hi lo k : Nat) : (fld v hi lo).testBit k = (decide (k < hi + 1 - lo) && v.toNat.testBit (lo + k)) := by
  simp only [fld, bits, Nat.testBit_mod_two_pow, Nat.testBit_shiftRight]

theorem fld_lt (v : W32) (hi lo : Nat) : fld v hi lo < 2 ^ (hi + 1 - lo) := Nat.mod_lt _ (Nat.two_pow_pos _)

theorem fld_setFld_self (w : W32) (x : Nat) {hi lo : Nat} (h : lo ≤ hi) (h32 : hi < 32) :
    fld (setFld w hi lo x) hi lo = x % 2 ^ (hi + 1 - lo) := by
  refine Nat.eq_of_testBit_eq fun k => ?_
  simp only [testBit_fld, setFld, BitVec.toNat_ofNat, Nat.testBit_mod_two_pow, testBit_putBits _ _ h]
  by_cases hk : k < hi + 1 - lo
  · simp [hk, show lo + k < 32 by omega, show lo + k ≤ hi by omega]
  · simp [hk]

/-- A field keeps its value while a field above or below it is set. -/
theorem fld_setFld_of_apart (w : W32) (x : Nat) {hi lo h l : Nat} (hhl : l ≤ h) (h32 : hi < 32) (apart : hi < l ∨ h < lo) :
    fld (setFld w h l x) hi lo = fld w hi lo := by
  refine Nat.eq_of_testBit_eq fun k => ?_
  simp only [testBit_fld, setFld, BitVec.toNat_ofNat, Nat.testBit_mod_two_pow, testBit_putBits _ _ hhl]
  by_cases hk : k < hi + 1 - lo
  · simp [hk, show lo + k < 32 by omega, show ¬ (l ≤ lo + k ∧ lo + k ≤ h) by omega]
  · simp [hk]

/-- A field lies in a 32-bit word and is wide enough for its Cold value. -/
abbrev FieldDef.Fits (f : FieldDef) : Prop := f.lo ≤ f.hi ∧ f.hi < 32 ∧ f.cold < 2 ^ (f.hi + 1 - f.lo)

/-- The fields of a register fit and stand in rising order without an overlap. -/
abbrev LaidOut (fs : List FieldDef) : Prop := (∀ f ∈ fs, f.Fits) ∧ fs.Pairwise (fun f g => f.hi < g.lo)

/-- Every register of the map has its fields laid out: read off the table, block by block. -/
theorem blockRegs_laidOut (off : Nat) : ∀ r ∈ blockRegs off, LaidOut r.fields := by
  unfold blockRegs
  split <;> decide +kernel

theorem off_of_regDef? {off : Nat} {r : RegDef} (h : regDef? off = some r) : r.off = off := by
  simpa using List.find?_some h

theorem laidOut_of_regDef? {off : Nat} {r : RegDef} (h : regDef? off = some r) : LaidOut r.fields :=
  blockRegs_laidOut off r (List.mem_of_find?_eq_some h)

/-- Setting fields that all lie above a field leaves it. -/
theorem fld_foldl_setFld_above (v : FieldDef → Nat) {hi lo : Nat} (h32 : hi < 32) :
    ∀ (fs : List FieldDef) (w : W32), (∀ g ∈ fs, g.lo ≤ g.hi ∧ hi < g.lo) →
      fld (fs.foldl (fun w g => setFld w g.hi g.lo (v g)) w) hi lo = fld w hi lo := by
  intro fs
  induction fs with
  | nil => intro w _; rfl
  | cons g gs ih =>
    intro w habove
    obtain ⟨hg, hgs⟩ := List.forall_mem_cons.1 habove
    rw [List.foldl_cons, ih _ hgs, fld_setFld_of_apart w _ hg.1 h32 (.inl hg.2)]

/-- Of laid-out fields that are set one after the other, each reads as it was set. -/
theorem fld_foldl_setFld (v : FieldDef → Nat) (f : FieldDef) :
    ∀ (fs : List FieldDef) (w : W32), LaidOut fs → f ∈ fs →
      fld (fs.foldl (fun w g => setFld w g.hi g.lo (v g)) w) f.hi f.lo = v f % 2 ^ (f.hi + 1 - f.lo) := by
  intro fs
  induction fs with
  | nil => intro w _ hf; cases hf
  | cons g gs ih =>
    intro w ⟨hfits, hrise⟩ hf
    obtain ⟨hg, hgs⟩ := List.forall_mem_cons.1 hfits
    obtain ⟨habove, hrise⟩ := List.pairwise_cons.1 hrise
    rw [List.foldl_cons]
    rcases List.mem_cons.1 hf with rfl | hf
    · rw [fld_foldl_setFld_above v hg.2.1 gs _ (fun h hh => ⟨(hgs h hh).1, habove h hh⟩), fld_setFld_self w _ hg.1 hg.2.1]
    · exact ih _ ⟨hgs, hrise⟩ hf

/-- A word packed from one value per field shows in each field the value given for it, as far as the field is wide. -/
theorem fld_packFields {fs : List FieldDef} {f : FieldDef} (v : FieldDef → Nat) (hfs : LaidOut fs) (hf : f ∈ fs) :
    fld (packFields fs v) f.hi f.lo = v f % 2 ^ (f.hi + 1 - f.lo) := fld_foldl_setFld v f fs 0 hfs hf

/-- R10: each field of the word after a cold start holds its Cold value. -/
theorem fld_coldWord {off : Nat} {r : RegDef} {f : FieldDef} (h : regDef? off = some r) (hf : f ∈ r.fields) :
    fld r.coldWord f.hi f.lo = f.cold := by
  have hlay := laidOut_of_regDef? h
  obtain ⟨-, -, hcold⟩ := hlay.1 f hf
  rw [RegDef.coldWord, fld_packFields _ hlay hf, Nat.mod_eq_of_lt hcold]

/-- The bits of `a` that `b` shares and those that it does not share make up `a`. -/
theorem and_add_and_xor (a : Nat) : ∀ b, (a &&& b) + (a &&& (a ^^^ b)) = a := by
  induction a using Nat.strongRecOn with
  | ind a ih =>
    intro b
    rcases Nat.eq_zero_or_pos a with rfl | ha
    · simp
    have hhalf := ih (a / 2) (by omega) (b / 2)
    rw [← Nat.xor_div_two, ← Nat.and_div_two, ← Nat.and_div_two] at hhalf
    have hand (x y : Nat) : (x &&& y) % 2 = (x % 2) &&& (y % 2) := Nat.and_mod_two_pow (n := 1)
    have hxor (x y : Nat) : (x ^^^ y) % 2 = (x % 2) ^^^ (y % 2) := Nat.xor_mod_two_pow (n := 1)
    have hmod : (a &&& b) % 2 + (a &&& (a ^^^ b)) % 2 = a % 2 := by
      rw [hand, hand, hxor]
      rcases Nat.mod_two_eq_zero_or_one a with h | h <;> rcases Nat.mod_two_eq_zero_or_one b with k | k <;> rw [h, k] <;> rfl
    omega

theorem fieldAfter_lt (acc : Access) (locked mlock : Bool) {n old v : Nat} (ho : old < 2 ^ n) (hv : v < 2 ^ n) :
    fieldAfter acc locked mlock old v < 2 ^ n := by
  cases acc <;> simp only [fieldAfter]
  case rw => exact hv
  case ro => split <;> assumption
  case w1c => exact Nat.and_le_left.trans_lt ho
  case wo => exact Nat.two_pow_pos n
  case rc => exact ho
  case rwl => split <;> assumption

/-- R7: after a whole write of a register of the map, a field stands as its access code says. -/
theorem fld_applyWord_whole {off : Nat} {r : RegDef} {f : FieldDef} (locked : Bool) (old val : W32) (h : regDef? off = some r) (hf : f ∈ r.fields) :
    fld (applyWord r (2 ^ 32 - 1) locked old val) f.hi f.lo =
      fieldAfter f.acc locked (r.off == Reg.HST_MLOCK) (fld old f.hi f.lo) (fld val f.hi f.lo) := by
  have hlay := laidOut_of_regDef? h
  obtain ⟨hle, h32, -⟩ := hlay.1 f hf
  have hbit : (2 ^ 32 - 1).testBit f.lo = true := by
    rw [Nat.testBit_two_pow_sub_one]; exact decide_eq_true (by omega)
  rw [applyWord, fld_packFields _ hlay hf]
  simp only [hbit, if_true]
  exact Nat.mod_eq_of_lt (fieldAfter_lt _ _ _ (fld_lt ..) (fld_lt ..))

/-- Settles O25: every register of the map has its fields laid out, so each reads as `fieldAfter` of its own access code. -/
theorem fieldsFollowTheirAccessCode : Obligations.FieldsFollowTheirAccessCode := by
  unfold Obligations.FieldsFollowTheirAccessCode
  intro r f locked old val hr hf hm
  rw [fld_applyWord_whole locked old val hr hf, beq_eq_false_iff_ne.2 hm]
  cases hacc : f.acc with
  | w1c =>
    have hsum := and_add_and_xor (fld old f.hi f.lo) (fld val f.hi f.lo)
    simp only [fieldAfter]
    omega
  | rw | rwl | ro | rc | wo => rfl

/-- A register that nothing has written reads as its Cold column says in every field (R10). -/
theorem reset_rf {off : Nat} {r : RegDef} {f : FieldDef} (inst : Nat) (h : regDef? off = some r) (hf : f ∈ r.fields) :
    State.reset.rf inst off f.hi f.lo = f.cold := by
  have hword : State.reset.reg inst off = r.coldWord := by
    simp [State.reg, State.reset, SMap.get?, coldReg, h]
  rw [State.rf, hword, fld_coldWord h hf]

/-- Settles O57: the register file of the reset state lists nothing, so every register shows its cold word; the other fields are the literals of
the reset state. -/
theorem resetState : Obligations.ResetState :=
  ⟨fun _ inst _ _ h hf => reset_rf inst h hf, rfl, rfl, rfl, rfl, rfl, rfl, rfl, rfl, rfl, rfl, rfl, rfl, rfl⟩

end Sys2Proof.Machine
end

section
/-! PROOFS. The register bus: what the halves held for a port leave of the state, what an admitted write finds, and the two writes of a 64-bit
pair (R8, R284, R434). -/

namespace Sys2Proof.Machine

@[simp] theorem State.half_setHalf_self (s : State) (p : Port) (h : PortHalf) : (s.setHalf p h).half p = h := by cases p <;> rfl
@[simp] theorem State.setHalf_regs (s : State) (p : Port) (h : PortHalf) : (s.setHalf p h).regs = s.regs := by cases p <;> rfl
@[simp] theorem State.setHalf_jrn (s : State) (p : Port) (h : PortHalf) : (s.setHalf p h).jrn = s.jrn := by cases p <;> rfl
@[simp] theorem State.setHalf_mem (s : State) (p : Port) (h : PortHalf) : (s.setHalf p h).mem = s.mem := by cases p <;> rfl
@[simp] theorem State.setHalf_out (s : State) (p : Port) (h : PortHalf) : (s.setHalf p h).out = s.out := by cases p <;> rfl

theorem State.half_setHalf_of_ne (s : State) {p q : Port} (h : PortHalf) (hpq : q ≠ p) : (s.setHalf p h).half q = s.half q := by
  cases p <;> cases q <;> [exact absurd rfl hpq; rfl; rfl; exact absurd rfl hpq]

@[simp] theorem State.setHalf_reg (s : State) (p : Port) (h : PortHalf) (i off : Nat) : (s.setHalf p h).reg i off = s.reg i off := by
  simp [State.reg]

@[simp] theorem State.half_setReg (s : State) (i off : Nat) (v : W32) (p : Port) : (s.setReg i off v).half p = s.half p := by cases p <;> rfl

/-- A write that the rights of its port let through is one to the register they were asked about. -/
theorem portRights_yes {a : RegAcc} {r r' : RegDef} {i j m : Nat} {s t : State} (h : portRights a r i s = .yes r' j m t) : r' = r := by
  unfold portRights at h
  split at h
  · split at h
    · exact absurd h nofun
    · injection h with hr; exact hr.symm
  · split at h
    · exact absurd h nofun
    · split at h
      · split at h
        · exact absurd h nofun
        · injection h with hr; exact hr.symm
      · injection h with hr; exact hr.symm

/-- An admitted write is one to a register of the map (R9). -/
theorem regDef?_of_admitWrite {a : RegAcc} {r : RegDef} {i m : Nat} {s t : State} (h : admitWrite a s = .yes r i m t) :
    regDef? a.off = some r := by
  unfold admitWrite at h
  split at h
  · exact absurd h nofun
  · split at h
    · exact absurd h nofun
    · next r' hr' =>
      split at h
      · exact absurd h nofun
      · rw [hr', portRights_yes h]

theorem hostTurn_eq_of_idle (w : WaitAcc) (k : State → State) {s : State} (h : hostBusy s = false) : hostTurn w k s = k s := by
  simp [hostTurn, h]

/-- A write of a port takes its turn at once while no earlier access of the host waits (R434). -/
theorem busWrite_eq_writeAny {a : RegAcc} {s : State} (h : a.port = .pcie → hostBusy s = false) : busWrite a s = writeAny a s := by
  unfold busWrite
  split
  · next hp => rw [hostTurn_eq_of_idle _ _ (h hp), ite_self]
  · rfl

theorem writeAny_eq_writeNow {a : RegAcc} {s : State} (h : clockNeeded a.off s = none) : writeAny a s = writeNow a s := by
  simp [writeAny, h]

/-- A low half ends on the register bus whatever clock its unit lacks (R8, R418). -/
theorem writeAny_lo {a : RegAcc} {r : RegDef} {i m : Nat} {s : State} (h : admitWrite a s = .yes r i m s) (hlo : r.pair = .lo) :
    writeAny a s = writeNow a s := by
  have hend : endsOnBus a s = true := by simp [endsOnBus, h, hlo]
  unfold writeAny
  split
  · rw [if_pos hend]
  · rfl

theorem pair_of_regDef? {off : Nat} {r d : RegDef} (h : regDef? off = some r) {o : Nat} (ho : off = o) (hd : regDef? o = some d) :
    r.pair = d.pair := by
  rw [← ho, h] at hd
  rw [Option.some.inj hd]

/-- A write of a low half follows the rule of its pair. -/
theorem writeNow_lo {a : RegAcc} {r : RegDef} {s : State} (h : regDef? a.off = some r) (hlo : r.pair = .lo) :
    writeNow a s = holdLo (pairRuleAt a.off) a s := by
  have htb : a.off ≠ Reg.CLK_TB_SET_HI := fun ho => by simpa [hlo] using pair_of_regDef? h ho rfl
  have hfc : a.off ≠ Reg.MEM_FCLASS_DATA := fun ho => by simpa [hlo] using pair_of_regDef? h ho rfl
  simp only [writeNow, if_neg htb, if_neg hfc, h, hlo]

/-- A write of a high half follows the rule of its pair, CLK_TB_SET aside. -/
theorem writeNow_hi {a : RegAcc} {r : RegDef} {s : State} (h : regDef? a.off = some r) (hhi : r.pair = .hi) (htb : a.off ≠ Reg.CLK_TB_SET_HI)
    (hfc : a.off ≠ Reg.MEM_FCLASS_DATA) : writeNow a s = writeHi (pairRuleAt (a.off - 4)) a s := by
  simp only [writeNow, if_neg htb, if_neg hfc, h, hhi]

/-- LO_HALF_WRITE of an admitted low half: the state its pair's lock leaves, or the half held for the port (R8). -/
theorem exec_loHalfWrite_admitted {a : RegAcc} {r : RegDef} {i m : Nat} {s : State} (h : admitWrite a s = .yes r i m s) (hlo : r.pair = .lo)
    (hidle : a.port = .pcie → hostBusy s = false) :
    exec (.loHalfWrite a) s =
      .next (((pairRuleAt a.off).lowGuard i s).getD (s.setHalf a.port { s.half a.port with pendLo := some (a.off, a.val) })) := by
  rw [exec_loHalfWrite, execLoHalfWrite, busWrite_eq_writeAny hidle, writeAny_lo h hlo, writeNow_lo (regDef?_of_admitWrite h) hlo]
  simp only [holdLo, h]
  cases (pairRuleAt a.off).lowGuard i s <;> rfl

theorem lowGuard_itkMac (i : Nat) (s : State) (h : itkEn s i = true) : (pairRuleAt Reg.ITK_MAC_LO).lowGuard i s = some (itkCfgErr i s) := by
  simp [pairRuleAt, heldPair, h]

theorem lowGuard_itkRing (i : Nat) (s : State) (h : itkEn s (i / 256) = true) :
    (pairRuleAt Reg.ITK_RING_VA_LO).lowGuard i s = some (itkCfgErr (i / 256) s) := by
  simp [pairRuleAt, heldPair, h]

/-- A write of the high half under the plain rule stores the joined value whole and journals it once. -/
theorem writeHi_plain {a : RegAcc} {r : RegDef} {i m : Nat} {s : State} (h : admitWrite a s = .yes r i m s) :
    writeHi .plain a s =
      journalPair a r i (s.reg64 i (a.off - 4)) (pairCand r m (rwlLocked a.off s) (s.reg64 i (a.off - 4)) (joinedLo a i s) a.val)
        ((usePending a s).setReg64 i (a.off - 4)
          (pairCand r m (rwlLocked a.off s) (s.reg64 i (a.off - 4)) (joinedLo a i s) a.val)) := by
  simp only [writeHi, h]
  rfl

theorem joinedLo_of_pending {a : RegAcc} (i : Nat) {s : State} {lo : W32} (h : (s.half a.port).pendLo = some (a.off - 4, lo)) :
    joinedLo a i s = lo := by
  simp [joinedLo, h]

theorem joinedLo_of_none {a : RegAcc} (i : Nat) {s : State} (h : (s.half a.port).pendLo = none) : joinedLo a i s = s.reg i (a.off - 4) := by
  simp [joinedLo, h]

/-- Settles O24: a low half reaches its pair's rule, which holds it or, where it is locked, ignores it; a high half under the plain rule stores the joined
value. -/
theorem pairWritesTakeEffectWhole : Obligations.PairWritesTakeEffectWhole := by
  unfold Obligations.PairWritesTakeEffectWhole
  constructor
  · intro a r i m s hadm hlo hidle
    have hexec := exec_loHalfWrite_admitted hadm hlo hidle
    have hlocked : ∀ n, (pairRuleAt a.off).lowGuard i s = some n → exec (.loHalfWrite a) s = .next n := fun n hn => by
      rw [hexec, hn, Option.getD_some]
    refine ⟨hlocked, fun ho hen => ?_, fun ho hen => ?_, fun hnone => ?_⟩
    · exact hlocked _ (ho ▸ lowGuard_itkMac i s hen)
    · exact hlocked _ (ho ▸ lowGuard_itkRing i s hen)
    · rw [hnone, Option.getD_none] at hexec
      exact ⟨_, hexec, by simp, by simp, by simp, by simp, fun p hp => s.half_setHalf_of_ne _ hp⟩
  · intro a r i m new s ⟨hadm, hclk, hidle, _⟩ hhi hplain htb hfc hnew
    refine ⟨?_, fun lo => joinedLo_of_pending i, joinedLo_of_none i⟩
    rw [exec_hiHalfWrite, execHiHalfWrite, busWrite_eq_writeAny hidle, writeAny_eq_writeNow hclk,
      writeNow_hi (regDef?_of_admitWrite hadm) hhi htb hfc, hplain, writeHi_plain hadm, hnew]

end Sys2Proof.Machine
end

section
/-! PROOFS. Register reads: what a read of each kind of register returns and leaves, and what the answer to its port changes (R3, R7, R8, R424). -/

namespace Sys2Proof.Machine

@[simp] theorem answerRead_regs (p : Port) (off : Nat) (v : W32) (s : State) : (answerRead p off v s).regs = s.regs := by cases p <;> rfl
@[simp] theorem answerRead_mem (p : Port) (off : Nat) (v : W32) (s : State) : (answerRead p off v s).mem = s.mem := by cases p <;> rfl

@[simp] theorem answerRead_half (p q : Port) (off : Nat) (v : W32) (s : State) : (answerRead p off v s).half q = s.half q := by
  cases p <;> cases q <;> rfl

@[simp] theorem answerRead_reg (p : Port) (off : Nat) (v : W32) (s : State) (i o : Nat) : (answerRead p off v s).reg i o = s.reg i o := by
  simp [State.reg]

/-- The PCIe port gets the data in a completion. -/
@[simp] theorem answerRead_pcie_out (off : Nat) (v : W32) (s : State) : (answerRead .pcie off v s).out = .regData .pcie off v :: s.out := rfl

/-- The management port gets the data as the answer of its Nolivo read (R501). -/
@[simp] theorem answerRead_mgmt_out (off : Nat) (v : W32) (s : State) :
    (answerRead .mgmt off v s).out = .nolivo 0 (leBytes 4 v.toNat) :: s.out := rfl

/-- The state with other Causeway ports. -/
def State.withCports (s : State) (c : SMap CPort) : State := { s with cports := c }

@[simp] theorem State.withCports_reg (s : State) (c : SMap CPort) (i off : Nat) : (s.withCports c).reg i off = s.reg i off := rfl
@[simp] theorem State.withCports_out (s : State) (c : SMap CPort) : (s.withCports c).out = s.out := rfl
@[simp] theorem State.withCports_mem (s : State) (c : SMap CPort) : (s.withCports c).mem = s.mem := rfl

/-- Reading a register that counts nothing clears nothing (R424). -/
theorem clearRc_of_plain {r : RegDef} (i : Nat) (s : State) (h : accMask r (· == .rc) = 0) : clearRc r i s = s := by
  simp [clearRc, h]

/-- Reading a whole RC register clears its RC bits (R424). -/
theorem clearRc_single {r : RegDef} (i : Nat) (s : State) (h : accMask r (· == .rc) ≠ 0) (hp : r.pair = .single) :
    clearRc r i s = s.setReg i r.off (s.reg i r.off &&& BitVec.ofNat 32 (2 ^ 32 - 1 - accMask r (· == .rc))) := by
  simp [clearRc, h, hp]

/-- Reading the low half of an RC pair clears both halves (R8, R424). -/
theorem clearRc_lo {r : RegDef} (i : Nat) (s : State) (h : accMask r (· == .rc) ≠ 0) (hp : r.pair = .lo) :
    clearRc r i s =
      (s.setReg i r.off (s.reg i r.off &&& BitVec.ofNat 32 (2 ^ 32 - 1 - accMask r (· == .rc)))).setReg i (r.off + 4) 0 := by
  simp [clearRc, h, hp]

/-- What a register shows: its live value, else the stored one. -/
def shownReg (i : Nat) (s : State) (o : Nat) : W32 := (liveReg i o s).getD (s.reg i o)

/-- What a read of a register returns: what it shows, its WO bits zero (R7). -/
def answerWord (r : RegDef) (i : Nat) (s : State) : W32 := shownReg i s r.off &&& BitVec.ofNat 32 (2 ^ 32 - 1 - woMask r)

/-- The state in which a port has captured the high half of a pair (R8). -/
def captured (p : Port) (r : RegDef) (i : Nat) (s : State) : State :=
  s.setHalf p { s.half p with capHi := some (regKey i (r.off + 4), shownReg i s (r.off + 4)) }

theorem aligned_eq {off : Nat} (h : off % 4 = 0) : off / 4 * 4 = off := Nat.div_mul_cancel (Nat.dvd_of_mod_eq_zero h)

/-- The Causeway links are in every configuration (R2). -/
theorem absentUnit_meshCnt (s : State) : absentUnit Reg.CWY_MESH_CNT s = false := rfl

theorem readValue_of_ne (p : Port) {off : Nat} (s : State) (h : off / 4 * 4 ≠ Reg.CWY_MESH_CNT) : readValue p off s = readThrough liveReg p off s := by
  simp only [readValue, if_neg h]

/-- Beside what every read does, a read touches the Causeway ports alone, and those at CWY_MESH_CNT (R348). -/
theorem readValue_eq (p : Port) (off : Nat) (s : State) :
    ∃ c, readValue p off s = ((readThrough liveReg p off s).1, (readThrough liveReg p off s).2.withCports c) := by
  unfold readValue
  dsimp only
  split
  · split
    · exact ⟨_, rfl⟩
    · exact ⟨_, rfl⟩
  · exact ⟨_, rfl⟩

@[simp] theorem captured_reg (p : Port) (r : RegDef) (i : Nat) (s : State) (j o : Nat) : (captured p r i s).reg j o = s.reg j o := by simp [captured]
@[simp] theorem captured_mem (p : Port) (r : RegDef) (i : Nat) (s : State) : (captured p r i s).mem = s.mem := by simp [captured]
@[simp] theorem captured_out (p : Port) (r : RegDef) (i : Nat) (s : State) : (captured p r i s).out = s.out := by simp [captured]

@[simp] theorem captured_capHi (p : Port) (r : RegDef) (i : Nat) (s : State) :
    ((captured p r i s).half p).capHi = some (regKey i (r.off + 4), shownReg i s (r.off + 4)) := by simp [captured]

section
variable {p : Port} {off i : Nat} {r : RegDef} {s : State} (hal : off % 4 = 0) (hdef : regDef? off = some r) (hinst : instOfReg r p s = some i)
include hal hdef hinst

theorem readThrough_absent (h : absentUnit off s = true) : readThrough liveReg p off s = (0, s) := by
  simp [readThrough, aligned_eq hal, hdef, hinst, h]

theorem readThrough_lo (h : absentUnit off s = false) (hp : r.pair = .lo) :
    readThrough liveReg p off s = (answerWord r i s, clearRc r i (captured p r i s)) := by
  simp only [readThrough, aligned_eq hal, hdef, hinst, h, hp, answerWord, captured, shownReg]
  cases liveReg i r.off s <;> cases liveReg i (r.off + 4) s <;> rfl

theorem readThrough_single (h : absentUnit off s = false) (hp : r.pair = .single) :
    readThrough liveReg p off s = (answerWord r i s, clearRc r i s) := by
  simp only [readThrough, aligned_eq hal, hdef, hinst, h, hp, answerWord, shownReg]
  cases liveReg i r.off s <;> rfl

/-- A register of a unit the configuration lacks reads zero (R3). -/
theorem readNow_absent (h : absentUnit off s = true) : readNow p off s = answerRead p off 0 s := by
  have hmesh : off / 4 * 4 ≠ Reg.CWY_MESH_CNT := by
    rw [aligned_eq hal]
    rintro rfl
    exact absurd ((absentUnit_meshCnt s).symm.trans h) nofun
  rw [readNow, readValue_of_ne p s hmesh, readThrough_absent hal hdef hinst h]

/-- A read of a low half: its word, the high half captured, an RC pair cleared (R8, R424). -/
theorem readNow_lo (h : absentUnit off s = false) (hp : r.pair = .lo) :
    readNow p off s = answerRead p off (answerWord r i s) (clearRc r i (captured p r i s)) := by
  have hmesh : off / 4 * 4 ≠ Reg.CWY_MESH_CNT := by
    rw [aligned_eq hal]
    exact fun ho => by simpa [hp] using pair_of_regDef? hdef ho rfl
  rw [readNow, readValue_of_ne p s hmesh, readThrough_lo hal hdef hinst h hp]

/-- A read of a whole register: its word, an RC register cleared, beside the Causeway ports nothing else (R348, R424). -/
theorem readNow_single (h : absentUnit off s = false) (hp : r.pair = .single) :
    ∃ c, readNow p off s = answerRead p off (answerWord r i s) ((clearRc r i s).withCports c) := by
  obtain ⟨c, hc⟩ := readValue_eq p off s
  refine ⟨c, ?_⟩
  rw [readNow, hc, readThrough_single hal hdef hinst h hp]

end

/-- A read whose port is open and idle and whose clock runs answers at once (R418, R434, R455). -/
theorem busRead_eq_readNow {p : Port} {off : Nat} {s : State} (hal : off % 4 = 0) (hopen : busOpen p off s = true)
    (hclk : clockNeeded off s = none) (hidle : p = .pcie → hostBusy s = false) : busRead p off s = readNow p off s := by
  have hany : readAny p off s = readNow p off s := by
    simp [readAny, aligned_eq hal, hclk]
  simp only [busRead, hopen]
  cases p with
  | pcie => exact (hostTurn_eq_of_idle _ _ (hidle rfl)).trans hany
  | mgmt => exact hany

/-- A register that a whole clear has emptied counts from zero (R424). -/
theorem count_after_clear (s : State) (i off n : Nat) (h : s.reg i off = 0) : ((s.count i off n).reg i off).toNat = min (2 ^ 32 - 1) n := by
  have hz : (0 : W32).toNat = 0 := rfl
  rw [State.count, State.reg_setReg_self, h, satAdd32, hz, Nat.zero_add, BitVec.toNat_ofNat]
  exact Nat.mod_eq_of_lt (by omega)

theorem regKey_high_ne (i off : Nat) : regKey i off ≠ regKey i (off + 4) := by simp [regKey]

/-- Settles O28: with its turn, its clock and its register, a read returns `answerWord` and leaves what `clearRc` leaves. -/
theorem registerReadsAnswer : Obligations.RegisterReadsAnswer := by
  unfold Obligations.RegisterReadsAnswer
  rintro p off i m r s shown val hal hopen hclk hidle hdef hinst rfl hval rfl
  obtain rfl := off_of_regDef? hdef
  have hbus := busRead_eq_readNow hal hopen hclk hidle
  have hloRead : exec (.loHalfRead p r.off) s = .next (readNow p r.off s) := by rw [exec_loHalfRead, execLoHalfRead, hbus]
  have hrcRead : exec (.rcRegisterRead p r.off) s = .next (readNow p r.off s) := by rw [exec_rcRegisterRead, execRcRegisterRead, hbus]
  obtain rfl : val = answerWord r i s := hval
  refine ⟨fun habs => ?_, fun habs hlo hm => ?_, fun habs hlo hm => ?_, fun habs hsg hm => ?_⟩
  · rw [hloRead, hrcRead, readNow_absent hal hdef hinst habs]
    exact ⟨rfl, rfl⟩
  · rw [hloRead, readNow_lo hal hdef hinst habs hlo, clearRc_of_plain i _ hm]
    rfl
  · rw [readNow_lo hal hdef hinst habs hlo, clearRc_lo i _ hm hlo] at hloRead
    refine ⟨_, hloRead, ?_, ?_, ?_, ?_, ?_, ?_⟩
    · rintro rfl
      simp
    · rintro rfl
      simp
    · rw [answerRead_reg, State.reg_setReg_of_ne _ _ (regKey_high_ne i r.off), State.reg_setReg_self, captured_reg]
    · rw [answerRead_reg, State.reg_setReg_self]
    · rw [answerRead_half, State.half_setReg, State.half_setReg, captured_capHi]
      rfl
    · simp
  · obtain ⟨c, hc⟩ := readNow_single hal hdef hinst habs hsg
    rw [hc, clearRc_single i s hm hsg] at hrcRead
    refine ⟨_, hrcRead, ?_, ?_, ?_, ?_, fun n hall => count_after_clear _ _ _ _ ?_⟩
    · rintro rfl
      simp
    · rintro rfl
      simp
    · rw [answerRead_reg, State.withCports_reg, State.reg_setReg_self]
    · simp
    · rw [answerRead_reg, State.withCports_reg, State.reg_setReg_self, hall, Nat.sub_self]
      exact BitVec.and_zero

end Sys2Proof.Machine
end

section
/-! PROOFS. The step rule of the block (O1) and the commands of the memory side (O38): MMU invalidation and walk (R30, R33), tier 2 (R84 to R87),
the SRAM windows (R18) and the checkpoint engine (R96). -/

namespace Sys2Proof.Machine

/-- Settles O1: `step` takes the front command off the queue and runs it. -/
theorem stepRunsFrontCommand : Obligations.StepRunsFrontCommand := by
  unfold Obligations.StepRunsFrontCommand
  intro c rest s
  rfl

/-! ### Fields and sets -/

@[simp] theorem State.rf_setRf_self (s : State) (i off x : Nat) {hi lo : Nat} (h : lo ≤ hi) (h32 : hi < 32) :
    (s.setRf i off hi lo x).rf i off hi lo = x % 2 ^ (hi + 1 - lo) := by
  rw [State.rf, State.setRf, State.reg_setReg_self, fld_setFld_self _ _ h h32]

theorem State.rf_setRf_of_apart (s : State) (i off x : Nat) {hi lo h l : Nat} (hhl : lo ≤ hi) (h32 : h < 32) (apart : h < lo ∨ hi < l) :
    (s.setRf i off hi lo x).rf i off h l = s.rf i off h l := by
  rw [State.rf, State.setRf, State.reg_setReg_self, State.rf]
  exact fld_setFld_of_apart _ _ hhl h32 apart

@[simp] theorem State.setRf_tlb (s : State) (i off hi lo x : Nat) : (s.setRf i off hi lo x).tlb = s.tlb := rfl

@[simp] theorem State.setRf_inval (s : State) (i off hi lo x : Nat) : (s.setRf i off hi lo x).inval = s.inval := rfl

@[simp] theorem State.setRf_t2Wait (s : State) (i off hi lo x : Nat) : (s.setRf i off hi lo x).t2Wait = s.t2Wait := rfl

@[simp] theorem State.setRf_busHeld (s : State) (i off hi lo x : Nat) : (s.setRf i off hi lo x).busHeld = s.busHeld := rfl

theorem mem_setIns_self (l : List Nat) (k : Nat) : k ∈ setIns l k := by
  unfold setIns
  split
  case isTrue h => simpa using h
  case isFalse => simp

theorem drainT2_of_none {s : State} (h : s.t2Wait = []) : drainT2 s = s := by
  simp [drainT2, h, drainT2Aux]

theorem drainBus_of_none {s : State} (h : s.busHeld = []) : drainBus s = s := by
  cases s
  cases h
  rfl

/-! ### One lemma per command -/

theorem exec_mmuInvalidationDone_of_running {s : State} {va n : Nat} (h : s.inval = some (va, n)) :
    ∃ v, exec .mmuInvalidationDone s = .next v ∧
      v.tlb = s.tlb.filter (fun e => decide (e.va + e.size ≤ va) || decide (va + n ≤ e.va)) ∧ v.inval = none ∧
      v.rf 0 Reg.MMU_INV_STATUS 0 0 = 0 ∧ v.rf 0 Reg.MMU_INV_STATUS 1 1 = 1 ∧ v.mem = s.mem := by
  refine ⟨_, by rw [exec_mmuInvalidationDone, execMmuInvalidationDone, h], ?_⟩
  simp [State.rf_setRf_of_apart]

theorem exec_tableWalk_of_ok {s s1 : State} {va : Fin 281474976710656} {need : Perm} {rid : W16} {pa : Nat} (hon : unitsOn s = true)
    (hmiss : tlbFind s va = none) (ht : translate { rid := rid.toNat, va := va } va need s = (.ok pa, s1)) :
    exec (.tableWalk va need rid) s = .next (s1.emit (.memReply rid.toNat .ok (leBytes 8 pa))) := by
  rw [exec_tableWalk, execTableWalk, if_neg (by simp [hon, hmiss])]
  simp only [ht]

theorem exec_tableWalk_of_error {s s1 : State} {va : Fin 281474976710656} {need : Perm} {rid : W16} {f : Fail} (hon : unitsOn s = true)
    (hmiss : tlbFind s va = none) (ht : translate { rid := rid.toNat, va := va } va need s = (.error f, s1)) :
    exec (.tableWalk va need rid) s =
      .next ((if isThreadRid rid.toNat then s1 else unitFault rid.toNat va f s1).emit (.memReply rid.toNat f.st [])) := by
  rw [exec_tableWalk, execTableWalk, if_neg (by simp [hon, hmiss])]
  simp only [ht]

theorem isThreadRid_iff (rid : Nat) : isThreadRid rid = true ↔ 0x1000 ≤ rid ∧ rid < 0x2800 := by
  simp [isThreadRid]

/-- A tier-2 access of an existing address, no package missing: what its packages and the fill decide (R84 to R87). -/
theorem exec_tier2Access_of_backed {s : State} {q : MemReq} (ev : HbmEvent) (hon : unitsOn s = true) (hreg : regionOf q.pa = .tier2)
    (hlen : q.len ≠ 0) (hback : backing s q.pa ≠ none) (hshort : t2Short s = false) :
    exec (.tier2Access q ev) s = .next (if t2Awake q s = false then holdT2 q s
      else if s.rf 0 Reg.T2_STATUS 1 1 = 1 then serveT2 q ev s
      else if Config.t2Filled s.free then serveT2 q ev { s with free := s.free + 1 } else holdT2 q { s with free := s.free + 1 }) := by
  rw [exec_tier2Access, execTier2Access, if_neg (by simp [hon, hreg, hlen]), t2Req, if_neg (by simpa using hback),
    if_neg (by simp [hshort])]
  cases t2Awake q s <;> rfl

theorem exec_sramAccess_of_served {s : State} {q : MemReq} {n o m : Nat} (ev : BitErr) (hon : unitsOn s = true)
    (hreg : regionOf q.pa = .sram n o) (hm : servingArray s n = some m) :
    exec (.sramAccess q ev) s = .next (if s.pst m = .run then serveSram q ev (arrayUp m s)
      else if s.aclk.on then beginWake m { s with sramWait := SMap.put s.sramWait m (SMap.getD s.sramWait m [] ++ [q]) }
      else waitClock .aclk (.sram q) s) := by
  rw [exec_sramAccess, execSramAccess, if_pos hon, sramReq, hreg]
  simp only [hm]

theorem exec_selfRefreshEntry_of_idle {s : State} {pkg : Fin 32} (hin : pkg.val ∉ s.selfRef) (hlast : SMap.getD s.t2Last pkg 0 + 2500 ≤ s.now)
    (hcount : pkg.val < s.t2Count) (hwait : ∀ q ∈ s.t2Wait, pkg.val ∉ t2Pkgs s q.pa q.len) (hready : s.rf 0 Reg.T2_STATUS 1 1 = 1) :
    exec (.selfRefreshEntry pkg) s = .next { s with selfRef := setIns s.selfRef pkg } := by
  rw [exec_selfRefreshEntry, execSelfRefreshEntry, if_neg]
  simpa [hin, hready, hlast, hcount] using hwait

theorem exec_tier2FillDone_of_idle {s : State} (htrained : s.rf 0 Reg.T2_STATUS 1 0 = 1) (hshort : t2Short s = false) (hwait : s.t2Wait = [])
    (hbus : s.busHeld = []) : exec .tier2FillDone s = .next (s.setRf 0 Reg.T2_STATUS 1 1 1) := by
  rw [exec_tier2FillDone, execTier2FillDone, t2FillDone, if_neg (by simp [htrained, hshort]), drainT2_of_none (by simpa using hwait),
    drainBus_of_none (by simpa using hbus)]

/-- Settles O38: each command by its own lemma above. -/
theorem memorySideCommands : Obligations.MemorySideCommands := by
  unfold Obligations.MemorySideCommands
  intro s
  refine ⟨fun va n h => exec_mmuInvalidationDone_of_running h, ?_, ?_, ?_, ?_, ?_, ?_, ?_, ?_⟩
  · intro va need rid pa s1 hon hmiss ht
    exact exec_tableWalk_of_ok hon hmiss ht
  · intro va need rid f s1 hon hmiss ht
    rw [exec_tableWalk_of_error hon hmiss ht]
    simp only [isThreadRid_iff]
  · intro q ev hon hreg hlen hback hshort
    rw [exec_tier2Access_of_backed ev hon hreg hlen hback hshort]
    refine ⟨fun haw hr => by simp [haw, hr], fun haw hr => ?_, fun haw => by simp [haw, holdT2]⟩
    cases Config.t2Filled s.free
    · exact .inr (by simp [haw, hr, holdT2])
    · exact .inl (by simp [haw, hr])
  · intro q ev n o m hon hreg hm
    rw [exec_sramAccess_of_served ev hon hreg hm]
    exact ⟨fun hrun => by simp [hrun], fun hrun hclk => by simp [hrun, hclk]⟩
  · intro pkg hin hlast hcount hwait hready
    exact ⟨_, exec_selfRefreshEntry_of_idle hin hlast hcount hwait hready, mem_setIns_self _ _, rfl, rfl⟩
  · intro pkg hheld
    simp [execSelfRefreshExit, leaveSelfRefresh, hheld]
  · intro htrained hshort hwait hbus
    exact ⟨_, exec_tier2FillDone_of_idle htrained hshort hwait hbus, by simp, by simp⟩
  · intro r e s1 hr he
    rw [exec_checkpointFrameCopy, execCheckpointFrameCopy]
    simp only [hr, he]

end Sys2Proof.Machine
end

section
/-! PROOFS. Memory stays canonical (O59): the state operations, translation and the served accesses, threads, items, the rules of a register write
and the clocks. A `_mem` lemma says that a function leaves memory as it is, a `_wf` lemma that it keeps the canonical form. -/

namespace Sys2Proof.Machine

/-! Folds and branches. -/

/-- A fold of steps that leave memory as it is leaves it. -/
@[simp] theorem foldl_mem {α : Type} (f : State → α → State) (hf : ∀ s x, (f s x).mem = s.mem) (l : List α) (s : State) :
    (l.foldl f s).mem = s.mem := by
  induction l generalizing s with
  | nil => rfl
  | cons x r ih => rw [List.foldl_cons, ih, hf]

/-- The same for a fold that carries a value beside the state. -/
@[simp] theorem foldl_snd_mem {α β : Type} (f : β × State → α → β × State) (hf : ∀ p x, (f p x).2.mem = p.2.mem) (l : List α) (p : β × State) :
    (l.foldl f p).2.mem = p.2.mem := by
  induction l generalizing p with
  | nil => rfl
  | cons x r ih => rw [List.foldl_cons, ih, hf]

@[simp] theorem ite_mem (p : Prop) [Decidable p] (a b : State) : (if p then a else b).mem = if p then a.mem else b.mem := apply_ite State.mem p a b

@[simp] theorem wf_ite (p : Prop) [Decidable p] (m n : SMap Byte) :
    Memory.wf (if p then m else n) = if p then Memory.wf m else Memory.wf n := apply_ite Memory.wf p m n

/-! ### Machine/Ops -/

@[simp] theorem State.setReg64_mem (s : State) (inst off v : Nat) : (s.setReg64 inst off v).mem = s.mem := by rfl

@[simp] theorem State.countField_mem (s : State) (inst off hi lo n : Nat) : (s.countField inst off hi lo n).mem = s.mem := by rfl

@[simp] theorem State.count64_mem (s : State) (inst off n : Nat) : (s.count64 inst off n).mem = s.mem := by rfl

@[simp] theorem writeFault_mem (r : FaultIn) (s : State) : (writeFault r s).mem = s.mem := by simp [writeFault]

@[simp] theorem jrnLose_mem (s : State) : (jrnLose s).mem = s.mem := by simp [jrnLose]

@[simp] theorem jrnAppend_mem (e : JEntry) (s : State) : (jrnAppend e s).mem = s.mem := by simp [jrnAppend]

@[simp] theorem journal_mem (origin : Origin) (rid off inst : Nat) (pair : Bool) (old new : Nat) (s : State) :
    (journal origin rid off inst pair old new s).mem = s.mem := by
  simp [journal]

@[simp] theorem deviceSetReg_mem (rid inst off : Nat) (v : W32) (s : State) : (deviceSetReg rid inst off v s).mem = s.mem := by simp [deviceSetReg]

theorem rrGrant_mem {res : Nat} {cs : List Nat} {s : State} {r : Nat × State} (h : rrGrant res cs s = some r) : r.2.mem = s.mem := by
  unfold rrGrant at h
  split at h <;> simp_all
  rw [← h]

/-! ### Machine/Arbiter -/

theorem pickWaiting_mem {counts : List Nat} {key : Nat → Nat} {waiting : List MemReq} {s : State} {r : ReqClass × Nat × State}
    (h : pickWaiting counts key waiting s = some r) : r.2.2.mem = s.mem := by
  unfold pickWaiting at h
  split at h
  · exact absurd h nofun
  · split at h
    · exact absurd h nofun
    · rename_i hg
      obtain ⟨i, -, hr⟩ := Option.map_eq_some_iff.1 h
      subst hr
      have hs := rrGrant_mem hg
      exact hs

@[simp] theorem State.setPc_mem (s : State) (p : Nat) (c : PseudoChan) : (s.setPc p c).mem = s.mem := by rfl

/-! ### Machine/Pll -/

/-! ### Machine/Memory -/

@[simp] theorem State.setScale_mem (s : State) (pa v : Nat) : (s.setScale pa v).mem = s.mem := by rfl

@[simp] theorem arrayUp_mem (phys : Nat) (s : State) : (arrayUp phys s).mem = s.mem := by rfl

@[simp] theorem unitFault_mem (rid va : Nat) (f : Fail) (s : State) : (unitFault rid va f s).mem = s.mem := by simp [unitFault]

@[simp] theorem windowFail_mem (pa : Nat) (f : Fail) (s : State) : (windowFail pa f s).mem = s.mem := by simp [windowFail]

@[simp] theorem memAnswer_mem (q : MemReq) (f : Fail) (d : List Byte) (s : State) : (memAnswer q f d s).mem = s.mem := by simp [memAnswer]

@[simp] theorem unbacked_mem (q : MemReq) (s : State) : (unbacked q s).mem = s.mem := by simp [unbacked]

/-! ### Machine/Threads -/

@[simp] theorem itemFail_mem (id : Nat) (f : Fail) (s : State) : (itemFail id f s).mem = s.mem := by rfl

@[simp] theorem releaseParts_mem (a t : Nat) (s : State) : (releaseParts a t s).mem = s.mem := by rfl

@[simp] theorem withdrawSem_mem (rid : Nat) (s : State) : (withdrawSem rid s).mem = s.mem := by rfl

@[simp] theorem dropResult_mem (rid : Nat) (s : State) : (dropResult rid s).mem = s.mem := by rfl

@[simp] theorem toDrain_mem (a t : Nat) (s : State) : (toDrain a t s).mem = s.mem := by simp [toDrain]

@[simp] theorem noteHalt_mem (id : Nat) (s : State) : (noteHalt id s).mem = s.mem := by rfl

@[simp] theorem haltThread_mem (a t : Nat) (h : Halt) (s : State) : (haltThread a t h s).mem = s.mem := by simp [haltThread]

@[simp] theorem progFault_mem (a t cause : Nat) (s : State) : (progFault a t cause s).mem = s.mem := by simp [progFault]

@[simp] theorem goTo_mem (a t : Nat) (pc : Int) (s : State) : (goTo a t pc s).mem = s.mem := by simp [goTo]

@[simp] theorem advance_mem (a t w : Nat) (s : State) : (advance a t w s).mem = s.mem := by simp [advance]

/-- A read of the program store leaves memory as it is. The address is named first: nothing is to be computed with it. -/
@[simp] theorem psRead_mem (c : Ctx) (a pc : Nat) (s : State) : (psRead c a pc s).2.mem = s.mem := by
  unfold psRead
  obtain ⟨addr, haddr⟩ : ∃ addr, addr = psAddr := ⟨_, rfl⟩
  rw [← haddr]
  split
  · rfl
  · split <;> grind [servedRead_mem]

@[simp] theorem fetchIns_mem (a t : Nat) (s : State) : (fetchIns a t s).2.mem = s.mem := by
  unfold fetchIns
  grind [psRead_mem]

/-- An issue leaves memory as it is where its body does. -/
@[simp] theorem issue_mem (cls func : Nat) (body : Nat → Nat → State → State) (a t : Nat) (s : State)
    (hb : ∀ w ext u, (body w ext u).mem = u.mem) : (issue cls func body a t s).mem = s.mem := by
  unfold issue
  grind [fetchIns_mem, haltThread_mem, progFault_mem, advance_mem]

/-- An issue keeps the canonical form where its body does. -/
theorem issue_wf (cls func : Nat) (body : Nat → Nat → State → State) (a t : Nat) (s : State)
    (hb : ∀ w ext u, Memory.wf u.mem = true → Memory.wf (body w ext u).mem = true) (hm : Memory.wf s.mem = true) :
    Memory.wf (issue cls func body a t s).mem = true := by
  unfold issue
  grind [fetchIns_mem, haltThread_mem, progFault_mem, advance_mem]

@[simp] theorem waitFor_mem (a t : Nat) (k : Wait) (s : State) : (waitFor a t k s).mem = s.mem := by rfl

@[simp] theorem resume_mem (a t rd : Nat) (v : W64) (s : State) : (resume a t rd v s).mem = s.mem := by simp [resume]

@[simp] theorem issueAsync_mem (a t unit w : Nat) (k : Nat → State → State) (s : State) (hk : ∀ q u, (k q u).mem = u.mem) :
    (issueAsync a t unit w k s).mem = s.mem := by
  simp [issueAsync, hk]

theorem issueAsync_wf (a t unit w : Nat) (k : Nat → State → State) (s : State)
    (hk : ∀ q u, Memory.wf u.mem = true → Memory.wf (k q u).mem = true) (hm : Memory.wf s.mem = true) :
    Memory.wf (issueAsync a t unit w k s).mem = true := by
  simp [issueAsync, hm, hk]

@[simp] theorem opDone_mem (a t seq : Nat) (f : Fail) (s : State) : (opDone a t seq f s).mem = s.mem := by
  unfold opDone
  grind [State.setTh_mem, haltThread_mem]

@[simp] theorem opOk_mem (a t seq : Nat) (s : State) : (opOk a t seq s).mem = s.mem := by simp [opOk]

@[simp] theorem reissue_mem (a t : Nat) (s : State) : (reissue a t s).mem = s.mem := by rfl

@[simp] theorem wakeTok_mem (a t : Nat) (s : State) : (wakeTok a t s).mem = s.mem := by
  unfold wakeTok
  grind [reissue_mem, resume_mem]

@[simp] theorem wakeSlot_mem (a unit : Nat) (s : State) : (wakeSlot a unit s).mem = s.mem := by
  unfold wakeSlot
  split <;> simp

@[simp] theorem completeTok_mem (a t : Nat) (k : Tok) (f : Fail) (s : State) : (completeTok a t k f s).mem = s.mem := by simp [completeTok]

@[simp] theorem haltSibling_mem (id k : Nat) (s : State) : (haltSibling id k s).mem = s.mem := by simp [haltSibling]

@[simp] theorem watchdog_mem (a t cause : Nat) (i : Item) (s : State) : (watchdog a t cause i s).mem = s.mem := by simp [watchdog]

/-! ### Machine/Items -/

@[simp] theorem State.setSq_mem (s : State) (q : Nat) (x : HSq) : (s.setSq q x).mem = s.mem := by rfl

@[simp] theorem finishEntry_mem (q idx : Nat) (st : Status) (replays : Nat) (s : State) : (finishEntry q idx st replays s).mem = s.mem := by
  unfold finishEntry
  grind [State.setSq_mem]

@[simp] theorem endItem_mem (id : Nat) (st : Status) (s : State) : (endItem id st s).mem = s.mem := by
  unfold endItem
  split <;> simp

@[simp] theorem settleOne_mem (id : Nat) (s : State) : (settleOne id s).mem = s.mem := by
  unfold settleOne
  grind [endItem_mem, State.modItem_mem]

@[simp] theorem settlePass_mem (s : State) : (settlePass s).mem = s.mem := foldl_mem _ (fun _ _ => settleOne_mem _ _) _ _

@[simp] theorem settleLoop_mem (k : Nat) (s : State) : (settleLoop k s).mem = s.mem := by
  induction k generalizing s with
  | zero => rfl
  | succ k ih => simp [settleLoop, ih]

@[simp] theorem settleItems_mem (s : State) : (settleItems s).mem = s.mem := by simp [settleItems]

@[simp] theorem showStep_mem (s : State) : (showStep s).mem = s.mem := by rfl

/-! ### Machine/RegAccess -/

@[simp] theorem refuseWrite_mem (a : RegAcc) (s : State) : (refuseWrite a s).mem = s.mem := by simp [refuseWrite]





@[simp] theorem journalWrite_mem (a : RegAcc) (r : RegDef) (inst : Nat) (old new : W32) (wo : Nat) (s : State) :
    (journalWrite a r inst old new wo s).mem = s.mem := by
  simp [journalWrite]

@[simp] theorem mlockEvent_mem (off : Nat) (old new : W32) (s : State) : (mlockEvent off old new s).mem = s.mem := by simp [mlockEvent]

/-- The state after a rights check. -/
def Admit.state : Admit → State
  | .no s => s
  | .yes _ _ _ s => s

@[simp] theorem portRights_mem (a : RegAcc) (r : RegDef) (i : Nat) (s : State) : (portRights a r i s).state.mem = s.mem := by
  unfold portRights
  grind [Admit.state, refuseWrite_mem]

/-- The rights check of a write leaves memory as it is, whether it refuses the write or admits it. -/
@[simp] theorem admitWrite_mem (a : RegAcc) (s : State) : (admitWrite a s).state.mem = s.mem := by
  unfold admitWrite
  split
  · rfl
  · split
    · rfl
    · split
      · rfl
      · exact portRights_mem _ _ _ _

theorem admitWrite_no_mem {a : RegAcc} {s t : State} (h : admitWrite a s = .no t) : t.mem = s.mem := by
  rw [← admitWrite_mem a s, h]; rfl

theorem admitWrite_yes_mem {a : RegAcc} {r : RegDef} {i m : Nat} {s t : State} (h : admitWrite a s = .yes r i m t) : t.mem = s.mem := by
  rw [← admitWrite_mem a s, h]; rfl

/-- A rule of a register that keeps the canonical form of memory, in its guard and in its effect. -/
structure WriteRule.KeepsWf (w : WriteRule) : Prop where
  guard : ∀ i old cand s, Memory.wf s.mem = true → Memory.wf (w.guard i old cand s).2.mem = true
  effect : ∀ i old new v s, Memory.wf s.mem = true → Memory.wf (w.effect i old new v s).mem = true

theorem WriteRule.plain_keepsWf : WriteRule.plain.KeepsWf := ⟨fun _ _ _ _ h => h, fun _ _ _ _ _ h => h⟩

/-- A write of one register keeps the canonical form where its rule does. -/
theorem writeReg_wf {w : WriteRule} (hw : w.KeepsWf) (a : RegAcc) (s : State) (hm : Memory.wf s.mem = true) :
    Memory.wf (writeReg w a s).mem = true := by
  unfold writeReg
  split
  · rename_i hadm; rwa [admitWrite_no_mem hadm]
  · rename_i r i mask t hadm
    have ht : Memory.wf t.mem = true := by rwa [admitWrite_yes_mem hadm]
    exact hw.effect _ _ _ _ _ (by simp [hw.guard _ _ _ _ ht])







/-- A rule of a pair that keeps the canonical form of memory, in its guards and in its effect. -/
structure PairRule.KeepsWf (w : PairRule) : Prop where
  guard : ∀ i old cand s, Memory.wf s.mem = true → Memory.wf (w.guard i old cand s).2.mem = true
  effect : ∀ i old new s, Memory.wf s.mem = true → Memory.wf (w.effect i old new s).mem = true
  lowGuard : ∀ i s t, w.lowGuard i s = some t → Memory.wf s.mem = true → Memory.wf t.mem = true

theorem PairRule.plain_keepsWf : PairRule.plain.KeepsWf :=
  ⟨fun _ _ _ _ h => h, fun _ _ _ _ h => h, fun _ _ _ ht => absurd ht.symm (Option.some_ne_none _)⟩

/-- A guard that holds a pair keeps the canonical form where its error report leaves memory as it is. -/
theorem heldPair_keepsWf (busy : Nat → State → Bool) (err : Nat → State → State) (he : ∀ i s, (err i s).mem = s.mem) :
    (heldPair busy err).KeepsWf where
  guard i old cand s hm := by
    simp only [heldPair]
    split
    · exact (he i s).symm ▸ hm
    · exact hm
  effect _ _ _ _ hm := hm
  lowGuard i s t ht hm := by
    simp only [heldPair] at ht
    split at ht
    · rw [← Option.some.inj ht, he]; exact hm
    · exact absurd ht nofun

theorem holdLo_wf {w : PairRule} (hw : w.KeepsWf) (a : RegAcc) (s : State) (hm : Memory.wf s.mem = true) :
    Memory.wf (holdLo w a s).mem = true := by
  unfold holdLo
  split
  · rename_i hadm; rwa [admitWrite_no_mem hadm]
  · rename_i r i mask t hadm
    have ht : Memory.wf t.mem = true := by rwa [admitWrite_yes_mem hadm]
    split
    · rename_i hlow; exact hw.lowGuard _ _ _ hlow ht
    · rwa [State.setHalf_mem]

@[simp] theorem usePending_mem (a : RegAcc) (s : State) : (usePending a s).mem = s.mem := by
  unfold usePending
  split <;> simp

@[simp] theorem journalPair_mem (a : RegAcc) (r : RegDef) (inst old new : Nat) (s : State) : (journalPair a r inst old new s).mem = s.mem := by
  simp [journalPair]

/-- A write of a pair keeps the canonical form where its rule does. -/
theorem writeHi_wf {w : PairRule} (hw : w.KeepsWf) (a : RegAcc) (s : State) (hm : Memory.wf s.mem = true) :
    Memory.wf (writeHi w a s).mem = true := by
  unfold writeHi
  split
  · rename_i hadm; rwa [admitWrite_no_mem hadm]
  · rename_i r i mask t hadm
    have ht : Memory.wf (usePending a t).mem = true := by rwa [usePending_mem, admitWrite_yes_mem hadm]
    exact hw.effect _ _ _ _ (by simp [hw.guard _ _ _ _ ht])

@[simp] theorem clearRc_mem (r : RegDef) (i : Nat) (s : State) : (clearRc r i s).mem = s.mem := by simp [clearRc]

@[simp] theorem readThrough_mem (live : Nat → Nat → State → Option W32) (p : Port) (off : Nat) (s : State) :
    (readThrough live p off s).2.mem = s.mem := by
  unfold readThrough
  grind [clearRc_mem, State.setHalf_mem]

/-! ### Machine/Clock -/

@[simp] theorem failWait_mem (w : WaitAcc) (s : State) : (failWait w s).mem = s.mem := by
  unfold failWait
  split <;> simp

@[simp] theorem timeoutOne_mem (d : ClkDomain) (w : WaitAcc) (s : State) : (timeoutOne d w s).mem = s.mem := by simp [timeoutOne]

@[simp] theorem waitClock_mem (d : ClkDomain) (w : WaitAcc) (s : State) : (waitClock d w s).mem = s.mem := by simp [waitClock]

@[simp] theorem beginWake_mem (phys : Nat) (s : State) : (beginWake phys s).mem = s.mem := by
  unfold beginWake
  split <;> simp

@[simp] theorem clockTimeout_mem (d : ClkDomain) (s : State) : (clockTimeout d s).mem = s.mem := by
  unfold clockTimeout
  split
  · rfl
  · simp

@[simp] theorem hostTurn_mem (w : WaitAcc) (k : State → State) (s : State) (hk : (k s).mem = s.mem) : (hostTurn w k s).mem = s.mem := by
  simp [hostTurn, hk]

@[simp] theorem hostTurn_wf (w : WaitAcc) (k : State → State) (s : State) (hk : Memory.wf (k s).mem = true) (hm : Memory.wf s.mem = true) :
    Memory.wf (hostTurn w k s).mem = true := by
  simp [hostTurn, hk, hm]

@[simp] theorem portTurn_wf (a : RegAcc) (k : State → State) (s : State) (hk : Memory.wf (k s).mem = true) (hm : Memory.wf s.mem = true) :
    Memory.wf (portTurn a k s).mem = true := by
  unfold portTurn
  split <;> simp [hk, hm]

theorem portWrite_wf {w : WriteRule} (hw : w.KeepsWf) (a : RegAcc) (s : State) (hm : Memory.wf s.mem = true) :
    Memory.wf (portWrite w a s).mem = true := portTurn_wf _ _ _ (writeReg_wf hw a s hm) hm

end Sys2Proof.Machine
end

section
/-! PROOFS. Memory stays canonical (O59): HBM, the scalar and atomic accesses, tensor elements, Sluice, the tokenizers and the media contexts. A
`_mem` lemma says that a function leaves memory as it is, a `_wf` lemma that it keeps the canonical form. -/

namespace Sys2Proof.Machine

/-- A fact about a function follows from the fact about the term that defines it. Used where a definition contains a product with a large
literal: to unfold such a function in place, the kernel would count the literal down. -/
theorem of_definition {α : Sort*} (f : α) {g : α} (P : α → Prop) (h : f = g) (hg : P g) : P f := h ▸ hg

/-! ### Machine/Hbm -/

@[simp] theorem admitOne_mem (p : Nat) (s : State) : (admitOne p s).mem = s.mem := by
  simp only [admitOne]
  split
  · rfl
  · split
    · rfl
    · split
      · rfl
      · rename_i hpick
        have hs := pickWaiting_mem hpick
        split
        · exact hs
        · simpa using hs

@[simp] theorem markBad_mem (pa : Nat) (s : State) : (markBad pa s).mem = s.mem := by rfl

@[simp] theorem silentError_wf (pa : Nat) (s : State) (hm : Memory.wf s.mem = true) : Memory.wf (silentError pa s).mem = true := by
  simp [silentError, hm, freeRuns_wf]

@[simp] theorem applyHbmEvent_wf (ev : HbmEvent) (pa : Nat) (s : State) (hm : Memory.wf s.mem = true) :
    Memory.wf (applyHbmEvent ev pa s).mem = true := by
  unfold applyHbmEvent
  split <;> simp [hm]

@[simp] theorem serveMem_wf (q : MemReq) (s : State) (hm : Memory.wf s.mem = true) : Memory.wf (serveMem q s).mem = true := by
  unfold serveMem
  grind [servedRead_mem, memAnswer_mem, servedWrite_wf]

@[simp] theorem serveHbm_wf (q : MemReq) (ev : HbmEvent) (s : State) (hm : Memory.wf s.mem = true) : Memory.wf (serveHbm q ev s).mem = true := by
  simp [serveHbm, hm]

@[simp] theorem failDown_mem (p : Nat) (q : MemReq) (s : State) : (failDown p q s).mem = s.mem := by simp [failDown]

@[simp] theorem failAll_mem (p : Nat) (s : State) : (failAll p s).mem = s.mem := by simp [failAll]

@[simp] theorem serveOne_wf (p pick : Nat) (ev : HbmEvent) (s : State) (hm : Memory.wf s.mem = true) :
    Memory.wf (serveOne p pick ev s).mem = true := by
  unfold serveOne
  grind [State.setPc_mem, serveHbm_wf]

@[simp] theorem failPc_mem (p : Nat) (q : MemReq) (s : State) : (failPc p q s).mem = s.mem := by simp [failPc]

@[simp] theorem completeFrame_wf (f : Nat) (s : State) (hm : Memory.wf s.mem = true) : Memory.wf (completeFrame f s).mem = true := by
  refine foldl_wf _ (fun t e ht => ?_) _ _ hm
  dsimp only
  split
  · exact ht
  · exact foldl_wf _ (fun u q hu => serveHbm_wf _ _ _ hu) _ _ (by simpa using ht)

@[simp] theorem convertFrame_wf (f : Nat) (a : Bool) (s : State) (hm : Memory.wf s.mem = true) : Memory.wf (convertFrame f a s).mem = true := by
  simp [convertFrame, hm, zeroRange_wf]

@[simp] theorem fclassEffect_wf (idx : Nat) (old new : W32) (s : State) (hm : Memory.wf s.mem = true) :
    Memory.wf (fclassEffect idx old new s).mem = true := by
  unfold fclassEffect
  split
  · exact hm
  · exact foldl_wf _ (fun t f ht => convertFrame_wf _ _ _ (completeFrame_wf _ _ ht)) _ _ hm

@[simp] theorem fclassWrite_wf (a : RegAcc) (s : State) (hm : Memory.wf s.mem = true) : Memory.wf (fclassWrite a s).mem = true := by
  unfold fclassWrite
  split
  · exact hm
  · exact writeReg_wf ⟨fun _ _ _ _ ht => ht, fun _ _ _ _ _ ht => fclassEffect_wf _ _ _ _ ht⟩ a s hm

@[simp] theorem releaseHeld_wf (s : State) (hm : Memory.wf s.mem = true) : Memory.wf (releaseHeld s).mem = true :=
  foldl_wf _ (fun _ _ ht => fclassWrite_wf _ _ ht) _ _ hm

@[simp] theorem endConversion_wf (frame : Nat) (s : State) (hm : Memory.wf s.mem = true) : Memory.wf (endConversion frame s).mem = true := by
  simp [endConversion, hm]

@[simp] theorem scrubWord_wf (pa unit ceInst ceOff : Nat) (ev : HbmEvent) (s : State) (hm : Memory.wf s.mem = true) :
    Memory.wf (scrubWord pa unit ceInst ceOff ev s).mem = true := by
  unfold scrubWord
  split <;> simp [hm]

@[simp] theorem scrubReach_mem (pa : Nat) (s : State) : (scrubReach pa s).mem = s.mem := by simp [scrubReach, unitReach_mem]

@[simp] theorem fenceStack_mem (stack : Nat) (s : State) : (fenceStack stack s).mem = s.mem := by simp [fenceStack]

@[simp] theorem thermalToCol_mem (s : State) : (thermalToCol s).mem = s.mem := by rfl

@[simp] theorem pollStack_mem (stack t : Nat) (s : State) : (pollStack stack t s).mem = s.mem := by simp [pollStack]

/-! ### Machine/ScalarMem -/

@[simp] theorem checkedPa_mem (c : Ctx) (va : Nat) (need : Perm) (place : Nat → Bool) (align : Nat) (s : State) :
    (checkedPa c va need place align s).2.mem = s.mem := by
  unfold checkedPa
  grind [translate_mem]

@[simp] theorem loadIssue_mem (func : Nat) (a : Fin 96) (t : Fin 64) (s : State) : (loadIssue func a t s).mem = s.mem := by simp [loadIssue]

@[simp] theorem storeNow_wf (func a t w : Nat) (s : State) (hm : Memory.wf s.mem = true) : Memory.wf (storeNow func a t w s).mem = true := by
  unfold storeNow
  grind [checkedPa_mem, haltThread_mem, physWrite_wf, advance_mem]

@[simp] theorem storeIssue_wf (func : Nat) (a : Fin 96) (t : Fin 64) (s : State) (hm : Memory.wf s.mem = true) :
    Memory.wf (storeIssue func a t s).mem = true := by
  unfold storeIssue
  grind [issue_wf, storeNow_wf]

@[simp] theorem applyBitErr_mem (ev : BitErr) (pa : Nat) (s : State) : (applyBitErr ev pa s).mem = s.mem := by
  unfold applyBitErr
  split <;> simp

@[simp] theorem finishLoad_mem (a t func rd va : Nat) (ev : BitErr) (s : State) : (finishLoad a t func rd va ev s).mem = s.mem := by
  unfold finishLoad
  grind [checkedPa_mem, haltThread_mem, physRead_mem, applyBitErr_mem, State.setTh_mem, resume_mem]

@[simp] theorem finishAtomic_mem (a t rd : Nat) (s : State) : (finishAtomic a t rd s).mem = s.mem := by
  unfold finishAtomic
  split <;> simp

@[simp] theorem writeBase_mem (a t w : Nat) (f : Nat → W64 → Nat) (s : State) : (writeBase a t w f s).mem = s.mem := by simp [writeBase]

@[simp] theorem poolPush_mem (q : PoolReq) (s : State) : (poolPush q s).mem = s.mem := by rfl

@[simp] theorem poolIssue_mem (a t w width : Nat) (op : PoolOp) (k : Wait) (s : State) : (poolIssue a t w width op k s).mem = s.mem := by
  unfold poolIssue
  grind [checkedPa_mem, haltThread_mem, waitFor_mem, poolPush_mem]

@[simp] theorem atomIssue_mem (func : Nat) (a : Fin 96) (t : Fin 64) (s : State) : (atomIssue func a t s).mem = s.mem := by simp [atomIssue]

@[simp] theorem redStart_mem (a t seq src dst kind : Nat) (s : State) : (redStart a t seq src dst kind s).mem = s.mem := by
  unfold redStart
  grind [checkedPa_mem, opDone_mem, physRead_mem, poolPush_mem]

/-! ### Machine/Desc -/

@[simp] theorem outOfSpace_mem {α : Type} (va : Int) (s : State) : (outOfSpace (α := α) va s).2.mem = s.mem := by rfl

@[simp] theorem accView_mem (c : Ctx) (a : Nat) (d : Desc) (need : Perm) (s : State) : (accView c a d need s).2.mem = s.mem := by
  unfold accView
  grind [translate_mem]

@[simp] theorem descCheck_mem (c : Ctx) (a : Nat) (raw : BitVec 512) (need : Perm) (s : State) : (descCheck c a raw need s).2.mem = s.mem := by
  unfold descCheck
  grind [accView_mem]

@[simp] theorem noteAcc_mem (u : AccUse) (s : State) : (noteAcc u s).mem = s.mem := by simp [noteAcc]

@[simp] theorem freeElems_mem (p : AccKind → Bool) (pa : Nat) (l : List Byte) (s : State) : (freeElems p pa l s).2.mem = s.mem := by
  unfold freeElems
  split
  · rfl
  · exact foldl_snd_mem _ (fun x i => by dsimp only; split <;> rfl) _ _

/-- The accumulator elements that a write left undefined are drawn in canonical form (R225). -/
@[simp] theorem wroteAcc_wf (c : Ctx) (a t seq : Nat) (raw : BitVec 512) (r : MRes Unit) (hm : Memory.wf r.2.mem = true) :
    Memory.wf (wroteAcc c a t seq raw r).2.mem = true := by
  unfold wroteAcc
  split
  · exact hm
  · rw [noteAcc_mem]
    refine foldl_wf _ (fun u r hu => ?_) _ _ hm
    dsimp only
    split
    · simpa using hu
    · exact rawWrite_wf _ _ _ (by simpa using hu)

@[simp] theorem readLoc_mem (c : Ctx) (l : Loc) (n : Nat) (s : State) : (readLoc c l n s).2.mem = s.mem := by
  unfold readLoc
  grind [physRead_mem, vRead_mem, outOfSpace_mem]

@[simp] theorem readScale_mem (c : Ctx) (v : View) (idx : List Nat) (s : State) : (readScale c v idx s).2.mem = s.mem := by
  unfold readScale
  grind [readLoc_mem, translate_mem]

@[simp] theorem readElem_mem (c : Ctx) (v : View) (idx : List Int) (s : State) : (readElem c v idx s).2.mem = s.mem := by
  unfold readElem
  grind [readLoc_mem, readScale_mem]

/-- A map over a list leaves memory as it is where its function does. -/
@[simp] theorem mapM_mem {α β : Type} (f : α → State → MRes β) (hf : ∀ x s, (f x s).2.mem = s.mem) (l : List α) (s : State) :
    (mapM f l s).2.mem = s.mem := by
  induction l generalizing s with
  | nil => rfl
  | cons x r ih => unfold mapM; grind

/-- A map over a list keeps the canonical form where its function does. -/
theorem mapM_wf {α β : Type} (f : α → State → MRes β) (hf : ∀ x s, Memory.wf s.mem = true → Memory.wf (f x s).2.mem = true) (l : List α)
    (s : State) (hm : Memory.wf s.mem = true) : Memory.wf (mapM f l s).2.mem = true := by
  induction l generalizing s with
  | nil => exact hm
  | cons x r ih => unfold mapM; grind

@[simp] theorem checkWrite_mem (c : Ctx) (v : View) (e : WElem) (s : State) : (checkWrite c v e s).2.mem = s.mem := by
  unfold checkWrite
  grind [outOfSpace_mem, translate_mem]

@[simp] theorem writeRun_wf (c0 : Ctx) (v : View) (m : Nibs) (r : Nat × Nat) (s : State) (hm : Memory.wf s.mem = true) :
    Memory.wf (writeRun c0 v m r s).2.mem = true := by
  unfold writeRun
  grind [physWrite_wf, vWrite_wf, readLoc_mem]

@[simp] theorem writeScale_wf (c : Ctx) (l : ScaleLoc) (m : Nibs) (sc : Nat) (s : State) (hm : Memory.wf s.mem = true) :
    Memory.wf (writeScale c l m sc s).2.mem = true := by
  unfold writeScale
  grind [outOfSpace_mem, translate_mem, vWrite_wf, State.setScale_mem]

@[simp] theorem writeElems_wf (c : Ctx) (v : View) (es0 : List WElem) (scaleOf : WElem → Nat) (s : State) (hm : Memory.wf s.mem = true) :
    Memory.wf (writeElems c v es0 scaleOf s).2.mem = true := by
  simp only [writeElems]
  have hcheck := mapM_mem (checkWrite c v) (fun e => checkWrite_mem c v e) (padFilter v es0) s
  split <;> rename_i heq <;> rw [heq] at hcheck
  · rwa [hcheck]
  · rename_i s1
    have hrun := mapM_wf (writeRun c v (nibMap v (padFilter v es0))) (fun r => writeRun_wf c v _ r)
      (runs (touched (nibMap v (padFilter v es0)))) s1 (hcheck ▸ hm)
    split <;> rename_i heq2 <;> rw [heq2] at hrun
    · exact hrun
    · rename_i s2
      split
      · have hscale := mapM_wf (fun e t => writeScale c (v.scaleLoc e.idx) (nibMap v (padFilter v es0)) (scaleOf e) t)
          (fun e => writeScale_wf _ _ _ _) (firstOfBlocks v (padFilter v es0)) s2 hrun
        split <;> rename_i heq3 <;> rw [heq3] at hscale <;> exact hscale
      · exact hrun

/-- What is left of a failed transfer is in canonical form where the contents before it were. -/
theorem landSome_wf (c : Ctx) (v : View) (es : List WElem) (scaleOf : WElem → Nat) (before s : State) (hb : Memory.wf before.mem = true)
    (hm : Memory.wf s.mem = true) : Memory.wf (landSome c v es scaleOf before s).mem = true := by
  unfold landSome
  split
  · exact hm
  · refine foldl_wf _ (fun u p hu => ?_) _ before hb
    split
    · have hw := writeElems_wf c v p.2 scaleOf u hu
      split <;> simp_all
    · exact hu

@[simp] theorem writeOrLand_wf (c : Ctx) (v : View) (es : List WElem) (scaleOf : WElem → Nat) (s : State) (hm : Memory.wf s.mem = true) :
    Memory.wf (writeOrLand c v es scaleOf s).2.mem = true := by
  unfold writeOrLand
  grind [writeElems_wf, landSome_wf]

@[simp] theorem overlapReads_mem (c : Ctx) (v : View) (read : WElem → State → WElem) (es : List WElem) (s : State) :
    (overlapReads c v read es s).2.mem = s.mem := by
  unfold overlapReads
  split <;> rfl

/-! ### Machine/Intake -/

@[simp] theorem needClock_mem (d : ClkDomain) (rid : Nat) (k : State → State) (s : State) (hk : (k s).mem = s.mem) :
    (needClock d rid k s).mem = s.mem := by
  simp [needClock, hk]

@[simp] theorem needClock_wf (d : ClkDomain) (rid : Nat) (k : State → State) (s : State) (hk : Memory.wf (k s).mem = true)
    (hm : Memory.wf s.mem = true) : Memory.wf (needClock d rid k s).mem = true := by
  simp [needClock, hk, hm]

@[simp] theorem State.setIport_mem (s : State) (p : Nat) (x : IPort) : (s.setIport p x).mem = s.mem := by rfl

@[simp] theorem State.setIst_mem (s : State) (p n : Nat) (x : IStream) : (s.setIst p n x).mem = s.mem := by rfl

@[simp] theorem sendXoff_mem (p : Nat) (s : State) : (sendXoff p s).mem = s.mem := by rfl

@[simp] theorem sendXon_mem (p : Nat) (s : State) : (sendXon p s).mem = s.mem := by rfl

@[simp] theorem flowControl_mem (p old : Nat) (s : State) : (flowControl p old s).mem = s.mem := by simp [flowControl]

@[simp] theorem resumeFlow_mem (p : Nat) (s : State) : (resumeFlow p s).mem = s.mem := by simp [resumeFlow]

@[simp] theorem dropFrame_mem (p off : Nat) (s : State) : (dropFrame p off s).mem = s.mem := by rfl

@[simp] theorem itkFlag_mem (p b : Nat) (s : State) : (itkFlag p b s).mem = s.mem := by simp [itkFlag]

@[simp] theorem overflowFrame_mem (p : Nat) (f : List Byte) (s : State) : (overflowFrame p f s).mem = s.mem := by simp [overflowFrame]

@[simp] theorem storeFrame_mem (p : Nat) (f : List Byte) (s : State) : (storeFrame p f s).mem = s.mem := by simp [storeFrame]

@[simp] theorem ringWrite_wf (p n off : Nat) (d : List Byte) (s : State) (hm : Memory.wf s.mem = true) :
    Memory.wf (ringWrite p n off d s).2.mem = true := by
  refine of_definition ringWrite (fun f => Memory.wf (f p n off d s).2.mem = true) (by delta ringWrite; exact rfl) ?_
  obtain ⟨va, hva⟩ := exists_eq (a' := ringVa)
  obtain ⟨size, hsize⟩ := exists_eq (a' := ringBytes)
  rw [← hva, ← hsize]
  grind [vWrite_wf]

@[simp] theorem ringFault_mem (p n sample : Nat) (f : Fail) (s : State) : (ringFault p n sample f s).mem = s.mem := by simp [ringFault]

@[simp] theorem endSample_wf (p n flags : Nat) (s : State) (hm : Memory.wf s.mem = true) : Memory.wf (endSample p n flags s).mem = true := by
  refine of_definition endSample (fun f => Memory.wf (f p n flags s).mem = true) (by delta endSample; exact rfl) ?_
  have hw := ringWrite_wf
  obtain ⟨write, hwrite⟩ := exists_eq (a' := ringWrite)
  obtain ⟨size, hsize⟩ := exists_eq (a' := ringBytes)
  rw [← hsize, ← hwrite]
  rw [← hwrite] at hw
  grind [State.setIst_mem, ringFault_mem, State.count_mem]

@[simp] theorem storeSeg_wf (p n : Nat) (o : OpenSample) (h : List Byte) (s : State) (hm : Memory.wf s.mem = true) :
    Memory.wf (storeSeg p n o h s).mem = true := by
  refine of_definition storeSeg (fun f => Memory.wf (f p n o h s).mem = true) (by delta storeSeg; exact rfl) ?_
  have hw := ringWrite_wf
  obtain ⟨write, hwrite⟩ := exists_eq (a' := ringWrite)
  rw [← hwrite]
  rw [← hwrite] at hw
  grind [State.setIst_mem, ringFault_mem, endSample_wf]

@[simp] theorem takeSeg_wf (p : Nat) (h : List Byte) (tick : W64) (s : State) (hm : Memory.wf s.mem = true) :
    Memory.wf (takeSeg p h tick s).mem = true := by
  refine of_definition takeSeg (fun f => Memory.wf (f p h tick s).mem = true) (by delta takeSeg; exact rfl) ?_
  obtain ⟨size, hsize⟩ := exists_eq (a' := ringBytes)
  rw [← hsize]
  grind [storeSeg_wf, endSample_wf, State.count_mem]

@[simp] theorem cutSamples_wf (p : Nat) (s : State) (hm : Memory.wf s.mem = true) : Memory.wf (cutSamples p s).mem = true :=
  foldl_wf _ (fun _ _ ht => endSample_wf _ _ _ _ ht) _ _ hm

@[simp] theorem settleCuts_wf (p : Nat) (l : List SFrame) (s : State) (hm : Memory.wf s.mem = true) :
    Memory.wf (settleCuts p l s).mem = true := by
  fun_induction settleCuts p l s with
  | case1 dis r s s1 ih => exact ih (by simp [s1, hm])
  | case2 => exact hm

@[simp] theorem settle_wf (p : Nat) (s : State) (hm : Memory.wf s.mem = true) : Memory.wf (settle p s).mem = true := by simp [settle, hm]

@[simp] theorem cutPort_wf (p : Nat) (dis : Bool) (s : State) (hm : Memory.wf s.mem = true) : Memory.wf (cutPort p dis s).mem = true := by
  simp [cutPort, hm]

@[simp] theorem intakeLinkDown_wf (p : Nat) (s : State) (hm : Memory.wf s.mem = true) : Memory.wf (intakeLinkDown p s).mem = true := by
  simp [intakeLinkDown, hm]

@[simp] theorem itkCfgErr_mem (p : Nat) (s : State) : (itkCfgErr p s).mem = s.mem := by rfl

@[simp] theorem itkCtrlGuard_mem (p : Nat) (old cand : W32) (s : State) : (itkCtrlGuard p old cand s).2.mem = s.mem := by
  unfold itkCtrlGuard
  grind [itkCfgErr_mem]

@[simp] theorem itkCtrlEffect_wf (p : Nat) (old new : W32) (s : State) (hm : Memory.wf s.mem = true) :
    Memory.wf (itkCtrlEffect p old new s).mem = true := by
  simp [itkCtrlEffect, hm]

@[simp] theorem itkHeld_mem (p : Nat) (old cand : W32) (s : State) : (itkHeld p old cand s).2.mem = s.mem := by
  unfold itkHeld
  split <;> simp

/-! ### Machine/Tokeniser -/

@[simp] theorem loadSet_mem (k : Nat) (s : State) : (loadSet k s).2.mem = s.mem := by
  unfold loadSet
  grind [vRead_mem]

@[simp] theorem endLoad_mem (k : Nat) (code : Status) (s : State) : (endLoad k code s).mem = s.mem := by simp [endLoad]

/-! ### Machine/Media -/

@[simp] theorem State.setMctx_mem (s : State) (c : Nat) (x : MCtx) : (s.setMctx c x).mem = s.mem := by rfl

@[simp] theorem State.setBst_mem (s : State) (n : Nat) (x : BStream) : (s.setBst n x).mem = s.mem := by rfl

@[simp] theorem putSample_mem (m : MSample) (s : State) : (putSample m s).mem = s.mem := by rfl

@[simp] theorem medCfgErr_mem (s : State) : (medCfgErr s).mem = s.mem := by rfl

@[simp] theorem ringRead_mem (rid : Nat) (r : Nat × Nat) (off n : Nat) (s : State) : (ringRead rid r off n s).2.mem = s.mem := by
  unfold ringRead
  grind [vRead_mem]

@[simp] theorem ringPut_wf (rid : Nat) (r : Nat × Nat) (off : Nat) (d : List Byte) (s : State) (hm : Memory.wf s.mem = true) :
    Memory.wf (ringPut rid r off d s).2.mem = true := by
  unfold ringPut
  grind [vWrite_wf]

@[simp] theorem srcRead_mem (rid : Nat) (m : MSample) (o n : Nat) (s : State) : (srcRead rid m o n s).2.mem = s.mem := by
  unfold srcRead
  split
  · simp
  · rename_i d _
    have h := mapM_mem (fun i t => readLoc { rid := rid } ((⟨Desc.ofWord d, 0, 0, 0⟩ : View).loc [o + i, 0, 0, 0, 0, 0]) 1 t)
      (fun _ _ => readLoc_mem _ _ _ _) (List.range n) s
    grind

@[simp] theorem admitSample_mem (m : MSample) (s : State) : (admitSample m s).mem = s.mem := by simp [admitSample]

@[simp] theorem coreFault_mem (k : Nat) (f : Fail) (s : State) : (coreFault k f s).mem = s.mem := by simp [coreFault]

@[simp] theorem admitRing_mem (c : Nat) (s : State) : (admitRing c s).mem = s.mem := by
  unfold admitRing
  grind [ringRead_mem, coreFault_mem, admitSample_mem, State.setMctx_mem]

@[simp] theorem admitSubmit_mem (c : Nat) (s : State) : (admitSubmit c s).mem = s.mem := by
  unfold admitSubmit
  grind [admitSample_mem, State.setMctx_mem]

@[simp] theorem admitFrom_mem (c : Nat) (s : State) : (admitFrom c s).mem = s.mem := by
  unfold admitFrom
  split
  · simp
  · exact needClock_mem _ _ _ _ (admitRing_mem _ _)

@[simp] theorem startOn_mem (k : Nat) (m : MSample) (s : State) : (startOn k m s).mem = s.mem := by
  unfold startOn
  grind [putSample_mem, State.setRf_mem, State.count_mem]

@[simp] theorem coreOn_mem (k : Nat) (s : State) : (coreOn k s).mem = s.mem := by rfl

@[simp] theorem coreIdle_mem (k : Nat) (s : State) : (coreIdle k s).mem = s.mem := by rfl

@[simp] theorem readHead_mem (k head : Nat) (m : MSample) (s : State) : (readHead k head m s).2.mem = s.mem := by
  unfold readHead
  grind [srcRead_mem]

@[simp] theorem keepParams_mem (m : MSample) (b : List Byte) (s : State) : (keepParams m b s).mem = s.mem := by simp [keepParams]

@[simp] theorem notePicture_mem (m : MSample) (h : MedHdr) (s : State) : (notePicture m h s).mem = s.mem := by simp [notePicture]

@[simp] theorem markRead_mem (m : MSample) (s : State) : (markRead m s).mem = s.mem := by rfl

@[simp] theorem advanceSource_mem (k c : Nat) (s : State) : (advanceSource k c s).mem = s.mem := by
  unfold advanceSource
  grind [State.setMctx_mem, State.setReg_mem, deviceSetReg_mem]

@[simp] theorem setFb_mem (i : Nat) (f : FrameBuf → FrameBuf) (s : State) : (setFb i f s).mem = s.mem := by
  unfold setFb
  split <;> simp

@[simp] theorem markRefs_mem (c : Nat) (l : List RefPoc) (s : State) : (markRefs c l s).mem = s.mem := by rfl

@[simp] theorem showFree_mem (s : State) : (showFree s).mem = s.mem := by rfl

@[simp] theorem retireCtx_mem (c : Nat) (s : State) : (retireCtx c s).mem = s.mem := by simp [retireCtx]

@[simp] theorem releaseFb_mem (i : Nat) (s : State) : (releaseFb i s).mem = s.mem := by
  unfold releaseFb
  split <;> simp

@[simp] theorem enableCtx_mem (c : Nat) (s : State) : (enableCtx c s).mem = s.mem := by simp [enableCtx]

@[simp] theorem medSubmit_mem (a t q c id : Nat) (da : BitVec 512) (s : State) : (medSubmit a t q c id da s).mem = s.mem := by
  unfold medSubmit
  grind [opDone_mem, descCheck_mem, State.setMctx_mem]

@[simp] theorem medAdvance_mem (a t q c : Nat) (v : W64) (s : State) : (medAdvance a t q c v s).mem = s.mem := by simp [medAdvance]

@[simp] theorem medIssue_mem (func : Nat) (a : Fin 96) (t : Fin 64) (s : State) : (medIssue func a t s).mem = s.mem := by simp [medIssue]

end Sys2Proof.Machine
end

section
/-! PROOFS. Memory stays canonical (O59): Lading, the queues of the host, DMA and the vector and row units. A `_mem` lemma says that a function
leaves memory as it is, a `_wf` lemma that it keeps the canonical form. -/

namespace Sys2Proof.Machine

/-! ### Machine/Composer -/

@[simp] theorem batCfgErr_mem (s : State) : (batCfgErr s).mem = s.mem := by rfl

@[simp] theorem putBst_mem (n : Nat) (b : BStream) (s : State) : (putBst n b s).mem = s.mem := by rfl

@[simp] theorem freeSlot_mem (n : Nat) (s : State) : (freeSlot n s).mem = s.mem := by rfl

@[simp] theorem classify_mem (n ctx order : Nat) (r : List Byte) (area : Nat) (lone : Bool) (s : State) :
    (classify n ctx order r area lone s).mem = s.mem := by rfl

@[simp] theorem readPlanes_mem (rd : Nat → Nat → State → MRes (List Byte)) (r : List Byte) (s : State) (hrd : ∀ o n t, (rd o n t).2.mem = t.mem) :
    (readPlanes rd r s).2.mem = s.mem :=
  mapM_mem _ (fun _ _ => mapM_mem _ (fun _ _ => hrd _ _ _) _ _) _ _

@[simp] theorem dataReader_mem (c : CSample) (s0 : State) (off n : Nat) (s : State) : (dataReader c s0 off n s).2.mem = s.mem := by
  unfold dataReader
  split
  · exact vRead_mem _ _ _ _ _
  · exact ringRead_mem _ _ _ _ _

@[simp] theorem readBox_mem (n ctx : Nat) (s : State) : (readBox n ctx s).2.mem = s.mem := by simp [readBox, vRead_mem]

@[simp] theorem composePiece_mem (n k : Nat) (c : CSample) (s : State) : (composePiece n k c s).2.mem = s.mem := by
  have hplanes := readPlanes_mem (dataReader c s) c.rec_ s (dataReader_mem c s)
  have hdata := dataReader_mem c s 0 (leAt c.rec_ 12 4) s
  unfold composePiece
  (repeat' split) <;> grind [readBox_mem]

@[simp] theorem laneCode_mem (sr : Bool) (f : Option W64 → Nat × Option W64) (e : Nat) (s : State) : (laneCode sr f e s).2.mem = s.mem := by
  unfold laneCode
  grind []

@[simp] theorem laneCodes_mem (sr : Bool) (f : Fp → Option W64 → Nat × Option W64) (e : Nat) (l : List Fp) (s : State) :
    (laneCodes sr f e l s).2.mem = s.mem := by
  induction l generalizing e s with
  | nil => rfl
  | cons v r ih => simp [laneCodes, ih]

@[simp] theorem putBlock_wf (va : Nat) (codes : List Nat) (sc : Nat) (s : State) (hm : Memory.wf s.mem = true) :
    Memory.wf (putBlock va codes sc s).2.mem = true := by
  unfold putBlock
  grind [translate_mem, vWrite_wf]

@[simp] theorem putBlocks_wf (f : Fmt) (sat sr : Bool) (k va e : Nat) (l : List Fp) (s : State) (hm : Memory.wf s.mem = true) :
    Memory.wf (putBlocks f sat sr k va e l s).2.mem = true := by
  induction k generalizing va e l s with
  | zero => exact hm
  | succ k ih => unfold putBlocks; grind [laneCodes_mem, putBlock_wf]

@[simp] theorem putData_wf (n : Nat) (b : Batch) (va : Nat) (p : Piece) (s : State) (hm : Memory.wf s.mem = true) :
    Memory.wf (putData n b va p s).2.mem = true := by
  unfold putData
  grind [vWrite_wf, putBlocks_wf, laneCodes_mem]

@[simp] theorem putPosition_wf (n : Nat) (b : Batch) (pos : Nat) (entry : List Byte) (p : Piece) (s : State) (hm : Memory.wf s.mem = true) :
    Memory.wf (putPosition n b pos entry p s).2.mem = true := by
  unfold putPosition
  grind [vWrite_wf, putData_wf]

@[simp] theorem putBatch_mem (n : Nat) (x : Batch) (s : State) : (putBatch n x s).mem = s.mem := by rfl

@[simp] theorem batchFault_mem (n buf sample : Nat) (f : Fail) (s : State) : (batchFault n buf sample f s).mem = s.mem := by simp [batchFault]

/-- The fillers of a batch keep the canonical form. The bytes of a filler entry are named first: nothing is to be computed with them. -/
@[simp] theorem putFillers_wf (n : Nat) (b : Batch) (k pos : Nat) (s : State) (hm : Memory.wf s.mem = true) :
    Memory.wf (putFillers n b k pos s).2.mem = true := by
  refine of_definition putFillers (fun f => Memory.wf (f n b k pos s).2.mem = true) (by delta putFillers putFillers._f; exact rfl) ?_
  obtain ⟨entry, hentry⟩ := exists_eq (a' := fillerEntry)
  rw [← hentry]
  induction k generalizing pos s with
  | zero => exact hm
  | succ k ih =>
    have hput := putPosition_wf n b pos entry Piece.zero s hm
    rcases hr : putPosition n b pos entry Piece.zero s with ⟨_ | _, t⟩ <;> rw [hr] at hput <;> dsimp only <;> rw [hr]
    · exact hput
    · exact ih (pos + 1) (t.count n Reg.BAT_EMPTIES 1) hput

@[simp] theorem closeBatch_wf (n : Nat) (x : Batch) (s : State) (hm : Memory.wf s.mem = true) : Memory.wf (closeBatch n x s).mem = true := by
  unfold closeBatch
  grind [putBst_mem, vWrite_wf, batchFault_mem, State.count64_mem, State.count_mem]

@[simp] theorem tryClose_wf (n buf : Nat) (s : State) (hm : Memory.wf s.mem = true) : Memory.wf (tryClose n buf s).mem = true := by
  unfold tryClose
  split <;> simp [hm]

@[simp] theorem flushBatch_wf (n : Nat) (x : Batch) (s : State) (hm : Memory.wf s.mem = true) : Memory.wf (flushBatch n x s).mem = true := by
  unfold flushBatch
  grind [putBatch_mem, tryClose_wf, putFillers_wf, batchFault_mem]

@[simp] theorem flushAll_wf (n : Nat) (s : State) (hm : Memory.wf s.mem = true) : Memory.wf (flushAll n s).mem = true :=
  foldl_wf _ (fun _ _ ht => flushBatch_wf _ _ _ ht) _ _ hm

@[simp] theorem drain_wf (n : Nat) (s : State) (hm : Memory.wf s.mem = true) : Memory.wf (drain n s).mem = true := by simp [drain, hm]

@[simp] theorem openIn_mem (n k buf : Nat) (s : State) : (openIn n k buf s).mem = s.mem := by rfl

@[simp] theorem takePosition_mem (n : Nat) (c : CSample) (x : Batch) (s : State) : (takePosition n c x s).mem = s.mem := by simp [takePosition]

@[simp] theorem assignTo_mem (n k : Nat) (c : CSample) (s : State) : (assignTo n k c s).mem = s.mem := by
  unfold assignTo
  grind [takePosition_mem, openIn_mem]

@[simp] theorem passAreas_mem (ctx : Nat) (s : State) : (passAreas ctx s).mem = s.mem := by
  unfold passAreas
  grind [deviceSetReg_mem, State.setMctx_mem]

@[simp] theorem passSample_mem (c : CSample) (s : State) : (passSample c s).mem = s.mem := by simp [passSample]

@[simp] theorem pieceOf_mem (n k : Nat) (c : CSample) (s : State) : (pieceOf n k c s).2.2.mem = s.mem := by
  unfold pieceOf
  grind [composePiece_mem]

@[simp] theorem composeNext_wf (n : Nat) (x : Batch) (s : State) (hm : Memory.wf s.mem = true) : Memory.wf (composeNext n x s).mem = true := by
  unfold composeNext
  grind [drain_wf, tryClose_wf, passSample_mem, freeSlot_mem, putBatch_mem, pieceOf_mem, putPosition_wf, batchFault_mem, State.count_mem]

@[simp] theorem releaseBuf_mem (n buf : Nat) (s : State) : (releaseBuf n buf s).mem = s.mem := by simp [releaseBuf]

@[simp] theorem enableStream_wf (n : Nat) (s : State) (hm : Memory.wf s.mem = true) : Memory.wf (enableStream n s).mem = true := by
  simp [enableStream, hm]

/-! ### Machine/HostQueue -/

@[simp] theorem State.setCq_mem (s : State) (q : Nat) (x : HCq) : (s.setCq q x).mem = s.mem := by rfl

@[simp] theorem hstCfgErr_mem (s : State) : (hstCfgErr s).mem = s.mem := by rfl

@[simp] theorem showInflight_mem (q : Nat) (s : State) : (showInflight q s).mem = s.mem := by rfl

@[simp] theorem readEntry_mem (q : Nat) (entry : Option (List Byte)) (s : State) : (readEntry q entry s).2.mem = s.mem := by
  unfold readEntry
  grind [vRead_mem]

@[simp] theorem fetchError_mem (q : Nat) (f : Fail) (s : State) : (fetchError q f s).mem = s.mem := by simp [fetchError]

@[simp] theorem takeEntry_mem (q : Nat) (raw : List Byte) (s : State) : (takeEntry q raw s).mem = s.mem := by simp [takeEntry]

@[simp] theorem takeNext_mem (entry : Option (List Byte)) (s : State) : (takeNext entry s).mem = s.mem := by
  unfold takeNext
  split
  · rfl
  · split
    · rfl
    · rename_i q s1 hgrant
      have h1 := rrGrant_mem hgrant
      have h2 := readEntry_mem q entry s1
      split <;> rename_i heq <;> rw [heq] at h2 <;> simpa using h2.trans h1

@[simp] theorem modEntry_mem (q k : Nat) (f : HEntry → HEntry) (s : State) : (modEntry q k f s).mem = s.mem := by rfl

@[simp] theorem copyIn_wf (va n : Nat) (data : List Byte) (good : Bool) (s : State) (hm : Memory.wf s.mem = true) :
    Memory.wf (copyIn va n data good s).2.mem = true := by
  unfold copyIn
  grind [vWrite_wf]

@[simp] theorem copyOut_mem (k va ha n : Nat) (s : State) : (copyOut k va ha n s).2.mem = s.mem := by
  induction k generalizing va ha n s with
  | zero => rfl
  | succ k ih => unfold copyOut; grind [vRead_mem, State.emit_mem]

@[simp] theorem copyRun_wf (raw data : List Byte) (good : Bool) (s : State) (hm : Memory.wf s.mem = true) :
    Memory.wf (copyRun raw data good s).2.mem = true := by
  unfold copyRun
  grind [copyIn_wf, copyOut_mem]

@[simp] theorem putCompl_wf (c : Nat) (bytes : List Byte) (good : Bool) (s : State) (hm : Memory.wf s.mem = true) :
    Memory.wf (putCompl c bytes good s).2.mem = true := by
  unfold putCompl
  grind [vWrite_wf, State.emit_mem]

@[simp] theorem signalCq_mem (c : Nat) (s : State) : (signalCq c s).mem = s.mem := by simp [signalCq]

@[simp] theorem coalesce_mem (c : Nat) (s : State) : (coalesce c s).mem = s.mem := by simp [coalesce]

@[simp] theorem advanceTail_mem (c : Nat) (s : State) : (advanceTail c s).mem = s.mem := by simp [advanceTail]

@[simp] theorem dropEntry_mem (q c : Nat) (s : State) : (dropEntry q c s).mem = s.mem := by rfl

@[simp] theorem writeError_mem (q c : Nat) (e : HEntry) (f : Fail) (s : State) : (writeError q c e f s).mem = s.mem := by simp [writeError]

@[simp] theorem doorbellErr_mem (q : Nat) (s : State) : (doorbellErr q s).mem = s.mem := by rfl

@[simp] theorem bar0Write_wf (whole poison : Bool) (k : State → State) (s : State) (hk : Memory.wf (k s).mem = true)
    (hm : Memory.wf s.mem = true) : Memory.wf (bar0Write whole poison k s).mem = true := by
  simp [bar0Write, hk, hm]

@[simp] theorem tailDoorbell_mem (q v : Nat) (s : State) : (tailDoorbell q v s).mem = s.mem := by simp [tailDoorbell]

@[simp] theorem headDoorbell_mem (q v : Nat) (s : State) : (headDoorbell q v s).mem = s.mem := by simp [headDoorbell]

@[simp] theorem enabledCtrl_mem (old cand : W32) (s : State) : (enabledCtrl old cand s).2.mem = s.mem := by
  unfold enabledCtrl
  split <;> simp

@[simp] theorem discardHeld_mem (c q k : Nat) (s : State) : (discardHeld c q k s).mem = s.mem := by
  induction k generalizing s with
  | zero => rfl
  | succ k ih => unfold discardHeld; split <;> simp [ih]

@[simp] theorem startCq_mem (c : Nat) (s : State) : (startCq c s).mem = s.mem := by simp [startCq]

@[simp] theorem deliverPending_mem (s : State) : (deliverPending s).mem = s.mem := by
  unfold deliverPending
  split
  · rfl
  · exact foldl_mem _ (fun _ _ => State.emit_mem _ _) _ _

/-! ### Machine/Dma -/

@[simp] theorem setDmaQueue_mem (a q : Nat) (l : List DmaOp) (s : State) : (setDmaQueue a q l s).mem = s.mem := by rfl

@[simp] theorem dmaIssue_mem (func : Nat) (a : Fin 96) (t : Fin 64) (s : State) : (dmaIssue func a t s).mem = s.mem := by simp [dmaIssue]

@[simp] theorem dmaCheck_mem (c : Ctx) (a : Nat) (raw : BitVec 512) (need : Perm) (empty : Bool) (s : State) :
    (dmaCheck c a raw need empty s).2.mem = s.mem := by
  unfold dmaCheck
  grind [descCheck_mem]

@[simp] theorem readIndex_mem (c : Ctx) (v : View) (n : Nat) (s : State) : (readIndex c v n s).2.mem = s.mem :=
  mapM_mem _ (fun i t => by grind [readElem_mem]) _ _

@[simp] theorem pullElem_mem (c : Ctx) (op : DmaOp) (sv dv : View) (ix : List Int) (l : Nat) (s : State) :
    (pullElem c op sv dv ix l s).2.mem = s.mem := by
  unfold pullElem
  grind [readElem_mem]

@[simp] theorem pushElem_mem (c : Ctx) (op : DmaOp) (sv dv : View) (ix : List Int) (l : Nat) (s : State) :
    (pushElem c op sv dv ix l s).2.mem = s.mem := by
  unfold pushElem
  grind [readElem_mem, State.count64_mem]

@[simp] theorem dmaMove_wf (c : Ctx) (op : DmaOp) (sv dv : View) (ix : List Int) (s : State) (hm : Memory.wf s.mem = true) :
    Memory.wf (dmaMove c op sv dv ix s).2.mem = true := by
  unfold dmaMove
  grind [pushElem_mem, pullElem_mem, mapM_wf, landSome_wf, overlapReads_mem, writeOrLand_wf]

@[simp] theorem dmaCopyRun_wf (c : Ctx) (a : Nat) (op : DmaOp) (s : State) (hm : Memory.wf s.mem = true) :
    Memory.wf (dmaCopyRun c a op s).2.mem = true := by
  unfold dmaCopyRun
  grind (splits := 20) (gen := 20) [dmaCheck_mem, readIndex_mem, dmaMove_wf]

@[simp] theorem dmaFillRun_wf (c : Ctx) (a : Nat) (op : DmaOp) (s : State) (hm : Memory.wf s.mem = true) :
    Memory.wf (dmaFillRun c a op s).2.mem = true := by
  unfold dmaFillRun
  grind [dmaCheck_mem, writeOrLand_wf]

@[simp] theorem touchStore_mem (a lo n : Nat) (s : State) : (touchStore a lo n s).mem = s.mem := by rfl

@[simp] theorem progBytes_mem (c : Ctx) (v : View) (ls : List Nat) (s : State) : (progBytes c v ls s).2.mem = s.mem := by
  unfold progBytes
  grind [mapM_mem, outOfSpace_mem, vRead_mem]

/-- What is left of a failed dma.prog is in canonical form where the contents before it were. -/
theorem landProg_wf (c : Ctx) (v : View) (p lo : Nat) (before s : State) (hb : Memory.wf before.mem = true) :
    Memory.wf (landProg c v p lo before s).mem = true := by
  refine foldl_wf _ (fun u i hu => ?_) _ _ hb
  split
  · split
    · exact rawWrite_wf _ _ _ hu
    · exact hu
  · exact hu

@[simp] theorem dmaProgRun_wf (c : Ctx) (a : Nat) (op : DmaOp) (s : State) (hm : Memory.wf s.mem = true) :
    Memory.wf (dmaProgRun c a op s).2.mem = true := by
  refine of_definition dmaProgRun (fun f => Memory.wf (f c a op s).2.mem = true) (by delta dmaProgRun; exact rfl) ?_
  obtain ⟨addr, haddr⟩ := exists_eq (a' := psAddr)
  rw [← haddr]
  dsimp only
  (repeat' split) <;> grind [dmaCheck_mem, progBytes_mem, touchStore_mem, physWrite_wf, landProg_wf]

@[simp] theorem dmaRun_wf (a : Nat) (op : DmaOp) (s : State) (hm : Memory.wf s.mem = true) : Memory.wf (dmaRun a op s).mem = true := by
  unfold dmaRun
  grind [dmaFillRun_wf, dmaProgRun_wf, dmaCopyRun_wf, wroteAcc_wf, opOk_mem, opDone_mem]

/-! ### Machine/Vec -/

@[simp] theorem placeLoc_mem (c : Ctx) (a : Nat) (need : Perm) (l : Loc) (s : State) : (placeLoc c a need l s).2.mem = s.mem := by
  unfold placeLoc
  grind [outOfSpace_mem, translate_mem]

@[simp] theorem vecCheck_mem (c : Ctx) (a : Nat) (raw : BitVec 512) (need : Perm) (empty : Bool) (s : State) :
    (vecCheck c a raw need empty s).2.mem = s.mem := by
  unfold vecCheck
  grind [descCheck_mem, placeLoc_mem]

@[simp] theorem placeScale_mem (c : Ctx) (a : Nat) (need : Perm) (l : ScaleLoc) (s : State) : (placeScale c a need l s).2.mem = s.mem := by
  unfold placeScale
  split <;> simp

@[simp] theorem placeElem_mem (c : Ctx) (a : Nat) (v : View) (need : Perm) (idx : List Nat) (s : State) :
    (placeElem c a v need idx s).2.mem = s.mem := by
  unfold placeElem
  grind [placeLoc_mem, placeScale_mem]

@[simp] theorem vecElem_mem (c : Ctx) (a : Nat) (v : View) (idx : List Int) (s : State) : (vecElem c a v idx s).2.mem = s.mem := by
  unfold vecElem
  grind [placeElem_mem, readElem_mem, State.drawFree_mem]

@[simp] theorem vecWrite_wf (c : Ctx) (a : Nat) (v : View) (es : List WElem) (scaleOf : WElem → Nat) (s : State) (hm : Memory.wf s.mem = true) :
    Memory.wf (vecWrite c a v es scaleOf s).2.mem = true := by
  unfold vecWrite
  grind [placeElem_mem, mapM_wf, landSome_wf, writeOrLand_wf]

@[simp] theorem vConvert_mem (a : Nat) (v : View) (sr : Bool) (es : List VElem) (e : VElem) (s : State) : (vConvert a v sr es e s).2.mem = s.mem := by
  unfold vConvert
  grind []

@[simp] theorem vConvertAll_mem (a : Nat) (v : View) (sr : Bool) (es : List VElem) (s : State) : (vConvertAll a v sr es s).2.mem = s.mem := by
  simp [vConvertAll]

@[simp] theorem vStore_wf (c : Ctx) (a : Nat) (v : View) (sr : Bool) (es0 : List VElem) (s : State) (hm : Memory.wf s.mem = true) :
    Memory.wf (vStore c a v sr es0 s).2.mem = true := by
  simp [vStore, hm]

@[simp] theorem vLand_wf (c : Ctx) (a : Nat) (v : View) (sr : Bool) (es : List VElem) (before s : State) (hb : Memory.wf before.mem = true)
    (hm : Memory.wf s.mem = true) : Memory.wf (vLand c a v sr es before s).mem = true :=
  landSome_wf _ _ _ _ _ _ hb hm

@[simp] theorem readOps_mem (c : Ctx) (a : Nat) (op : VecOp) (va vb vc : View) (idx : List Int) (s : State) :
    (readOps c a op va vb vc idx s).2.mem = s.mem := by
  unfold readOps
  grind [vecElem_mem]

@[simp] theorem countVec_mem (a n rate : Nat) (s : State) : (countVec a n rate s).mem = s.mem := by
  unfold countVec
  split <;> simp

@[simp] theorem vecChecks_mem (c : Ctx) (a : Nat) (op : VecOp) (s : State) : (vecChecks c a op s).2.mem = s.mem := by
  unfold vecChecks
  grind [vecCheck_mem]

@[simp] theorem vecOne_mem (c : Ctx) (a : Nat) (op : VecOp) (va vb vc vd : View) (l : Nat) (s : State) :
    (vecOne c a op va vb vc vd l s).2.mem = s.mem := by
  unfold vecOne
  grind [readOps_mem]

/-- The elements of a vec operation are formed by reads, counted and stored. -/
theorem vecThrough_wf (c : Ctx) (a : Nat) (v : View) (sr : Bool) (count : List VElem → State → State) (f : Nat → State → MRes VElem) (n : Nat)
    (s : State) (hcount : ∀ es u, (count es u).mem = u.mem) (hf : ∀ i u, (f i u).2.mem = u.mem) (hm : Memory.wf s.mem = true) :
    Memory.wf (vecThrough c a v sr count f n s).2.mem = true := by
  have h := mapM_mem f hf (List.range n) s
  unfold vecThrough
  split <;> rename_i heq <;> rw [heq] at h
  · exact vLand_wf _ _ _ _ _ _ _ hm (h ▸ hm)
  · exact vStore_wf _ _ _ _ _ _ (by rw [hcount, h]; exact hm)

@[simp] theorem vecMap_wf (c : Ctx) (a : Nat) (op : VecOp) (s : State) (hm : Memory.wf s.mem = true) : Memory.wf (vecMap c a op s).2.mem = true := by
  have h := vecChecks_mem c a op s
  unfold vecMap
  split <;> rename_i heq <;> rw [heq] at h
  · exact h ▸ hm
  · split
    · exact h ▸ hm
    · split
      · exact h ▸ hm
      · exact vecThrough_wf _ _ _ _ _ _ _ _ (fun _ _ => countVec_mem _ _ _ _) (fun _ _ => vecOne_mem _ _ _ _ _ _ _ _ _) (h ▸ hm)

@[simp] theorem readRow_mem (c : Ctx) (a : Nat) (v : View) (n : Nat) (rest : List Int) (s : State) : (readRow c a v n rest s).2.mem = s.mem :=
  mapM_mem _ (fun i t => by grind [vecElem_mem]) _ _

@[simp] theorem redElem_mem (c : Ctx) (a : Nat) (op : VecOp) (va vd : View) (l : Nat) (s : State) : (redElem c a op va vd l s).2.mem = s.mem := by
  unfold redElem
  grind [readRow_mem]

@[simp] theorem vecRed_wf (c : Ctx) (a : Nat) (op : VecOp) (s : State) (hm : Memory.wf s.mem = true) : Memory.wf (vecRed c a op s).2.mem = true := by
  have h := vecChecks_mem c a op s
  unfold vecRed
  split <;> rename_i heq <;> rw [heq] at h
  · exact h ▸ hm
  · split
    · exact h ▸ hm
    · split
      · exact h ▸ hm
      · exact vecThrough_wf _ _ _ _ _ _ _ _ (fun _ _ => countVec_mem _ _ _ _) (fun _ _ => redElem_mem _ _ _ _ _ _ _) (h ▸ hm)

@[simp] theorem finish_mem (a t q : Nat) (r : MRes Unit) : (finish a t q r).mem = r.2.mem := by
  unfold finish
  split <;> simp

@[simp] theorem vecWrote_wf (a t q : Nat) (op : VecOp) (r : MRes Unit) (hm : Memory.wf r.2.mem = true) :
    Memory.wf (vecWrote a t q op r).2.mem = true := by
  unfold vecWrote
  split
  · exact wroteAcc_wf _ _ _ _ _ _ hm
  · exact hm

@[simp] theorem vecIssue_wf (func : Nat) (a : Fin 96) (t : Fin 64) (s : State) (hm : Memory.wf s.mem = true) :
    Memory.wf (vecIssue func a t s).mem = true := by
  refine issue_wf _ _ _ _ _ _ (fun w ext u hu => ?_) hm
  dsimp only
  split
  · simpa using hu
  · refine issueAsync_wf _ _ _ _ _ _ (fun q v hv => ?_) hu
    rw [finish_mem]
    apply vecWrote_wf
    split
    · exact vecRed_wf _ _ _ _ hv
    · exact vecMap_wf _ _ _ _ hv

/-! ### Machine/Row -/

@[simp] theorem State.setRs_mem (s : State) (a : Nat) (r : RowStat) : (s.setRs a r).mem = s.mem := by rfl

@[simp] theorem spillPa_mem (c : Ctx) (va : Nat) (need : Perm) (s : State) : (spillPa c va need s).2.mem = s.mem := by
  unfold spillPa
  grind [translate_mem]

@[simp] theorem readStat_mem (c : Ctx) (a : Nat) (l : StatLoc) (row : Nat) (s : State) : (readStat c a l row s).2.mem = s.mem := by
  refine of_definition readStat (fun f => (f c a l row s).2.mem = s.mem) (by delta readStat; exact rfl) ?_
  have hread := fun c pa t => physRead_mem c pa 8 t
  obtain ⟨read, hr⟩ := exists_eq (a' := physRead)
  obtain ⟨window, hwindow⟩ := exists_eq (a' := windowOf)
  rw [← hwindow, ← hr]
  rw [← hr] at hread
  grind [spillPa_mem, vecElem_mem]

@[simp] theorem writeStat_wf (c : Ctx) (a : Nat) (l : StatLoc) (row : Nat) (m r : Fp) (s : State) (hm : Memory.wf s.mem = true) :
    Memory.wf (writeStat c a l row m r s).2.mem = true := by
  unfold writeStat
  grind [physWrite_wf, spillPa_mem, vecWrite_wf]

@[simp] theorem statLoc_mem (c : Ctx) (a : Nat) (op : RowOp) (rows : Nat) (need : Perm) (s : State) : (statLoc c a op rows need s).2.mem = s.mem := by
  unfold statLoc
  grind [vecCheck_mem]

@[simp] theorem rowOf_mem (c : Ctx) (a : Nat) (v : View) (row : Nat) (s : State) : (rowOf c a v row s).2.mem = s.mem := by simp [rowOf]

@[simp] theorem countRow_mem (a : Nat) (op : RowOp) (d : Desc) (s : State) : (countRow a op d s).mem = s.mem := by
  unfold countRow
  split <;> simp

@[simp] theorem rowStep_wf (c : Ctx) (a : Nat) (op : RowOp) (va vx : View) (l : StatLoc) (row : Nat) (s : State) (hm : Memory.wf s.mem = true) :
    Memory.wf (rowStep c a op va vx l row s).2.mem = true := by
  unfold rowStep
  grind [rowOf_mem, writeStat_wf, readStat_mem]

@[simp] theorem rowRun_wf (c : Ctx) (a : Nat) (op : RowOp) (s : State) (hm : Memory.wf s.mem = true) : Memory.wf (rowRun c a op s).2.mem = true := by
  have hrows := fun va vx l => mapM_wf (rowStep c a op va vx l) (rowStep_wf c a op va vx l)
  unfold rowRun
  dsimp only
  (repeat' split) <;> grind [vecCheck_mem, statLoc_mem, vLand_wf, vStore_wf, countRow_mem]

@[simp] theorem topkRun_wf (c : Ctx) (a : Nat) (op : RowOp) (s : State) (hm : Memory.wf s.mem = true) : Memory.wf (topkRun c a op s).2.mem = true := by
  have hrows := fun va => mapM_mem (rowOf c a va) (rowOf_mem c a va)
  unfold topkRun
  dsimp only
  (repeat' split) <;> grind [vecCheck_mem, vLand_wf, vStore_wf, countRow_mem]

@[simp] theorem tagRun_mem (a tag : Nat) (v : W64) (s : State) : (tagRun a tag v s).2.mem = s.mem := by
  unfold tagRun
  grind [State.setRs_mem]

@[simp] theorem spillRun_mem (a : Nat) (va size : W64) (s : State) : (spillRun a va size s).2.mem = s.mem := by
  unfold spillRun
  grind [State.setRs_mem]

@[simp] theorem tresetRun_mem (a : Nat) (s : State) : (tresetRun a s).2.mem = s.mem := by rfl

theorem rowIssue_wf (func : Nat) (run : Thread → Ctx → Nat → Nat → State → MRes Unit) (a : Fin 96) (t : Fin 64) (s : State)
    (hrun : ∀ x c w e u, Memory.wf u.mem = true → Memory.wf (run x c w e u).2.mem = true) (hm : Memory.wf s.mem = true) :
    Memory.wf (rowIssue func run a t s).mem = true := by
  refine issue_wf _ _ _ _ _ _ (fun w ext u hu => ?_) hm
  dsimp only
  split
  · simpa using hu
  · exact issueAsync_wf _ _ _ _ _ _ (fun q v hv => by rw [finish_mem]; exact hrun _ _ _ _ _ hv) hu

@[simp] theorem rowMath_wf (func : Nat) (a : Fin 96) (t : Fin 64) (s : State) (hm : Memory.wf s.mem = true) :
    Memory.wf (rowMath func a t s).mem = true :=
  rowIssue_wf _ _ _ _ _ (fun _ _ _ _ _ hu => rowRun_wf _ _ _ _ hu) hm

end Sys2Proof.Machine
end

section
/-! PROOFS. Memory stays canonical (O59): the pool, the barriers, the grid of an array, the spares, tier 2, the SRAM windows and the checkpoint
engine. A `_mem` lemma says that a function leaves memory as it is, a `_wf` lemma that it keeps the canonical form. -/

namespace Sys2Proof.Machine

/-! ### Machine/Pool -/

@[simp] theorem poolReply_mem (q : PoolReq) (f : Fail) (old : List Byte) (s : State) : (poolReply q f old s).mem = s.mem := by simp [poolReply]

@[simp] theorem poolServe_wf (q : PoolReq) (s : State) (hm : Memory.wf s.mem = true) : Memory.wf (poolServe q s).mem = true := by
  unfold poolServe
  grind [servedRead_mem, poolReply_mem, servedWrite_wf]

@[simp] theorem repark_mem (b : Nat) (served : List PoolReq) (s : State) : (repark b served s).mem = s.mem := by rfl

theorem bankCycle_mem {b : Nat} {w : PoolReq} {js ws : List PoolReq} {s s1 : State} (h : bankCycle b s = some (w, js, ws, s1)) :
    s1.mem = s.mem := by
  simp only [bankCycle] at h
  split at h
  · exact absurd h nofun
  · rename_i hg
    have hs := rrGrant_mem hg
    split at h
    · exact absurd h nofun
    · simp only [Option.some.injEq, Prod.mk.injEq] at h
      obtain ⟨-, -, -, rfl⟩ := h
      exact hs

@[simp] theorem runCycle_wf (b : Nat) (w : PoolReq) (js ws : List PoolReq) (s : State) (hm : Memory.wf s.mem = true) :
    Memory.wf (runCycle b w js ws s).mem = true := by
  simp only [runCycle, repark_mem]
  refine foldl_wf _ (fun t x ht => poolServe_wf _ _ ht) _ _ ?_
  split <;> simpa using hm

@[simp] theorem arriveOne_mem (b : Nat) (q : PoolReq) (s : State) : (arriveOne b q s).mem = s.mem := by
  unfold arriveOne
  split <;> simp

@[simp] theorem poolArrive_mem (b : Nat) (arrive : List PoolReq) (s : State) : (poolArrive b arrive s).mem = s.mem := by simp [poolArrive]

@[simp] theorem poolEvent_mem (ev : BitErr) (w : PoolReq) (s : State) : (poolEvent ev w s).mem = s.mem := by simp [poolEvent]

@[simp] theorem bankStep_wf (b : Nat) (arrive : List PoolReq) (ev : BitErr) (p : PoolOp → Bool) (s : State) (hm : Memory.wf s.mem = true) :
    Memory.wf (bankStep b arrive ev p s).mem = true := by
  simp only [bankStep]
  split
  · exact hm
  · split
    · simpa using hm
    · rename_i hc
      have hs := bankCycle_mem hc
      split <;> simp [hs, hm]

/-! ### Machine/Sync -/

@[simp] theorem syncWait_mem (a t w : Nat) (s : State) : (syncWait a t w s).mem = s.mem := by
  unfold syncWait
  grind [advance_mem, State.setTh_mem, waitFor_mem, progFault_mem]

@[simp] theorem releaseBar_mem (a : Nat) (ts : List Nat) (s : State) : (releaseBar a ts s).mem = s.mem :=
  foldl_mem _ (fun u j => by dsimp only; (repeat' split) <;> simp) _ _

@[simp] theorem setBar_mem (k : Nat) (b : Option Barrier) (s : State) : (setBar k b s).mem = s.mem := by rfl

@[simp] theorem barArrive_mem (a t k n : Nat) (b : Barrier) (s : State) : (barArrive a t k n b s).mem = s.mem := by simp [barArrive]

@[simp] theorem syncBar_mem (a t w : Nat) (s : State) : (syncBar a t w s).mem = s.mem := by
  unfold syncBar
  grind [progFault_mem, barArrive_mem]

/-! ### Machine/Sedge -/

@[simp] theorem endOp_mem (a : Nat) (o : GOp) (f : Fail) (s : State) : (endOp a o f s).mem = s.mem := by simp [endOp]

@[simp] theorem beginLoad_mem (a : Nat) (o : GOp) (s : State) : (beginLoad a o s).2.mem = s.mem := by
  unfold beginLoad
  grind [descCheck_mem]

@[simp] theorem beginStream_mem (a : Nat) (o : GOp) (s : State) : (beginStream a o s).2.mem = s.mem := by
  unfold beginStream
  grind [descCheck_mem]

@[simp] theorem putTile_mem (a : Nat) (o : GOp) (t : Tile) (s : State) : (putTile a o t s).mem = s.mem := by rfl

@[simp] theorem loadFails_mem (a : Nat) (o : GOp) (f : Fail) (s : State) : (loadFails a o f s).mem = s.mem := by simp [loadFails]

@[simp] theorem tryBegin_mem (a : Nat) (o : GOp) (s : State) : (tryBegin a o s).mem = s.mem := by
  unfold tryBegin
  grind [beginLoad_mem, beginStream_mem, loadFails_mem, endOp_mem, State.setGr_mem]

@[simp] theorem noteStream_mem (a : Nat) (o : GOp) (s : State) : (noteStream a o s).mem = s.mem := by simp [noteStream]

@[simp] theorem takeOp_mem (a : Nat) (o : GOp) (s : State) : (takeOp a o s).mem = s.mem := by simp [takeOp]

@[simp] theorem mxmIssue_mem (func : Nat) (a : Fin 96) (t : Fin 64) (s : State) : (mxmIssue func a t s).mem = s.mem := by simp [mxmIssue]

@[simp] theorem mvIssue_mem (func : Nat) (a : Fin 96) (t : Fin 64) (s : State) : (mvIssue func a t s).mem = s.mem := by simp [mvIssue]

@[simp] theorem tileElem_mem (c : Ctx) (a : Nat) (v : View) (k m : Nat) (s : State) : (tileElem c a v k m s).2.mem = s.mem := by simp [tileElem]

@[simp] theorem readTile_mem (c : Ctx) (a mode : Nat) (o : GOp) (s : State) : (readTile c a mode o s).2.mem = s.mem := by
  simp only [readTile]
  split <;> rename_i heq
  all_goals
    have h := mapM_mem _ (fun i t => tileElem_mem c a ⟨Desc.ofWord o.da, 0, 0, 0⟩ (i / partPm mode o.part) (i % partPm mode o.part) t)
      (List.range (tileTk mode o.part o.mode * partPm mode o.part)) s
    rw [heq] at h
    exact h

/-! ### Machine/Expander -/

@[simp] theorem putStream_mem (a : Nat) (o : GOp) (s : State) : (putStream a o s).mem = s.mem := by simp [putStream]

@[simp] theorem fetchBlock_mem (a : Nat) (o : GOp) (i : Nat) (s : State) : (fetchBlock a o i s).2.mem = s.mem := by
  unfold fetchBlock
  grind [vRead_mem, translate_mem]

@[simp] theorem noteDamage_mem (a phys va pa : Nat) (o : GOp) (e : Nat × Nat) (s : State) : (noteDamage a phys va pa o e s).2.mem = s.mem := by
  unfold noteDamage
  grind [State.setReg64_mem, State.count_mem, writeFaultId_mem]

@[simp] theorem takeBlocks_mem (a n : Nat) (x : State) : (takeBlocks a n x).mem = x.mem := by
  induction n generalizing x with
  | zero => rfl
  | succ k ih =>
    simp only [takeBlocks]
    split
    · rfl
    · split
      · rfl
      · rename_i hg
        have hs := rrGrant_mem hg
        split <;> simp_all

@[simp] theorem settleLanes_mem (a : Nat) (s : State) : (settleLanes a s).mem = s.mem := by simp [settleLanes]

@[simp] theorem decodeLane_mem (a phys : Nat) (t : CodeTab) (o : GOp) (l : Lane) (s : State) : (decodeLane a phys t o l s).2.2.mem = s.mem := by
  unfold decodeLane
  grind [State.count_mem, State.count64_mem, noteDamage_mem]

@[simp] theorem flushTables_mem (s : State) : (flushTables s).mem = s.mem := by rfl

@[simp] theorem armInject_mem (phys : Nat) (v : W32) (s : State) : (armInject phys v s).mem = s.mem := by
  unfold armInject
  split <;> simp

/-! ### Machine/Stream -/

@[simp] theorem denseRow_mem (c : Ctx) (v : View) (row kb tk : Nat) (s : State) : (denseRow c v row kb tk s).2.mem = s.mem := by
  unfold denseRow
  split <;> rename_i heq
  all_goals
    have h := mapM_mem _ (fun k t => readElem_mem c v [((kb + k : Nat) : Int), (row : Int), 0, 0, 0, 0] t) (List.range tk) s
    rw [heq] at h
    exact h

@[simp] theorem sparseRow_mem (c : Ctx) (d : Desc) (row kb tk : Nat) (s : State) : (sparseRow c d row kb tk s).2.mem = s.mem := by
  unfold sparseRow
  grind [vRead_mem]

@[simp] theorem takeInjection_mem (g : Grid) (o : GOp) (s : State) : (takeInjection g o s).2.2.mem = s.mem := by
  unfold takeInjection
  grind [State.drawFree_mem]

@[simp] theorem enterRow_mem (a phys : Nat) (o0 : GOp) (w : WRow) (s0 : State) : (enterRow a phys o0 w s0).mem = s0.mem := by simp [enterRow]

@[simp] theorem countStall_mem (g : Grid) (phys : Nat) (s : State) : (countStall g phys s).mem = s.mem := by
  unfold countStall
  split <;> simp

@[simp] theorem readWeights_mem (a : Nat) (o : GOp) (s : State) : (readWeights a o s).2.mem = s.mem := by
  unfold readWeights
  grind [sparseRow_mem, denseRow_mem]

@[simp] theorem takeRow_mem (a phys : Nat) (o : GOp) (s : State) : (takeRow a phys o s).mem = s.mem := by
  unfold takeRow
  grind [enterRow_mem, readWeights_mem, putStream_mem]

@[simp] theorem writeRow_wf (a phys : Nat) (o : GOp) (n : Nat) (w : WRow) (rest : List (Nat × WRow)) (err : Option (Nat × W32)) (s : State)
    (hm : Memory.wf s.mem = true) : Memory.wf (writeRow a phys o n w rest err s).mem = true := by
  refine of_definition writeRow (fun f => Memory.wf (f a phys o n w rest err s).mem = true) (by delta writeRow; exact rfl) ?_
  obtain ⟨row, hrow⟩ := exists_eq (a' := accRow)
  rw [← hrow]
  grind [physRead_mem, physWrite_wf, freeElems_mem, putStream_mem, State.setGr_mem]

@[simp] theorem noteEvent_mem (phys : Nat) (s : State) : (noteEvent phys s).mem = s.mem := by simp [noteEvent]

@[simp] theorem checkEvent_mem (a phys : Nat) (o : GOp) (row lane action : Nat) (s : State) : (checkEvent a phys o row lane action s).mem = s.mem := by
  simp [checkEvent]

@[simp] theorem restoreRows_wf (phys : Nat) (o : GOp) (s : State) (hm : Memory.wf s.mem = true) : Memory.wf (restoreRows phys o s).mem = true :=
  foldl_wf _ (fun _ _ ht => rawWrite_wf _ _ _ ht) _ _ hm

@[simp] theorem startRecompute_wf (a phys : Nat) (o : GOp) (s : State) (hm : Memory.wf s.mem = true) :
    Memory.wf (startRecompute a phys o s).mem = true := by
  simp [startRecompute, hm]

@[simp] theorem correctElem_wf (phys : Nat) (o : GOp) (k : KRow) (m : Nat) (d : Int) (s : State) (hm : Memory.wf s.mem = true) :
    Memory.wf (correctElem phys o k m d s).mem = true := by
  simp [correctElem, hm, rawWrite_wf]

@[simp] theorem passGroup_mem (a : Nat) (o : GOp) (s : State) : (passGroup a o s).mem = s.mem := by simp [passGroup]

@[simp] theorem replayRows_wf (phys : Nat) (o : GOp) (t : Tile) (s : State) (hm : Memory.wf s.mem = true) :
    Memory.wf (replayRows phys o t s).mem = true :=
  foldl_wf _ (fun _ _ ht => rawWrite_wf _ _ _ ht) _ _ hm

/-! ### Machine/Remap -/

@[simp] theorem fenceThreads_mem (a : Nat) (s : State) : (fenceThreads a s).mem = s.mem := by simp [fenceThreads]

@[simp] theorem fenceItems_mem (a root : Nat) (s : State) : (fenceItems a root s).mem = s.mem := by rfl

@[simp] theorem clearArray_mem (a : Nat) (s : State) : (clearArray a s).mem = s.mem := by rfl

@[simp] theorem powerGate_wf (phys : Nat) (s : State) (hm : Memory.wf s.mem = true) : Memory.wf (powerGate phys s).mem = true := by
  simp [powerGate, hm, zeroRange_wf]

@[simp] theorem restartLoads_mem (a : Nat) (s : State) : (restartLoads a s).mem = s.mem := by rfl

@[simp] theorem moveTo_wf (phys a spare : Nat) (s : State) (hm : Memory.wf s.mem = true) : Memory.wf (moveTo phys a spare s).mem = true := by
  simp [moveTo, hm, zeroRange_wf]

@[simp] theorem failSramWait_mem (phys : Nat) (s : State) : (failSramWait phys s).mem = s.mem := by simp [failSramWait]

@[simp] theorem retireLogical_wf (phys a : Nat) (s : State) (hm : Memory.wf s.mem = true) : Memory.wf (retireLogical phys a s).mem = true := by
  simp [retireLogical, hm]

@[simp] theorem serveWaiting_wf (phys n : Nat) (l : List MemReq) (x : State) (hm : Memory.wf x.mem = true) :
    Memory.wf (serveWaiting phys n l x).mem = true := by
  induction n generalizing l x with
  | zero => exact hm
  | succ k ih =>
    unfold serveWaiting
    split
    · exact hm
    · rename_i hg
      have hs := rrGrant_mem hg
      (repeat' split) <;> simp_all

@[simp] theorem wakeDone_wf (phys : Nat) (s : State) (hm : Memory.wf s.mem = true) : Memory.wf (wakeDone phys s).mem = true := by
  simp [wakeDone, hm]

/-! ### Machine/Tier2 -/

@[simp] theorem applyT2Event_wf (ev : HbmEvent) (pa : Nat) (s : State) (hm : Memory.wf s.mem = true) :
    Memory.wf (applyT2Event ev pa s).mem = true := by
  unfold applyT2Event
  split <;> simp [hm]

@[simp] theorem admitT2_mem (q : MemReq) (s : State) : (admitT2 q s).mem = s.mem := by rfl

@[simp] theorem serveT2_wf (q : MemReq) (ev : HbmEvent) (s : State) (hm : Memory.wf s.mem = true) : Memory.wf (serveT2 q ev s).mem = true := by
  simp [serveT2, hm]

@[simp] theorem holdT2_mem (q : MemReq) (s : State) : (holdT2 q s).mem = s.mem := by rfl

@[simp] theorem t2Req_wf (q : MemReq) (ev : HbmEvent) (s : State) (hm : Memory.wf s.mem = true) : Memory.wf (t2Req q ev s).mem = true := by
  simp [t2Req, hm]

@[simp] theorem drainT2Aux_wf (n : Nat) (x : State) (hm : Memory.wf x.mem = true) : Memory.wf (drainT2Aux n x).mem = true := by
  induction n generalizing x with
  | zero => exact hm
  | succ k ih =>
    simp only [drainT2Aux]
    split
    · exact hm
    · split
      · exact hm
      · rename_i hpick
        have hs := pickWaiting_mem hpick
        split
        · exact hm
        · exact ih _ (serveT2_wf _ _ _ ((congrArg Memory.wf hs).trans hm))

@[simp] theorem drainT2_wf (s : State) (hm : Memory.wf s.mem = true) : Memory.wf (drainT2 s).mem = true := by simp [drainT2, hm]

@[simp] theorem leaveSelfRefresh_wf (pkg : Nat) (s : State) (hm : Memory.wf s.mem = true) : Memory.wf (leaveSelfRefresh pkg s).mem = true := by
  simp [leaveSelfRefresh, hm]

@[simp] theorem t2FillDone_wf (s : State) (hm : Memory.wf s.mem = true) : Memory.wf (t2FillDone s).mem = true := by simp [t2FillDone, hm]

@[simp] theorem applySramEvent_mem (ev : BitErr) (pa : Nat) (s : State) : (applySramEvent ev pa s).mem = s.mem := by
  unfold applySramEvent
  split <;> simp

@[simp] theorem serveSram_wf (q : MemReq) (ev : BitErr) (s : State) (hm : Memory.wf s.mem = true) : Memory.wf (serveSram q ev s).mem = true := by
  simp [serveSram, hm]

@[simp] theorem sramReq_wf (q : MemReq) (ev : BitErr) (s : State) (hm : Memory.wf s.mem = true) : Memory.wf (sramReq q ev s).mem = true := by
  unfold sramReq
  grind [unbacked_mem, serveSram_wf, arrayUp_mem, beginWake_mem, waitClock_mem]

@[simp] theorem invGo_mem (val : W32) (s : State) : (invGo val s).mem = s.mem := by simp [invGo]

@[simp] theorem ckpEntry_mem (va i : Nat) (s : State) : (ckpEntry va i s).2.mem = s.mem := by simp [ckpEntry, vRead_mem]

@[simp] theorem ckpEnd_mem (code : Status) (s : State) : (ckpEnd code s).mem = s.mem := by simp [ckpEnd]

@[simp] theorem ckpBegin_mem (va n : Nat) (s : State) : (ckpBegin va n s).mem = s.mem := by simp [ckpBegin]

@[simp] theorem ckpCtrl_mem (val : W32) (s : State) : (ckpCtrl val s).mem = s.mem := by
  unfold ckpCtrl
  split <;> simp

@[simp] theorem ckpPage_wf (dir : Bool) (src dst : Nat) (s : State) (hm : Memory.wf s.mem = true) :
    Memory.wf (ckpPage dir src dst s).2.mem = true := by
  unfold ckpPage
  grind [translate_mem, countUe_mem, writeFaultId_mem, copyRange_wf, unitReach_mem]

@[simp] theorem ckpCopyPages_wf (dir : Bool) (src dst n : Nat) (x : State) (hm : Memory.wf x.mem = true) :
    Memory.wf (ckpCopyPages dir src dst n x).2.mem = true := by
  induction n generalizing src dst x with
  | zero => exact hm
  | succ k ih =>
    unfold ckpCopyPages
    have h := ckpPage_wf dir src dst x hm
    split <;> rename_i heq <;> rw [heq] at h
    · exact h
    · exact ih _ _ _ h

@[simp] theorem ckpNextEntry_mem (r : CkpRun) (s : State) : (ckpNextEntry r s).mem = s.mem := by simp [ckpNextEntry]

@[simp] theorem ckpFail_mem (va : Nat) (f : Fail) (s : State) : (ckpFail va f s).mem = s.mem := by simp [ckpFail]

@[simp] theorem ckpFrameDone_mem (r : CkpRun) (frames : Nat) (s : State) : (ckpFrameDone r frames s).mem = s.mem := by simp [ckpFrameDone]

@[simp] theorem ckpStep_wf (r : CkpRun) (e : List Byte) (s : State) (hm : Memory.wf s.mem = true) : Memory.wf (ckpStep r e s).mem = true := by
  unfold ckpStep
  grind [ckpNextEntry_mem, ckpFail_mem, ckpCopyPages_wf, ckpFrameDone_mem]

end Sys2Proof.Machine
end

section
/-! PROOFS. Memory stays canonical (O59): the dispatcher, the balancer, the messages of a plan, the plans and Lode. A `_mem` lemma says that a
function leaves memory as it is, a `_wf` lemma that it keeps the canonical form. -/

namespace Sys2Proof.Machine

/-! ### Machine/Dispatcher -/

@[simp] theorem dspCfgErr_mem (s : State) : (dspCfgErr s).mem = s.mem := by rfl

@[simp] theorem openNext_mem (s : State) : (openNext s).mem = s.mem := by simp [openNext]

@[simp] theorem releaseCount_mem (x : Nat × Nat) (s : State) : (releaseCount x s).mem = s.mem := by
  unfold releaseCount
  split <;> simp

@[simp] theorem releaseBatch_mem (n : Nat) (x : Nat × Nat) (s : State) : (releaseBatch n x s).mem = s.mem := by simp [releaseBatch]

@[simp] theorem releaseBatches_mem (s : State) : (releaseBatches s).mem = s.mem := by
  have h : ∀ t : State, ((s.relDue.filter (wasOffered s)).foldl (fun t x => releaseCount x t) t).mem = t.mem :=
    foldl_mem _ (fun t x => releaseCount_mem x t) _
  simp only [releaseBatches]
  (repeat' split)
  · exact (foldl_mem _ (fun t x => releaseBatch_mem _ x t) _ _).trans (h _)
  · exact h _
  · exact h _

@[simp] theorem afterItems_mem (s : State) : (afterItems s).mem = s.mem := by simp [afterItems]

@[simp] theorem rejectItem_mem (i : Item) (noStep : Bool) (s : State) : (rejectItem i noStep s).mem = s.mem := by simp [rejectItem]

@[simp] theorem takeItem_mem (i : Item) (s : State) : (takeItem i s).mem = s.mem := by simp [takeItem]

@[simp] theorem wakeFor_mem (id a : Nat) (s : State) : (wakeFor id a s).mem = s.mem := by
  unfold wakeFor
  split <;> simp

@[simp] theorem readTables_mem (c : Ctx) (i : Item) (s : State) : (readTables c i s).2.mem = s.mem := by
  unfold readTables
  grind [vRead_mem]

@[simp] theorem readGens_mem (c : Ctx) (l : List (Nat × Nat)) (x : State) : (readGens c l x).2.mem = x.mem := by
  induction l generalizing x with
  | nil => rfl
  | cons t r ih =>
    simp only [readGens, ih]
    split
    · rfl
    · have h := vRead_mem c .r (t.1 + 4) 4 x
      split <;> rename_i heq <;> rw [heq] at h <;> exact h

@[simp] theorem beginBind_mem (i : Item) (a : Nat) (s : State) : (beginBind i a s).mem = s.mem := by
  unfold beginBind
  grind [readTables_mem, State.modItem_mem, readGens_mem]

@[simp] theorem beginAttempt_mem (i : Item) (a : Nat) (borrow : Bool) (batch : Option (Nat × Nat)) (s : State) :
    (beginAttempt i a borrow batch s).mem = s.mem := by
  simp [beginAttempt]

@[simp] theorem dropEval_mem (i : Item) (s : State) : (dropEval i s).mem = s.mem := by
  unfold dropEval
  grind [releaseBuf_mem]

@[simp] theorem finishItem_mem (i : Item) (s : State) : (finishItem i s).mem = s.mem := by simp [finishItem]

@[simp] theorem startFail_mem (id : Nat) (f : Fail) (reason : Bool) (s : State) : (startFail id f reason s).mem = s.mem := by rfl

@[simp] theorem pinEntry_mem (a e id : Nat) (s : State) : (pinEntry a e id s).mem = s.mem := by
  unfold pinEntry
  split <;> simp

/-- Every state that a binding of tables hands on has the memory `m`. -/
def Bound.HasMem (m : SMap Byte) : Bound → Prop
  | .ok s => s.mem = m
  | .fail _ _ s => s.mem = m
  | .full => True

theorem bindMiss_mem (c : Ctx) (a id va gen : Nat) (s : State) : (bindMiss c a id va gen s).HasMem s.mem := by
  simp only [bindMiss]
  split
  · trivial
  · have h := vRead_mem c .r va 1024 s
    split <;> rename_i heq <;> rw [heq] at h
    · exact h
    · (repeat' split) <;> exact h

theorem bindOne_mem (c : Ctx) (a phys id : Nat) (t : Nat × Nat) (g : Nat × Fail) (s : State) : (bindOne c a phys id t g s).HasMem s.mem := by
  simp only [bindOne]
  (repeat' split)
  · exact rfl
  · exact rfl
  · simp [Bound.HasMem]
  · simpa using bindMiss_mem c a id t.1 t.2 (s.count phys Reg.EXP_BINDS 1)

theorem bindAll_mem (c : Ctx) (a phys id : Nat) (l : List ((Nat × Nat) × (Nat × Fail))) (s : State) :
    (bindAll c a phys id l s).HasMem s.mem := by
  induction l generalizing s with
  | nil => exact rfl
  | cons x r ih =>
    obtain ⟨t, g⟩ := x
    have h := bindOne_mem c a phys id t g s
    simp only [bindAll]
    split <;> rename_i heq <;> rw [heq] at h
    · exact (show _ = s.mem from h) ▸ ih _
    · trivial
    · simpa [Bound.HasMem] using h

@[simp] theorem bindItem_mem (i : Item) (a phys : Nat) (s : State) : (bindItem i a phys s).mem = s.mem := by
  simp only [bindItem]
  split
  · simp
  · split
    · rfl
    · have h := bindAll_mem (bindCtx i a s) a phys i.id (i.tabs.zip i.gens) s
      split <;> rename_i heq <;> rw [heq] at h <;> simpa [Bound.HasMem] using h

@[simp] theorem loadImage_wf (i : Item) (phys : Nat) (s : State) (hm : Memory.wf s.mem = true) : Memory.wf (loadImage i phys s).2.mem = true := by
  unfold loadImage
  grind [vRead_mem, physWrite_wf, touchStore_mem]

@[simp] theorem startThreads_mem (i : Item) (s : State) : (startThreads i s).mem = s.mem :=
  foldl_mem _ (fun t k => State.setTh_mem t i.arr k _) _ _

@[simp] theorem endAttempt_mem (i : Item) (s : State) : (endAttempt i s).mem = s.mem := by simp [endAttempt]

@[simp] theorem restartCounts_mem (s : State) : (restartCounts s).mem = s.mem := by rfl

@[simp] theorem enableDsp_mem (s : State) : (enableDsp s).mem = s.mem := by rfl

/-! ### Machine/Balance -/

@[simp] theorem chargeArray_mem (a : Nat) (s : State) : (chargeArray a s).mem = s.mem := by
  unfold chargeArray
  split <;> simp

@[simp] theorem chargeTick_mem (s : State) : (chargeTick s).mem = s.mem := by simp [chargeTick]

@[simp] theorem closeWindow_mem (k : Nat) (s : State) : (closeWindow k s).mem = s.mem := by simp [closeWindow]

@[simp] theorem closeWindows_mem (s : State) : (closeWindows s).mem = s.mem := by simp [closeWindows]

@[simp] theorem changeShares_mem (s : State) : (changeShares s).mem = s.mem := by
  unfold changeShares
  grind [State.setReg_mem, restartCounts_mem]

@[simp] theorem changeWindow_mem (s : State) : (changeWindow s).mem = s.mem := by simp [changeWindow]

@[simp] theorem advanceBases_mem (n : Nat) (s : State) : (advanceBases n s).mem = s.mem := by rfl

@[simp] theorem startArmed_mem (s : State) : (startArmed s).mem = s.mem := by
  unfold startArmed
  grind [ckpBegin_mem]

@[simp] theorem recordBoundary_mem (n : Nat) (s : State) : (recordBoundary n s).mem = s.mem := by simp [recordBoundary]

/-! ### Machine/Links -/

@[simp] theorem State.setCport_mem (s : State) (p : Nat) (x : CPort) : (s.setCport p x).mem = s.mem := by rfl

@[simp] theorem setPortState_mem (p st : Nat) (s : State) : (setPortState p st s).mem = s.mem := by simp [setPortState]

@[simp] theorem putMsg_mem (p : Nat) (m : CMsg) (s : State) : (putMsg p m s).mem = s.mem := by rfl

/-- A queued message leaves memory as it is. -/
theorem queueMsg_mem {vc dest rid : Nat} {plan : Option (Nat × Nat)} {data : List Byte} {s : State} {r : Nat × State}
    (h : queueMsg vc dest rid plan data s = some r) : r.2.mem = s.mem := by
  unfold queueMsg at h
  split at h
  · exact absurd h nofun
  · exact Option.some.inj h ▸ rfl

@[simp] theorem sendCtl_mem (dest : Nat) (data : List Byte) (s : State) : (sendCtl dest data s).mem = s.mem := by
  unfold sendCtl
  split
  · rename_i hq
    exact queueMsg_mem hq
  · rfl

@[simp] theorem returnCred_mem (p vc n : Nat) (s : State) : (returnCred p vc n s).mem = s.mem := by rfl

@[simp] theorem takeCtl_mem (p ty : Nat) (s : State) : (takeCtl p ty s).mem = s.mem := by
  unfold takeCtl
  grind [returnCred_mem, State.setCport_mem]

@[simp] theorem takeChunk_mem (p : Nat) (s : State) : (takeChunk p s).mem = s.mem := by
  unfold takeChunk
  grind [returnCred_mem, State.setCport_mem]

/-! ### Machine/Plans -/

@[simp] theorem putPlan_mem (k : Nat) (p : Plan) (s : State) : (putPlan k p s).mem = s.mem := by rfl

@[simp] theorem encodeWire_mem (w : Nat) (ps : List Pair) (s : State) : (encodeWire w ps s).2.mem = s.mem := by
  unfold encodeWire
  split <;> simp

@[simp] theorem showPlan_mem (k : Nat) (s : State) : (showPlan k s).mem = s.mem := by
  unfold showPlan
  split <;> simp

@[simp] theorem orphans_mem (n : Nat) (s : State) : (orphans n s).mem = s.mem := by rfl

@[simp] theorem setEarly_mem (l : List Early) (s : State) : (setEarly l s).mem = s.mem := by rfl

@[simp] theorem dropEarly_mem (id : Nat) (s : State) : (dropEarly id s).mem = s.mem := by rfl

@[simp] theorem settleRx_mem (p : Nat) (m : CRx) (s : State) : (settleRx p m s).2.mem = s.mem := by
  unfold settleRx
  grind [returnCred_mem, State.setRf_mem]

@[simp] theorem drainRx_mem (s : State) : (drainRx s).mem = s.mem :=
  foldl_mem _ (fun t p => by dsimp only; (repeat' split) <;> simp) _ _

@[simp] theorem showHeld_mem (g : Nat) (s : State) : (showHeld g s).mem = s.mem := by rfl

@[simp] theorem markPartial_mem (run : Nat) (s : State) : (markPartial run s).mem = s.mem := by simp [markPartial]

@[simp] theorem dropUpdates_mem (run : Nat) (s : State) : (dropUpdates run s).mem = s.mem := by simp [dropUpdates]

@[simp] theorem dropMsgs_mem (k : Nat) (s : State) : (dropMsgs k s).mem = s.mem := by rfl

@[simp] theorem wakePlan_mem (s : State) : (wakePlan s).mem = s.mem := by
  unfold wakePlan
  split <;> simp

@[simp] theorem endSlotWaits_mem (k : Nat) (f : Fail) (s : State) : (endSlotWaits k f s).mem = s.mem := by simp [endSlotWaits]

@[simp] theorem leaveSlot_mem (k : Nat) (p : Plan) (f : Fail) (s : State) : (leaveSlot k p f s).mem = s.mem := by simp [leaveSlot]

@[simp] theorem sendAborts_mem (p : Plan) (st : Status) (s : State) : (sendAborts p st s).mem = s.mem := by simp [sendAborts]

@[simp] theorem endPlan_mem (k : Nat) (e : PlanEnd) (s : State) : (endPlan k e s).mem = s.mem := by
  unfold endPlan
  split <;> simp

@[simp] theorem completePlan_mem (k : Nat) (s : State) : (completePlan k s).mem = s.mem := by
  unfold completePlan
  split <;> simp

@[simp] theorem cutPlans_mem (root : Nat) (l : List (Nat × Nat × Nat)) (s : State) : (cutPlans root l s).mem = s.mem := by simp [cutPlans]

/-! ### Machine/Lode -/

@[simp] theorem groupEntry_mem (rid g : Nat) (s : State) : (groupEntry rid g s).2.mem = s.mem := by simp [groupEntry, vRead_mem]

@[simp] theorem setReaders_mem (g ver n : Nat) (s : State) : (setReaders g ver n s).mem = s.mem := by simp [setReaders]

@[simp] theorem stepUpdated_mem (u : Upd) (s : State) : (stepUpdated u s).mem = s.mem := by
  unfold stepUpdated
  split <;> simp

@[simp] theorem holdUpd_mem (u : Upd) (s : State) : (holdUpd u s).mem = s.mem := by simp [holdUpd]

@[simp] theorem pushUpd_mem (u : Upd) (s : State) : (pushUpd u s).mem = s.mem := by
  unfold pushUpd
  grind [groupEntry_mem, endPlan_mem, holdUpd_mem]

@[simp] theorem wakeHeld_mem (n : Nat) (l : List Upd) (x : State) : (wakeHeld n l x).mem = x.mem := by
  induction n generalizing l x with
  | zero => rfl
  | succ k ih =>
    cases l with
    | nil => rfl
    | cons u r =>
      unfold wakeHeld
      have h := groupEntry_mem lodeReq u.group x
      split <;> rename_i heq <;> rw [heq] at h
      · simpa [ih] using h
      · split <;> simpa [ih] using h

@[simp] theorem releaseReader_mem (g ver : Nat) (s : State) : (releaseReader g ver s).mem = s.mem := by simp [releaseReader]

@[simp] theorem readCurve_mem (va n : Nat) (s : State) : (readCurve va n s).2.mem = s.mem := by
  unfold readCurve
  grind [vRead_mem]

@[simp] theorem readCurves_mem (e : List Byte) (n : Nat) (l : List Nat) (x : State) : (readCurves e n l x).2.mem = x.mem := by
  induction l generalizing x with
  | nil => rfl
  | cons i r ih => unfold readCurves; grind [readCurve_mem]

@[simp] theorem takeRun_mem (u : Upd) (s : State) : (takeRun u s).2.mem = s.mem := by
  unfold takeRun
  grind [groupEntry_mem, readCurves_mem]

@[simp] theorem readSlots_mem (r : LodeRun) (l : List Nat) (x : State) : (readSlots r l x).2.mem = x.mem := by
  induction l generalizing x with
  | nil => rfl
  | cons i l ih => unfold readSlots; grind [vRead_mem]

@[simp] theorem readMask_mem (r : LodeRun) (s : State) : (readMask r s).2.mem = s.mem := by
  unfold readMask
  grind [vRead_mem]

@[simp] theorem readRun_mem (r : LodeRun) (s : State) : (readRun r s).2.mem = s.mem := by
  unfold readRun
  grind [vRead_mem, readSlots_mem, readMask_mem]

@[simp] theorem putPieces_wf (l : List (Nat × List Byte)) (x : State) (hm : Memory.wf x.mem = true) :
    Memory.wf (putPieces l x).2.mem = true := by
  induction l generalizing x with
  | nil => exact hm
  | cons p r ih => unfold putPieces; grind [vWrite_wf]

@[simp] theorem countWritten_mem (u : Upd) (s : State) : (countWritten u s).mem = s.mem := by
  unfold countWritten
  grind [State.setRf_mem, State.setReg_mem, State.setReg64_mem, wakeHeld_mem]

@[simp] theorem showLode_mem (g : Nat) (s : State) : (showLode g s).mem = s.mem := by rfl

@[simp] theorem lodeIdle_mem (u : Upd) (s : State) : (lodeIdle u s).mem = s.mem := by rfl

@[simp] theorem updFails_mem (u : Upd) (f : Fail) (s : State) : (updFails u f s).mem = s.mem := by
  unfold updFails
  split <;> simp

@[simp] theorem startNext_mem (n : Nat) (x : State) : (startNext n x).mem = x.mem := by
  induction n generalizing x with
  | zero => rfl
  | succ k ih =>
    unfold startNext
    split
    · rfl
    · rename_i u r _
      have h := takeRun_mem u { x with lodeQ := r }
      split <;> rename_i heq <;> rw [heq] at h
      · simpa using h
      · split <;> simpa [ih] using h

@[simp] theorem updDone_mem (u : Upd) (s : State) : (updDone u s).mem = s.mem := by simp [updDone]

@[simp] theorem lodeWriteRun_wf (x : LodeRun) (d : LodeData) (s : State) (hm : Memory.wf s.mem = true) : Memory.wf (writeRun_ x d s).mem = true := by
  unfold writeRun_
  grind [translate_mem, putPieces_wf, updFails_mem, lodeIdle_mem, updDone_mem, showLode_mem]

@[simp] theorem flushPart_wf (x : LodePart) (s : State) (hm : Memory.wf s.mem = true) : Memory.wf (flushPart x s).mem = true := by
  unfold flushPart
  grind [translate_mem, putPieces_wf, updFails_mem, showLode_mem, updDone_mem]

end Sys2Proof.Machine
end

section
/-! PROOFS. Memory stays canonical (O59): the collectives, Causeway, the host window, the journal, the media outputs, power, the images and the
starts. A `_mem` lemma says that a function leaves memory as it is, a `_wf` lemma that it keeps the canonical form. -/

namespace Sys2Proof.Machine

/-! ### Machine/Collective -/

@[simp] theorem tryComplete_mem (k : Nat) (s : State) : (tryComplete k s).mem = s.mem := by
  unfold tryComplete
  split <;> simp

@[simp] theorem markFetch_mem (k : Nat) (p : Plan) (i : Nat) (s : State) : (markFetch k p i s).mem = s.mem := by simp [markFetch]

@[simp] theorem checkUpdates_mem (l : List (List Byte)) (x : State) : (checkUpdates l x).2.mem = x.mem := by
  induction l generalizing x with
  | nil => rfl
  | cons r l ih => unfold checkUpdates; grind [groupEntry_mem]

@[simp] theorem loadPlan_mem (va : Nat) (s : State) : (loadPlan va s).2.mem = s.mem := by
  simp only [loadPlan]
  split
  · rfl
  · have h := vRead_mem { rid := collReq } .r va 64 s
    split <;> rename_i heq <;> rw [heq] at h
    · exact h
    · rename_i hdr s1
      split
      · exact h
      · have h1 := vRead_mem { rid := collReq } .r (va + 64) (32 * leAt hdr 4 4) s1
        split <;> rename_i heq1 <;> rw [heq1] at h1
        · exact h1.trans h
        · rename_i b s2
          replace h1 : s2.mem = s.mem := h1.trans h
          (repeat' split) <;> grind [checkUpdates_mem, vRead_mem]

@[simp] theorem sendSlow_mem (ms : List Nat) (s : State) : (sendSlow ms s).mem = s.mem := by simp [sendSlow]

@[simp] theorem showStart_mem (k id kind : Nat) (s : State) : (showStart k id kind s).mem = s.mem := by simp [showStart]

@[simp] theorem beginPlan_mem (k : Nat) (r : PlanReq) (h : List Byte) (steps : List (List Byte)) (parts : List Nat) (s : State) :
    (beginPlan k r h steps parts s).mem = s.mem := by
  simp [beginPlan]

@[simp] theorem modStep_mem (k i : Nat) (f : StepSt → StepSt) (s : State) : (modStep k i f s).mem = s.mem := by
  unfold modStep
  split <;> simp

@[simp] theorem sendChunk_mem (k i dest : Nat) (hdr payload : List Byte) (s : State) : (sendChunk k i dest hdr payload s).mem = s.mem := by
  unfold sendChunk
  split
  · rename_i hq
    simpa using queueMsg_mem hq
  · simp

@[simp] theorem sendPairs_mem (k i : Nat) (p : Plan) (ps : List Pair) (s : State) : (sendPairs k i p ps s).mem = s.mem := by simp [sendPairs]

@[simp] theorem putLocal_wf (r : List Byte) (ps : List Pair) (s : State) (hm : Memory.wf s.mem = true) : Memory.wf (putLocal r ps s).2.mem = true := by
  simp [putLocal, hm, vWrite_wf]

@[simp] theorem getLocal_mem (r : List Byte) (s : State) : (getLocal r s).2.mem = s.mem := by
  unfold getLocal
  grind [vRead_mem]

@[simp] theorem finishRecv_wf (k i : Nat) (p : Plan) (write : Bool) (ps : List Pair) (s : State) (hm : Memory.wf s.mem = true) :
    Memory.wf (finishRecv k i p write ps s).mem = true := by
  unfold finishRecv
  grind [putLocal_wf, endPlan_mem, freeRuns_wf, modStep_mem, sendPairs_mem, pushUpd_mem]

@[simp] theorem applyChunk_wf (k i : Nat) (p : Plan) (msg : List Byte) (s : State) (hm : Memory.wf s.mem = true) :
    Memory.wf (applyChunk k i p msg s).mem = true := by
  unfold applyChunk
  grind [finishRecv_wf, putLocal_wf, endPlan_mem, sendChunk_mem, getLocal_mem]

@[simp] theorem storeEarly_wf (p : Nat) (m : CIn) (s : State) (hm : Memory.wf s.mem = true) : Memory.wf (storeEarly p m s).mem = true := by
  unfold storeEarly
  grind [State.setRf_mem, vWrite_wf, setEarly_mem, takeChunk_mem, endPlan_mem, orphans_mem]

@[simp] theorem matchChunk_wf (p : Nat) (m : CIn) (s : State) (hm : Memory.wf s.mem = true) : Memory.wf (matchChunk p m s).mem = true := by
  unfold matchChunk
  grind [orphans_mem, takeChunk_mem, storeEarly_wf, applyChunk_wf]

@[simp] theorem startRecv_wf (k i : Nat) (p : Plan) (s : State) (hm : Memory.wf s.mem = true) : Memory.wf (startRecv k i p s).mem = true := by
  unfold startRecv
  grind [modStep_mem, drainRx_mem, vRead_mem, endPlan_mem, applyChunk_wf, setEarly_mem]

@[simp] theorem startFetch_mem (k i : Nat) (p : Plan) (s : State) : (startFetch k i p s).mem = s.mem := by
  simp only [startFetch]
  split
  · rename_i hq
    simpa using queueMsg_mem hq
  · simp

@[simp] theorem startStep_wf (k i : Nat) (p : Plan) (s : State) (hm : Memory.wf s.mem = true) : Memory.wf (startStep k i p s).mem = true := by
  unfold startStep
  grind [getLocal_mem, endPlan_mem, sendPairs_mem, pushUpd_mem, modStep_mem, startFetch_mem, startRecv_wf]

@[simp] theorem touchChunk_mem (src : Nat) (data : List Byte) (s : State) : (touchChunk src data s).mem = s.mem := by
  unfold touchChunk
  grind [State.setReg64_mem, modStep_mem]

@[simp] theorem landedWaits_mem (k i : Nat) (s : State) : (landedWaits k i s).mem = s.mem := by simp [landedWaits]

@[simp] theorem landFetch_wf (k i : Nat) (p : Plan) (msg : List Byte) (s : State) (hm : Memory.wf s.mem = true) :
    Memory.wf (landFetch k i p msg s).mem = true := by
  unfold landFetch
  grind [vWrite_wf, endPlan_mem, landedWaits_mem, modStep_mem]

@[simp] theorem fetchFails_mem (m : CIn) (st : Status) (s : State) : (fetchFails m st s).mem = s.mem := by simp [fetchFails]

@[simp] theorem serveFetch_mem (e : List Byte) (m : CIn) (s : State) : (serveFetch e m s).mem = s.mem := by
  simp only [serveFetch]
  split
  · simp
  · rename_i v _
    have h := vRead_mem { rid := collReq } .r (gWeights e v + 2 * leAt m.data 8 4) (2 * leAt m.data 12 4) s
    split <;> rename_i heq <;> rw [heq] at h
    · simpa using h
    · split
      · exact h
      · rename_i hq
        replace h := (queueMsg_mem hq).trans h
        split
        · simpa using h
        · exact h

/-! ### Machine/Causeway -/

@[simp] theorem modPort_mem (p : Nat) (f : CPort → CPort) (s : State) : (modPort p f s).mem = s.mem := by rfl

@[simp] theorem endForwards_mem (p : Nat) (s : State) : (endForwards p s).mem = s.mem := by simp [endForwards]

@[simp] theorem returnLost_mem (p : Nat) (x : CPort) (s : State) : (returnLost p x s).mem = s.mem :=
  foldl_mem _ (fun t m => by (repeat' split) <;> simp) _ _

@[simp] theorem settleOutbox_mem (s : State) : (settleOutbox s).mem = s.mem :=
  foldl_mem _ (fun t m => by split <;> simp) _ _

@[simp] theorem endMeshes_wf (p : Nat) (x : CPort) (s : State) (hm : Memory.wf s.mem = true) : Memory.wf (endMeshes p x s).mem = true :=
  foldl_wf _ (fun t e ht => by
    split
    · exact physWrite_wf _ _ _ _ _ ht
    · exact ht) _ _ hm

@[simp] theorem clearPort_wf (p st root : Nat) (s : State) (hm : Memory.wf s.mem = true) : Memory.wf (clearPort p st root s).mem = true := by
  simp [clearPort, hm]

@[simp] theorem portDown_wf (p reason : Nat) (s : State) (hm : Memory.wf s.mem = true) : Memory.wf (portDown p reason s).mem = true := by
  simp [portDown, hm]

@[simp] theorem discardFlit_mem (p : Nat) (s : State) : (discardFlit p s).mem = s.mem := by rfl

@[simp] theorem meshRefuse_mem (p addr len : Nat) (s : State) : (meshRefuse p addr len s).mem = s.mem := by simp [meshRefuse]

@[simp] theorem meshWrite_wf (p addr len off : Nat) (carry d : List Byte) (s : State) (hm : Memory.wf s.mem = true) :
    Memory.wf (meshWrite p addr len off carry d s).2.mem = true := by
  simp [meshWrite, hm, physWrite_wf]

@[simp] theorem forwardFirst_mem (p : Nat) (f : Flit) (s : State) : (forwardFirst p f s).2.mem = s.mem := by
  unfold forwardFirst
  grind [State.countField_mem, putMsg_mem]

@[simp] theorem echoFlit_mem (p : Nat) (f : Flit) (s : State) : (echoFlit p f s).mem = s.mem := by rfl

@[simp] theorem forwardMore_mem (p q id : Nat) (f : Flit) (s : State) : (forwardMore p q id f s).mem = s.mem := by simp [forwardMore]

@[simp] theorem setRx_mem (p vc : Nat) (m : Option CRx) (s : State) : (setRx p vc m s).mem = s.mem := by rfl

@[simp] theorem wholeMsg_mem (p vc : Nat) (m : CRx) (s : State) : (wholeMsg p vc m s).mem = s.mem := by rfl

@[simp] theorem localFlit_mem (p : Nat) (f : Flit) (m : CRx) (s : State) : (localFlit p f m s).mem = s.mem := by
  unfold localFlit
  split <;> simp

@[simp] theorem meshFlit_wf (p : Nat) (f : Flit) (addr len off : Nat) (carry d : List Byte) (src : Nat) (s : State) (hm : Memory.wf s.mem = true) :
    Memory.wf (meshFlit p f addr len off carry d src s).mem = true := by
  simp [meshFlit, hm, physWrite_wf]

@[simp] theorem firstFlit_wf (p : Nat) (f : Flit) (s : State) (hm : Memory.wf s.mem = true) : Memory.wf (firstFlit p f s).mem = true := by
  unfold firstFlit
  grind [setRx_mem, forwardFirst_mem, returnCred_mem, echoFlit_mem, meshFlit_wf, meshRefuse_mem, localFlit_mem]

@[simp] theorem nextFlit_wf (p : Nat) (f : Flit) (m : CRx) (s : State) (hm : Memory.wf s.mem = true) : Memory.wf (nextFlit p f m s).mem = true := by
  unfold nextFlit
  grind [setRx_mem, localFlit_mem, returnCred_mem, forwardMore_mem, meshFlit_wf]

@[simp] theorem deliver_wf (p : Nat) (f : Flit) (s : State) (hm : Memory.wf s.mem = true) : Memory.wf (deliver p f s).mem = true := by
  unfold deliver
  split <;> simp [hm]

@[simp] theorem takeNak_wf (p : Nat) (s : State) (hm : Memory.wf s.mem = true) : Memory.wf (takeNak p s).mem = true := by simp [takeNak, hm]

@[simp] theorem takeFlit_wf (p : Nat) (f : Flit) (s : State) (hm : Memory.wf s.mem = true) : Memory.wf (takeFlit p f s).mem = true := by
  simp [takeFlit, hm]

@[simp] theorem takeReturn_mem (p : Nat) (s : State) : (takeReturn p s).2.mem = s.mem := by
  simp only [takeReturn]
  split
  · rfl
  · rename_i hg
    exact rrGrant_mem hg

@[simp] theorem sendFlit_mem (p : Nat) (f : Flit) (s : State) : (sendFlit p f s).mem = s.mem := by simp [sendFlit]

@[simp] theorem takePort_mem (p : Nat) (m : CMsg) (s : State) : (takePort p m s).2.mem = s.mem := by
  unfold takePort
  split <;> simp

@[simp] theorem sendNext_mem (p : Nat) (m : CMsg) (s : State) : (sendNext p m s).mem = s.mem := by
  unfold sendNext
  grind [sendFlit_mem, State.count64_mem, State.setCport_mem, returnCred_mem]

@[simp] theorem sendNew_mem (p : Nat) (m : CMsg) (s : State) : (sendNew p m s).mem = s.mem := by simp [sendNew]

@[simp] theorem cwyCfgErr_mem (s : State) : (cwyCfgErr s).mem = s.mem := by rfl

@[simp] theorem trainPort_mem (p : Nat) (s : State) : (trainPort p s).mem = s.mem := by simp [trainPort]

@[simp] theorem portEnEffect_wf (p : Nat) (on : Bool) (s : State) (hm : Memory.wf s.mem = true) : Memory.wf (portEnEffect p on s).mem = true := by
  simp [portEnEffect, hm]

@[simp] theorem meshRead_mem (p : Nat) (s : State) : (meshRead p s).mem = s.mem := by rfl

/-! ### Machine/HostIf -/

@[simp] theorem earlyAccess_mem (q : MemReq) (s : State) : (earlyAccess q s).mem = s.mem := by simp [earlyAccess]

@[simp] theorem windowReq_wf (q : MemReq) (s : State) (hm : Memory.wf s.mem = true) : Memory.wf (windowReq q s).mem = true := by
  unfold windowReq
  grind [unbacked_mem, serveMem_wf, unitReach_mem, earlyAccess_mem, t2Req_wf, sramReq_wf]

@[simp] theorem touchWindow_mem (pa n : Nat) (s : State) : (touchWindow pa n s).mem = s.mem := by
  unfold touchWindow
  grind [touchStore_mem]

@[simp] theorem windowAct_wf (q : MemReq) (s : State) (hm : Memory.wf s.mem = true) : Memory.wf (windowAct q s).mem = true := by
  simp [windowAct, hm]

@[simp] theorem configWord_mem (off : Nat) (s : State) : (configWord off s).2.mem = s.mem := by rfl

/-! ### Machine/Journal -/

@[simp] theorem readEntryBits_mem (req seq : Nat) (ev : BitErr) (s : State) : (readEntryBits req seq ev s).mem = s.mem := by
  unfold readEntryBits
  split <;> simp

@[simp] theorem selectEntry_mem (seq : Nat) (ev : BitErr) (s : State) : (selectEntry seq ev s).mem = s.mem := by simp [selectEntry]

@[simp] theorem jrnFlag_mem (b : Nat) (s : State) : (jrnFlag b s).mem = s.mem := by simp [jrnFlag]

@[simp] theorem spillFault_mem (addr : Nat) (f : Fail) (s : State) : (spillFault addr f s).mem = s.mem := by simp [spillFault]

@[simp] theorem spillDone_mem (s : State) : (spillDone s).mem = s.mem := by simp [spillDone]

@[simp] theorem spillPut_wf (addr : Nat) (b : List Byte) (good : Bool) (s : State) (hm : Memory.wf s.mem = true) :
    Memory.wf (spillPut addr b good s).2.mem = true := by
  unfold spillPut
  grind [vWrite_wf, State.emit_mem]

@[simp] theorem failCopies_mem (s : State) : (failCopies s).mem = s.mem := by rfl

@[simp] theorem failUnit_mem (u : ParityUnit) (root : Nat) (s : State) : (failUnit u root s).mem = s.mem := by
  cases u with
  | dispatcher => exact foldl_mem _ (fun _ _ => startFail_mem _ _ _ _) _ _
  | collective => exact foldl_mem _ (fun _ _ => endPlan_mem _ _ _) _ _
  | lode => simp only [failUnit]; split <;> simp
  | host => exact failCopies_mem s
  | fabric => rfl

/-! ### Machine/MediaOut -/

@[simp] theorem decodeHevc_mem (k : Nat) (m : MSample) (h : MedHdr) (d : DecodeIn) (s : State) : (decodeHevc k m h d s).2.mem = s.mem := by
  simp only [decodeHevc]
  split <;> rename_i heq
  all_goals
    refine (congrArg (fun r => r.2.mem) heq).symm.trans (foldl_snd_mem _ (fun acc e => ?_) _ _)
    (repeat' split) <;> grind [vRead_mem]

@[simp] theorem decodeSample_mem (k : Nat) (m : MSample) (h : MedHdr) (d : DecodeIn) (s : State) : (decodeSample k m h d s).2.mem = s.mem := by
  unfold decodeSample
  split <;> simp

@[simp] theorem opQuiet_mem (a t seq : Nat) (st : Status) (s : State) : (opQuiet a t seq st s).mem = s.mem := by rfl

@[simp] theorem sampleToken_mem (m : MSample) (st : Status) (s : State) : (sampleToken m st s).mem = s.mem := by
  unfold sampleToken
  split <;> simp

@[simp] theorem dropSample_mem (m : MSample) (s : State) : (dropSample m s).mem = s.mem := by
  unfold dropSample
  grind [sampleToken_mem, setFb_mem, coreIdle_mem, classify_mem]

@[simp] theorem mediaFault_mem (k : Nat) (m : MSample) (f : Fail) (s : State) : (mediaFault k m f s).mem = s.mem := by simp [mediaFault]

@[simp] theorem freeBytes_mem (n : Nat) (s : State) : (freeBytes n s).2.mem = s.mem := by rfl

@[simp] theorem putOutput_wf (k : Nat) (m : MSample) (data : List Byte) (fb : Option Nat) (rec_ : List Byte) (s : State)
    (hm : Memory.wf s.mem = true) : Memory.wf (putOutput k m data fb rec_ s).2.mem = true := by
  unfold putOutput
  grind [vWrite_wf, ringPut_wf]

@[simp] theorem recorded_mem (k : Nat) (m : MSample) (rec_ : List Byte) (fb out : Option Nat) (last : Option (Nat × Nat × Nat)) (s : State) :
    (recorded k m rec_ fb out last s).mem = s.mem := by
  unfold recorded
  split <;> simp

@[simp] theorem finishEmpty_wf (k : Nat) (m : MSample) (s : State) (hm : Memory.wf s.mem = true) : Memory.wf (finishEmpty k m s).mem = true := by
  unfold finishEmpty
  grind [freeBytes_mem, putOutput_wf, mediaFault_mem, recorded_mem]

@[simp] theorem finishDecoded_wf (k : Nat) (m : MSample) (h : MedHdr) (d : MedDecoded) (s : State) (hm : Memory.wf s.mem = true) :
    Memory.wf (finishDecoded k m h d s).mem = true := by
  unfold finishDecoded
  grind [State.count_mem, State.count64_mem, putOutput_wf, mediaFault_mem, recorded_mem, setFb_mem]

@[simp] theorem decodeDone_wf (k : Nat) (m : MSample) (d : DecodeIn) (s : State) (hm : Memory.wf s.mem = true) :
    Memory.wf (decodeDone k m d s).mem = true := by
  unfold decodeDone
  grind [finishEmpty_wf, decodeSample_mem, finishDecoded_wf]

@[simp] theorem countRecord_mem (c st : Nat) (s : State) : (countRecord c st s).mem = s.mem := by simp [countRecord]

@[simp] theorem showRecord_mem (m : MSample) (s : State) : (showRecord m s).mem = s.mem := by simp [showRecord]

/-! ### Machine/Power -/

@[simp] theorem pwrCfgErr_mem (s : State) : (pwrCfgErr s).mem = s.mem := by rfl

@[simp] theorem arrayOff_wf (a p : Nat) (s : State) (hm : Memory.wf s.mem = true) : Memory.wf (arrayOff a p s).mem = true := by
  simp [arrayOff, hm, zeroRange_wf]

@[simp] theorem arrayOn_mem (p : Nat) (s : State) : (arrayOn p s).mem = s.mem := by rfl

@[simp] theorem runOffCmd_wf (c : OffCmd) (s : State) (hm : Memory.wf s.mem = true) : Memory.wf (runOffCmd c s).mem = true := by
  unfold runOffCmd
  split <;> simp [hm]

@[simp] theorem countPower_mem (p : Nat) (s : State) : (countPower p s).mem = s.mem := by rfl

@[simp] theorem showLimiting_mem (s : State) : (showLimiting s).mem = s.mem := by rfl

@[simp] theorem floorHit_mem (s : State) : (floorHit s).mem = s.mem := by simp [floorHit]

/-! ### Machine/Images -/

@[simp] theorem State.setFlash_mem (s : State) (ty copy : Nat) (x : FlashCopy) : (s.setFlash ty copy x).mem = s.mem := by rfl

@[simp] theorem runCopy_mem (ty copy : Nat) (s : State) : (runCopy ty copy s).mem = s.mem := by simp [runCopy]

/-! ### Machine/Startup -/

@[simp] theorem Memory.wf_nil : Memory.wf [] = true := by rfl

@[simp] theorem freshUnits_mem (s : State) : (freshUnits s).mem = [] := by rfl

@[simp] theorem trimCold_mem (s : State) : (trimCold s).mem = s.mem := by rfl

@[simp] theorem untrained_mem (s : State) : (untrained s).mem = s.mem := by rfl

@[simp] theorem xoffAll_mem (s : State) : (xoffAll s).mem = s.mem := by simp [xoffAll]

@[simp] theorem finishT2_wf (s : State) (hm : Memory.wf s.mem = true) : Memory.wf (finishT2 s).mem = true := by
  unfold finishT2
  split
  · exact hm
  · refine foldl_wf _ (fun t q ht => ?_) _ _ hm
    split
    · exact serveT2_wf _ _ _ ht
    · exact ht

@[simp] theorem stampStart_mem (kind cause fb retries starts retrain : Nat) (s : State) :
    (stampStart kind cause fb retries starts retrain s).mem = s.mem := by
  simp [stampStart]

@[simp] theorem armStart_mem (s : State) : (armStart s).mem = s.mem := by rfl

@[simp] theorem takeIlv_mem (mode : Nat) (s : State) : (takeIlv mode s).mem = s.mem := by rfl

@[simp] theorem beginCold_mem (cause fb : Nat) (s0 : State) : (beginCold cause fb s0).mem = [] := by simp [beginCold]

@[simp] theorem beginWarm_wf (cause : Nat) (s0 : State) (hm : Memory.wf s0.mem = true) : Memory.wf (beginWarm cause s0).mem = true := by
  have h := finishT2_wf (xoffAll s0) (by simpa using hm)
  simp only [beginWarm, armStart_mem, stampStart_mem, takeIlv_mem, ite_mem, State.setRf_mem, untrained_mem, ite_self]
  exact SMap.canon_filter _ h

@[simp] theorem powerDown_mem (s : State) : (powerDown s).mem = [] := by simp [powerDown]

@[simp] theorem powerOff_mem (s : State) : (powerOff s).mem = [] := by simp [powerOff]

@[simp] theorem beginPower_mem (s : State) : (beginPower s).mem = s.mem := by simp [beginPower]

@[simp] theorem tryPower_mem (s : State) : (tryPower s).mem = s.mem := by simp [tryPower]

@[simp] theorem tripDown_wf (good : Bool) (s : State) (hm : Memory.wf s.mem = true) : Memory.wf (tripDown good s).mem = true := by
  simp [tripDown, hm]

@[simp] theorem coldTrigger_wf (s : State) (hm : Memory.wf s.mem = true) : Memory.wf (coldTrigger s).mem = true := by simp [coldTrigger, hm]

@[simp] theorem warmTrigger_wf (cause : Nat) (chk : WarmCheck) (s : State) (hm : Memory.wf s.mem = true) :
    Memory.wf (warmTrigger cause chk s).mem = true := by
  simp [warmTrigger, hm]

@[simp] theorem modBoot_mem (f : Boot → Boot) (s : State) : (modBoot f s).mem = s.mem := by rfl

@[simp] theorem enterSafe_mem (s : State) : (enterSafe s).mem = [] := by simp [enterSafe]

@[simp] theorem failStart_wf (s : State) (hm : Memory.wf s.mem = true) : Memory.wf (failStart s).mem = true := by simp [failStart, hm]

@[simp] theorem mapDefect_mem (s : State) (p : Nat) : (mapDefect s p).mem = s.mem := by
  unfold mapDefect
  grind [writeFault_mem]

@[simp] theorem buildMap_mem (s : State) : (buildMap s).mem = s.mem := by simp [buildMap]

@[simp] theorem setConfig_mem (s : State) : (setConfig s).mem = s.mem := by rfl

@[simp] theorem deriveAlias_mem (b : Boot) (s : State) : (deriveAlias b s).mem = s.mem := by simp [deriveAlias]

@[simp] theorem completeStart_mem (s : State) : (completeStart s).mem = s.mem := by simp [completeStart]

@[simp] theorem shortfall1_mem (kind idx : Nat) (s : State) : (shortfall1 kind idx s).mem = s.mem := by simp [shortfall1]

@[simp] theorem notePkgs_mem (pkgs : W32) (s : State) : (notePkgs pkgs s).mem = s.mem := by simp [notePkgs]

@[simp] theorem notePorts_mem (ports : Fin 4) (s : State) : (notePorts ports s).mem = s.mem := by simp [notePorts]

@[simp] theorem autostart_mem (s : State) : (autostart s).mem = s.mem := by simp [autostart]

@[simp] theorem beginRepair_mem (s : State) : (beginRepair s).mem = s.mem := by simp [beginRepair]

@[simp] theorem openConfig_mem (b : Boot) (pkgs : W32) (ports : Fin 4) (s : State) : (openConfig b pkgs ports s).mem = s.mem := by simp [openConfig]

@[simp] theorem failTest_mem (s : State) (p : Nat) : (failTest s p).mem = s.mem := by simp [failTest]

@[simp] theorem trainStack_mem (s : State) (k t : Nat) : (trainStack s k t).mem = s.mem := by simp [trainStack]

@[simp] theorem restoreT2_wf (lost : Bool) (s : State) (hm : Memory.wf s.mem = true) : Memory.wf (restoreT2 lost s).mem = true := by
  simp only [restoreT2]
  (repeat' split)
  · exact hm
  · exact hm
  · exact SMap.canon_filter _ hm

end Sys2Proof.Machine
end

section
/-! PROOFS. Memory stays canonical (O59): the rule of every register, the register bus, a tick, the management commands and the scalar instructions.
A `_mem` lemma says that a function leaves memory as it is, a `_wf` lemma that it keeps the canonical form. -/

namespace Sys2Proof.Machine

/-! ### Every register rule keeps the canonical form of memory -/

@[simp] theorem ite_snd_mem {α : Type} (p : Prop) [Decidable p] (x y : α × State) :
    (if p then x else y).2.mem = if p then x.2.mem else y.2.mem := by split <;> rfl

theorem itkCtrlRule_keepsWf : itkCtrlRule.KeepsWf where
  guard _ _ _ _ hm := by simp [itkCtrlRule, hm]
  effect _ _ _ _ _ hm := by simp [itkCtrlRule, hm]

theorem itkPortRule_keepsWf : itkPortRule.KeepsWf where
  guard _ _ _ _ hm := by simp [itkPortRule, hm]
  effect _ _ _ _ _ hm := hm

theorem itkSkidRule_keepsWf : itkSkidRule.KeepsWf where
  guard _ _ _ _ hm := by simp [itkSkidRule, hm]
  effect _ _ _ _ _ hm := hm

theorem itkStreamRule_keepsWf : itkStreamRule.KeepsWf where
  guard _ _ _ _ hm := by simp [itkStreamRule, hm]
  effect _ _ _ _ _ hm := hm

theorem tokLoadRule_keepsWf (k : Nat) : (tokLoadRule k).KeepsWf where
  guard _ _ _ _ hm := hm
  effect _ _ _ _ _ hm := by simp [tokLoadRule, hm]

theorem fbReleaseRule_keepsWf : fbReleaseRule.KeepsWf where
  guard _ _ _ _ hm := hm
  effect _ _ _ _ _ hm := by simp [fbReleaseRule, hm]

theorem ctxCtrlRule_keepsWf : ctxCtrlRule.KeepsWf where
  guard _ _ _ _ hm := by simp [ctxCtrlRule, hm]
  effect _ _ _ _ _ hm := by simp [ctxCtrlRule, hm]

theorem ctxFieldRule_keepsWf : ctxFieldRule.KeepsWf where
  guard _ _ _ _ hm := by simp [ctxFieldRule, hm]
  effect _ _ _ _ _ hm := hm

theorem inWrRule_keepsWf : inWrRule.KeepsWf where
  guard _ _ _ _ hm := by simp [inWrRule, hm]
  effect _ _ _ _ _ hm := hm

theorem outRdRule_keepsWf : outRdRule.KeepsWf where
  guard _ _ _ _ hm := by simp [outRdRule, hm]
  effect _ _ _ _ _ hm := hm

theorem fbPoolRule_keepsWf : fbPoolRule.KeepsWf where
  guard _ _ _ _ hm := by simp [fbPoolRule, hm]
  effect _ _ _ _ _ hm := by simp [fbPoolRule, hm]

theorem itkRdMedRule_keepsWf : itkRdMedRule.KeepsWf where
  guard _ _ _ _ hm := by simp [itkRdMedRule, itkRdRule, hm]
  effect _ _ _ _ _ hm := hm

theorem batReleaseRule_keepsWf : batReleaseRule.KeepsWf where
  guard _ _ _ _ hm := hm
  effect _ _ _ _ _ hm := by simp [batReleaseRule, hm]

theorem streamCtrlRule_keepsWf : streamCtrlRule.KeepsWf where
  guard _ _ _ _ hm := by simp [streamCtrlRule, hm]
  effect _ _ _ _ _ hm := by simp [streamCtrlRule, hm]

theorem streamFieldRule_keepsWf : streamFieldRule.KeepsWf where
  guard _ _ _ _ hm := by simp [streamFieldRule, hm]
  effect _ _ _ _ _ hm := hm

theorem bucketFieldRule_keepsWf : bucketFieldRule.KeepsWf where
  guard _ _ _ _ hm := by simp [bucketFieldRule, hm]
  effect _ _ _ _ _ hm := hm

theorem flushRule_keepsWf : flushRule.KeepsWf where
  guard _ _ _ _ hm := hm
  effect _ _ _ _ _ hm := by simp [flushRule, hm]

theorem sqCtrlRule_keepsWf : sqCtrlRule.KeepsWf where
  guard _ _ _ _ hm := by simp [sqCtrlRule, hm]
  effect _ _ _ _ _ hm := by simp [sqCtrlRule, hm]

theorem cqCtrlRule_keepsWf : cqCtrlRule.KeepsWf where
  guard _ _ _ _ hm := by simp [cqCtrlRule, hm]
  effect _ _ _ _ _ hm := by simp [cqCtrlRule, hm]

theorem sqFieldRule_keepsWf : sqFieldRule.KeepsWf where
  guard _ _ _ _ hm := by simp [sqFieldRule, hm]
  effect _ _ _ _ _ hm := hm

theorem cqFieldRule_keepsWf : cqFieldRule.KeepsWf where
  guard _ _ _ _ hm := by simp [cqFieldRule, hm]
  effect _ _ _ _ _ hm := hm

theorem evtMaskRule_keepsWf : evtMaskRule.KeepsWf where
  guard _ _ _ _ hm := hm
  effect _ _ _ _ _ hm := by simp [evtMaskRule, hm]

theorem expCtrlRule_keepsWf : expCtrlRule.KeepsWf where
  guard _ _ _ _ hm := hm
  effect _ _ _ _ _ hm := by simp [expCtrlRule, hm]

theorem injectRule_keepsWf : injectRule.KeepsWf where
  guard _ _ _ _ hm := hm
  effect _ _ _ _ _ hm := by simp [injectRule, hm]

theorem invRule_keepsWf : invRule.KeepsWf where
  guard _ _ _ _ hm := hm
  effect _ _ _ _ _ hm := by simp [invRule, hm]

theorem ckpRule_keepsWf : ckpRule.KeepsWf where
  guard _ _ _ _ hm := hm
  effect _ _ _ _ _ hm := by simp [ckpRule, hm]

theorem dspCtrlRule_keepsWf : dspCtrlRule.KeepsWf where
  guard _ _ _ _ hm := by simp [dspCtrlRule, hm]
  effect _ _ _ _ _ hm := by simp [dspCtrlRule, hm]

theorem winTicksRule_keepsWf : winTicksRule.KeepsWf where
  guard _ _ _ _ hm := by simp [winTicksRule, hm]
  effect _ _ _ _ _ hm := hm

theorem pinRule_keepsWf : pinRule.KeepsWf where
  guard _ _ _ _ hm := by simp [pinRule, hm]
  effect _ _ _ _ _ hm := hm

theorem verRule_keepsWf : verRule.KeepsWf where
  guard _ _ _ _ hm := by simp [verRule, hm]
  effect _ _ _ _ _ hm := hm

theorem earlyRule_keepsWf : earlyRule.KeepsWf where
  guard _ _ _ _ hm := by simp [earlyRule, hm]
  effect _ _ _ _ _ hm := hm

theorem portCtrlRule_keepsWf : portCtrlRule.KeepsWf where
  guard _ _ _ _ hm := by simp [portCtrlRule, hm]
  effect _ _ _ _ _ hm := by simp [portCtrlRule, hm]

theorem dtRule_keepsWf : dtRule.KeepsWf where
  guard _ _ _ _ hm := hm
  effect _ _ _ _ _ hm := by simp [dtRule, hm]

theorem portFieldRule_keepsWf : portFieldRule.KeepsWf where
  guard _ _ _ _ hm := by simp [portFieldRule, hm]
  effect _ _ _ _ _ hm := hm

theorem windowEnRule_keepsWf : windowEnRule.KeepsWf where
  guard _ _ _ _ hm := by simp [windowEnRule, hm]
  effect _ _ _ _ _ hm := hm

theorem windowFieldRule_keepsWf : windowFieldRule.KeepsWf where
  guard _ _ _ _ hm := by simp [windowFieldRule, hm]
  effect _ _ _ _ _ hm := hm

theorem headSeqRule_keepsWf : headSeqRule.KeepsWf where
  guard _ _ _ _ hm := by simp [headSeqRule, hm]
  effect _ _ _ _ _ hm := by simp [headSeqRule, hm]

theorem jrnRdRule_keepsWf (ev : BitErr) : (jrnRdRule ev).KeepsWf where
  guard _ _ _ _ hm := hm
  effect _ _ _ _ _ hm := by simp [jrnRdRule, hm]

theorem jrnCtrlRule_keepsWf : jrnCtrlRule.KeepsWf where
  guard _ _ _ _ hm := by simp [jrnCtrlRule, hm]
  effect _ _ _ _ _ hm := by simp [jrnCtrlRule, hm]

theorem spillRdRule_keepsWf : spillRdRule.KeepsWf where
  guard _ _ _ _ hm := by simp [spillRdRule, hm]
  effect _ _ _ _ _ hm := hm

theorem pwrOffRule_keepsWf : pwrOffRule.KeepsWf where
  guard _ _ _ _ hm := hm
  effect _ _ _ _ _ hm := by simp [pwrOffRule, hm]

theorem rangeRule_keepsWf (lo hi : Nat) : (rangeRule lo hi).KeepsWf where
  guard _ _ _ _ hm := by simp [rangeRule, hm]
  effect _ _ _ _ _ hm := hm

theorem tauRule_keepsWf : tauRule.KeepsWf where
  guard _ _ _ _ hm := by simp [tauRule, hm]
  effect _ _ _ _ _ hm := hm

theorem hstResetRule_keepsWf (chk : WarmCheck) : (hstResetRule chk).KeepsWf where
  guard _ _ _ _ hm := hm
  effect _ _ _ _ _ hm := by simp [hstResetRule, hm]

theorem batSeedRule_keepsWf : batSeedRule.KeepsWf where
  guard _ _ _ _ hm := hm
  effect _ _ _ _ hm := by simp [batSeedRule, hm]
  lowGuard _ _ _ ht := absurd ht.symm (Option.some_ne_none _)

theorem lodSeedRule_keepsWf : lodSeedRule.KeepsWf where
  guard _ _ _ _ hm := hm
  effect _ _ _ _ hm := by simp [lodSeedRule, hm]
  lowGuard _ _ _ ht := absurd ht.symm (Option.some_ne_none _)

theorem colSeedRule_keepsWf : colSeedRule.KeepsWf where
  guard _ _ _ _ hm := hm
  effect _ _ _ _ hm := by simp [colSeedRule, hm]
  lowGuard _ _ _ ht := absurd ht.symm (Option.some_ne_none _)

theorem shareRule_keepsWf : shareRule.KeepsWf where
  guard _ _ _ _ hm := by simp [shareRule, hm]
  effect _ _ _ _ hm := hm
  lowGuard _ _ _ ht := absurd ht.symm (Option.some_ne_none _)

theorem vecSeedRule_keepsWf : vecSeedRule.KeepsWf where
  guard _ _ _ _ hm := hm
  effect _ _ _ _ hm := by simp [vecSeedRule, hm]
  lowGuard _ _ _ ht := absurd ht.symm (Option.some_ne_none _)

theorem limitRule_keepsWf : limitRule.KeepsWf := rangeRule_keepsWf _ _

theorem headroomRule_keepsWf : headroomRule.KeepsWf := rangeRule_keepsWf _ _

theorem aclkMaxRule_keepsWf : aclkMaxRule.KeepsWf := rangeRule_keepsWf _ _

theorem hostRules_keepsWf : ∀ e ∈ hostRules, e.2.KeepsWf := by
  simp [hostRules, evtMaskRule_keepsWf, hstResetRule_keepsWf, sqCtrlRule_keepsWf, sqFieldRule_keepsWf, cqCtrlRule_keepsWf, cqFieldRule_keepsWf,
    limitRule_keepsWf, headroomRule_keepsWf, aclkMaxRule_keepsWf, pwrOffRule_keepsWf, headSeqRule_keepsWf, jrnRdRule_keepsWf, jrnCtrlRule_keepsWf,
    spillRdRule_keepsWf]

theorem coreRules_keepsWf : ∀ e ∈ coreRules, e.2.KeepsWf := by
  simp [coreRules, tauRule_keepsWf, injectRule_keepsWf, expCtrlRule_keepsWf, invRule_keepsWf, ckpRule_keepsWf, portCtrlRule_keepsWf,
    dtRule_keepsWf, portFieldRule_keepsWf, windowEnRule_keepsWf, windowFieldRule_keepsWf, earlyRule_keepsWf, verRule_keepsWf, dspCtrlRule_keepsWf,
    winTicksRule_keepsWf, pinRule_keepsWf]

theorem mediaRules_keepsWf : ∀ e ∈ mediaRules, e.2.KeepsWf := by
  simp [mediaRules, fbPoolRule_keepsWf, fbReleaseRule_keepsWf, tokLoadRule_keepsWf, ctxCtrlRule_keepsWf, ctxFieldRule_keepsWf, inWrRule_keepsWf,
    outRdRule_keepsWf, itkCtrlRule_keepsWf, itkPortRule_keepsWf, itkSkidRule_keepsWf, itkStreamRule_keepsWf, itkRdMedRule_keepsWf]

theorem batRules_keepsWf : ∀ e ∈ batRules, e.2.KeepsWf := by
  simp [batRules, batReleaseRule_keepsWf, streamCtrlRule_keepsWf, streamFieldRule_keepsWf, flushRule_keepsWf]

/-- The rule of a register, whichever it is, keeps the canonical form. -/
theorem ruleAt_keepsWf (off : Nat) : (ruleAt off).KeepsWf := by
  unfold ruleAt
  split
  · exact bucketFieldRule_keepsWf
  · split
    · rename_i e hfind
      have hmem := List.mem_of_find?_eq_some hfind
      simp only [List.mem_append] at hmem
      obtain ((h | h) | h) | h := hmem
      · exact hostRules_keepsWf e h
      · exact coreRules_keepsWf e h
      · exact mediaRules_keepsWf e h
      · exact batRules_keepsWf e h
    · exact WriteRule.plain_keepsWf

theorem sqBaseRule_keepsWf : sqBaseRule.KeepsWf := heldPair_keepsWf _ _ (fun _ _ => by simp)

theorem cqBaseRule_keepsWf : cqBaseRule.KeepsWf := heldPair_keepsWf _ _ (fun _ _ => by simp)

theorem PairRule.KeepsWf.ite {p : Prop} [Decidable p] {v w : PairRule} (hv : v.KeepsWf) (hw : w.KeepsWf) :
    (if p then v else w).KeepsWf := by
  split
  · exact hv
  · exact hw

/-- The rule of a pair, whichever it is, keeps the canonical form. -/
theorem pairRuleAt_keepsWf (lo : Nat) : (pairRuleAt lo).KeepsWf :=
  .ite sqBaseRule_keepsWf <| .ite cqBaseRule_keepsWf <| .ite vecSeedRule_keepsWf <| .ite shareRule_keepsWf <|
  .ite (heldPair_keepsWf _ _ fun _ _ => by simp) <| .ite (heldPair_keepsWf _ _ fun _ _ => by simp) <|
  .ite (heldPair_keepsWf _ _ fun _ _ => by simp) <| .ite (heldPair_keepsWf _ _ fun _ _ => by simp) <| .ite batSeedRule_keepsWf <|
  .ite (heldPair_keepsWf _ _ fun _ _ => by simp) <| .ite (heldPair_keepsWf _ _ fun _ _ => by simp) <| .ite colSeedRule_keepsWf <|
  .ite (heldPair_keepsWf _ _ fun _ _ => by simp) <| .ite lodSeedRule_keepsWf PairRule.plain_keepsWf

/-! ### Machine/RegBus -/

@[simp] theorem tbSet_mem (a : RegAcc) (s : State) : (tbSet a s).mem = s.mem := by
  unfold tbSet
  split
  · rename_i hadm; exact admitWrite_no_mem hadm
  · rename_i hadm
    have hs := admitWrite_yes_mem hadm
    dsimp only
    split <;> simp [hs]

@[simp] theorem writeNow_wf (a : RegAcc) (s : State) (hm : Memory.wf s.mem = true) : Memory.wf (writeNow a s).mem = true := by
  unfold writeNow
  split
  · simpa using hm
  · split
    · exact fclassWrite_wf a s hm
    · split
      · exact hm
      · split
        · exact writeReg_wf (ruleAt_keepsWf _) a s hm
        · exact holdLo_wf (pairRuleAt_keepsWf _) a s hm
        · exact writeHi_wf (pairRuleAt_keepsWf _) a s hm

@[simp] theorem mergePulse_mem (d : ClkDomain) (s : State) : (mergePulse d s).mem = s.mem := by rfl

@[simp] theorem writeAny_wf (a : RegAcc) (s : State) (hm : Memory.wf s.mem = true) : Memory.wf (writeAny a s).mem = true := by
  unfold writeAny
  split <;> simp [hm]

@[simp] theorem busWrite_wf (a : RegAcc) (s : State) (hm : Memory.wf s.mem = true) : Memory.wf (busWrite a s).mem = true := by
  unfold busWrite
  split <;> simp [hm]

@[simp] theorem readValue_mem (p : Port) (off : Nat) (s : State) : (readValue p off s).2.mem = s.mem := by
  unfold readValue
  grind [readThrough_mem, meshRead_mem]

@[simp] theorem readNow_mem (p : Port) (off : Nat) (s : State) : (readNow p off s).mem = s.mem := by simp [readNow]

@[simp] theorem readAny_mem (p : Port) (off : Nat) (s : State) : (readAny p off s).mem = s.mem := by
  unfold readAny
  split <;> simp

@[simp] theorem busRead_mem (p : Port) (off : Nat) (s : State) : (busRead p off s).mem = s.mem := by
  unfold busRead
  split
  · rfl
  · cases p
    · exact hostTurn_mem _ _ _ (readAny_mem _ _ _)
    · exact readAny_mem _ _ _

@[simp] theorem hostAct_wf (w : WaitAcc) (s : State) (hm : Memory.wf s.mem = true) : Memory.wf (hostAct w s).mem = true := by
  unfold hostAct
  split <;> simp [hm]

@[simp] theorem drainBus_wf (s : State) (hm : Memory.wf s.mem = true) : Memory.wf (drainBus s).mem = true :=
  foldl_wf _ (fun t w ht => hostTurn_wf w _ t (hostAct_wf w t ht) ht) _ _ hm

@[simp] theorem rowWrite_wf (p : Port) (off : Nat) (val : W32) (rid : W16) (s : State) (hm : Memory.wf s.mem = true) :
    Memory.wf (rowWrite p off val rid s).mem = true := by
  simp [rowWrite, hm]

/-! ### Machine/ClockRows -/

@[simp] theorem resumeWait_wf (w : WaitAcc) (s : State) (hm : Memory.wf s.mem = true) : Memory.wf (resumeWait w s).mem = true := by
  unfold resumeWait
  split <;> simp [hm]

@[simp] theorem lockPll_wf (d : ClkDomain) (s : State) (hm : Memory.wf s.mem = true) : Memory.wf (lockPll d s).mem = true := by
  simp only [lockPll]
  refine drainBus_wf _ (foldl_wf _ (fun t w ht => resumeWait_wf w t ht) _ _ ?_)
  simpa using hm

@[simp] theorem bootPll_wf (d : ClkDomain) (s : State) (hm : Memory.wf s.mem = true) : Memory.wf (bootPll d s).mem = true := by simp [bootPll, hm]

@[simp] theorem refLost_mem (dom : Nat) (s : State) : (refLost dom s).mem = s.mem := by simp [refLost]

@[simp] theorem cwyDown_wf (s : State) (hm : Memory.wf s.mem = true) : Memory.wf (cwyDown s).mem = true :=
  foldl_wf _ (fun t p ht => intakeLinkDown_wf p t ht) _ _
    (foldl_wf _ (fun t p ht => by split <;> simp [ht]) _ _ hm)

/-! ### Machine/Tick -/

@[simp] theorem advanceTime_mem (s : State) : (advanceTime s).mem = s.mem := by
  unfold advanceTime
  grind []

@[simp] theorem countCores_mem (s : State) : (countCores s).mem = s.mem := by simp [countCores]

@[simp] theorem countHolds_mem (s : State) : (countHolds s).mem = s.mem := by simp [countHolds]

@[simp] theorem countThrottle_mem (s : State) : (countThrottle s).mem = s.mem := by simp [countThrottle]

@[simp] theorem noteActivity_mem (s : State) : (noteActivity s).mem = s.mem := by rfl

@[simp] theorem tick_wf (s : State) (hm : Memory.wf s.mem = true) : Memory.wf (tick s).mem = true := by simp [tick, hm]

/-! ### Machine/Nolivo -/

@[simp] theorem answer_mem (c : NCode) (d : List Byte) (s : State) : (answer c d s).mem = s.mem := by rfl

@[simp] theorem setPower_wf (limit aclk : W32) (eid : Byte) (s : State) (hm : Memory.wf s.mem = true) :
    Memory.wf (setPower limit aclk eid s).mem = true := by
  simp [setPower, hm]

@[simp] theorem resetCmdMeaning_wf (cold : Byte) (chk : WarmCheck) (s : State) (hm : Memory.wf s.mem = true) :
    Memory.wf (resetCmdMeaning cold chk s).mem = true := by
  simp [resetCmdMeaning, hm]

@[simp] theorem mgmtEntry_mem (eid : Byte) (off old new : Nat) (s : State) : (mgmtEntry eid off old new s).mem = s.mem := by simp [mgmtEntry]

@[simp] theorem bootOptions_mem (opts eid : Byte) (s : State) : (bootOptions opts eid s).mem = s.mem := by simp [bootOptions]

@[simp] theorem setUpdate_mem (v : Nat) (s : State) : (setUpdate v s).mem = s.mem := by rfl

@[simp] theorem fwBegin_mem (ty : Byte) (s : State) : (fwBegin ty s).mem = s.mem := by simp [fwBegin]

@[simp] theorem fwData_mem (off : W32) (data : List Byte) (s : State) : (fwData off data s).mem = s.mem := by
  unfold fwData
  split <;> simp

@[simp] theorem endCommit_mem (c : NCode) (eid : Byte) (old : Nat) (s : State) : (endCommit c eid old s).mem = s.mem := by simp [endCommit]

@[simp] theorem fwCommit_mem (eid : Byte) (s : State) : (fwCommit eid s).mem = s.mem := by
  unfold fwCommit
  split <;> simp

@[simp] theorem svnCommit_mem (ty v eid : Byte) (s : State) : (svnCommit ty v eid s).mem = s.mem := by simp [svnCommit]

@[simp] theorem keyRevoke_mem (slot eid : Byte) (s : State) : (keyRevoke slot eid s).mem = s.mem := by simp [keyRevoke]

@[simp] theorem openBytes_mem (n : Nat) (x : State) : (openBytes n x).2.mem = x.mem := by
  induction n generalizing x with
  | zero => rfl
  | succ n ih => exact (ih _).trans (by rfl)

@[simp] theorem readRecord_mem (fseq : Nat) (ev : BitErr) (s : State) : (readRecord fseq ev s).2.mem = s.mem := by
  unfold readRecord
  grind [State.count_mem, openBytes_mem, writeFault_mem]

@[simp] theorem readRecords_mem (n n2 : Nat) (l : List BitErr) (x : State) : (readRecords n n2 l x).2.mem = x.mem := by
  induction n generalizing n2 l x with
  | zero => rfl
  | succ n ih => exact (ih _ _ _).trans (readRecord_mem _ _ _)

@[simp] theorem faultRead_mem (fseq : W32) (count : Byte) (bad : List BitErr) (s : State) : (faultRead fseq count bad s).mem = s.mem := by
  simp [faultRead]

@[simp] theorem readEntry1_mem (seq : Nat) (ev : BitErr) (s : State) : (readEntry1 seq ev s).2.mem = s.mem := by simp [readEntry1]

@[simp] theorem readEntries_mem (n n2 : Nat) (l : List BitErr) (x : State) : (readEntries n n2 l x).2.mem = x.mem := by
  induction n generalizing n2 l x with
  | zero => rfl
  | succ n ih => exact (ih _ _ _).trans (readEntry1_mem _ _ _)

@[simp] theorem journalRead_mem (seq : W32) (count : Byte) (bad : List BitErr) (s : State) : (journalRead seq count bad s).mem = s.mem := by
  simp [journalRead]

@[simp] theorem lockMasks_wf (set clear : W32) (eid : Byte) (s : State) (hm : Memory.wf s.mem = true) :
    Memory.wf (lockMasks set clear eid s).mem = true := by
  simp [lockMasks, hm]

@[simp] theorem regReadCmd_mem (off : W32) (s : State) : (regReadCmd off s).mem = s.mem := by simp [regReadCmd]

@[simp] theorem regWriteCmd_wf (off val : W32) (eid : Byte) (s : State) (hm : Memory.wf s.mem = true) :
    Memory.wf (regWriteCmd off val eid s).mem = true := by
  simp [regWriteCmd, hm]

@[simp] theorem debugChallenge_mem (s : State) : (debugChallenge s).mem = s.mem := by rfl

@[simp] theorem debugUnlock_mem (t : List Byte) (s : State) : (debugUnlock t s).mem = s.mem := by simp [debugUnlock]

/-! ### Machine/Scalar -/

@[simp] theorem writeS_mem (a t w : Nat) (v : W64) (s : State) : (writeS a t w v s).mem = s.mem := by simp [writeS]

@[simp] theorem writeP_mem (a t w : Nat) (v : Bool) (s : State) : (writeP a t w v s).mem = s.mem := by simp [writeP]

/-- An instruction that ends in one scalar result leaves memory as it is. (`writeS` is taken as a variable: the kernel must not unfold it.) -/
theorem issue_writeS_mem (cls func a t : Nat) (v : Nat → Nat → State → W64) (s : State) :
    (issue cls func (fun w ext u => writeS a t w (v w ext u) u) a t s).mem = s.mem := by
  have hw := writeS_mem
  obtain ⟨write, hwrite⟩ := exists_eq (a' := writeS)
  rw [← hwrite] at hw ⊢
  exact issue_mem _ _ _ _ _ _ (fun _ _ _ => hw _ _ _ _ _)

@[simp] theorem aluReg_mem (f : Nat) (a : Fin 96) (t : Fin 64) (s : State) : (aluReg f a t s).mem = s.mem := by
  unfold aluReg
  exact issue_writeS_mem _ _ _ _ _ _

@[simp] theorem aluImm_mem (f : Nat) (a : Fin 96) (t : Fin 64) (s : State) : (aluImm f a t s).mem = s.mem := by
  unfold aluImm
  exact issue_writeS_mem _ _ _ _ _ _

/-- An instruction that ends in one predicate leaves memory as it is. -/
theorem issue_writeP_mem (cls func a t : Nat) (v : Nat → Nat → State → Bool) (s : State) :
    (issue cls func (fun w ext u => writeP a t w (v w ext u) u) a t s).mem = s.mem := by
  have hw := writeP_mem
  obtain ⟨write, hwrite⟩ := exists_eq (a' := writeP)
  rw [← hwrite] at hw ⊢
  exact issue_mem _ _ _ _ _ _ (fun _ _ _ => hw _ _ _ _ _)

@[simp] theorem cmpReg_mem (k : Nat) (a : Fin 96) (t : Fin 64) (s : State) : (cmpReg k a t s).mem = s.mem := by
  unfold cmpReg
  exact issue_writeP_mem _ _ _ _ _ _

@[simp] theorem cmpImm_mem (k : Nat) (a : Fin 96) (t : Fin 64) (s : State) : (cmpImm k a t s).mem = s.mem := by
  unfold cmpImm
  exact issue_writeP_mem _ _ _ _ _ _

@[simp] theorem callTo_mem (a t w : Nat) (pc : Int) (s : State) : (callTo a t w pc s).mem = s.mem := by simp [callTo]

@[simp] theorem bnzDec_mem (a t w : Nat) (s : State) : (bnzDec a t w s).mem = s.mem := by simp [bnzDec]

/-! ### Machine/Spdm -/

@[simp] theorem spdmAnswer_mem (tr : SpdmPort) (r : SpdmResp) (s : State) : (spdmAnswer tr r s).mem = s.mem := by rfl

@[simp] theorem setStage_mem (tr : SpdmPort) (n : Nat) (s : State) : (setStage tr n s).mem = s.mem := by
  unfold setStage
  split <;> simp

end Sys2Proof.Machine
end

section
/-! PROOFS. Memory stays canonical (O59): the commands, one by one, and the step. A `_mem` lemma says that a function leaves memory as it is, a
`_wf` lemma that it keeps the canonical form. -/

namespace Sys2Proof.Machine

/-! ### What a command answers -/

/-- Every next state that a command answers has its memory in canonical form. -/
def NextCanon (o : Host.Outcome State Fault Refusal) : Prop := ∀ v, o = .next v → Memory.wf v.mem = true

@[simp] theorem nextCanon_next (v : State) : NextCanon (.next v) ↔ Memory.wf v.mem = true := by
  simp [NextCanon]

@[simp] theorem nextCanon_fault (f : Fault) : NextCanon (.fault f) := by simp [NextCanon]

@[simp] theorem nextCanon_ite (p : Prop) [Decidable p] (o q : Host.Outcome State Fault Refusal) :
    NextCanon (if p then o else q) ↔ if p then NextCanon o else NextCanon q := by
  split <;> rfl

/-- A Nolivo command that is answered at once leaves memory as it is. -/
theorem nolivo_wf (safeOk : Bool) (k : State → State) (s : State) (hk : Memory.wf (k s).mem = true) (hm : Memory.wf s.mem = true) :
    Memory.wf (nolivo safeOk k s).mem = true := by
  simp [nolivo, hk, hm]

@[simp] theorem nolivo_mem (safeOk : Bool) (k : State → State) (s : State) (hk : (k s).mem = s.mem) : (nolivo safeOk k s).mem = s.mem := by
  simp [nolivo, hk]

@[simp] theorem spdmAt_mem (n : Nat) (tr : SpdmPort) (k : State → State) (s : State) (hk : (k s).mem = s.mem) : (spdmAt n tr k s).mem = s.mem := by
  simp [spdmAt, hk]

/-- An instruction that queues one operation leaves memory as it is where its body does. -/
theorem collIssue_mem (func : Nat) (body : Nat → Nat → Nat → W64 → W64 → State → State) (hb : ∀ a t q x y s, (body a t q x y s).mem = s.mem)
    (a : Fin 96) (t : Fin 64) (s : State) : (collIssue func body a t s).mem = s.mem := by
  unfold collIssue
  refine issue_mem _ _ _ _ _ _ (fun w ext u => ?_)
  dsimp only
  split
  · exact waitFor_mem _ _ _ _
  · exact issueAsync_mem _ _ _ _ _ _ (fun q v => hb _ _ _ _ _ v)

theorem runImages_mem {warm : Bool} {s t : State} (h : runImages warm s = some t) : t.mem = s.mem := by
  have key : ∀ (l : List Nat) (r : Option State), (∀ u, r = some u → u.mem = s.mem) → ∀ t, l.foldl (fun r ty =>
      match r with
      | none => none
      | some t => (chooseCopy warm ty t).map (fun c => runCopy ty c t)) r = some t → t.mem = s.mem := by
    intro l
    induction l with
    | nil => exact fun r hr t ht => hr t ht
    | cons ty l ih =>
      intro r hr t ht
      refine ih _ (fun u hu => ?_) t ht
      cases r with
      | none => exact absurd hu nofun
      | some v =>
        obtain ⟨c, -, rfl⟩ := Option.map_eq_some_iff.1 hu
        simpa using hr v rfl
  exact key _ _ (fun u hu => by rw [Option.some.inj hu]) t h

@[simp] theorem execAsyncOpComplete_canon (a : Fin 96) (t : Fin 64) (unit : Fin 11) (s : State) (hm : Memory.wf s.mem = true) :
    NextCanon (execAsyncOpComplete a t unit s) := by
  unfold execAsyncOpComplete
  (repeat' split) <;> simp [hm]

@[simp] theorem execItemThreadsHalt_canon (item : BitVec 64) (s : State) (hm : Memory.wf s.mem = true) : NextCanon (execItemThreadsHalt item s) := by
  unfold execItemThreadsHalt
  split <;> simp [hm]

@[simp] theorem execWaitLimitExpiry_canon (a : Fin 96) (t : Fin 64) (s : State) (hm : Memory.wf s.mem = true) :
    NextCanon (execWaitLimitExpiry a t s) := by
  unfold execWaitLimitExpiry
  grind [watchdog_mem, nextCanon_next]

@[simp] theorem execRunLimitExpiry_canon (a : Fin 96) (t : Fin 64) (s : State) (hm : Memory.wf s.mem = true) :
    NextCanon (execRunLimitExpiry a t s) := by
  unfold execRunLimitExpiry
  grind [watchdog_mem, nextCanon_next]

@[simp] theorem execIllegalInstruction_canon (a : Fin 96) (t : Fin 64) (s : State) (hm : Memory.wf s.mem = true) :
    NextCanon (execIllegalInstruction a t s) := by
  unfold execIllegalInstruction
  grind [fetchIns_mem, haltThread_mem, progFault_mem, nextCanon_next]

@[simp] theorem execInterfaceRetry_canon (pc : Fin 1024) (fails : Bool) (s : State) (hm : Memory.wf s.mem = true) :
    NextCanon (execInterfaceRetry pc fails s) := by
  unfold execInterfaceRetry
  grind [State.count_mem, failPc_mem, State.setPc_mem, serveHbm_wf, nextCanon_next]

@[simp] theorem execThermalPoll_canon (temps : List Nat) (s : State) (hm : Memory.wf s.mem = true) : NextCanon (execThermalPoll temps s) := by
  unfold execThermalPoll
  split
  · simpa using hm
  · rw [nextCanon_next, foldl_mem _ (fun t k => by split <;> simp)]
    exact hm

@[simp] theorem execLoadDataReturn_canon (a : Fin 96) (t : Fin 64) (ev : BitErr) (s : State) (hm : Memory.wf s.mem = true) :
    NextCanon (execLoadDataReturn a t ev s) := by
  unfold execLoadDataReturn
  grind [finishLoad_mem, finishAtomic_mem, nextCanon_next]

/-- An instruction whose body ends in `advance` leaves memory as it is. -/
theorem issue_advance_mem (cls func a t : Nat) (v : Nat → Nat → State → State) (hv : ∀ w ext u, (v w ext u).mem = u.mem) (s : State) :
    (issue cls func (fun w ext u => advance a t w (v w ext u)) a t s).mem = s.mem := by
  have ha := advance_mem
  obtain ⟨adv, hadv⟩ := exists_eq (a' := advance)
  rw [← hadv] at ha ⊢
  exact issue_mem _ _ _ _ _ _ (fun _ _ _ => (ha _ _ _ _).trans (hv _ _ _))

/-- An instruction that changes the base of a descriptor leaves memory as it is. -/
theorem issue_writeBase_mem (cls func a t : Nat) (f : Nat → Nat → Nat → W64 → Nat) (s : State) :
    (issue cls func (fun w ext u => writeBase a t w (f w ext) u) a t s).mem = s.mem := by
  have hb := writeBase_mem
  obtain ⟨base, hbase⟩ := exists_eq (a' := writeBase)
  rw [← hbase] at hb ⊢
  exact issue_mem _ _ _ _ _ _ (fun _ _ _ => hb _ _ _ _ _)

/-- A jump leaves memory as it is. -/
theorem issue_goTo_mem (cls func a t : Nat) (f : Nat → Nat → State → Int) (s : State) :
    (issue cls func (fun w ext u => goTo a t (f w ext u) u) a t s).mem = s.mem := by
  have hg := goTo_mem
  obtain ⟨go, hgo⟩ := exists_eq (a' := goTo)
  rw [← hgo] at hg ⊢
  exact issue_mem _ _ _ _ _ _ (fun _ _ _ => hg _ _ _ _)

/-- A call leaves memory as it is. -/
theorem issue_callTo_mem (cls func a t : Nat) (f : Nat → Nat → State → Int) (s : State) :
    (issue cls func (fun w ext u => callTo a t w (f w ext u) u) a t s).mem = s.mem := by
  have hc := callTo_mem
  obtain ⟨call, hcall⟩ := exists_eq (a' := callTo)
  rw [← hcall] at hc ⊢
  exact issue_mem _ _ _ _ _ _ (fun _ _ _ => hc _ _ _ _ _)

@[simp] theorem execDsetBase_canon (a : Fin 96) (t : Fin 64) (s : State) (hm : Memory.wf s.mem = true) : NextCanon (execDsetBase a t s) := by
  rw [execDsetBase, nextCanon_next, issue_writeBase_mem]
  exact hm

@[simp] theorem execDaddBase_canon (a : Fin 96) (t : Fin 64) (s : State) (hm : Memory.wf s.mem = true) : NextCanon (execDaddBase a t s) := by
  rw [execDaddBase, nextCanon_next, issue_writeBase_mem]
  exact hm

@[simp] theorem execSluiceDrain_canon (port : Fin 2) (s : State) (hm : Memory.wf s.mem = true) : NextCanon (execSluiceDrain port s) := by
  rw [execSluiceDrain, nextCanon_next]
  refine needClock_wf _ _ _ _ ?_ hm
  dsimp only
  (repeat' split) <;> simp [hm]

@[simp] theorem execSampleRecordVisible_canon (port : Fin 2) (stream : Fin 256) (s : State) (hm : Memory.wf s.mem = true) :
    NextCanon (execSampleRecordVisible port stream s) := by
  unfold execSampleRecordVisible
  grind [State.count_mem, State.setReg_mem, State.setIst_mem, nextCanon_next]

@[simp] theorem execTokLoadDone_canon (set : Fin 2) (s : State) (hm : Memory.wf s.mem = true) : NextCanon (execTokLoadDone set s) := by
  unfold execTokLoadDone
  grind [needClock_wf, loadSet_mem, endLoad_mem, nextCanon_next]

@[simp] theorem execSampleAdmit_canon (ctx : Fin 1024) (s : State) (hm : Memory.wf s.mem = true) : NextCanon (execSampleAdmit ctx s) := by
  simp only [execSampleAdmit]
  split
  · simpa using hm
  · split
    · simpa using hm
    · split
      · rename_i hg
        have hs := rrGrant_mem hg
        split <;> simp_all
      · simpa using hm

@[simp] theorem execDecodeStart_canon (eng : Fin 5) (s : State) (hm : Memory.wf s.mem = true) : NextCanon (execDecodeStart eng s) := by
  unfold execDecodeStart
  split <;> simp [hm]

@[simp] theorem execSampleHeaderRead_canon (core : Fin 72) (head : Nat) (s : State) (hm : Memory.wf s.mem = true) :
    NextCanon (execSampleHeaderRead core head s) := by
  unfold execSampleHeaderRead
  grind [coreOn_mem, advanceSource_mem, markRead_mem, putSample_mem, readHead_mem, coreFault_mem, keepParams_mem, notePicture_mem, nextCanon_next]

@[simp] theorem execAreaReserve_canon (core : Fin 72) (s : State) (hm : Memory.wf s.mem = true) : NextCanon (execAreaReserve core s) := by
  unfold execAreaReserve
  split <;> simp [hm]

@[simp] theorem execFrameBufferAcquire_canon (core : Fin 72) (refs : List Int) (s : State) (hm : Memory.wf s.mem = true) :
    NextCanon (execFrameBufferAcquire core refs s) := by
  unfold execFrameBufferAcquire
  grind [markRefs_mem, coreOn_mem, putSample_mem, setFb_mem, coreIdle_mem, nextCanon_next]

@[simp] theorem execSourceReadDone_canon (core : Fin 72) (s : State) (hm : Memory.wf s.mem = true) : NextCanon (execSourceReadDone core s) := by
  unfold execSourceReadDone
  grind [srcRead_mem, advanceSource_mem, markRead_mem, putSample_mem, coreFault_mem, nextCanon_next]

@[simp] theorem execPositionAssign_canon (stream : Fin 64) (s : State) (hm : Memory.wf s.mem = true) : NextCanon (execPositionAssign stream s) := by
  unfold execPositionAssign
  grind [needClock_wf, flushBatch_wf, drain_wf, assignTo_mem, nextCanon_next]

@[simp] theorem execSampleComposeDone_canon (stream : Fin 64) (bucket : Fin 16) (s : State) (hm : Memory.wf s.mem = true) :
    NextCanon (execSampleComposeDone stream bucket s) := by
  unfold execSampleComposeDone
  grind [needClock_wf, composeNext_wf, nextCanon_next]

@[simp] theorem execFlushWindowEnd_canon (stream : Fin 64) (bucket : Fin 16) (s : State) (hm : Memory.wf s.mem = true) :
    NextCanon (execFlushWindowEnd stream bucket s) := by
  unfold execFlushWindowEnd
  grind [needClock_wf, drain_wf, flushBatch_wf, nextCanon_next]

@[simp] theorem execNopEntry_canon (q : Fin 256) (s : State) (hm : Memory.wf s.mem = true) : NextCanon (execNopEntry q s) := by
  unfold execNopEntry
  split <;> simp [hm]

@[simp] theorem execBarrierEntry_canon (q : Fin 256) (s : State) (hm : Memory.wf s.mem = true) : NextCanon (execBarrierEntry q s) := by
  unfold execBarrierEntry
  split <;> simp [hm]

@[simp] theorem execCopyEntry_canon (q : Fin 256) (s : State) (hm : Memory.wf s.mem = true) : NextCanon (execCopyEntry q s) := by
  unfold execCopyEntry
  (repeat' split) <;> simp [hm]

@[simp] theorem execCopyComplete_canon (q : Fin 256) (data : List Byte) (good : Bool) (s : State) (hm : Memory.wf s.mem = true) :
    NextCanon (execCopyComplete q data good s) := by
  unfold execCopyComplete
  grind [copyRun_wf, modEntry_mem, writeFault_mem, nextCanon_next]

@[simp] theorem execCompletionWrite_canon (q : Fin 256) (good : Bool) (s : State) (hm : Memory.wf s.mem = true) :
    NextCanon (execCompletionWrite q good s) := by
  unfold execCompletionWrite
  grind [putCompl_wf, coalesce_mem, advanceTail_mem, dropEntry_mem, writeError_mem, nextCanon_next]

@[simp] theorem execDmaTransferStart_canon (a : Fin 96) (s : State) (hm : Memory.wf s.mem = true) : NextCanon (execDmaTransferStart a s) := by
  simp only [execDmaTransferStart]
  split
  · simpa using hm
  · rename_i hg
    have hs := rrGrant_mem hg
    split <;> simp_all

@[simp] theorem execRowTopk_canon (a : Fin 96) (t : Fin 64) (s : State) (hm : Memory.wf s.mem = true) : NextCanon (execRowTopk a t s) := by
  unfold execRowTopk
  grind [rowIssue_wf, topkRun_wf, nextCanon_next]

@[simp] theorem execRowTag_canon (a : Fin 96) (t : Fin 64) (s : State) (hm : Memory.wf s.mem = true) : NextCanon (execRowTag a t s) := by
  unfold execRowTag
  grind [rowIssue_wf, tagRun_mem, nextCanon_next]

@[simp] theorem execRowTreset_canon (a : Fin 96) (t : Fin 64) (s : State) (hm : Memory.wf s.mem = true) : NextCanon (execRowTreset a t s) := by
  unfold execRowTreset
  grind [rowIssue_wf, tresetRun_mem, nextCanon_next]

@[simp] theorem execRowSpill_canon (a : Fin 96) (t : Fin 64) (s : State) (hm : Memory.wf s.mem = true) : NextCanon (execRowSpill a t s) := by
  unfold execRowSpill
  grind [rowIssue_wf, spillRun_mem, nextCanon_next]

@[simp] theorem execSyncTest_canon (a : Fin 96) (t : Fin 64) (s : State) (hm : Memory.wf s.mem = true) : NextCanon (execSyncTest a t s) := by
  rw [execSyncTest, nextCanon_next, issue_advance_mem]
  · exact hm
  · exact fun _ _ _ => State.setTh_mem _ _ _ _

@[simp] theorem execTileLoadBegin_canon (a : Fin 96) (part : Fin 17) (s : State) (hm : Memory.wf s.mem = true) :
    NextCanon (execTileLoadBegin a part s) := by
  unfold execTileLoadBegin
  split <;> simp [hm]

@[simp] theorem execStreamBegin_canon (a : Fin 96) (part : Fin 17) (s : State) (hm : Memory.wf s.mem = true) :
    NextCanon (execStreamBegin a part s) := by
  unfold execStreamBegin
  split <;> simp [hm]

@[simp] theorem execTileLoadDone_canon (a : Fin 96) (part : Fin 17) (buf : Fin 2) (s : State) (hm : Memory.wf s.mem = true) :
    NextCanon (execTileLoadDone a part buf s) := by
  unfold execTileLoadDone
  grind [readTile_mem, loadFails_mem, endOp_mem, putTile_mem, nextCanon_next]

@[simp] theorem execPartModeChange_canon (a : Fin 96) (s : State) (hm : Memory.wf s.mem = true) : NextCanon (execPartModeChange a s) := by
  unfold execPartModeChange
  grind [opOk_mem, State.setGr_mem, nextCanon_next]

@[simp] theorem execExpanderFetch_canon (a : Fin 96) (part : Fin 17) (s : State) (hm : Memory.wf s.mem = true) :
    NextCanon (execExpanderFetch a part s) := by
  unfold execExpanderFetch
  grind [fetchBlock_mem, settleLanes_mem, putStream_mem, nextCanon_next]

@[simp] theorem execBlockDecode_canon (a : Fin 96) (lane : Fin 32) (s : State) (hm : Memory.wf s.mem = true) :
    NextCanon (execBlockDecode a lane s) := by
  unfold execBlockDecode
  grind [decodeLane_mem, settleLanes_mem, State.setGr_mem, nextCanon_next]

@[simp] theorem execWeightRowEntry_canon (a : Fin 96) (part : Fin 17) (s : State) (hm : Memory.wf s.mem = true) :
    NextCanon (execWeightRowEntry a part s) := by
  simp only [execWeightRowEntry]
  split
  · simpa using hm
  · split
    · rename_i hg _
      have hs := rrGrant_mem hg
      rw [nextCanon_next]
      split <;> simp_all
    · simpa using hm

@[simp] theorem execOutputRowWrite_canon (a : Fin 96) (part : Fin 17) (flt : Option (Fin 256 × W32)) (s : State) (hm : Memory.wf s.mem = true) :
    NextCanon (execOutputRowWrite a part flt s) := by
  unfold execOutputRowWrite
  grind [writeRow_wf, nextCanon_next]

@[simp] theorem execRowCheck_canon (a : Fin 96) (part : Fin 17) (bad : Bool) (s : State) (hm : Memory.wf s.mem = true) :
    NextCanon (execRowCheck a part bad s) := by
  unfold execRowCheck
  (repeat' split) <;> simp [hm]

@[simp] theorem execColumnCheck_canon (a : Fin 96) (part : Fin 17) (bad : Option (Fin 256)) (s : State) (hm : Memory.wf s.mem = true) :
    NextCanon (execColumnCheck a part bad s) := by
  unfold execColumnCheck
  grind [State.count_mem, passGroup_mem, startRecompute_wf, checkEvent_mem, correctElem_wf, nextCanon_next]

@[simp] theorem execRecomputeDone_canon (a : Fin 96) (part : Fin 17) (again : Bool) (s : State) (hm : Memory.wf s.mem = true) :
    NextCanon (execRecomputeDone a part again s) := by
  unfold execRecomputeDone
  grind [checkEvent_mem, State.count_mem, replayRows_wf, passGroup_mem, State.setGr_mem, nextCanon_next]

@[simp] theorem execArrayFence_canon (phys : Fin 100) (s : State) (hm : Memory.wf s.mem = true) : NextCanon (execArrayFence phys s) := by
  unfold execArrayFence
  split <;> simp [hm]

@[simp] theorem execArrayRemap_canon (phys : Fin 100) (s : State) (hm : Memory.wf s.mem = true) : NextCanon (execArrayRemap phys s) := by
  unfold execArrayRemap
  (repeat' split) <;> simp [hm]

@[simp] theorem execMmuInvGo_canon (port : Port) (val : W32) (rid : W16) (s : State) (hm : Memory.wf s.mem = true) :
    NextCanon (execMmuInvGo port val rid s) :=
  (nextCanon_next _).2 (portWrite_wf invRule_keepsWf _ s hm)

@[simp] theorem execMmuInvalidationDone_canon (s : State) (hm : Memory.wf s.mem = true) : NextCanon (execMmuInvalidationDone s) := by
  unfold execMmuInvalidationDone
  split <;> simp [hm]

@[simp] theorem execTableWalk_canon (va : Fin 281474976710656) (need : Perm) (rid : W16) (s : State) (hm : Memory.wf s.mem = true) :
    NextCanon (execTableWalk va need rid s) := by
  unfold execTableWalk
  grind [translate_mem, State.emit_mem, unitFault_mem, nextCanon_next]

@[simp] theorem execCkpArm_canon (port : Port) (val : W32) (rid : W16) (s : State) (hm : Memory.wf s.mem = true) :
    NextCanon (execCkpArm port val rid s) :=
  (nextCanon_next _).2 (portWrite_wf ckpRule_keepsWf _ s hm)

@[simp] theorem execCkpStart_canon (port : Port) (val : W32) (rid : W16) (s : State) (hm : Memory.wf s.mem = true) :
    NextCanon (execCkpStart port val rid s) :=
  (nextCanon_next _).2 (portWrite_wf ckpRule_keepsWf _ s hm)

@[simp] theorem execCheckpointFrameCopy_canon (s : State) (hm : Memory.wf s.mem = true) : NextCanon (execCheckpointFrameCopy s) := by
  unfold execCheckpointFrameCopy
  grind [ckpEntry_mem, ckpFail_mem, ckpStep_wf, nextCanon_next]

@[simp] theorem execBatchOffer_canon (stream : Fin 64) (s : State) (hm : Memory.wf s.mem = true) : NextCanon (execBatchOffer stream s) := by
  unfold execBatchOffer
  grind [afterItems_mem, putBst_mem, nextCanon_next]

@[simp] theorem execWorkEntry_canon (q : Fin 256) (s : State) (hm : Memory.wf s.mem = true) : NextCanon (execWorkEntry q s) := by
  unfold execWorkEntry
  (repeat' split) <;> simp [hm]

@[simp] theorem execItemStart_canon (item : W64) (s : State) (hm : Memory.wf s.mem = true) : NextCanon (execItemStart item s) := by
  unfold execItemStart
  (repeat' split) <;> simp [hm]

@[simp] theorem execTableBindDone_canon (item : W64) (s : State) (hm : Memory.wf s.mem = true) : NextCanon (execTableBindDone item s) := by
  unfold execTableBindDone
  (repeat' split) <;> simp [hm]

@[simp] theorem execImageLoadDone_canon (item : W64) (s : State) (hm : Memory.wf s.mem = true) : NextCanon (execImageLoadDone item s) := by
  unfold execImageLoadDone
  grind [loadImage_wf, startThreads_mem, startFail_mem, writeFault_mem, nextCanon_next]

@[simp] theorem execWorkItemComplete_canon (item : W64) (s : State) (hm : Memory.wf s.mem = true) : NextCanon (execWorkItemComplete item s) := by
  unfold execWorkItemComplete
  split <;> simp [hm]

@[simp] theorem execReplayStart_canon (item : W64) (s : State) (hm : Memory.wf s.mem = true) : NextCanon (execReplayStart item s) := by
  unfold execReplayStart
  split <;> simp [hm]

@[simp] theorem execStepBoundary_canon (s : State) (hm : Memory.wf s.mem = true) : NextCanon (execStepBoundary s) := by
  unfold execStepBoundary
  split <;> simp [hm]

@[simp] theorem execLodeUpdateWritten_canon (s : State) (hm : Memory.wf s.mem = true) : NextCanon (execLodeUpdateWritten s) := by
  have h0 : Memory.wf (s.lodeParts.foldl (fun t x => flushPart x t) s).mem = true :=
    foldl_wf _ (fun t x ht => flushPart_wf x t ht) _ _ hm
  simp only [execLodeUpdateWritten]
  generalize s.lodeParts.foldl (fun t x => flushPart x t) s = s0 at h0
  split
  · simpa using h0
  · rename_i x _
    split
    · simpa using h0
    · have h := readRun_mem x s0
      split <;> rename_i heq <;> rw [heq] at h <;> simp_all

@[simp] theorem execCollPlan_canon (a : Fin 96) (t : Fin 64) (s : State) (hm : Memory.wf s.mem = true) : NextCanon (execCollPlan a t s) := by
  rw [execCollPlan, nextCanon_next, collIssue_mem]
  · exact hm
  · exact fun _ _ _ _ _ _ => rfl

@[simp] theorem execCollSlot_canon (a : Fin 96) (t : Fin 64) (s : State) (hm : Memory.wf s.mem = true) : NextCanon (execCollSlot a t s) := by
  rw [execCollSlot, nextCanon_next, collIssue_mem]
  · exact hm
  · intro a t q x y v
    (repeat' split) <;> simp

@[simp] theorem execCollDone_canon (a : Fin 96) (t : Fin 64) (s : State) (hm : Memory.wf s.mem = true) : NextCanon (execCollDone a t s) := by
  rw [execCollDone, nextCanon_next, collIssue_mem]
  · exact hm
  · intro a t q x y v
    (repeat' split) <;> simp

@[simp] theorem execPlanStart_canon (s : State) (hm : Memory.wf s.mem = true) : NextCanon (execPlanStart s) := by
  unfold execPlanStart
  grind [loadPlan_mem, wakePlan_mem, opDone_mem, drainRx_mem, dropEarly_mem, beginPlan_mem, nextCanon_next]

@[simp] theorem execChunkArrive_canon (p : Fin 12) (s : State) (hm : Memory.wf s.mem = true) : NextCanon (execChunkArrive p s) := by
  unfold execChunkArrive
  split <;> simp [hm]

@[simp] theorem execPlanStepStart_canon (slot : Fin 64) (s : State) (hm : Memory.wf s.mem = true) : NextCanon (execPlanStepStart slot s) := by
  unfold execPlanStepStart
  (repeat' split) <;> simp [hm]

@[simp] theorem execPlanStepComplete_canon (slot : Fin 64) (s : State) (hm : Memory.wf s.mem = true) : NextCanon (execPlanStepComplete slot s) := by
  unfold execPlanStepComplete
  grind [showPlan_mem, modStep_mem, tryComplete_mem, State.setReg64_mem, nextCanon_next]

@[simp] theorem execFetchReplyArrive_canon (p : Fin 12) (s : State) (hm : Memory.wf s.mem = true) : NextCanon (execFetchReplyArrive p s) := by
  unfold execFetchReplyArrive
  grind [takeChunk_mem, landFetch_wf, orphans_mem, nextCanon_next]

@[simp] theorem execFetchFailReceive_canon (p : Fin 12) (s : State) (hm : Memory.wf s.mem = true) : NextCanon (execFetchFailReceive p s) := by
  unfold execFetchFailReceive
  grind [takeCtl_mem, endPlan_mem, nextCanon_next]

@[simp] theorem execFetchRequestReceive_canon (p : Fin 12) (s : State) (hm : Memory.wf s.mem = true) : NextCanon (execFetchRequestReceive p s) := by
  unfold execFetchRequestReceive
  grind [groupEntry_mem, fetchFails_mem, takeCtl_mem, serveFetch_mem, nextCanon_next]

@[simp] theorem execReleaseReceive_canon (p : Fin 12) (s : State) (hm : Memory.wf s.mem = true) : NextCanon (execReleaseReceive p s) := by
  unfold execReleaseReceive
  split <;> simp [hm]

@[simp] theorem execSlowReceive_canon (p : Fin 12) (s : State) (hm : Memory.wf s.mem = true) : NextCanon (execSlowReceive p s) := by
  unfold execSlowReceive
  split <;> simp [hm]

@[simp] theorem execPeerTimeoutExpiry_canon (slot : Fin 64) (step : Fin 4096) (s : State) (hm : Memory.wf s.mem = true) :
    NextCanon (execPeerTimeoutExpiry slot step s) := by
  unfold execPeerTimeoutExpiry
  split <;> simp [hm]

@[simp] theorem execAbortReceive_canon (p : Fin 12) (s : State) (hm : Memory.wf s.mem = true) : NextCanon (execAbortReceive p s) := by
  unfold execAbortReceive
  grind [takeCtl_mem, endPlan_mem, State.count_mem, nextCanon_next]

@[simp] theorem execFlitReceive_canon (p : Fin 12) (f : FlitIn) (s : State) (hm : Memory.wf s.mem = true) : NextCanon (execFlitReceive p f s) := by
  unfold execFlitReceive
  split <;> simp [hm]

@[simp] theorem execFlitTransmit_canon (p : Fin 12) (s : State) (hm : Memory.wf s.mem = true) : NextCanon (execFlitTransmit p s) := by
  unfold execFlitTransmit
  grind [sendFlit_mem, State.setCport_mem, State.count64_mem, sendNew_mem, nextCanon_next]

@[simp] theorem execPortOff_canon (p : Fin 12) (s : State) (hm : Memory.wf s.mem = true) : NextCanon (execPortOff p s) := by
  unfold execPortOff
  grind [clearPort_wf, trainPort_mem, nextCanon_next]

@[simp] theorem execJournalSpillWrite_canon (good : Bool) (s : State) (hm : Memory.wf s.mem = true) : NextCanon (execJournalSpillWrite good s) := by
  unfold execJournalSpillWrite
  grind [spillPut_wf, spillDone_mem, spillFault_mem, nextCanon_next]

@[simp] theorem execFltHeadSeqWrite_canon (val : W32) (rid : W16) (s : State) (hm : Memory.wf s.mem = true) :
    NextCanon (execFltHeadSeqWrite val rid s) :=
  (nextCanon_next _).2 (portWrite_wf headSeqRule_keepsWf _ s hm)

@[simp] theorem execJrnRdWrite_canon (val : W32) (rid : W16) (ev : BitErr) (s : State) (hm : Memory.wf s.mem = true) :
    NextCanon (execJrnRdWrite val rid ev s) :=
  (nextCanon_next _).2 (portWrite_wf (jrnRdRule_keepsWf ev) _ s hm)

@[simp] theorem execSpillEnable_canon (val : W32) (rid : W16) (s : State) (hm : Memory.wf s.mem = true) :
    NextCanon (execSpillEnable val rid s) :=
  (nextCanon_next _).2 (portWrite_wf jrnCtrlRule_keepsWf _ s hm)

@[simp] theorem execJrnSpillRdWrite_canon (val : W32) (rid : W16) (s : State) (hm : Memory.wf s.mem = true) :
    NextCanon (execJrnSpillRdWrite val rid s) :=
  (nextCanon_next _).2 (portWrite_wf spillRdRule_keepsWf _ s hm)

@[simp] theorem execDecodeDone_canon (core : Fin 72) (d : DecodeIn) (s : State) (hm : Memory.wf s.mem = true) :
    NextCanon (execDecodeDone core d s) := by
  unfold execDecodeDone
  split <;> simp [hm]

@[simp] theorem execOutputRecordVisible_canon (ctx : Fin 1024) (s : State) (hm : Memory.wf s.mem = true) :
    NextCanon (execOutputRecordVisible ctx s) := by
  unfold execOutputRecordVisible
  split <;> simp [hm]

@[simp] theorem execPwrOff_canon (port : Port) (val : W32) (rid : W16) (s : State) (hm : Memory.wf s.mem = true) :
    NextCanon (execPwrOff port val rid s) :=
  (nextCanon_next _).2 (portWrite_wf pwrOffRule_keepsWf _ s hm)

@[simp] theorem execPwrOn_canon (port : Port) (val : W32) (rid : W16) (s : State) (hm : Memory.wf s.mem = true) :
    NextCanon (execPwrOn port val rid s) :=
  (nextCanon_next _).2 (portWrite_wf pwrOffRule_keepsWf _ s hm)

@[simp] theorem execPwrLimitWrite_canon (port : Port) (field : Fin 3) (val : W32) (rid : W16) (s : State) (hm : Memory.wf s.mem = true) :
    NextCanon (execPwrLimitWrite port field val rid s) := by
  rw [execPwrLimitWrite, nextCanon_next]
  split
  · exact portWrite_wf limitRule_keepsWf _ s hm
  · exact portWrite_wf headroomRule_keepsWf _ s hm
  · exact portWrite_wf aclkMaxRule_keepsWf _ s hm

@[simp] theorem execPeatDomainUp_canon (strap : Fin 64) (s : State) (hm : Memory.wf s.mem = true) : NextCanon (execPeatDomainUp strap s) := by
  unfold execPeatDomainUp
  split <;> simp [hm]

@[simp] theorem execFuseLoadDone_canon (good : Bool) (s : State) (hm : Memory.wf s.mem = true) : NextCanon (execFuseLoadDone good s) := by
  unfold execFuseLoadDone
  split <;> simp [hm]

@[simp] theorem execFirstStageVerified_canon (s : State) (hm : Memory.wf s.mem = true) : NextCanon (execFirstStageVerified s) := by
  unfold execFirstStageVerified
  split
  · simpa using hm
  · split
    · simpa using hm
    · split
      · simp [hm]
      · rename_i hrun
        have hs := runImages_mem hrun
        simp [hs, hm]

@[simp] theorem execManagementPortReady_canon (s : State) (hm : Memory.wf s.mem = true) : NextCanon (execManagementPortReady s) := by
  unfold execManagementPortReady
  split <;> simp [hm]

@[simp] theorem execConfigurationReady_canon (pkgs : W32) (ports : Fin 4) (s : State) (hm : Memory.wf s.mem = true) :
    NextCanon (execConfigurationReady pkgs ports s) := by
  unfold execConfigurationReady
  split <;> simp [hm]

@[simp] theorem execHbmTrainingDone_canon (temps : List Nat) (failed : List (Fin 1024)) (dead : Bool) (s : State) (hm : Memory.wf s.mem = true) :
    NextCanon (execHbmTrainingDone temps failed dead s) := by
  unfold execHbmTrainingDone
  split <;> simp [hm]

@[simp] theorem execMemoryTestDone_canon (failed : List (Fin 1024)) (s : State) (hm : Memory.wf s.mem = true) :
    NextCanon (execMemoryTestDone failed s) := by
  unfold execMemoryTestDone
  split <;> simp [hm]

@[simp] theorem execHbmZeroFillDone_canon (lost : Bool) (s : State) (hm : Memory.wf s.mem = true) : NextCanon (execHbmZeroFillDone lost s) := by
  unfold execHbmZeroFillDone
  split <;> simp [hm]

@[simp] theorem execStartTimeout_canon (s : State) (hm : Memory.wf s.mem = true) : NextCanon (execStartTimeout s) := by
  unfold execStartTimeout
  split <;> simp [hm]

@[simp] theorem execStartRetry_canon (s : State) (hm : Memory.wf s.mem = true) : NextCanon (execStartRetry s) := by
  unfold execStartRetry
  split <;> simp [hm]

@[simp] theorem execRegisterWrite_canon (a : RegAcc) (whole poison : Bool) (s : State) (hm : Memory.wf s.mem = true) :
    NextCanon (execRegisterWrite a whole poison s) := by
  unfold execRegisterWrite
  split <;> simp [hm]

@[simp] theorem execHstResetWarm_canon (val : W32) (rid : W16) (chk : WarmCheck) (s : State) (hm : Memory.wf s.mem = true) :
    NextCanon (execHstResetWarm val rid chk s) :=
  (nextCanon_next _).2 (portWrite_wf (hstResetRule_keepsWf chk) _ s hm)

@[simp] theorem execPllLock_canon (d : ClkDomain) (s : State) (hm : Memory.wf s.mem = true) : NextCanon (execPllLock d s) := by
  unfold execPllLock
  split <;> simp [hm]

@[simp] theorem execClkStartTimeout_canon (d : ClkDomain) (s : State) (hm : Memory.wf s.mem = true) : NextCanon (execClkStartTimeout d s) := by
  unfold execClkStartTimeout
  split <;> simp [hm]

@[simp] theorem execSetPower_canon (limit aclk : W32) (eid : Byte) (s : State) (hm : Memory.wf s.mem = true) :
    NextCanon (execSetPower limit aclk eid s) :=
  (nextCanon_next _).2 (nolivo_wf _ _ s (setPower_wf _ _ _ s hm) hm)

@[simp] theorem execFwCommitDone_canon (s : State) (hm : Memory.wf s.mem = true) : NextCanon (execFwCommitDone s) := by
  unfold execFwCommitDone
  split <;> simp [hm]

@[simp] theorem execFlashRepairDone_canon (s : State) (hm : Memory.wf s.mem = true) : NextCanon (execFlashRepairDone s) := by
  unfold execFlashRepairDone
  split <;> simp [hm]

@[simp] theorem execLockCmd_canon (set clear : W32) (eid : Byte) (s : State) (hm : Memory.wf s.mem = true) :
    NextCanon (execLockCmd set clear eid s) :=
  (nextCanon_next _).2 (nolivo_wf _ _ s (lockMasks_wf _ _ _ s hm) hm)

@[simp] theorem execRegWrite_canon (off val : W32) (eid : Byte) (s : State) (hm : Memory.wf s.mem = true) :
    NextCanon (execRegWrite off val eid s) :=
  (nextCanon_next _).2 (nolivo_wf _ _ s (regWriteCmd_wf _ _ _ s hm) hm)

@[simp] theorem execPlog_canon (a : Fin 96) (t : Fin 64) (s : State) (hm : Memory.wf s.mem = true) : NextCanon (execPlog a t s) := by
  rw [execPlog, nextCanon_next, issue_writeP_mem]
  exact hm

@[simp] theorem execJr_canon (a : Fin 96) (t : Fin 64) (s : State) (hm : Memory.wf s.mem = true) : NextCanon (execJr a t s) := by
  rw [execJr, nextCanon_next, issue_goTo_mem]
  exact hm

@[simp] theorem execCallr_canon (a : Fin 96) (t : Fin 64) (s : State) (hm : Memory.wf s.mem = true) : NextCanon (execCallr a t s) := by
  rw [execCallr, nextCanon_next, issue_callTo_mem]
  exact hm

@[simp] theorem execNop_canon (a : Fin 96) (t : Fin 64) (s : State) (hm : Memory.wf s.mem = true) : NextCanon (execNop a t s) := by
  rw [execNop, nextCanon_next, issue_advance_mem _ _ _ _ (fun _ _ u => u) (fun _ _ _ => rfl)]
  exact hm

@[simp] theorem execSget_canon (a : Fin 96) (t : Fin 64) (s : State) (hm : Memory.wf s.mem = true) : NextCanon (execSget a t s) := by
  rw [execSget, nextCanon_next, issue_writeS_mem]
  exact hm

@[simp] theorem execGetMeasurements_canon (tr : SpdmPort) (index : Byte) (sign : Bool) (nonce : List Byte) (s : State)
    (hm : Memory.wf s.mem = true) : NextCanon (execGetMeasurements tr index sign nonce s) := by
  rw [execGetMeasurements, nextCanon_next, spdmAt_mem]
  · exact hm
  · split
    · simp
    · (repeat' split) <;> simp

/-- No command leaves memory out of its canonical form: the arms that only unfold stand here, by model file, the others have a lemma above. -/
theorem exec_canon (c : Instr) (s : State) (hm : Memory.wf s.mem = true) : NextCanon (exec c s) := by
  cases c
  case loHalfWrite | hiHalfWrite | loHalfRead | rcRegisterRead | tbSetWrite | injectElem | injectCkcol | expFlush | intakeEnable |
    intakeDisable | itkRdPtrWrite | contextEnable | contextDisable | inWrPtrWrite | outRdPtrWrite | medFbRelease | tokLoad | flush |
    streamEnable | streamDisable | batRelease | portEnable | portDisable | windowEnable | verWrite | dispatcherEnable | dispatcherDisable |
    sqEnable | sqDisable | cqEnable | cqDisable | evtMaskWrite =>
    simp [execLoHalfWrite, execHiHalfWrite, execLoHalfRead, execRcRegisterRead, execTbSetWrite, execInjectElem, execInjectCkcol,
      execExpFlush, execIntakeEnable, execIntakeDisable, execItkRdPtrWrite, execContextEnable, execContextDisable, execInWrPtrWrite,
      execOutRdPtrWrite, execMedFbRelease, execTokLoad, execFlush, execStreamEnable, execStreamDisable, execBatRelease, execPortEnable,
      execPortDisable, execWindowEnable, execVerWrite, execDispatcherEnable, execDispatcherDisable, execSqEnable, execSqDisable,
      execCqEnable, execCqDisable, execEvtMaskWrite, hm]
  case timeBaseJump =>
    simp [execTimeBaseJump, hm]
  case fclassDataWrite | hbmAccess | scrubRead =>
    simp [execFclassDataWrite, execHbmAccess, execScrubRead, hm]
  case fclassConversionDone | selfRefreshExit | tier2FillDone | spareInRun | arrayWakeDone | refclkLoss | refclkReturn =>
    simp [execFclassConversionDone, execSelfRefreshExit, execTier2FillDone, execSpareInRun, execArrayWakeDone, execRefclkLoss,
      execRefclkReturn, hm]
  case tier2Access | selfRefreshEntry | sramAccess =>
    simp [execTier2Access, execSelfRefreshEntry, execSramAccess, hm]
  case poolAccess | poolAtomic | poolVectorReduction =>
    simp [execPoolAccess, execPoolAtomic, execPoolVectorReduction, hm]
  case add | sub | andR | orR | xorR | shl | shr | sar | mul | mulh | mulhu | minR | maxR | minu | maxu | addi | subi | andi | ori | xori |
    shli | shri | sari | muli | mulhi | mulhui | mini | maxi | minui | maxui | cmpEq | cmpNe | cmpLt | cmpLtu | cmpGe | cmpGeu | cmpiEq |
    cmpiNe | cmpiLt | cmpiLtu | cmpiGe | cmpiGeu | br | call | bnzDec | trap | halt =>
    simp [execAdd, execSub, execAndR, execOrR, execXorR, execShl, execShr, execSar, execMul, execMulh, execMulhu, execMinR, execMaxR,
      execMinu, execMaxu, execAddi, execSubi, execAndi, execOri, execXori, execShli, execShri, execSari, execMuli, execMulhi, execMulhui,
      execMini, execMaxi, execMinui, execMaxui, execCmpEq, execCmpNe, execCmpLt, execCmpLtu, execCmpGe, execCmpGeu, execCmpiEq, execCmpiNe,
      execCmpiLt, execCmpiLtu, execCmpiGe, execCmpiGeu, execBr, execCall, execBnzDec, execTrap, execHalt, hm]
  case ldB | ldH | ldW | ldD | ldBs | ldHs | ldWs | stB | stH | stW | stD | ldDesc | stDesc | atomAddF32 | atomAddBf16 | atomAddI32 |
    atomMaxF32 | atomMaxBf16 | atomMaxI32 | atomMinF32 | atomMinBf16 | atomMinI32 | atomSwapW | atomSwapD | atomCasD | red =>
    simp [execLdB, execLdH, execLdW, execLdD, execLdBs, execLdHs, execLdWs, execStB, execStH, execStW, execStD, execLdDesc, execStDesc,
      execAtomAddF32, execAtomAddBf16, execAtomAddI32, execAtomMaxF32, execAtomMaxBf16, execAtomMaxI32, execAtomMinF32, execAtomMinBf16,
      execAtomMinI32, execAtomSwapW, execAtomSwapD, execAtomCasD, execRed, hm]
  case syncWait | syncWaitall | syncFence | syncBar | syncSemP | semRetry | syncSemV =>
    simp [execSyncWait, execSyncWaitall, execSyncFence, execSyncBar, execSyncSemP, execSemRetry, execSyncSemV, hm]
  case dmaCopy | dmaGather | dmaScatter | dmaFill | dmaProg =>
    simp [execDmaCopy, execDmaGather, execDmaScatter, execDmaFill, execDmaProg, hm]
  case mxmLoad | mxmStream | mxmPart | mvLoad | mvStream =>
    simp [execMxmLoad, execMxmStream, execMxmPart, execMvLoad, execMvStream, hm]
  case vecAlu | vecMath | vecAct | vecDactOut | vecDactIn | vecRed =>
    simp [execVecAlu, execVecMath, execVecAct, execVecDactOut, execVecDactIn, execVecRed, hm]
  case rowNorm | rowDnorm | rowSoftmax | rowDsoftmax =>
    simp [execRowNorm, execRowDnorm, execRowSoftmax, execRowDsoftmax, hm]
  case medSubmit | medRelease | medAdvance =>
    simp [execMedSubmit, execMedRelease, execMedAdvance, hm]
  case intakeFrameReceive | xoffRepeat | intakeLinkUp | intakeLinkDown =>
    simp [execIntakeFrameReceive, execXoffRepeat, execIntakeLinkUp, execIntakeLinkDown, hm]
  case nakRepeat | laneFailure | laneDrop | portDegraded | linkSilenceTimeout | portTrained =>
    simp [execNakRepeat, execLaneFailure, execLaneDrop, execPortDegraded, execLinkSilenceTimeout, execPortTrained, hm]
  case slowSend =>
    simp [execSlowSend, hm]
  case lodeUpdateStart =>
    simp [execLodeUpdateStart, hm]
  case submissionTake | sqTailDoorbell | cqHeadDoorbell | coalesceWindowEnd | busMasterEnableChange | d3hotEntry | d0Return | msixUnmask =>
    simp [execSubmissionTake, execSqTailDoorbell, execCqHeadDoorbell, execCoalesceWindowEnd, execBusMasterEnableChange, execD3hotEntry,
      execD0Return, execMsixUnmask, hm]
  case measurementWindowEnd =>
    simp [execMeasurementWindowEnd, hm]
  case arrayIdleEntry | arrayRetEntry | aclkPllStop | powerControlPeriod | aclkChange | unitClockStop | mclkPllStop =>
    simp [execArrayIdleEntry, execArrayRetEntry, execAclkPllStop, execPowerControlPeriod, execAclkChange, execUnitClockStop,
      execMclkPllStop, hm]
  case bar2Read | bar2Write | configRequest | pcieLinkUp =>
    simp [execBar2Read, execBar2Write, execConfigRequest, execPcieLinkUp, hm]
  case pwrEnAssert | pwrEnDeassert | inputApply | inputGood | inputLoss | overvoltageTrip | overcurrentTrip | reversePolarity |
    refclkAoTrip | thermalTrip | powerDownRestart | perstAssert | perstDeassert =>
    simp [execPwrEnAssert, execPwrEnDeassert, execInputApply, execInputGood, execInputLoss, execOvervoltageTrip, execOvercurrentTrip,
      execReversePolarity, execRefclkAoTrip, execThermalTrip, execPowerDownRestart, execPerstAssert, execPerstDeassert, hm]
  case fabricPacketResend | internalParityError =>
    simp [execFabricPacketResend, execInternalParityError, hm]
  case getInfo | telemetry | resetCmd | bootOptions | fwBegin | fwData | fwCommit | svnCommit | keyRevoke | faultRead | faultAck |
    journalRead | regRead | debugChallenge | debugUnlock | debugLock | jtagAccess =>
    simp [execGetInfo, execTelemetry, execResetCmd, execBootOptions, execFwBegin, execFwData, execFwCommit, execSvnCommit, execKeyRevoke,
      execFaultRead, execFaultAck, execJournalRead, execRegRead, execDebugChallenge, execDebugUnlock, execDebugLock, execJtagAccess, hm]
  case getVersion | getCapabilities | negotiateAlgorithms | getDigests | getCertificate | challenge =>
    simp [execGetVersion, execGetCapabilities, execNegotiateAlgorithms, execGetDigests, execGetCertificate, execChallenge, hm]
  all_goals simp [hm]

/-- Settles O59: a step is a command or a tick, and neither takes memory out of its canonical form (the listed bytes in order of their address, none of
them zero; an address not listed holds zero: log entry 9). -/
theorem stepKeepsMemoryCanonical : Obligations.StepKeepsMemoryCanonical := by
  unfold Obligations.StepKeepsMemoryCanonical
  intro s v hm hstep
  unfold step at hstep
  split at hstep
  · rename_i c rest _
    exact exec_canon c { s with pending := rest } hm v hstep
  · cases hstep
    exact tick_wf s hm

end Sys2Proof.Machine
end

section
/-! PROOFS. The Pool (O13 to O15): the issue of its atomics and semaphores, what an operation on integers writes, and the cycle of a bank at
which one request waits (R88 to R91, R167, R174). -/

namespace Sys2Proof.Machine

/-! ### Little-endian bytes and two's complement -/

@[simp] theorem length_leBytes (k n : Nat) : (leBytes k n).length = k := by
  induction k generalizing n with
  | zero => rfl
  | succ k ih => simp [leBytes, ih]

theorem leNat_leBytes {k n : Nat} (h : n < 256 ^ k) : leNat (leBytes k n) = n := by
  induction k generalizing n with
  | zero =>
    have h0 : n = 0 := by simpa using h
    simp [leBytes, leNat, h0]
  | succ k ih =>
    have hq : n / 256 < 256 ^ k := Nat.div_lt_of_lt_mul (by rwa [pow_succ'] at h)
    simp only [leBytes, leNat, ih hq, BitVec.toNat_ofNat]
    omega

theorem ofSigned_toSigned {w n : Nat} (h : n < 2 ^ w) : ofSigned w (toSigned w n) = n := by
  have hn : (n : Int) % 2 ^ w = n := Int.emod_eq_of_lt (by omega) (by exact_mod_cast h)
  unfold ofSigned toSigned
  split
  · rw [hn, hn, Int.toNat_natCast]
  · rw [Int.sub_emod_right, hn, hn, Int.toNat_natCast]

/-! ### Tables whose values are all mapped -/

theorem SMap.get?_map {α : Type} (g : α → α) (m : SMap α) (k : Nat) :
    SMap.get? (m.map (fun e => (e.1, g e.2))) k = (SMap.get? m k).map g := by
  induction m with
  | nil => rfl
  | cons e r ih =>
    simp only [List.map_cons, SMap.get?, ih]
    split <;> rfl

/-- A table of lists with every list mapped. -/
theorem SMap.getD_map_nil {α : Type} (g : α → α) (m : SMap (List α)) (k : Nat) :
    SMap.getD (m.map (fun e => (e.1, e.2.map g))) k [] = (SMap.getD m k []).map g := by
  rw [SMap.getD, SMap.get?_map (List.map g), SMap.getD]
  cases SMap.get? m k <;> rfl

/-! ### Issue (O13) -/

/-- The operation and the width that the model reads off FUNC are those of R167. -/
theorem specAtom_eq (k : Nat) (b d : W64) :
    specAtom k b d = (poolWidth (atomOp k b.toNat d.toNat), atomOp k b.toNat d.toNat) := by
  match k with
  | 0 | 1 | 2 | 3 | 4 | 5 | 6 | 7 | 8 | 9 | 10 | _ + 11 => rfl

theorem exec_of_atomRows {a : Fin 96} {t : Fin 64} {k : Nat} {i : Instr} (h : (atomRows a t)[k]? = some i) (s : State) :
    exec i s = .next (atomIssue k a t s) := by
  obtain ⟨hk, rfl⟩ := List.getElem?_eq_some_iff.1 h
  replace hk : k < 12 := hk
  interval_cases k <;> rfl

/-- `issue_eq_of_issues` for a command that names its CLASS and FUNC. -/
theorem issue_eq_of_fields {s u : State} {a : Fin 96} {t : Fin 64} {w ext cls func : Nat} (h : Issues s a t w ext u) (hc : iCls w = cls)
    (hf : iFunc w = func) (body : Nat → Nat → State → State) : issue cls func body a t s = body w ext u := by
  subst hc hf
  exact issue_eq_of_issues h body

/-- A Pool operation that the checks let through joins its bank's requests, and its thread waits for the old value. -/
theorem poolIssue_of_checked {a t w width pa : Nat} {u u1 : State} (op : PoolOp) (k : Wait) (hthr : u1.thr = u.thr)
    (hpa : checkedPa (thrCtx u a t) (memAddr (u.th a t) w) .rw inPool width u = (.ok pa, u1)) :
    poolIssue a t w width op k u = (poolPush ⟨0x1000 + 64 * a + t, memAddr (u.th a t) w, pa, op, 0, 0, false⟩ u1).setTh a t
      { u.th a t with st := .wait, wait := k, waitAt := u1.now } := by
  have hth (q : PoolReq) : (poolPush q u1).th a t = u.th a t := by simp [poolPush, State.th, hthr]
  simp only [poolIssue, hpa, waitFor, hth]
  rfl

/-- Settles O13: an issue runs `poolIssue`, by `poolIssue_of_checked`; SEM_RETRY maps every bank's list. -/
theorem poolOperationsQueueTheirRequest : Obligations.PoolOperationsQueueTheirRequest := by
  unfold Obligations.PoolOperationsQueueTheirRequest
  constructor
  · rintro a t s u u1 w ext k pa width i op x hiss rfl rfl hthr hpa
    constructor
    · intro hcls hrow hspec
      rw [specAtom_eq] at hspec
      obtain ⟨rfl, rfl⟩ := Prod.mk.inj hspec
      rw [exec_of_atomRows hrow, atomIssue, issue_eq_of_fields hiss hcls rfl]
      exact congrArg _ (poolIssue_of_checked _ _ hthr hpa)
    · rintro hcls rfl (⟨hk, rfl, rfl⟩ | ⟨hk, rfl, rfl⟩)
      · rw [exec_syncSemP, execSyncSemP, issue_eq_of_fields hiss hcls hk]
        exact congrArg _ (poolIssue_of_checked _ _ hthr hpa)
      · rw [exec_syncSemV, execSyncSemV, issue_eq_of_fields hiss hcls hk]
        exact congrArg _ (poolIssue_of_checked _ _ hthr hpa)
  · intro a t s
    refine ⟨_, exec_semRetry s a t, rfl, rfl, fun b => ?_⟩
    simp only [SMap.getD_map_nil, List.length_map, List.getElem?_map]
    refine ⟨trivial, fun n q r hq hr => ?_⟩
    rw [hq] at hr
    exact (Option.some.inj hr).symm

/-! ### Operations on integers (O14) -/

theorem poolAdd_i32 (o v : Nat) :
    poolAdd .i32 o v = ofSigned 32 (max (-2 ^ 31) (min (2 ^ 31 - 1) (toSigned 32 o + toSigned 32 v))) := rfl

theorem poolMax_i32 {o v : Nat} (ho : o < 2 ^ 32) (hv : v < 2 ^ 32) :
    poolMax .i32 o v = if toSigned 32 o < toSigned 32 v then v else o := by
  rw [poolMax, if_pos rfl]
  split
  · rw [max_eq_right (by omega), ofSigned_toSigned hv]
  · rw [max_eq_left (by omega), ofSigned_toSigned ho]

theorem poolMin_i32 {o v : Nat} (ho : o < 2 ^ 32) (hv : v < 2 ^ 32) :
    poolMin .i32 o v = if toSigned 32 o < toSigned 32 v then o else v := by
  rw [poolMin, if_pos rfl]
  split
  · rw [min_eq_left (by omega), ofSigned_toSigned ho]
  · rw [min_eq_right (by omega), ofSigned_toSigned hv]

/-- Settles O14: the bytes of the old word read back as its value, and each operation is the model's own on that value. -/
theorem poolIntegerOperations : Obligations.PoolIntegerOperations := by
  unfold Obligations.PoolIntegerOperations
  rintro old v c n x y ho hv rfl rfl
  have hword : leNat (leBytes 4 old) = old := leNat_leBytes (by omega)
  have hlong : leNat (leBytes 8 old) = old := leNat_leBytes (by omega)
  refine ⟨?_, ?_, ?_, rfl, ?_, ?_, ?_⟩
  · simp only [poolNew, hword, poolAdd_i32, fmtBits]
  · simp only [poolNew, hword, poolMax_i32 ho hv, fmtBits]
  · simp only [poolNew, hword, poolMin_i32 ho hv, fmtBits]
  · simp only [poolNew, hlong]
  · simp only [poolNew, hword]
  · have hstop : min 0xFFFFFFFF (old + 1) = if old = 2 ^ 32 - 1 then old else old + 1 := by split <;> omega
    simp only [poolNew, hword, hstop]

/-! ### A bank at which one request waits (O15) -/

theorem rrWinner_singleton (ptr r : Nat) : rrWinner ptr [r] = some r := by
  by_cases h : ptr ≤ r <;> simp [rrWinner, h]

theorem fixWrites_singleton (q : PoolReq) : fixWrites q [q] = q := by
  unfold fixWrites
  cases hop : q.op <;> simp [hop]

/-- The state in which a bank has granted its one request, taken it off the list and begun its cycle. -/
def bankTaken (b : Nat) (q : PoolReq) (s : State) : State :=
  { s with rr := SMap.put s.rr (rrPool b) (q.rid + 1), pool := SMap.put s.pool b [], poolCyc := s.poolCyc + 1 }.count b Reg.POOL_BANK_MERGED 0

@[simp] theorem bankTaken_mem (b : Nat) (q : PoolReq) (s : State) : (bankTaken b q s).mem = s.mem := rfl
@[simp] theorem bankTaken_thr (b : Nat) (q : PoolReq) (s : State) : (bankTaken b q s).thr = s.thr := rfl
@[simp] theorem bankTaken_out (b : Nat) (q : PoolReq) (s : State) : (bankTaken b q s).out = s.out := rfl

theorem bankTaken_pool (b : Nat) (q : PoolReq) (s : State) : (bankTaken b q s).pool = SMap.put s.pool b [] := rfl

/-- With one request at a bank the cycle serves it: nothing joins it and nothing waits on (R91). -/
theorem bankStep_of_single {b : Nat} {q : PoolReq} {s : State} {p : PoolOp → Bool} (hon : unitsOn s = true)
    (hq : SMap.getD s.pool b [] = [q]) (hpark : q.parked = false) (hp : p q.op = true) :
    bankStep b [] .none p s = repark b [q] (poolServe q (bankTaken b q s)) := by
  have hcycle : bankCycle b s = some (q, [], [], { s with rr := SMap.put s.rr (rrPool b) (q.rid + 1) }) := by
    simp [bankCycle, hq, hpark, rrGrant, rrWinner_singleton, fixWrites_singleton]
  simp only [bankStep, poolArrive, List.foldl_nil, hon, hcycle, hp, if_true]
  rfl

/-- `repark` changes requests and adds none. -/
theorem repark_getD_nil {b : Nat} {s : State} (l : List PoolReq) (h : SMap.getD s.pool b [] = []) :
    SMap.getD (repark b l s).pool b [] = [] := by
  simp only [repark, h, List.map_nil]
  simp [SMap.getD]

/-! ### What the served request reads and writes -/

theorem regionOf_of_inPool {pa : Nat} (h : inPool pa = true) : regionOf pa = .pool := of_decide_eq_true h

theorem backing_of_inPool {pa : Nat} (s : State) (h : inPool pa = true) : backing s pa = some pa := by
  simp [backing, regionOf_of_inPool h]

theorem refusedAt_of_inPool {pa : Nat} (s : State) (n : Nat) (h : inPool pa = true) : refusedAt s pa n = none := by
  simp [refusedAt, regionOf_of_inPool h]

/-- The state after a served write of bytes to the Pool; an operation that writes nothing leaves all as it is (R89, R174). -/
def poolStored (pa : Nat) (d : List Byte) (s : State) : State := if d = [] then s else unparkRange pa d.length (rawWrite s pa d)

@[simp] theorem unparkRange_thr (pa n : Nat) (s : State) : (unparkRange pa n s).thr = s.thr := by unfold unparkRange; split <;> rfl
@[simp] theorem unparkRange_plans (pa n : Nat) (s : State) : (unparkRange pa n s).plans = s.plans := by unfold unparkRange; split <;> rfl

@[simp] theorem unparkRange_byte (pa n : Nat) (s : State) (adr : Nat) : (unparkRange pa n s).byte adr = s.byte adr := by simp [State.byte]

/-- A bank with no request has none after a write of the Pool. -/
theorem unparkRange_getD_nil {b : Nat} (pa n : Nat) {s : State} (h : SMap.getD s.pool b [] = []) :
    SMap.getD (unparkRange pa n s).pool b [] = [] := by
  unfold unparkRange
  split
  · exact h
  · refine List.foldlRecOn (motive := fun m => SMap.getD m b [] = []) _ _ h fun m hm k _ => ?_
    split
    · exact hm
    · next l hl =>
      by_cases hk : b = k
      · subst hk
        have hnil : l = [] := by simpa [SMap.getD, hl] using hm
        simp [SMap.getD, hnil]
      · simpa [SMap.getD, SMap.get?_put_of_ne m _ hk] using hm

@[simp] theorem poolStored_thr (pa : Nat) (d : List Byte) (s : State) : (poolStored pa d s).thr = s.thr := by
  unfold poolStored; split <;> simp [rawWrite]

@[simp] theorem poolStored_nil (pa : Nat) (s : State) : poolStored pa [] s = s := rfl

theorem poolStored_byte (pa : Nat) (d : List Byte) (s : State) (adr : Nat) :
    (poolStored pa d s).byte adr = if pa ≤ adr ∧ adr < pa + d.length then d.getD (adr - pa) 0 else s.byte adr := by
  unfold poolStored
  split
  · next hd => rw [hd, List.length_nil, if_neg (by omega)]
  · rw [unparkRange_byte, byte_rawWrite]

theorem poolStored_getD_nil {b : Nat} (pa : Nat) (d : List Byte) {s : State} (h : SMap.getD s.pool b [] = []) :
    SMap.getD (poolStored pa d s).pool b [] = [] := by
  unfold poolStored
  split
  · exact h
  · exact unparkRange_getD_nil _ _ h

theorem healWhole_of_bad_nil {s : State} (pa n : Nat) (h : s.bad = []) : healWhole pa n s = s := by
  cases s
  cases h
  rfl

theorem servedRead_of_inPool {pa : Nat} {s : State} (c : Ctx) (n : Nat) (hpool : inPool pa = true) (hbad : s.bad = []) :
    servedRead c pa n s = (.ok (rawRead s pa n), s) := by
  simp [servedRead, backing_of_inPool s hpool, refusedAt_of_inPool s n hpool, firstBad, hbad]

theorem servedWrite_of_inPool {pa : Nat} {s : State} (c : Ctx) (d : List Byte) (hpool : inPool pa = true) (hbad : s.bad = [])
    (hplans : ∀ e ∈ s.plans, e.2.red = []) : servedWrite c pa d none s = (.ok (), poolStored pa d s) := by
  have hspoil : spoilReduced c pa d.length (unparkRange pa d.length (rawWrite s pa d)) = unparkRange pa d.length (rawWrite s pa d) := by
    refine spoilReduced_eq _ _ _ _ fun e he r hr => ?_
    rw [unparkRange_plans] at he
    simp [hplans e he] at hr
  unfold servedWrite poolStored
  split
  · rfl
  · simp [backing_of_inPool s hpool, refusedAt_of_inPool s d.length hpool, partBad, hbad, healWhole_of_bad_nil pa _ hbad,
      regionOf_of_inPool hpool, hspoil]

/-- The bytes a request reads: an atomic, a reduction and a read those of its width, a write none. -/
def poolReads (q : PoolReq) : Nat :=
  if isAtomic q.op ∨ isRed q.op ∨ q.op = .read (poolWidth q.op) then poolWidth q.op else 0

/-- A request that meets no error and, as a sem.p, no 0 writes what `poolNew` gives and is answered with the old bytes. -/
theorem poolServe_eq {q : PoolReq} {s : State} {old : List Byte} (hpool : inPool q.pa = true) (hbad : s.bad = [])
    (hplans : ∀ e ∈ s.plans, e.2.red = []) (hold : rawRead s q.pa (poolReads q) = old) (hsem : q.op = .semP → leNat old ≠ 0) :
    poolServe q s = poolReply q { st := .ok } old (poolStored q.pa ((poolNew q.op old).getD []) s) := by
  have hread := servedRead_of_inPool (bankCtx q s) (poolReads q) hpool hbad
  rw [hold] at hread
  unfold poolReads at hread
  simp only [poolServe, hread]
  rw [if_neg (fun h => hsem h.1 h.2)]
  cases hnew : poolNew q.op old with
  | none => rfl
  | some d => simp only [servedWrite_of_inPool _ d hpool hbad hplans, Option.getD_some]

/-! ### The answer -/

theorem isRed_of_isAtomic {op : PoolOp} (h : isAtomic op = true) : isRed op = false := by
  cases op <;> simp_all [isAtomic, isRed]

theorem poolNew_of_isRed {op : PoolOp} (h : isRed op = true) (old : List Byte) : ∃ d, poolNew op old = some d := by
  cases op <;> simp_all [isRed, poolNew]

theorem awaitsPool_congr {s t : State} (rid : Nat) (h : s.thr = t.thr) : awaitsPool rid s = awaitsPool rid t := by
  simp [awaitsPool, State.th, h]

theorem opDone_ok_pool (a t seq : Nat) (s : State) : (opDone a t seq { st := .ok } s).pool = s.pool := by
  unfold opDone
  dsimp only
  split <;> rfl

theorem poolReply_ok_pool (q : PoolReq) (old : List Byte) (s : State) : (poolReply q { st := .ok } old s).pool = s.pool := by
  unfold poolReply
  split
  · exact opDone_ok_pool _ _ _ _
  · split <;> rfl

/-- The old value of an atomic waits for its thread (R89). -/
theorem poolReply_of_isAtomic {q : PoolReq} {s : State} (f : Fail) (old : List Byte) (hat : isAtomic q.op = true)
    (hwait : awaitsPool q.rid s = true) : poolReply q f old s = { s with poolDone := SMap.put s.poolDone q.rid (f, leNat old) } := by
  simp [poolReply, isRed_of_isAtomic hat, hat, hwait]

/-- A plain access is answered with a message. -/
theorem poolReply_of_plain {q : PoolReq} (old : List Byte) (s : State) (hred : isRed q.op = false) (hat : isAtomic q.op = false) :
    poolReply q { st := .ok } old s = s.emit (.memReply q.rid .ok old) := by
  simp [poolReply, hred, hat]

/-! ### The bytes after the cycle -/

theorem length_poolNew {op : PoolOp} {old d : List Byte} (hat : isAtomic op = true) (hd : poolNew op old = some d) : d.length = poolWidth op := by
  cases op
  case add | max | min | swap | semV => exact Option.some.inj hd ▸ length_leBytes _ _
  case cas | semP =>
    have hbytes := (by simpa [poolNew] using hd : _ ∧ _).2
    exact hbytes ▸ length_leBytes _ _
  all_goals exact nomatch hat

theorem getD_rawRead (s : State) (pa : Nat) {n i : Nat} (h : i < n) : (rawRead s pa n).getD i 0 = s.byte (pa + i) := by
  simp [rawRead, h]

/-- An atomic that writes nothing leaves the old bytes, so its word reads as the new or the old ones (R89, R174). -/
theorem poolStored_byte_of_isAtomic {op : PoolOp} {pa : Nat} {s : State} (hat : isAtomic op = true) (adr : Nat) :
    (poolStored pa ((poolNew op (rawRead s pa (poolWidth op))).getD []) s).byte adr =
      if pa ≤ adr ∧ adr < pa + poolWidth op then
        ((poolNew op (rawRead s pa (poolWidth op))).getD (rawRead s pa (poolWidth op))).getD (adr - pa) 0
      else s.byte adr := by
  rw [poolStored_byte]
  cases hnew : poolNew op (rawRead s pa (poolWidth op)) with
  | some d => simp only [Option.getD_some, length_poolNew hat hnew]
  | none =>
    simp only [Option.getD_none, List.length_nil]
    rw [if_neg (by omega)]
    split
    · rw [getD_rawRead s pa (by omega)]
      congr 1
      omega
    · rfl

/-- One request waits at a bank whose unit has power, for bytes of the Pool; no word holds an error, and no plan reduces into a buffer. -/
structure AloneAt (b : Nat) (q : PoolReq) (s : State) : Prop where
  on : unitsOn s = true
  only : SMap.getD s.pool b [] = [q]
  ready : q.parked = false
  inPool : inPool q.pa = true
  clean : s.bad = []
  plans : ∀ e ∈ s.plans, e.2.red = []

/-- The state after the cycle that serves such a request: the bytes it writes, the answer of its kind. -/
def bankServed (b : Nat) (q : PoolReq) (old : List Byte) (s : State) : State :=
  repark b [q] (poolReply q { st := .ok } old (poolStored q.pa ((poolNew q.op old).getD []) (bankTaken b q s)))

theorem bankStep_of_aloneAt {b : Nat} {q : PoolReq} {s : State} {p : PoolOp → Bool} {old : List Byte} (h : AloneAt b q s) (hp : p q.op = true)
    (hold : rawRead s q.pa (poolReads q) = old) (hsem : q.op = .semP → leNat old ≠ 0) : bankStep b [] .none p s = bankServed b q old s := by
  rw [bankStep_of_single h.on h.only h.ready hp, bankServed,
    poolServe_eq (s := bankTaken b q s) h.inPool h.clean h.plans hold hsem]

theorem bankServed_getD_nil (b : Nat) (q : PoolReq) (old : List Byte) (s : State) : SMap.getD (bankServed b q old s).pool b [] = [] := by
  refine repark_getD_nil _ ?_
  rw [poolReply_ok_pool]
  refine poolStored_getD_nil _ _ ?_
  simp [bankTaken_pool, SMap.getD]

theorem bankServed_byte (b : Nat) (q : PoolReq) (old : List Byte) (s : State) (adr : Nat) :
    (bankServed b q old s).byte adr = (poolStored q.pa ((poolNew q.op old).getD []) s).byte adr := by
  have hcycle : (bankServed b q old s).byte adr = (poolStored q.pa ((poolNew q.op old).getD []) (bankTaken b q s)).byte adr := by
    simp [State.byte, bankServed]
  rw [hcycle, poolStored_byte, poolStored_byte]
  rfl

theorem bankServed_poolDone {b : Nat} {q : PoolReq} {s : State} (old : List Byte) (hat : isAtomic q.op = true) (hwait : awaitsPool q.rid s = true) :
    SMap.get? (bankServed b q old s).poolDone q.rid = some ({ st := .ok }, leNat old) := by
  rw [bankServed, poolReply_of_isAtomic _ _ hat ((awaitsPool_congr _ (by simp)).trans hwait)]
  simp [repark]

/-- A plain read answers its requester and leaves memory. -/
theorem bankServed_read {b n : Nat} {q : PoolReq} {s : State} (old : List Byte) (hop : q.op = .read n) :
    (bankServed b q old s).mem = s.mem ∧ (bankServed b q old s).out = .memReply q.rid .ok old :: s.out := by
  rw [bankServed, poolReply_of_plain _ _ (by simp [hop, isRed]) (by simp [hop, isAtomic])]
  simp [hop, poolNew, repark, State.emit]

/-- Settles O15: one request alone at its bank is served whole (`bankStep_of_aloneAt`), and `bankServed` gives what each kind asks for. -/
theorem bankCycleServesItsRequest : Obligations.BankCycleServesItsRequest := by
  unfold Obligations.BankCycleServesItsRequest
  rintro bank s q old hon honly hready hpool - - rfl hbad hplans hsem
  have halone : AloneAt bank.val q s := ⟨hon, honly, hready, hpool, hbad, hplans⟩
  refine ⟨fun hat hwait => ?_, fun hred => ?_, fun n hop _ => ?_, fun d hop => ?_⟩
  · have hstep := bankStep_of_aloneAt (p := isAtomic) halone hat (by simp [poolReads, hat]) hsem
    refine ⟨_, by rw [exec_poolAtomic, execPoolAtomic, hstep], bankServed_poolDone _ hat hwait, bankServed_getD_nil _ _ _ _, fun adr => ?_⟩
    rw [bankServed_byte, poolStored_byte_of_isAtomic hat]
  · have hstep := bankStep_of_aloneAt (p := isRed) halone hred (by simp [poolReads, hred]) hsem
    refine ⟨_, by rw [exec_poolVectorReduction, execPoolVectorReduction, hstep], bankServed_getD_nil _ _ _ _, fun adr => ?_⟩
    obtain ⟨d, hd⟩ := poolNew_of_isRed hred (rawRead s q.pa (poolWidth q.op))
    rw [bankServed_byte, poolStored_byte, hd]
    rfl
  · have hstep := bankStep_of_aloneAt (p := fun _ => true) halone rfl (by simp [poolReads, hop, poolWidth]) hsem
    have hread := bankServed_read (b := bank.val) (s := s) (rawRead s q.pa (poolWidth q.op)) hop
    exact ⟨_, by rw [exec_poolAccess, execPoolAccess, hstep], hread.1, hread.2, bankServed_getD_nil _ _ _ _⟩
  · have hstep := bankStep_of_aloneAt (p := fun _ => true) (old := []) halone rfl
      (by simp [poolReads, hop, isAtomic, isRed, rawRead]) (by simp [hop])
    refine ⟨_, by rw [exec_poolAccess, execPoolAccess, hstep], bankServed_getD_nil _ _ _ _, fun adr => ?_⟩
    rw [bankServed_byte, poolStored_byte, hop]
    rfl

end Sys2Proof.Machine
end

section
/-! PROOFS. HBM: the conversion of a frame's class (O30, R74), and the pseudo-channels, the scrubber and the thermal poll (O39, R77 to R81). -/

namespace Sys2Proof.Machine

/-! ### What journaling a register write touches -/

/-- The second state differs from the first at most in what journaling touches: registers, outputs, pending vectors and the journal. -/
def JournalApart (s t : State) : Prop := ∃ g o p j, t = { s with regs := g, out := o, msixPend := p, jrn := j }

theorem JournalApart.refl (s : State) : JournalApart s s := ⟨_, _, _, _, rfl⟩

theorem JournalApart.trans {s t u : State} (hst : JournalApart s t) (htu : JournalApart t u) : JournalApart s u := by
  obtain ⟨_, _, _, _, rfl⟩ := hst
  obtain ⟨g, o, p, j, rfl⟩ := htu
  exact ⟨g, o, p, j, rfl⟩

theorem journalApart_raiseEvt (e : Evt) (s : State) : JournalApart s (raiseEvt e s) := by
  unfold raiseEvt sendMsix
  dsimp only
  split
  · split <;> exact ⟨_, _, _, _, rfl⟩
  · exact ⟨_, _, _, _, rfl⟩

theorem journalApart_jrnLose (s : State) : JournalApart s (jrnLose s) := by
  unfold jrnLose
  dsimp only
  split
  · exact .trans ⟨_, _, _, _, rfl⟩ (journalApart_raiseEvt .journal _)
  · exact ⟨_, _, _, _, rfl⟩

theorem journalApart_jrnAppend (e : JEntry) (s : State) : JournalApart s (jrnAppend e s) := by
  unfold jrnAppend
  dsimp only
  split
  · exact .trans ⟨_, _, _, _, rfl⟩ (journalApart_jrnLose _)
  · exact ⟨_, _, _, _, rfl⟩

theorem journalApart_journalWrite (a : RegAcc) (r : RegDef) (i : Nat) (old new : W32) (wo : Nat) (s : State) :
    JournalApart s (journalWrite a r i old new wo s) := by
  unfold journalWrite
  dsimp only
  split <;> split
  · exact (journalApart_jrnAppend _ s).trans (journalApart_jrnAppend _ _)
  · exact journalApart_jrnAppend _ s
  · exact journalApart_jrnAppend _ s
  · exact JournalApart.refl s

/-- Storing a register and journaling the change touches nothing else of the state (R481). -/
theorem journalApart_stored (a : RegAcc) (r : RegDef) (i m : Nat) (new : W32) (s : State) : JournalApart s (stored a r i m new s) :=
  .trans ⟨_, _, _, _, rfl⟩ (journalApart_journalWrite a r i _ new _ (s.setReg i a.off new))

/-! ### A frame's class is written (R74) -/

theorem portTurn_of_idle {a : RegAcc} (k : State → State) {s : State} (h : a.port = .pcie → hostBusy s = false) : portTurn a k s = k s := by
  unfold portTurn
  split
  · next hp => exact hostTurn_eq_of_idle _ _ (h hp)
  · rfl

theorem fclassWrite_of_converting (a : RegAcc) {s : State} (h : s.conv ≠ []) : fclassWrite a s = { s with convHeld := s.convHeld ++ [a] } :=
  if_pos h

/-- With no conversion running, a write that reaches the register stores its word and converts the frames it changes. -/
theorem fclassWrite_of_reaches {a : RegAcc} {r : RegDef} {i m : Nat} {s : State} (hoff : a.off = Reg.MEM_FCLASS_DATA) (h : Reaches a r i m s)
    (hconv : s.conv = []) :
    fclassWrite a s = fclassEffect i (s.reg i a.off) (newWord a r i m s) (stored a r i m (newWord a r i m s) s) := by
  have hplain : ¬(a.off = Reg.HST_MLOCK) := by rw [hoff]; decide
  obtain ⟨hadm, -⟩ := h
  simp only [fclassWrite, hconv, ne_eq, not_true_eq_false, if_false, writeReg, hadm, mlockEvent, hplain, false_and]
  rfl

theorem fclassEffect_of_one {idx f : Nat} {b : Bool} {old new : W32} (s : State) (h : changedFrames idx old new = [(f, b)]) :
    fclassEffect idx old new s = (convertFrame f b (completeFrame f s)).setRf 0 Reg.MEM_STATUS 2 2 1 := by
  simp only [fclassEffect, h, List.foldl_cons, List.foldl_nil]

/-- With no request to a frame at the pseudo-channels, its conversion completes none. -/
theorem completeFrame_of_untouched {f : Nat} {s : State} (h : ∀ e ∈ s.pcs, (∀ q ∈ (s.pc e.1).queue, touchesFrame f q.q = false) ∧
    (∀ q ∈ (s.pc e.1).waiting, touchesFrame f q.1 = false)) : completeFrame f s = s := by
  refine List.foldlRecOn (motive := fun t => t = s) _ _ rfl ?_
  rintro _ rfl e he
  obtain ⟨hq, hw⟩ := h e he
  exact if_pos (by simpa using ⟨hq, fun q n hqn => hw (q, n) hqn⟩)

/-! ### A frame is converted (R74) -/

theorem SMap.get?_filter {α : Type} (p : Nat → Bool) (m : SMap α) (k : Nat) :
    SMap.get? (m.filter (fun e => p e.1)) k = if p k then SMap.get? m k else none := by
  induction m with
  | nil => simp [SMap.get?]
  | cons e r ih =>
    obtain ⟨a, v⟩ := e
    by_cases hk : a = k
    · subst hk
      cases hp : p a <;> simp_all [SMap.get?]
    · cases hp : p a <;> simp_all [SMap.get?]

theorem zeroRange_byte (pa n : Nat) (s : State) (adr : Nat) :
    (zeroRange pa n s).byte adr = if pa ≤ adr ∧ adr < pa + n then 0 else s.byte adr := by
  have hget := SMap.get?_filter (fun k => decide (k < pa) || decide (pa + n ≤ k)) s.mem adr
  simp only [State.byte, zeroRange, SMap.getD, hget]
  by_cases h : pa ≤ adr ∧ adr < pa + n
  · simp [h, show ¬ adr < pa by omega, show ¬ pa + n ≤ adr by omega]
  · simp [h, show adr < pa ∨ pa + n ≤ adr by omega]

theorem contains_setIns_self (l : List Nat) (k : Nat) : (setIns l k).contains k = true := by simpa using mem_setIns_self l k

theorem contains_setDel_self (l : List Nat) (k : Nat) : (setDel l k).contains k = false := by simp [setDel]

theorem convertFrame_conv_of_none (f : Nat) (b : Bool) {s : State} (h : s.conv = []) : (convertFrame f b s).conv = [f] :=
  congrArg (setIns · f) h

theorem convertFrame_classA_contains (f : Nat) (b : Bool) (s : State) : (convertFrame f b s).classA.contains f = b := by
  cases b
  · exact contains_setDel_self _ _
  · exact contains_setIns_self _ _

theorem convertFrame_byte (f : Nat) (b : Bool) (s : State) (adr : Nat) :
    (convertFrame f b s).byte adr = if f * 0x200000 ≤ adr ∧ adr < f * 0x200000 + 0x200000 then 0 else s.byte adr :=
  zeroRange_byte _ _ s adr

/-! ### The last conversion ends (R74) -/

theorem releaseHeld_of_none {s : State} (h : s.convHeld = []) : releaseHeld s = s := by
  cases s
  cases h
  rfl

theorem endConversion_of_last {f : Nat} {s : State} (hconv : s.conv = [f]) (hheld : s.convHeld = []) :
    endConversion f s = { s with conv := [] }.setRf 0 Reg.MEM_STATUS 2 2 0 := by
  have hdel : setDel [f] f = [] := by simp [setDel]
  simp only [endConversion, hconv, hdel, List.contains_cons, BEq.rfl, Bool.true_or, if_true]
  exact releaseHeld_of_none hheld

/-- Settles O30: a write that reaches the register runs `fclassEffect` on the stored word, `convertFrame` zeroes the frame and changes its class, a
write during a conversion is held, and `endConversion` of the last frame clears FCLASS_BUSY. -/
theorem frameClassConversion : Obligations.FrameClassConversion := by
  unfold Obligations.FrameClassConversion
  refine ⟨?_, ?_, ?_⟩
  · rintro p val rid s r i m f b a rfl hreach hconv hch
    obtain ⟨-, -, hidle, -⟩ := id hreach
    have hexec := exec_fclassDataWrite s p val rid
    rw [execFclassDataWrite, portTurn_of_idle _ hidle, fclassWrite_of_reaches rfl hreach hconv, fclassEffect_of_one _ hch] at hexec
    refine ⟨hexec, fun hfree => ⟨_, hexec, ?_⟩⟩
    obtain ⟨g, o, pend, j, hst⟩ := journalApart_stored ⟨p, Reg.MEM_FCLASS_DATA, val, rid.toNat⟩ r i m (newWord _ r i m s) s
    rw [hst, completeFrame_of_untouched (by exact hfree)]
    exact ⟨convertFrame_conv_of_none f b hconv, by simp, convertFrame_classA_contains f b _, convertFrame_byte f b _⟩
  · intro p val rid s hconv hidle
    rw [exec_fclassDataWrite, execFclassDataWrite, portTurn_of_idle _ hidle, fclassWrite_of_converting _ hconv]
  · intro frame s hconv hheld hbus
    have hend : exec (.fclassConversionDone frame) s = .next ({ s with conv := [] }.setRf 0 Reg.MEM_STATUS 2 2 0) := by
      rw [exec_fclassConversionDone, execFclassConversionDone, endConversion_of_last hconv hheld, drainBus_of_none (by simpa using hbus)]
    exact ⟨_, hend, rfl, by simp, rfl⟩

/-! ### Pseudo-channels, scrubber and thermal poll (O39) -/

@[simp] theorem State.pc_setPc_self (s : State) (p : Nat) (c : PseudoChan) : (s.setPc p c).pc p = c := by
  simp [State.setPc, State.pc, State.setRf, SMap.getD]

/-- HBM_ACCESS with the fill done: a channel that is down fails all its requests, another admits one and serves one (R77, R80). -/
theorem exec_hbmAccess_of_filled {s : State} (pc : Fin 1024) (arr : List MemReq) (pick : Nat) (ev : HbmEvent)
    (hfill : s.rf 0 Reg.MEM_STATUS 1 1 = 1) : exec (.hbmAccess pc arr pick ev) s =
      .next (if (pcDown s pc).isSome then failAll pc (s.setPc pc ((s.pc pc).arrive (arriving pc s arr)))
        else serveOne pc pick ev (admitOne pc (s.setPc pc ((s.pc pc).arrive (arriving pc s arr))))) := by
  rw [exec_hbmAccess, execHbmAccess, if_neg (by rw [hfill]; decide)]

/-- INTERFACE_RETRY of the oldest request in retry (R77). -/
theorem exec_interfaceRetry_of_found {s : State} {pc : Fin 1024} {i : Nat} {r : QReq} (fails : Bool)
    (hi : (s.pc pc).queue.findIdx? (fun o => o.fails != 0) = some i) (hr : (s.pc pc).queue[i]? = some r) :
    exec (.interfaceRetry pc fails) s = .next (
      if fails then
        if r.fails + 1 ≥ 4 then failPc pc r.q (s.count pc Reg.MEM_PC_RETRY 1)
        else (s.count pc Reg.MEM_PC_RETRY 1).setPc pc { s.pc pc with queue := (s.pc pc).queue.set i { r with fails := r.fails + 1 } }
      else serveHbm r.q .clean ((s.count pc Reg.MEM_PC_RETRY 1).setPc pc { s.pc pc with queue := (s.pc pc).queue.eraseIdx i })) := by
  simp only [exec_interfaceRetry, execInterfaceRetry, hi, hr]
  split
  · split <;> rfl
  · rfl

/-- Settles O39: each command by the branch that its conditions select. -/
theorem hbmCommands : Obligations.HbmCommands := by
  unfold Obligations.HbmCommands
  intro s
  refine ⟨?_, ?_, ?_, ?_, ?_⟩
  · rintro pc arr pick ev s1 hfill rfl
    rw [exec_hbmAccess_of_filled pc arr pick ev hfill]
    refine ⟨fun hup => ?_, fun hdown => ?_⟩
    · rw [if_neg (by simp [hup])]
      rfl
    · rw [if_pos (Option.isSome_iff_ne_none.2 hdown)]
      rfl
  · intro pc i r hi hr
    refine ⟨exec_interfaceRetry_of_found false hi hr, fun hthree => ?_, fun hless => ?_⟩
    · rw [exec_interfaceRetry_of_found true hi hr, if_pos rfl, if_pos (by omega)]
    · have hexec := exec_interfaceRetry_of_found true hi hr
      rw [if_pos rfl, if_neg (by omega)] at hexec
      exact ⟨_, hexec, by simp, by simp⟩
  · rintro ev pa hckp hperiod hfill hpkgs rfl
    rw [exec_scrubRead, execScrubRead, if_neg (by simp [hckp]), if_pos rfl, if_neg (by simp [hperiod, hfill, hpkgs])]
    rfl
  · rintro ev pa hckp hperiod hfill rfl hclass hup
    rw [exec_scrubRead, execScrubRead, if_neg (by simp [hckp]), if_neg (by simp), if_neg (by simp [hperiod, hfill])]
    exact if_neg (by simp [hclass, hup])
  · intro temps htrained
    rw [exec_thermalPoll, execThermalPoll]
    exact if_neg (by rw [htrained]; decide)

end Sys2Proof.Machine
end

section
/-! PROOFS. The grid of an array: the issue of its operations (O17, R115, R166, R169), where they begin and end (O40, R99, R105, R115), and the rows
and checks of a stream with the blocks of the expander (O41, R102 to R120, R144 to R146). -/

namespace Sys2Proof.Machine

/-! ### A thread is stored twice -/

theorem SMap.put_put {α : Type} (m : SMap α) (k : Nat) (v w : α) : SMap.put (SMap.put m k v) k w = SMap.put m k w := by
  induction m with
  | nil => simp [SMap.put]
  | cons e r ih =>
    obtain ⟨j, x⟩ := e
    by_cases hlt : k < j
    · simp [SMap.put, hlt]
    · by_cases heq : k = j
      · simp [SMap.put, heq]
      · simp [SMap.put, hlt, heq, ih]

/-- Of two stores of a thread the later stands, unless one of them frees its place. -/
theorem State.setTh_setTh (s : State) (a t : Nat) {x y : Thread} (hx : x ≠ Thread.free) (hy : y ≠ Thread.free) :
    (s.setTh a t x).setTh a t y = s.setTh a t y := by
  simp only [State.setTh, SMap.set, if_neg hx, if_neg hy, SMap.put_put]

/-! ### Issue (O17) -/

@[simp] theorem Thread.setS_toks (x : Thread) (r : Nat) (v : W64) : (x.setS r v).toks = x.toks := by
  unfold Thread.setS
  split <;> rfl

@[simp] theorem Thread.setS_pc (x : Thread) (r : Nat) (v : W64) : (x.setS r v).pc = x.pc := by
  unfold Thread.setS
  split <;> rfl

@[simp] theorem Thread.withToken_pc (x : Thread) (w unit : Nat) : (x.withToken w unit).pc = x.pc := by
  simp [Thread.withToken, Thread.newTok]

/-- A thread that has taken a token holds its record. -/
theorem Thread.withToken_toks_ne_nil (x : Thread) (w unit : Nat) : (x.withToken w unit).toks ≠ [] := by
  simp [Thread.withToken, Thread.newTok]

theorem Thread.ne_free_of_toks {x : Thread} (h : x.toks ≠ []) : x ≠ Thread.free := by
  rintro rfl
  exact h rfl

@[simp] theorem State.th_setGr (s : State) (b a t : Nat) (g : Grid) : (s.setGr b g).th a t = s.th a t := rfl

@[simp] theorem State.gr_setTh (s : State) (b a t : Nat) (x : Thread) : (s.setTh a t x).gr b = s.gr b := rfl

theorem State.setTh_setGr (s : State) (b a t : Nat) (x : Thread) (g : Grid) : (s.setTh a t x).setGr b g = (s.setGr b g).setTh a t x := rfl

theorem State.th_of_thr {s u : State} (h : u.thr = s.thr) (a t : Nat) : u.th a t = s.th a t := by
  simp [State.th, h]

/-- The next instruction of an issuing thread lies in the program store, as the thread stands after the fetch (R163). -/
theorem pc_lt_of_issues {s u : State} {a : Fin 96} {t : Fin 64} {w ext : Nat} (h : Issues s a t w ext u) :
    (u.th a t).pc + iLen w < psWords := by
  obtain ⟨⟨-, -, hthr, -, hpc⟩, -⟩ := h
  rwa [State.th_of_thr hthr]

/-- An operation taken into the grid behind the thread's new token leaves the thread after its instruction (R157, R169). -/
theorem advance_withToken_setGr {u : State} {a : Fin 96} {t : Fin 64} {w unit : Nat} (g : Grid) (hpc : (u.th a t).pc + iLen w < psWords) :
    advance a t w ((u.setTh a t ((u.th a t).withToken w unit)).setGr a g) =
      (u.setGr a g).setTh a t (((u.th a t).withToken w unit).after w) := by
  have htok := (u.th a t).withToken_toks_ne_nil w unit
  rw [State.setTh_setGr, advance_eq _ _ _ _ (by simpa using hpc), State.th_setTh_self]
  exact State.setTh_setTh _ _ _ (Thread.ne_free_of_toks htok) (Thread.ne_free_of_toks htok)

/-- Settles O17: `issue` runs the instruction's body, which for a free partition is `issueAsync` and for another's a program fault. -/
theorem gridIssueTakesTheOperationOrHalts : Obligations.GridIssueTakesTheOperationOrHalts := by
  unfold Obligations.GridIssueTakesTheOperationOrHalts
  constructor
  · rintro a t s u w ext imm q x hiss rfl rfl hroom rfl
    refine ⟨fun hc hf hown => ?_, fun hc hf hown => ?_, fun hc hf hown hmode => ?_, fun hc hf => ?_, fun hc hf => ?_⟩
    · rw [exec_mxmLoad, execMxmLoad, mxmIssue, issue_eq_of_fields hiss hc hf]
      simp [hown, issueAsync_eq _ _ _ _ _ _ hroom]
    · rw [exec_mxmStream, execMxmStream, mxmIssue, issue_eq_of_fields hiss hc hf]
      simp [hown, issueAsync_eq _ _ _ _ _ _ hroom]
    · rw [exec_mxmPart, execMxmPart, mxmIssue, issue_eq_of_fields hiss hc hf]
      have hfree : (u.gr a).own.any (fun e => e.2 ≠ t.val) = false := by simpa using hown
      simp only [hfree, if_true, Bool.false_eq_true, if_false, hmode, issueAsync_eq _ _ _ _ _ _ hroom, State.gr_setTh]
      exact congrArg _ (advance_withToken_setGr _ (pc_lt_of_issues hiss))
    · rw [exec_mvLoad, execMvLoad, mvIssue, issue_eq_of_fields hiss hc hf]
      simp [issueAsync_eq _ _ _ _ _ _ hroom]
    · rw [exec_mvStream, execMvStream, mvIssue, issue_eq_of_fields hiss hc hf]
      simp [issueAsync_eq _ _ _ _ _ _ hroom]
  · intro a t s u w ext hiss hc hown
    constructor
    · intro hf
      rw [exec_mxmLoad, execMxmLoad, mxmIssue, issue_eq_of_fields hiss hc hf]
      simp [hown]
    · intro hf
      rw [exec_mxmStream, execMxmStream, mxmIssue, issue_eq_of_fields hiss hc hf]
      simp [hown]

/-! ### Operations that begin, end and change the mode (O40) -/

@[simp] theorem opOk_gr (a t q : Nat) (s : State) (b : Nat) : (opOk a t q s).gr b = s.gr b := by
  unfold opOk opDone
  dsimp only
  split
  · rfl
  · simp [haltsThread]

/-- The grid after a mode change has taken effect (R115). -/
def Grid.changed (g : Grid) (o : GOp) : Grid :=
  { g with
    mode := o.mode
    own := []
    tiles := g.tiles.filter (fun e => e.1 = tileKey rush 0)
    kcnt := g.kcnt.filter (fun e => e.1 = rush)
    ops := g.ops.filter (fun p => !(p.thr = o.thr ∧ p.seq = o.seq)) }

/-- The oldest mode change, with no earlier operation that delays it, takes effect and completes (R115). -/
theorem exec_partModeChange_of_clear {s : State} {a : Fin 96} {o : GOp} (ho : (s.gr a).ops.find? (fun x => x.kind = .part) = some o)
    (hclear : ((s.gr a).before o).any (fun p => p.part ≠ rush || p.thr = o.thr) = false) :
    exec (.partModeChange a) s = .next (opOk a o.thr o.seq (s.setGr a ((s.gr a).changed o))) := by
  rw [exec_partModeChange, execPartModeChange]
  simp only [ho, hclear, Bool.false_eq_true, if_false]
  rfl

/-- Settles O40: each command finds the operation its hypothesis names; of a mode change, `Grid.changed` says what is left. -/
theorem gridOperationsBeginAndEnd : Obligations.GridOperationsBeginAndEnd := by
  unfold Obligations.GridOperationsBeginAndEnd
  intro a s
  refine ⟨fun part o ho => ?_, fun part o ho => ?_, fun part buf o tile s1 ho htile => ?_, fun o ho hclear => ?_⟩
  · rw [exec_tileLoadBegin, execTileLoadBegin, ho]
  · rw [exec_streamBegin, execStreamBegin, ho]
  · rw [exec_tileLoadDone, execTileLoadDone]
    simp only [ho, htile]
  · refine ⟨_, exec_partModeChange_of_clear ho hclear, ?_⟩
    rw [opOk_gr, State.gr_setGr_self]
    refine ⟨rfl, rfl, fun e he => ?_, fun x hx => ?_⟩
    · simpa using (List.mem_filter.1 he).2
    · rintro ⟨hthr, hseq⟩
      simpa [hthr, hseq] using (List.mem_filter.1 hx).2

/-! ### Rows that enter and leave a stream (O41) -/

theorem GOp.cmpr_eq_true_iff (o : GOp) : o.cmpr = true ↔ (Desc.ofWord o.da).layout = 3 := by
  simp [GOp.cmpr]

/-- The row of a CMPR stream comes from the look-ahead buffer (R114). -/
theorem takeRow_of_cmpr {a p : Nat} {o : GOp} (s : State) (h : (Desc.ofWord o.da).layout = 3) :
    takeRow a p o s = enterRow a p o (blockRow o o.tk) s :=
  if_pos (o.cmpr_eq_true_iff.2 h)

/-- The row of a WROW stream comes from memory (R106). -/
theorem takeRow_of_wrow {a p : Nat} {o : GOp} {s s1 : State} {w : WRow} (h : (Desc.ofWord o.da).layout ≠ 3)
    (hw : readWeights a o s = (.ok w, s1)) : takeRow a p o s = enterRow a p o w s1 := by
  rw [takeRow, if_neg (mt o.cmpr_eq_true_iff.1 h), hw]

/-- In a cycle of the weight port the stream of the granted partition takes its row (R39, R114). -/
theorem exec_weightRowEntry_of_granted {a : Fin 96} {part : Fin 17} {s s1 : State} {o : GOp} {p : Nat} (hp : physOf s a = some p)
    (hgrant : rrGrant (rrPort a) (readyParts (s.gr a)) (countStall (s.gr a) p s) = some (part.val, s1))
    (ho : portStream (s.gr a) part = some o) : exec (.weightRowEntry a part) s = .next (takeRow a p o s1) := by
  rw [exec_weightRowEntry, execWeightRowEntry]
  simp only [hp, hgrant, ho, if_true]

theorem exec_outputRowWrite_of_free {a : Fin 96} {part : Fin 17} {s : State} {o : GOp} {p n : Nat} {w : WRow} {r : List (Nat × WRow)}
    (flt : Option (Fin 256 × W32)) (hp : physOf s a = some p) (ho : pendStream (s.gr a) part = some o) (hpend : o.pend = (n, w) :: r)
    (hpart : partHeld (s.gr a) part = false) (hrow : rowHeld (s.gr a) o n = false) :
    exec (.outputRowWrite a part flt) s = .next (writeRow a p o n w r (rowFault o n flt) s) := by
  rw [exec_outputRowWrite, execOutputRowWrite]
  simp [hp, ho, hpend, hpart, hrow]

/-! ### Checks and recomputes (O41) -/

/-- A stream with one of its kept rows checked and right. -/
def GOp.checked (o : GOp) (n : Nat) : GOp :=
  { o with keep := o.keep.map (fun j => if j.n = n then { j with chk := true, bad := false, mism := false } else j) }

/-- A row check that finds no fault notes the row as checked (R118). -/
theorem exec_rowCheck_of_right {a : Fin 96} {part : Fin 17} {s : State} {o : GOp} {p : Nat} {k : KRow} {t : Tile} (hp : physOf s a = some p)
    (ho : checkStream (s.gr a) part = some o) (hk : o.groupRows.find? (fun j => !j.chk) = some k) (ht : o.tile = some t)
    (hrec : o.recomp = false) (hcol : o.ckcol = false) (hright : rowWrong (tauExp s) o t k = false) :
    exec (.rowCheck a part false) s = .next (s.setGr a ((s.gr a).setOp (o.checked k.n))) := by
  rw [exec_rowCheck, execRowCheck]
  simp [hp, ho, hk, ht, hrec, hcol, hright, GOp.checked]

/-- A column check that finds every lane and every row right lets the group pass (R118). -/
theorem exec_columnCheck_of_right {a : Fin 96} {part : Fin 17} {s : State} {o : GOp} {p : Nat} {t : Tile} (hp : physOf s a = some p)
    (ho : checkStream (s.gr a) part = some o) (ht : o.tile = some t) (hrec : o.recomp = false) (hwhole : o.groupWhole = true)
    (hrows : ∀ k ∈ o.groupRows, k.chk = true ∧ k.mism = false) (hlanes : ∀ l < t.pm, laneWrong (tauExp s) o t o.groupRows l = false) :
    exec (.columnCheck a part none) s = .next (passGroup a o (s.count p Reg.ARR_COL_MISMATCH 0)) := by
  have hnone : (List.range t.pm).filter (fun m => laneWrong (tauExp s) o t o.groupRows m || (none : Option (Fin 256)).any (fun b => b.val == m)) = [] :=
    List.filter_eq_nil_iff.2 fun l hl => by simp [hlanes l (List.mem_range.1 hl)]
  have hchk : o.groupRows.any (fun k => !k.chk) = false := List.any_eq_false.2 fun k hk => by simp [(hrows k hk).1]
  have hmism : o.groupRows.all (fun k => !k.mism) = true := List.all_eq_true.2 fun k hk => by simp [(hrows k hk).2]
  rw [exec_columnCheck, execColumnCheck]
  simp only [ho, hp, ht, hrec, hwhole, hchk, hnone, hmism]
  rfl

/-- RECOMPUTE_DONE of the stream that a partition recomputes, by whether the group mismatches again (R120, R123). -/
theorem exec_recomputeDone_of_running {a : Fin 96} {part : Fin 17} {s : State} {o o1 : GOp} {p : Nat} {t : Tile} (again : Bool)
    (hp : physOf s a = some p) (ho : (s.gr a).ops.find? (fun j => j.part = part.val && j.recomp) = some o) (ht : o.tile = some t)
    (ho1 : o1 = { o with keep := o.keep.map (fun k => if k.n / 256 = o.group then { k with err := none, chk := true, bad := false, mism := false } else k) }) :
    exec (.recomputeDone a part again) s = .next (
      if again ∨ groupWrong (tauExp s) o1 t o1.groupRows then
        checkEvent a p { o with inj := none } (o.r0 + 256 * o.group) 0xFFFF 1 (s.count p Reg.ARR_RECOMPUTES 1)
      else if o1.groupWhole then passGroup a o1 (replayRows p o t s)
      else (replayRows p o t s).setGr a (((replayRows p o t s).gr a).setOp
        { o1 with recomp := false, inj := if o.injected then none else o.inj })) := by
  subst ho1
  rw [exec_recomputeDone, execRecomputeDone]
  simp only [ho, hp, ht]
  split
  · rfl
  · split <;> rfl

/-! ### The expander (O41) -/

/-- A block that arrives joins those that its stream has fetched (R139, R144). -/
theorem exec_expanderFetch_of_room {a : Fin 96} {part : Fin 17} {s s1 : State} {o : GOp} {b : Nat × Nat × List Byte}
    (ho : rowStream (s.gr a) part = some o) (hcmpr : (Desc.ofWord o.da).layout = 3) (hroom : (s.gr a).fetchedAhead o < 64)
    (hmore : o.fetched < o.blocks) (hb : fetchBlock a o o.fetched s = (.ok b, s1)) : exec (.expanderFetch a part) s =
      .next (settleLanes a (putStream a { o with fetched := o.fetched + 1, raw := o.raw ++ [b] } s1)) := by
  rw [exec_expanderFetch, execExpanderFetch]
  simp only [ho]
  rw [if_neg (by omega), hb]

/-- A lane that holds an undecoded block of a stream whose table is cached decodes it (R136, R144). -/
theorem exec_blockDecode_of_held {a : Fin 96} {lane : Fin 32} {s s1 : State} {o o1 : GOp} {p : Nat} {l : Lane} {t : CodeTab}
    {d : List Nat × List Nat} (hp : physOf s a = some p) (hl : SMap.get? (s.gr a).lanes lane.val = some l) (ho : (s.gr a).ofLane l = some o)
    (hdone : l.done = none) (ht : tableOf s a (cmprTable o.da) (cmprGen o.da) = some t) (hd : decodeLane a p t o l s = (d, o1, s1)) :
    exec (.blockDecode a lane) s = .next (settleLanes a (s1.setGr a { (s1.gr a).setOp o1 with
      lanes := SMap.put ((s1.gr a).setOp o1).lanes lane.val { l with done := some d } })) := by
  rw [exec_blockDecode, execBlockDecode]
  simp only [hl, hp, ho, hdone, ht, hd]

/-- Settles O41: each command by the branch that its conditions select. -/
theorem streamRowsAndChecks : Obligations.StreamRowsAndChecks := by
  unfold Obligations.StreamRowsAndChecks
  intro a part s o p hp
  refine ⟨fun s1 hgrant ho => ⟨fun hcmpr => ?_, fun w s2 hwrow hw => ?_⟩, fun n w r flt ho hpend hpart hrow => ?_,
    fun k t ho hk ht hrec hcol hright => ?_, fun t ho ht hrec hwhole hrows hlanes => ?_, fun t ho ht => ?_, fun t o1 ho ht ho1 hright => ?_,
    fun b s1 ho hcmpr hroom hmore hb => ?_, fun lane l t d o1 s1 hl ho hdone ht hd => ?_⟩
  · rw [exec_weightRowEntry_of_granted hp hgrant ho, takeRow_of_cmpr s1 hcmpr]
  · rw [exec_weightRowEntry_of_granted hp hgrant ho, takeRow_of_wrow hwrow hw]
  · exact exec_outputRowWrite_of_free flt hp ho hpend hpart hrow
  · exact exec_rowCheck_of_right hp ho hk ht hrec hcol hright
  · exact exec_columnCheck_of_right hp ho ht hrec hwhole hrows hlanes
  · rw [exec_recomputeDone_of_running true hp ho ht rfl, if_pos (.inl rfl)]
  · rw [exec_recomputeDone_of_running false hp ho ht ho1, if_neg (by simp [hright])]
  · exact exec_expanderFetch_of_room ho hcmpr hroom hmore hb
  · exact exec_blockDecode_of_held hp hl ho hdone ht hd

end Sys2Proof.Machine
end

section
/-! PROOFS. Arrays: their replacement and the descriptor engine (O42, R123, R124, R213, R216), and their power states with the power loop
(O37, R124, R410 to R414). -/

namespace Sys2Proof.Machine

/-! ### A failing array and its spare (O42) -/

/-- The fence of a failing array: its threads and items stop, its grid and its transfers are gone (R124). -/
theorem exec_arrayFence_of_failing {s : State} {ph : Fin 100} {a t : Nat} (ha : logicalOf s ph = some a) (hf : SMap.get? s.failing ph = some t)
    (hnot : ph.val ∉ s.fencedArr) : ∃ u, u = fenceItems a (SMap.getD s.faults.arrRoot ph 0) (fenceThreads a s) ∧ exec (.arrayFence ph) s =
      .next { u with grid := SMap.del u.grid a, dma := dropArray 4 a u.dma, fencedArr := setIns u.fencedArr ph } := by
  refine ⟨_, rfl, ?_⟩
  rw [exec_arrayFence, execArrayFence, ha]
  exact if_neg (by simp [hf, hnot])

theorem exec_arrayRemap_of_fenced {s : State} {ph : Fin 100} {a : Nat} (hin : ph.val ∈ s.fencedArr) (ha : logicalOf s ph = some a) :
    exec (.arrayRemap ph) s = .next (match freeSpares s with
      | p :: _ => moveTo ph a p s
      | [] => retireLogical ph a s) := by
  rw [exec_arrayRemap, execArrayRemap, if_neg (by simpa using hin), ha]
  cases freeSpares s <;> rfl

/-- Settles O42: the branch of `execArrayRemap` and `execDmaTransferStart` that the conditions select; the fence drops the grid. -/
theorem remapAndTransferStart : Obligations.RemapAndTransferStart := by
  unfold Obligations.RemapAndTransferStart
  intro s
  refine ⟨fun ph a t ha hf hnot => ?_, fun ph a p r hin ha hsp => ?_, fun ph a hin ha hsp => ?_, fun a q op r s1 hgrant hq => ?_⟩
  · obtain ⟨u, -, hexec⟩ := exec_arrayFence_of_failing ha hf hnot
    exact ⟨_, hexec, mem_setIns_self _ _, SMap.get?_del_self _ _⟩
  · rw [exec_arrayRemap_of_fenced hin ha, hsp]
  · rw [exec_arrayRemap_of_fenced hin ha, hsp]
  · rw [exec_dmaTransferStart, execDmaTransferStart]
    simp only [hgrant, hq]

/-! ### Power states (O37) -/

theorem State.pst_of_put {s u : State} {p : Nat} {x : PState} (h : u.pstate = SMap.put s.pstate p x) : u.pst p = x := by
  rw [State.pst, h, SMap.getD, SMap.get?_put_self, Option.getD_some]

theorem State.pst_of_put_of_ne {s u : State} {p j : Nat} {x : PState} (h : u.pstate = SMap.put s.pstate p x) (hj : j ≠ p) : u.pst j = s.pst j := by
  rw [State.pst, h, SMap.getD, SMap.get?_put_of_ne _ _ hj]
  rfl

/-- An array that has been without work for IDLE_CYC cycles, four quarters each, goes to IDLE (R411, R413). -/
theorem exec_arrayIdleEntry_of_quiet {s : State} {p : Fin 100} (hrun : s.pst p = .run) (hfree : arrBusy s p = false)
    (hon : s.rf 0 Reg.PWR_IDLE_CYC 15 0 ≠ 0) (hlong : 4 * s.rf 0 Reg.PWR_IDLE_CYC 15 0 ≤ (s.now - arrFrom s p) * aclkQuarters s) :
    ∃ w, exec (.arrayIdleEntry p) s = .next { s with pstate := SMap.put s.pstate p .idle, pw := w } := by
  rw [exec_arrayIdleEntry, execArrayIdleEntry]
  dsimp only
  rw [if_neg (by simp [hrun, hfree, hon, hlong])]
  split <;> exact ⟨_, rfl⟩

theorem exec_arrayRetEntry_of_idle {s : State} {p : Fin 100} (hidle : s.pst p = .idle) (hwake : SMap.get? s.waking p = none)
    (hon : s.rf 0 Reg.PWR_RET_TICKS 23 0 ≠ 0) (hlong : arrFrom s p + s.rf 0 Reg.PWR_RET_TICKS 23 0 ≤ s.now) :
    exec (.arrayRetEntry p) s = .next { s with pstate := SMap.put s.pstate p .ret } := by
  rw [exec_arrayRetEntry, execArrayRetEntry]
  exact if_neg (by simp [hidle, hwake, hon, hlong])

/-! ### The power loop (O37) -/

/-- Offsets that stand apart inside BAR0 key different registers. -/
theorem regKey_ne_of_apart (i j : Nat) {off o : Nat} (h : o % 0x4000000 ≠ off % 0x4000000) : regKey j o ≠ regKey i off := by
  simp only [regKey]
  omega

theorem State.rf_setReg_of_apart (s : State) (i j : Nat) {off o : Nat} (v : W32) (hi lo : Nat) (h : o % 0x4000000 ≠ off % 0x4000000) :
    (s.setReg i off v).rf j o hi lo = s.rf j o hi lo := by
  rw [State.rf, State.reg_setReg_of_ne _ _ (regKey_ne_of_apart i j h), State.rf]

/-- Showing LIMITING changes PWR_STATUS alone. -/
theorem showLimiting_rf (s : State) (j : Nat) {o : Nat} (hi lo : Nat) (h : o % 0x4000000 ≠ Reg.PWR_STATUS % 0x4000000) :
    (showLimiting s).rf j o hi lo = s.rf j o hi lo :=
  State.rf_setReg_of_apart s 0 j _ hi lo h

@[simp] theorem showLimiting_pw (s : State) : (showLimiting s).pw = s.pw := rfl

/-- Reaching the floor leaves the power loop as it is: only a flag and an event cause are raised. -/
@[simp] theorem floorHit_pw (s : State) : (floorHit s).pw = s.pw := by
  unfold floorHit
  dsimp only
  split
  · obtain ⟨_, _, _, _, h⟩ := journalApart_raiseEvt .power (s.setRf 0 Reg.PWR_STATUS 1 1 1)
    rw [h]
    rfl
  · rfl

/-- A period ends with the mean power in PWR_POWER, as far as the field holds it (R413). -/
theorem countPower_power (watts : Nat) (s : State) : (countPower watts s).rf 0 Reg.PWR_POWER 11 0 = min watts 4095 := by
  have hkept (u : State) (k : Nat) : (u.count64 0 Reg.PWR_ENERGY_LO k).rf 0 Reg.PWR_POWER 11 0 = u.rf 0 Reg.PWR_POWER 11 0 := by
    rw [State.count64, State.setReg64, State.rf_setReg_of_apart _ _ _ _ _ _ (by decide), State.rf_setReg_of_apart _ _ _ _ _ _ (by decide)]
  refine (hkept _ _).trans ((State.rf_setReg_of_apart _ _ _ _ _ _ (by decide)).trans ?_)
  rw [State.rf_setRf_self _ _ _ _ (by decide) (by decide)]
  exact Nat.mod_eq_of_lt (by omega)

/-- The end of a control period: the code that R413 chooses from the state before it, the next period, and the counters. -/
theorem exec_powerControlPeriod_of_due {s : State} (watts : Nat) (hup : s.up.peat = true) (hdue : s.pw.pwrFrom + 2500 ≤ s.now) :
    ∃ u, exec (.powerControlPeriod watts) s = .next (showLimiting { countPower watts u with pw := { (countPower watts u).pw with
        pwrC := chooseCode s.pw.pwrC watts (s.rf 0 Reg.PWR_LIMIT 11 0) (s.rf 0 Reg.PWR_HEADROOM 8 0) (s.rf 0 Reg.PWR_ACLK_MAX 4 0)
        pwrFrom := (countPower watts u).pw.pwrFrom + 2500 } }) ∧ u.pw = s.pw := by
  refine ⟨if watts > s.rf 0 Reg.PWR_LIMIT 11 0 ∧ s.pw.pwrC = 0 then floorHit s else s, ?_, ?_⟩
  · rw [exec_powerControlPeriod, execPowerControlPeriod, if_neg (by simp [hup, hdue])]
  · split
    · exact floorHit_pw s
    · rfl

/-- Settles O37: each command by the branch that its conditions select, the control period by `chooseCode`. -/
theorem arrayPowerStatesAndPowerLoop : Obligations.ArrayPowerStatesAndPowerLoop := by
  unfold Obligations.ArrayPowerStatesAndPowerLoop
  intro s
  refine ⟨fun p hrun hfree hon hlong => ?_, fun p hidle hwake hon hlong => ?_, fun p hwake => ?_, fun p hspare hwake hcarries => ?_,
    fun watts c limit hup hdue hc hlimit => ?_, fun hup hc => ?_⟩
  · obtain ⟨w, hexec⟩ := exec_arrayIdleEntry_of_quiet hrun hfree hon hlong
    exact ⟨_, hexec, State.pst_of_put rfl, fun j hj => State.pst_of_put_of_ne rfl hj, rfl, rfl⟩
  · exact ⟨_, exec_arrayRetEntry_of_idle hidle hwake hon hlong, State.pst_of_put rfl, fun j hj => State.pst_of_put_of_ne rfl hj, rfl, rfl⟩
  · rw [exec_arrayWakeDone, execArrayWakeDone, if_pos hwake]
  · rw [exec_spareInRun, execSpareInRun]
    simp [hspare, hwake, hcarries]
  · subst hc hlimit
    obtain ⟨u, hexec, hpw⟩ := exec_powerControlPeriod_of_due watts hup hdue
    refine ⟨_, hexec, ?_, rfl, ?_⟩
    · rw [← hpw]
      rfl
    · rw [showLimiting_rf _ _ _ _ (by decide)]
      exact countPower_power watts u
  · have hexec : exec .aclkChange s = .next (s.setRf 0 Reg.PWR_ACLK 4 0 s.pw.pwrC) := if_pos hup
    refine ⟨_, hexec, ?_, rfl⟩
    rw [State.rf_setRf_self _ _ _ _ (by decide) (by decide)]
    exact Nat.mod_eq_of_lt hc

end Sys2Proof.Machine
end

section
/-! PROOFS. Command and enable rows (O29): what a write of one register stores and journals, and the rules of the arrays, the expander, the MMU, the
checkpoint engine, the Intake and Causeway ports and the mesh windows (R33, R97, R122, R142, R277, R284, R285, R349, R353, R354). -/

namespace Sys2Proof.Machine
/-! ### A field of one bit -/

/-- Setting one bit of a field. -/
theorem fld_setFld_bit (w : W32) {hi lo k : Nat} (hlo : lo ≤ k) (hhi : k ≤ hi) (h32 : hi < 32) :
    fld (setFld w k k 1) hi lo = fld w hi lo ||| 2 ^ (k - lo) := by
  refine Nat.eq_of_testBit_eq fun j => ?_
  simp only [testBit_fld, setFld, BitVec.toNat_ofNat, Nat.testBit_mod_two_pow, testBit_putBits _ _ (le_refl k), Nat.testBit_or, Nat.testBit_two_pow]
  by_cases hj : lo + j = k
  · subst hj
    simp [show j < hi + 1 - lo by omega, show lo + j < 32 by omega]
  · simp only [show ¬ (k ≤ lo + j ∧ lo + j ≤ k) by omega, show ¬ (k - lo = j) by omega, if_false, decide_false, Bool.or_false]
    by_cases hj' : j < hi + 1 - lo
    · simp [show lo + j < 32 by omega]
    · simp [hj']

theorem fld_or (v w : W32) (hi lo : Nat) : fld (v ||| w) hi lo = fld v hi lo ||| fld w hi lo := by
  refine Nat.eq_of_testBit_eq fun j => ?_
  simp only [testBit_fld, Nat.testBit_or, BitVec.toNat_or, Bool.and_or_distrib_left]

theorem fld_bit_or_one (v : W32) (k : Nat) : fld v k k ||| 1 = 1 := by
  have hlt := fld_lt v k k
  rw [Nat.add_sub_cancel_left] at hlt
  interval_cases fld v k k <;> rfl

/-! ### What journaling leaves of the registers (R481) -/

/-- Registers apart from the two that journaling may touch: HST_EVT_CAUSE and JRN_STATUS. -/
abbrev JournalKeeps (o : Nat) : Prop := o % 0x4000000 ≠ Reg.HST_EVT_CAUSE % 0x4000000 ∧ o % 0x4000000 ≠ Reg.JRN_STATUS % 0x4000000

@[simp] theorem sendMsix_reg (n : Nat) (s : State) (j o : Nat) : (sendMsix n s).reg j o = s.reg j o := by
  unfold sendMsix
  split <;> rfl

section
variable {o : Nat} (h : JournalKeeps o)
include h

theorem raiseEvt_reg (e : Evt) (s : State) (j : Nat) : (raiseEvt e s).reg j o = s.reg j o := by
  have hset (x : Nat) : (s.setRf 0 Reg.HST_EVT_CAUSE e.bit e.bit x).reg j o = s.reg j o :=
    State.reg_setReg_of_ne _ _ (regKey_ne_of_apart _ _ h.1)
  unfold raiseEvt
  dsimp only
  split
  · rw [sendMsix_reg, hset]
  · exact hset 1

theorem jrnLose_reg (s : State) (j : Nat) : (jrnLose s).reg j o = s.reg j o := by
  have hset (u : State) (x : Nat) : (u.setRf 0 Reg.JRN_STATUS 0 0 x).reg j o = u.reg j o :=
    State.reg_setReg_of_ne _ _ (regKey_ne_of_apart _ _ h.2)
  unfold jrnLose
  dsimp only
  split
  · rw [raiseEvt_reg h, hset]
    rfl
  · exact hset _ 1

theorem jrnAppend_reg (e : JEntry) (s : State) (j : Nat) : (jrnAppend e s).reg j o = s.reg j o := by
  unfold jrnAppend
  dsimp only
  split
  · rw [jrnLose_reg h]
    rfl
  · rfl

theorem journalWrite_reg (a : RegAcc) (r : RegDef) (i : Nat) (old new : W32) (wo : Nat) (s : State) (j : Nat) :
    (journalWrite a r i old new wo s).reg j o = s.reg j o := by
  unfold journalWrite journal
  dsimp only
  split <;> split <;> simp only [jrnAppend_reg h]

/-- A register write leaves the other registers, those of the journal aside. -/
theorem stored_reg {off : Nat} (hoff : o % 0x4000000 ≠ off % 0x4000000) (p : Port) (val : W32) (rid : Nat) (r : RegDef) (i m : Nat) (n : W32)
    (s : State) (j : Nat) : (stored ⟨p, off, val, rid⟩ r i m n s).reg j o = s.reg j o := by
  rw [stored, journalWrite_reg h, State.reg_setReg_of_ne _ _ (regKey_ne_of_apart _ _ hoff)]

theorem stored_rf {off : Nat} (hoff : o % 0x4000000 ≠ off % 0x4000000) (p : Port) (val : W32) (rid : Nat) (r : RegDef) (i m : Nat) (n : W32)
    (s : State) (j hi lo : Nat) : (stored ⟨p, off, val, rid⟩ r i m n s).rf j o hi lo = s.rf j o hi lo :=
  congrArg (fld · hi lo) (stored_reg h hoff p val rid r i m n s j)

end

/-! ### What a register write leaves of the units -/

section
variable (a : RegAcc) (r : RegDef) (i m : Nat) (n : W32) (s : State)

theorem stored_inval : (stored a r i m n s).inval = s.inval := by
  obtain ⟨_, _, _, _, hst⟩ := journalApart_stored a r i m n s
  rw [hst]

theorem stored_ckp : (stored a r i m n s).ckp = s.ckp := by
  obtain ⟨_, _, _, _, hst⟩ := journalApart_stored a r i m n s
  rw [hst]

theorem stored_tabs : (stored a r i m n s).tabs = s.tabs := by
  obtain ⟨_, _, _, _, hst⟩ := journalApart_stored a r i m n s
  rw [hst]

theorem logicalOf_stored (phys : Nat) : logicalOf (stored a r i m n s) phys = logicalOf s phys := by
  obtain ⟨_, _, _, _, hst⟩ := journalApart_stored a r i m n s
  rw [hst]
  rfl

end

/-! ### A write of one register reaches its rule (R7, R520) -/

/-- The row of a whole register with its rule: no half of a pair, no HST_MLOCK and no frame class, and every write of it is journaled. -/
structure RowOf (off : Nat) (w : WriteRule) : Prop where
  rule : ruleAt off = w
  single : (regDef? off).map RegDef.pair = some .single
  notMlock : off ≠ Reg.HST_MLOCK
  notFclass : off ≠ Reg.MEM_FCLASS_DATA
  journaled : w.silent = false
  woEntry : ∀ i v s, w.woEntry i v s = true

section
variable {p : Port} {off i m : Nat} {val : W32} {rid : W16} {r : RegDef} {s : State} {w : WriteRule} {n : W32} (hrow : RowOf off w)
  (h : Reaches ⟨p, off, val, rid.toNat⟩ r i m s)
  (hg : w.guard i (s.reg i off) (newWord ⟨p, off, val, rid.toNat⟩ r i m s) s = (n, s))
include hrow h hg

/-- A write that its rule's guard lets through stores the guard's word, journals it and has the rule's effect. -/
theorem writeReg_of_reaches : writeReg w ⟨p, off, val, rid.toNat⟩ s =
    w.effect i (s.reg i off) n (val &&& BitVec.ofNat 32 m) (stored ⟨p, off, val, rid.toNat⟩ r i m n s) := by
  obtain ⟨hadm, -⟩ := h
  unfold newWord at hg
  simp only [writeReg, hadm, hg, mlockEvent, hrow.notMlock, false_and, if_false, hrow.journaled, hrow.woEntry, if_true, Bool.false_eq_true]
  rfl

/-- The same through the register bus. -/
theorem rowWrite_of_reaches : rowWrite p off val rid s =
    w.effect i (s.reg i off) n (val &&& BitVec.ofNat 32 m) (stored ⟨p, off, val, rid.toNat⟩ r i m n s) := by
  obtain ⟨hadm, hclk, hidle, -⟩ := id h
  have hdef : regDef? off = some r := regDef?_of_admitWrite hadm
  have hsingle : r.pair = .single := by simpa [hdef] using hrow.single
  have htb : off ≠ Reg.CLK_TB_SET_HI := fun ho => by simpa [hsingle] using pair_of_regDef? hdef ho rfl
  rw [rowWrite, busWrite_eq_writeAny hidle, writeAny_eq_writeNow hclk, ← writeReg_of_reaches hrow h hg]
  simp only [writeNow, if_neg htb, if_neg hrow.notFclass, hdef, hsingle, hrow.rule]

/-- The same in the turn of its port. -/
theorem portWrite_of_reaches : portWrite w ⟨p, off, val, rid.toNat⟩ s =
    w.effect i (s.reg i off) n (val &&& BitVec.ofNat 32 m) (stored ⟨p, off, val, rid.toNat⟩ r i m n s) := by
  obtain ⟨-, -, hidle, -⟩ := id h
  rw [portWrite, portTurn_of_idle _ hidle, writeReg_of_reaches hrow h hg]

end

/-- A write that reaches all bits hands its whole word to the rule's effect. -/
theorem and_ofNat_full (v : W32) : v &&& BitVec.ofNat 32 (2 ^ 32 - 1) = v := BitVec.and_allOnes

/-! ### The rules of single rows -/

theorem rowOf_arrInject : RowOf Reg.ARR_INJECT injectRule := ⟨rfl, rfl, by decide, by decide, rfl, fun _ _ _ => rfl⟩
theorem rowOf_expCtrl : RowOf Reg.EXP_CTRL expCtrlRule := ⟨rfl, rfl, by decide, by decide, rfl, fun _ _ _ => rfl⟩
theorem rowOf_mmuInvCtrl : RowOf Reg.MMU_INV_CTRL invRule := ⟨rfl, rfl, by decide, by decide, rfl, fun _ _ _ => rfl⟩
theorem rowOf_ckpCtrl : RowOf Reg.CKP_CTRL ckpRule := ⟨rfl, rfl, by decide, by decide, rfl, fun _ _ _ => rfl⟩
theorem rowOf_itkPctrl : RowOf Reg.ITK_PCTRL itkCtrlRule := ⟨rfl, rfl, by decide, by decide, rfl, fun _ _ _ => rfl⟩
theorem rowOf_itkRdPtr : RowOf Reg.ITK_RD_PTR itkRdMedRule := ⟨rfl, rfl, by decide, by decide, rfl, fun _ _ _ => rfl⟩
theorem rowOf_cwyPctrl : RowOf Reg.CWY_PCTRL portCtrlRule := ⟨rfl, rfl, by decide, by decide, rfl, fun _ _ _ => rfl⟩
theorem rowOf_cwyWinEn : RowOf Reg.CWY_WIN_EN windowEnRule := ⟨rfl, rfl, by decide, by decide, rfl, fun _ _ _ => rfl⟩

/-- An injection is armed on the logical array that a physical one carries; it replaces one that waits (R122). -/
theorem armInject_inj {phys l : Nat} {v : W32} {s : State} (hl : logicalOf s phys = some l) (hv : fld v 1 0 ≠ 0) :
    ((armInject phys v s).gr l).inj = some (fld v 7 4, fld v 1 0) := by
  simp only [armInject, hl, if_neg hv, State.gr_setGr_self]

/-- GO with no invalidation running starts that of the range selected, of all for size 0 (R33). -/
theorem invGo_of_idle {v : W32} {s : State} (hgo : fld v 0 0 = 1) (h : s.inval = none) :
    invGo v s = { s with inval := some (if (s.reg 0 Reg.MMU_INV_SIZE).toNat = 0 then (0, 2 ^ 48)
      else (s.reg64 0 Reg.MMU_INV_VA_LO % 2 ^ 48, (s.reg 0 Reg.MMU_INV_SIZE).toNat * 65536)) }.setRf 0 Reg.MMU_INV_STATUS 0 0 1 := by
  rw [invGo, if_neg (by omega), h]
  rfl

/-- GO while an invalidation runs is rejected (R33). -/
theorem invGo_of_running {v : W32} {s : State} (hgo : fld v 0 0 = 1) (h : s.inval ≠ none) : invGo v s = s.setRf 0 Reg.MMU_INV_STATUS 2 2 1 := by
  rw [invGo, if_neg (by omega), if_pos (Option.isSome_iff_ne_none.2 h)]

/-- ARM alone, with no list running or armed, arms the list that the registers name (R97). -/
theorem ckpCtrl_of_arm {v : W32} {s : State} (harm : fld v 0 0 = 1) (hstart : fld v 1 1 = 0) (hbusy : s.rf 0 Reg.CKP_STATUS 8 8 = 0)
    (harmed : s.rf 0 Reg.CKP_STATUS 9 9 = 0) :
    ckpCtrl v s = { s with ckpArmed := some (ckpList s) }.setRf 0 Reg.CKP_STATUS 9 9 1 := by
  simp [ckpCtrl, harm, hstart, hbusy, harmed]

/-- START alone, with no list running or armed and the dispatcher at rest, begins the list that the registers name (R97). -/
theorem ckpCtrl_of_start {v : W32} {s : State} (harm : fld v 0 0 = 0) (hstart : fld v 1 1 = 1) (hbusy : s.rf 0 Reg.CKP_STATUS 8 8 = 0)
    (harmed : s.rf 0 Reg.CKP_STATUS 9 9 = 0) (hrest : s.rf 0 Reg.DSP_STATUS 1 1 = 0) : ckpCtrl v s = ckpBegin (ckpList s).1 (ckpList s).2 s := by
  simp [ckpCtrl, harm, hstart, hbusy, harmed, hrest]

/-- The write of CKP_CTRL leaves the list that the CKP registers name. -/
theorem ckpList_stored (p : Port) (val : W32) (rid : Nat) (r : RegDef) (i m : Nat) (n : W32) (s : State) :
    ckpList (stored ⟨p, Reg.CKP_CTRL, val, rid⟩ r i m n s) = ckpList s := by
  rw [ckpList, State.reg64, State.rf, stored_reg (by decide) (by decide), stored_reg (by decide) (by decide), stored_reg (by decide) (by decide)]
  rfl

/-- CTRL of a disabled Intake port takes any word when the port may be enabled and has its PHY (R284). -/
theorem itkCtrlGuard_of_enable {i : Nat} {old : W32} (n : W32) {s : State} (hold : fld old 0 0 = 0) (hok : enableOk i s = true)
    (hphy : s.up.itkGone.contains i = false) : itkCtrlGuard i old n s = (n, s) := by
  rw [itkCtrlGuard, if_neg (by omega), if_neg]
  rw [hok, hphy]
  simp

/-- CTRL of an enabled Intake port takes a word that keeps PRIO (R284). -/
theorem itkCtrlGuard_of_prio {i : Nat} {old n : W32} (s : State) (hold : fld old 0 0 = 1) (hprio : fld n 6 4 = fld old 6 4) :
    itkCtrlGuard i old n s = (n, s) := by
  rw [itkCtrlGuard, if_pos hold, if_pos hprio]

theorem itkCtrlEffect_of_enable {i : Nat} {old n : W32} (s : State) (hold : fld old 0 0 = 0) (hn : fld n 0 0 = 1) :
    itkCtrlEffect i old n s = resumeFlow i s :=
  if_pos ⟨hold, hn⟩

theorem itkCtrlEffect_of_disable {i : Nat} {old n : W32} (s : State) (hold : fld old 0 0 = 1) (hn : fld n 0 0 = 0) : itkCtrlEffect i old n s =
    cutPort i true (if s.rf i Reg.ITK_PSTATUS 0 0 = 1 then sendXoff i s else s.setRf i Reg.ITK_PSTATUS 1 1 1) := by
  rw [itkCtrlEffect, if_neg (by omega), if_pos ⟨hold, hn⟩]

/-- RD_PTR of a stream that feeds no context takes an aligned value inside its ring (R277). -/
theorem itkRdGuard_of_inside {i : Nat} (old : W32) {n : W32} {s : State} (hfree : boundTo s 1024 (i / 256 + 1) (i % 256) = false)
    (hal : n.toNat % 64 = 0) (hin : n.toNat < ringBytes s (i / 256) (i % 256)) : itkRdMedRule.guard i old n s = (n, s) := by
  simp [itkRdMedRule, itkRdRule, hfree, hal, hin]

/-- CTRL of a Causeway port takes any word that enables no port without good credits (R353). -/
theorem portCtrlGuard_of_ok {i : Nat} {old : W32} (n : W32) {s : State} (h : fld old 0 0 = 1 ∨ credsOk s i = true) :
    portCtrlRule.guard i old n s = (n, s) :=
  if_neg (by rcases h with h | h <;> simp [h])

/-- EN of a Causeway port that is OFF goes to 1: the port trains (R353). -/
theorem portCtrlEffect_of_enable {i : Nat} {old n : W32} (v : W32) {s : State} (hold : fld old 0 0 = 0) (hn : fld n 0 0 = 1)
    (hoff : portState s i = 0) : portCtrlRule.effect i old n v s = trainPort i s := by
  simp [portCtrlRule, portEnEffect, hold, hn, hoff]

/-- EN of a Causeway port that is up goes to 0: the port has 500 ticks to go OFF and takes no new messages (R354). -/
theorem portCtrlEffect_of_disable {i : Nat} {old n : W32} (v : W32) {s : State} (hold : fld old 0 0 = 1) (hn : fld n 0 0 = 0)
    (hup : portUp s i = true) :
    portCtrlRule.effect i old n v s = settleOutbox (modPort i (fun x => { x with offAt := some (s.now + 500) }) s) := by
  simp [portCtrlRule, portEnEffect, hold, hn, hup]

/-- EN of a mesh window stands, or is set for a window that has a size and a place (R349). -/
theorem windowEnGuard_of_ok {i : Nat} {old : W32} (n : W32) {s : State} (h : fld old 0 0 = 1 ∨ windowOk s i = true) :
    windowEnRule.guard i old n s = (n, s) :=
  if_neg (by rcases h with h | h <;> simp [h])

/-! ### The rows (O29) -/

section
variable {p : Port} {val : W32} {rid : W16} {r : RegDef} {i : Nat} {s : State} {a : RegAcc}

/-- A write of ARR_INJECT with ELEM or CKCOL set arms the injection of both (R122). -/
theorem rowWrite_arrInject_inj {k l : Nat} (hk : k < 2) (h : Reaches ⟨p, Reg.ARR_INJECT, setFld val k k 1, rid.toNat⟩ r i (2 ^ 32 - 1) s)
    (hl : logicalOf s i = some l) :
    ((rowWrite p Reg.ARR_INJECT (setFld val k k 1) rid s).gr l).inj = some (fld val 7 4, fld val 1 0 ||| 2 ^ k) := by
  have hbit : fld (setFld val k k 1) 1 0 = fld val 1 0 ||| 2 ^ k := fld_setFld_bit val (by omega) (by omega) (by omega)
  have hpart : fld (setFld val k k 1) 7 4 = fld val 7 4 := fld_setFld_of_apart val 1 (le_refl k) (by omega) (by omega)
  have hset : fld (setFld val k k 1) 1 0 ≠ 0 := by simp [hbit]
  rw [rowWrite_of_reaches rowOf_arrInject h rfl, and_ofNat_full, ← hbit, ← hpart]
  exact armInject_inj ((logicalOf_stored ..).trans hl) hset

/-- A write of EXP_CTRL.FLUSH keeps the pinned tables alone (R142). -/
theorem rowWrite_expCtrl_tabs (h : Reaches ⟨p, Reg.EXP_CTRL, setFld val 0 0 1, rid.toNat⟩ r i (2 ^ 32 - 1) s) :
    (rowWrite p Reg.EXP_CTRL (setFld val 0 0 1) rid s).tabs = s.tabs.filter (fun e => e.2.pins ≠ []) := by
  rw [rowWrite_of_reaches rowOf_expCtrl h rfl, and_ofNat_full]
  have hflush : fld (setFld val 0 0 1) 0 0 = 1 := fld_setFld_self val 1 (le_refl 0) (by decide)
  simp only [expCtrlRule, if_pos hflush, flushTables, stored_tabs]

/-- A write of MMU_INV_CTRL runs GO on the state that the write leaves (R33). -/
theorem exec_mmuInvGo_of_reaches (ha : a = ⟨p, Reg.MMU_INV_CTRL, val, rid.toNat⟩) (h : Reaches a r i (2 ^ 32 - 1) s) :
    exec (.mmuInvGo p val rid) s = .next (invGo val (stored a r i (2 ^ 32 - 1) (newWord a r i (2 ^ 32 - 1) s) s)) := by
  subst ha
  rw [exec_mmuInvGo, execMmuInvGo, portWrite_of_reaches rowOf_mmuInvCtrl h rfl, and_ofNat_full]
  rfl

/-- A write of CKP_CTRL.ARM alone, with no list running or armed, arms the list that the registers name (R97). -/
theorem exec_ckpArm_of_reaches (ha : a = ⟨p, Reg.CKP_CTRL, val ||| 1, rid.toNat⟩) (h : Reaches a r i (2 ^ 32 - 1) s) (hstart : fld val 1 1 = 0)
    (hbusy : s.rf 0 Reg.CKP_STATUS 8 8 = 0) (harmed : s.rf 0 Reg.CKP_STATUS 9 9 = 0) : exec (.ckpArm p val rid) s =
      .next ({ stored a r i (2 ^ 32 - 1) (newWord a r i (2 ^ 32 - 1) s) s with ckpArmed := some (ckpList s) }.setRf 0 Reg.CKP_STATUS 9 9 1) := by
  subst ha
  have harm : fld (val ||| 1) 0 0 = 1 := (fld_or ..).trans (fld_bit_or_one val 0)
  have hnot : fld (val ||| 1) 1 1 = 0 := by rw [fld_or, hstart]; rfl
  rw [exec_ckpArm, execCkpArm, portWrite_of_reaches rowOf_ckpCtrl h rfl, and_ofNat_full]
  refine congrArg _ ((ckpCtrl_of_arm harm hnot ?_ ?_).trans ?_)
  · rwa [stored_rf (by decide) (by decide)]
  · rwa [stored_rf (by decide) (by decide)]
  · rw [ckpList_stored]

/-- A write of CKP_CTRL.START alone, with no list running or armed and the dispatcher at rest, begins the list that the registers name (R97). -/
theorem exec_ckpStart_of_reaches (ha : a = ⟨p, Reg.CKP_CTRL, val ||| 2, rid.toNat⟩) (h : Reaches a r i (2 ^ 32 - 1) s) (harm : fld val 0 0 = 0)
    (hbusy : s.rf 0 Reg.CKP_STATUS 8 8 = 0) (harmed : s.rf 0 Reg.CKP_STATUS 9 9 = 0) (hrest : s.rf 0 Reg.DSP_STATUS 1 1 = 0) :
    exec (.ckpStart p val rid) s =
      .next (ckpBegin (ckpList s).1 (ckpList s).2 (stored a r i (2 ^ 32 - 1) (newWord a r i (2 ^ 32 - 1) s) s)) := by
  subst ha
  have hnot : fld (val ||| 2) 0 0 = 0 := by rw [fld_or, harm]; rfl
  have hstart : fld (val ||| 2) 1 1 = 1 := (fld_or ..).trans (fld_bit_or_one val 1)
  rw [exec_ckpStart, execCkpStart, portWrite_of_reaches rowOf_ckpCtrl h rfl, and_ofNat_full]
  refine congrArg _ ((ckpCtrl_of_start hnot hstart ?_ ?_ ?_).trans ?_)
  · rwa [stored_rf (by decide) (by decide)]
  · rwa [stored_rf (by decide) (by decide)]
  · rwa [stored_rf (by decide) (by decide)]
  · rw [ckpList_stored]

end

/-- Settles O29: each write reaches its row's rule, whose guard lets the word through, and leaves `stored` under the rule's effect. -/
theorem commandAndEnableRows : Obligations.CommandAndEnableRows := by
  unfold Obligations.CommandAndEnableRows
  constructor
  · rintro p val rid s r i m a rfl hreach
    refine ⟨?_, ?_, ?_, ?_, ?_, ?_, ?_⟩
    · rintro rfl l hl
      exact ⟨_, exec_injectElem s p val rid, rowWrite_arrInject_inj (by decide) hreach hl⟩
    · rintro rfl l hl
      exact ⟨_, exec_injectCkcol s p val rid, rowWrite_arrInject_inj (by decide) hreach hl⟩
    · rintro rfl
      exact ⟨_, exec_expFlush s p val rid, rowWrite_expCtrl_tabs hreach⟩
    · rintro rfl hgo hidle
      refine ⟨_, exec_mmuInvGo_of_reaches rfl hreach, ?_⟩
      rw [invGo_of_idle hgo ((stored_inval ..).trans hidle)]
      refine ⟨State.rf_setRf_self _ _ _ _ (by decide) (by decide), ?_⟩
      rw [State.setRf_inval, State.reg64, stored_reg (by decide) (by decide), stored_reg (by decide) (by decide), stored_reg (by decide) (by decide)]
      rfl
    · rintro rfl hgo hruns
      refine ⟨_, exec_mmuInvGo_of_reaches rfl hreach, ?_⟩
      rw [invGo_of_running hgo (by rwa [stored_inval])]
      exact ⟨State.rf_setRf_self _ _ _ _ (by decide) (by decide), stored_inval ..⟩
    · rintro rfl hstart hbusy harmed
      exact ⟨_, exec_ckpArm_of_reaches rfl hreach hstart hbusy harmed, State.rf_setRf_self _ _ _ _ (by decide) (by decide), stored_ckp .., rfl⟩
    · rintro rfl harm hbusy harmed hrest
      exact exec_ckpStart_of_reaches rfl hreach harm hbusy harmed hrest
  · rintro p val rid s r i m a n hreach rfl
    refine ⟨?_, ?_, ?_, ?_, ?_, ?_⟩
    · rintro rfl hold hn hok hphy
      rw [exec_intakeEnable, execIntakeEnable, rowWrite_of_reaches rowOf_itkPctrl hreach (itkCtrlGuard_of_enable _ hold hok hphy)]
      exact congrArg _ (itkCtrlEffect_of_enable _ hold hn)
    · rintro rfl hold hn hprio
      rw [exec_intakeDisable, execIntakeDisable, rowWrite_of_reaches rowOf_itkPctrl hreach (itkCtrlGuard_of_prio _ hold hprio)]
      exact congrArg _ (itkCtrlEffect_of_disable _ hold hn)
    · rintro rfl hfree hal hin
      rw [exec_itkRdPtrWrite, execItkRdPtrWrite, rowWrite_of_reaches rowOf_itkRdPtr hreach (itkRdGuard_of_inside _ hfree hal hin)]
      rfl
    · rintro rfl hold hn hcreds hoff
      rw [exec_portEnable, execPortEnable, rowWrite_of_reaches rowOf_cwyPctrl hreach (portCtrlGuard_of_ok _ (.inr hcreds))]
      exact congrArg _ (portCtrlEffect_of_enable _ hold hn hoff)
    · rintro rfl hold hn hup
      rw [exec_portDisable, execPortDisable, rowWrite_of_reaches rowOf_cwyPctrl hreach (portCtrlGuard_of_ok _ (.inl hold))]
      exact congrArg _ (portCtrlEffect_of_disable _ hold hn hup)
    · rintro rfl hok
      rw [exec_windowEnable, execWindowEnable, rowWrite_of_reaches rowOf_cwyWinEn hreach (windowEnGuard_of_ok _ hok)]
      rfl

end Sys2Proof.Machine
end

section
/-! PROOFS. Intake commands (O43): the checks of a received frame (R272, R279 to R281), the repeated XOFF (R280), what reassembly takes from the head of
Sluice (R275 to R278), and the link (R283, R285). -/

namespace Sys2Proof.Machine

/-! ### The checks of a received frame (R272) -/

/-- A frame that fails the first check of R272: its length is not one of Ethernet, or its FCS is wrong. -/
def BadFrame (f : List Byte) : Prop := f.length < 64 ∨ 9216 < f.length ∨ fcsOk f = false

theorem badFrame_iff (f : List Byte) : BadFrame f ↔ f.length < 64 ∨ 9216 < f.length ∨ (!fcsOk f) = true := by
  rw [BadFrame, Bool.not_eq_true']

theorem not_badFrame {f : List Byte} (hmin : 64 ≤ f.length) (hmax : f.length ≤ 9216) (hfcs : fcsOk f = true) : ¬ BadFrame f := by
  rintro (hshort | hlong | hwrong)
  · omega
  · omega
  · exact absurd hfcs (by simp [hwrong])

theorem itkEn_of_clear {s : State} {p : Nat} (h : s.rf p Reg.ITK_PCTRL 0 0 = 0) : itkEn s p = false := by simp [itkEn, h]

theorem itkEn_of_set {s : State} {p : Nat} (h : s.rf p Reg.ITK_PCTRL 0 0 = 1) : itkEn s p = true := by simp [itkEn, h]

section
variable {port : Fin 2} {f : List Byte} {s : State} (hup : s.rf port Reg.ITK_PSTATUS 0 0 = 1)
include hup

theorem exec_intakeFrameReceive_of_badFrame (hbad : BadFrame f) :
    exec (.intakeFrameReceive port f) s = .next (s.count port Reg.ITK_DROP_FCS 1) := by
  rw [exec_intakeFrameReceive, execIntakeFrameReceive, if_neg (by omega), if_pos ((badFrame_iff f).1 hbad), dropFrame]

variable (hf : ¬ BadFrame f)
include hf

theorem exec_intakeFrameReceive_of_pause (hpause : isPause f = true) : exec (.intakeFrameReceive port f) s = .next s := by
  rw [exec_intakeFrameReceive, execIntakeFrameReceive, if_neg (by omega), if_neg (mt (badFrame_iff f).2 hf), if_pos hpause]

variable (hdata : isPause f = false)
include hdata

theorem exec_intakeFrameReceive_of_filtered (hfilter : filterOk port f s = false) :
    exec (.intakeFrameReceive port f) s = .next (s.count port Reg.ITK_DROP_FILTER 1) := by
  rw [exec_intakeFrameReceive, execIntakeFrameReceive, if_neg (by omega), if_neg (mt (badFrame_iff f).2 hf), hdata, hfilter]
  rfl

variable (hfilter : filterOk port f s = true)
include hfilter

theorem exec_intakeFrameReceive_of_disabled (hen : s.rf port Reg.ITK_PCTRL 0 0 = 0) :
    exec (.intakeFrameReceive port f) s = .next (s.count port Reg.ITK_DROP_PRE_EN 1) := by
  rw [exec_intakeFrameReceive, execIntakeFrameReceive, if_neg (by omega), if_neg (mt (badFrame_iff f).2 hf), hdata, hfilter, itkEn_of_clear hen]
  rfl

/-- A frame that passes every check is lost where Sluice has no room for it, and taken where it has (R279, R281). -/
theorem exec_intakeFrameReceive_of_accepted (hen : s.rf port Reg.ITK_PCTRL 0 0 = 1) : exec (.intakeFrameReceive port f) s =
    .next (if sluiceBytes < itkFill s port + f.length + 8 then overflowFrame port f s else storeFrame port f s) := by
  rw [exec_intakeFrameReceive, execIntakeFrameReceive, if_neg (by omega), if_neg (mt (badFrame_iff f).2 hf), hdata, hfilter, itkEn_of_set hen]
  exact (apply_ite Host.Outcome.next ..).symm

end

/-! ### XOFF is repeated (R280, R283) -/

theorem exec_xoffRepeat_of_due {port : Fin 2} {s : State} (hxoff : s.rf port Reg.ITK_PSTATUS 1 0 = 3) (hdue : (s.iport port).xoffAt + 1000 ≤ s.now) :
    exec (.xoffRepeat port) s = .next (sendXoff port s) :=
  if_pos ⟨hxoff, hdue⟩

theorem sendXoff_out (p : Nat) (s : State) : (sendXoff p s).out = .pfc p (s.rf p Reg.ITK_PCTRL 6 4) 0xFFFF :: s.out := rfl

/-! ### Reassembly at the head of Sluice (R275 to R278) -/

/-- A unit of the MCLK domain goes on at once while MCLK runs (R22). -/
theorem needClock_of_mclk_on {s : State} (rid : Nat) (k : State → State) (hon : s.mclk.on = true) : needClock .mclk rid k s = k s :=
  if_pos hon

section
variable {port : Fin 2} {s : State} (hon : s.mclk.on = true) {r : List SFrame}
include hon

theorem exec_sluiceDrain_of_lost {n : Nat} (hhead : (s.iport port).frames = .lost n :: r) : exec (.sluiceDrain port) s =
    .next (settle port (endSample port n flagShort (s.setIport port { s.iport port with frames := r }))) := by
  rw [exec_sluiceDrain, execSluiceDrain, needClock_of_mclk_on _ _ hon]
  simp only [hhead]

theorem exec_sluiceDrain_of_cut {dis : Bool} (hhead : (s.iport port).frames = .cut dis :: r) :
    exec (.sluiceDrain port) s = .next (settle port s) := by
  rw [exec_sluiceDrain, execSluiceDrain, needClock_of_mclk_on _ _ hon]
  simp only [hhead]

theorem exec_sluiceDrain_of_seg {h : List Byte} {o : Nat} {tick : W64} (hhead : (s.iport port).frames = .seg h o tick :: r)
    (hroom : ringBytes s port (segStream h) = 0 ∨ ringRoom s port (segStream h) h = true) : exec (.sluiceDrain port) s =
      .next (settle port (flowControl port (itkFill s port) (takeSeg port h tick (s.setIport port { s.iport port with frames := r })))) := by
  have hnot : ¬ (ringBytes s port (segStream h) ≠ 0 ∧ (!ringRoom s port (segStream h) h) = true) := by
    rintro ⟨hring, hfull⟩
    rcases hroom with h0 | hroom
    · exact hring h0
    · simp [hroom] at hfull
  rw [exec_sluiceDrain, execSluiceDrain, needClock_of_mclk_on _ _ hon]
  simp only [hhead, if_neg hnot]

end

/-! ### An ended sample becomes visible (R277) -/

@[simp] theorem State.ist_setIst_self (s : State) (p n : Nat) (x : IStream) : (s.setIst p n x).ist p n = x :=
  SMap.getD_set_self ..

@[simp] theorem State.setReg_ist (s : State) (i off : Nat) (v : W32) (p n : Nat) : (s.setReg i off v).ist p n = s.ist p n := rfl

@[simp] theorem State.count_ist (s : State) (i off k p n : Nat) : (s.count i off k).ist p n = s.ist p n := rfl

/-- A count leaves the registers other than its counter. -/
theorem State.reg_count_of_apart (s : State) (i j k : Nat) {off o : Nat} (h : o % 0x4000000 ≠ off % 0x4000000) :
    (s.count i off k).reg j o = s.reg j o :=
  State.reg_setReg_of_ne _ _ (regKey_ne_of_apart i j h)

theorem exec_sampleRecordVisible_of_cons {port : Fin 2} {n : Fin 256} {s : State} {h : Nat} {r : List Nat} (hvis : (s.ist port n).vis = h :: r) :
    exec (.sampleRecordVisible port n) s = .next (((s.setIst port n { s.ist port n with vis := r }).setReg (256 * port + n) Reg.ITK_WR_PTR
      (BitVec.ofNat 32 h)).count (256 * port + n) Reg.ITK_SAMPLES 1) := by
  rw [exec_sampleRecordVisible, execSampleRecordVisible]
  simp only [hvis]

/-! ### The link of a port (R283, R285) -/

theorem exec_intakeLinkUp_of_trained {port : Fin 2} {s : State} (hdown : s.rf port Reg.ITK_PSTATUS 0 0 = 0) (hclk : s.rf 0 Reg.CLK_STATUS 9 9 ≠ 0)
    (hcfg : s.up.cfgReady = true) (hphy : port.val ∉ s.up.itkGone) : exec (.intakeLinkUp port) s =
      .next (if itkEn s port then resumeFlow port (s.setRf port Reg.ITK_PSTATUS 0 0 1) else sendXoff port (s.setRf port Reg.ITK_PSTATUS 0 0 1)) := by
  rw [exec_intakeLinkUp, execIntakeLinkUp, if_neg]
  simp [hdown, hclk, hcfg, hphy]

theorem intakeLinkDown_of_up {p : Nat} {s : State} (hup : s.rf p Reg.ITK_PSTATUS 0 0 = 1) : intakeLinkDown p s =
    if itkEn s p then cutPort p false (s.setRf p Reg.ITK_PSTATUS 0 0 0) else s.setRf p Reg.ITK_PSTATUS 0 0 0 :=
  if_neg (by omega)

/-- Settles O43: each check of R272 leaves its own outcome, each kind of frame at the head of Sluice its own, and the registers shown are read after the
writes that follow them. The mark in Sluice at which open samples end SHORT is the model's reading of R285 (log entry 184). -/
theorem intakeCommands : Obligations.IntakeCommands := by
  unfold Obligations.IntakeCommands
  rintro port s p rfl
  refine ⟨fun f hup => ⟨fun hbad => ?_, fun hmin hmax hfcs => ?_⟩, fun hxoff hdue => ?_, fun hon => ?_, fun n h r hvis hlt => ?_,
    exec_intakeLinkUp_of_trained, fun hup => ?_⟩
  · exact ⟨_, exec_intakeFrameReceive_of_badFrame hup hbad, rfl⟩
  · have hf : ¬ BadFrame f := not_badFrame hmin hmax hfcs
    refine ⟨exec_intakeFrameReceive_of_pause hup hf, exec_intakeFrameReceive_of_filtered hup hf, exec_intakeFrameReceive_of_disabled hup hf,
      fun hdata hfilter hen => ?_⟩
    rw [exec_intakeFrameReceive_of_accepted hup hf hdata hfilter hen, sluiceBytes]
    exact ⟨fun hfull => by rw [if_pos hfull], fun hroom => by rw [if_neg (by omega)]⟩
  · exact ⟨_, exec_xoffRepeat_of_due hxoff hdue, sendXoff_out .., sendXoff_mem ..⟩
  · exact ⟨fun _ _ => exec_sluiceDrain_of_lost hon, fun _ _ => exec_sluiceDrain_of_cut hon, fun _ _ _ _ => exec_sluiceDrain_of_seg hon⟩
  · refine ⟨_, exec_sampleRecordVisible_of_cons hvis, ?_, by simp, by simp⟩
    rw [State.reg_count_of_apart _ _ _ _ (by decide), State.reg_setReg_self, BitVec.toNat_ofNat, Nat.mod_eq_of_lt hlt]
  · rw [exec_intakeLinkDown, execIntakeLinkDown, intakeLinkDown_of_up hup]

end Sys2Proof.Machine
end

section
/-! PROOFS. Media and composer register rows (O31): what the guards of the decode contexts, their pointers and the batch streams let through, and what
the writes then do (R289 to R291, R295, R306, R312, R323 to R325, R335). -/

namespace Sys2Proof.Machine
/-! ### The rows of the registers -/

theorem rowOf_medCtxCtrl : RowOf Reg.MED_CTX_CTRL ctxCtrlRule := ⟨rfl, rfl, by decide, by decide, rfl, fun _ _ _ => rfl⟩
theorem rowOf_medInWrPtr : RowOf Reg.MED_IN_WR_PTR inWrRule := ⟨rfl, rfl, by decide, by decide, rfl, fun _ _ _ => rfl⟩
theorem rowOf_medOutRdPtr : RowOf Reg.MED_OUT_RD_PTR outRdRule := ⟨rfl, rfl, by decide, by decide, rfl, fun _ _ _ => rfl⟩
theorem rowOf_medFbRelease : RowOf Reg.MED_FB_RELEASE fbReleaseRule := ⟨rfl, rfl, by decide, by decide, rfl, fun _ _ _ => rfl⟩
theorem rowOf_batSctrl : RowOf Reg.BAT_SCTRL streamCtrlRule := ⟨rfl, rfl, by decide, by decide, rfl, fun _ _ _ => rfl⟩
theorem rowOf_batFlush : RowOf Reg.BAT_FLUSH flushRule := ⟨rfl, rfl, by decide, by decide, rfl, fun _ _ _ => rfl⟩
theorem rowOf_batRelease : RowOf Reg.BAT_RELEASE batReleaseRule := ⟨rfl, rfl, by decide, by decide, rfl, fun _ _ _ => rfl⟩

/-- Each tokeniser set has a LOAD register of its own (R312). -/
theorem rowOf_tokLoad : ∀ set : Fin 2, RowOf (if set.val = 0 then Reg.TOK0_LOAD else Reg.TOK1_LOAD) (tokLoadRule set)
  | 0 => ⟨rfl, rfl, by decide, by decide, rfl, fun _ _ _ => rfl⟩
  | 1 => ⟨rfl, rfl, by decide, by decide, rfl, fun _ _ _ => rfl⟩

/-! ### The control register of a decode context (R290, R291) -/

/-- A disabled context takes a control word under which it may be enabled. -/
theorem ctxCtrlGuard_of_enable {c : Nat} {old n : W32} {s : State} (hold : fld old 0 0 = 0) (hok : ctxEnableOk c n s = true) :
    ctxCtrlRule.guard c old n s = (n, s) := by
  simp [ctxCtrlRule, hold, hok]

/-- An enabled context takes a control word that clears EN and nothing else. -/
theorem ctxCtrlGuard_of_disable {c : Nat} {old n : W32} (s : State) (hold : fld old 0 0 = 1) (hn : fld n 0 0 = 0) (heq : n = setFld old 0 0 0) :
    ctxCtrlRule.guard c old n s = (n, s) := by
  simp [ctxCtrlRule, hold, hn, ← heq]

theorem ctxCtrlEffect_of_enable {c : Nat} {old n : W32} (v : W32) (s : State) (hold : fld old 0 0 = 0) (hn : fld n 0 0 = 1) :
    ctxCtrlRule.effect c old n v s = enableCtx c s :=
  if_pos ⟨hold, hn⟩

theorem ctxCtrlEffect_of_disable {c : Nat} {old n : W32} (v : W32) (s : State) (hold : fld old 0 0 = 1) (hn : fld n 0 0 = 0) :
    ctxCtrlRule.effect c old n v s = retireCtx c s := by
  simp [ctxCtrlRule, hold, hn]

/-! ### The pointers of a decode context (R289, R295) -/

/-- IN_WR_PTR takes an aligned value inside the ring. -/
theorem inWrGuard_of_inside {c : Nat} (old : W32) {n : W32} {s : State} (hal : n.toNat % 64 = 0)
    (hin : n.toNat < s.rf c Reg.MED_IN_RING_SIZE 11 0 * 0x200000) : inWrRule.guard c old n s = (n, s) :=
  if_neg (by omega)

/-- OUT_RD_PTR of a context without a batch stream takes any value. -/
theorem outRdGuard_of_unbound {c : Nat} (old n : W32) {s : State} (h : medBs s c = 0xFF) : outRdRule.guard c old n s = (n, s) :=
  if_pos h

/-! ### The control register of a batch stream (R324, R335) -/

/-- A disabled stream takes a control word under which it may be enabled. -/
theorem streamCtrlGuard_of_enable {k : Nat} {old n : W32} {s : State} (hold : fld old 0 0 = 0)
    (hok : batStreamOk (s.setReg k Reg.BAT_SCTRL n) k = true) : streamCtrlRule.guard k old n s = (n, s) := by
  simp [streamCtrlRule, hold, hok]

/-- An enabled stream takes a control word that clears EN and changes DRAINED at most. -/
theorem streamCtrlGuard_of_disable {k : Nat} {old n : W32} (s : State) (hold : fld old 0 0 = 1) (hn : fld n 0 0 = 0)
    (heq : n = setFld (setFld old 0 0 0) 16 16 (fld n 16 16)) : streamCtrlRule.guard k old n s = (n, s) := by
  simp [streamCtrlRule, hold, hn, ← heq]

theorem streamCtrlEffect_of_enable {k : Nat} {old n : W32} (v : W32) (s : State) (hold : fld old 0 0 = 0) (hn : fld n 0 0 = 1) :
    streamCtrlRule.effect k old n v s = enableStream k s :=
  if_pos ⟨hold, hn⟩

theorem streamCtrlEffect_of_disable {k : Nat} {old n : W32} (v : W32) (s : State) (hold : fld old 0 0 = 1) (hn : fld n 0 0 = 0) :
    streamCtrlRule.effect k old n v s = drain k s := by
  simp [streamCtrlRule, hold, hn]

/-! ### Command bits (R312, R323) -/

/-- A word written with its bit 0 set shows it set. -/
theorem fld_setFld_bit_zero (val : W32) : fld (setFld val 0 0 1) 0 0 = 1 := fld_setFld_self val 1 (le_refl 0) (by decide)

theorem tokLoadEffect_of_load (k i : Nat) (old n val : W32) (s : State) :
    (tokLoadRule k).effect i old n (setFld val 0 0 1) s = s.setRf 0 (tokReg Reg.TOK0_STATE k) 1 1 1 :=
  if_pos (fld_setFld_bit_zero val)

theorem flushEffect_of_flush (k : Nat) (old n val : W32) (s : State) : flushRule.effect k old n (setFld val 0 0 1) s = flushAll k s :=
  if_pos (fld_setFld_bit_zero val)

/-- Settles O31: each write reaches its row's rule, whose guard lets the word through, and leaves `stored` under the rule's effect. -/
theorem mediaAndComposerRegisterRows : Obligations.MediaAndComposerRegisterRows := by
  unfold Obligations.MediaAndComposerRegisterRows
  rintro p val rid s r i m a n rfl hreach rfl
  refine ⟨?_, ?_, ?_, ?_, ?_, ?_, ?_, ?_, ?_, ?_⟩
  · rintro rfl hold hn hok
    rw [exec_contextEnable, execContextEnable, rowWrite_of_reaches rowOf_medCtxCtrl hreach (ctxCtrlGuard_of_enable hold hok)]
    exact congrArg _ (ctxCtrlEffect_of_enable _ _ hold hn)
  · rintro rfl hold hn heq
    rw [exec_contextDisable, execContextDisable, rowWrite_of_reaches rowOf_medCtxCtrl hreach (ctxCtrlGuard_of_disable _ hold hn heq)]
    exact congrArg _ (ctxCtrlEffect_of_disable _ _ hold hn)
  · rintro rfl hal hin
    rw [exec_inWrPtrWrite, execInWrPtrWrite, rowWrite_of_reaches rowOf_medInWrPtr hreach (inWrGuard_of_inside _ hal hin)]
    rfl
  · rintro rfl hbs
    rw [exec_outRdPtrWrite, execOutRdPtrWrite, rowWrite_of_reaches rowOf_medOutRdPtr hreach (outRdGuard_of_unbound _ _ hbs)]
    rfl
  · rintro rfl
    rw [exec_medFbRelease, execMedFbRelease, rowWrite_of_reaches rowOf_medFbRelease hreach rfl, and_ofNat_full]
    rfl
  · rintro set rfl
    rw [exec_tokLoad, execTokLoad, rowWrite_of_reaches (rowOf_tokLoad set) hreach rfl, and_ofNat_full, tokLoadEffect_of_load]
  · rintro rfl hold hn hok
    rw [exec_streamEnable, execStreamEnable, rowWrite_of_reaches rowOf_batSctrl hreach (streamCtrlGuard_of_enable hold hok)]
    exact congrArg _ (streamCtrlEffect_of_enable _ _ hold hn)
  · rintro rfl hold hn heq
    rw [exec_streamDisable, execStreamDisable, rowWrite_of_reaches rowOf_batSctrl hreach (streamCtrlGuard_of_disable _ hold hn heq)]
    exact congrArg _ (streamCtrlEffect_of_disable _ _ hold hn)
  · rintro rfl
    rw [exec_flush, execFlush, rowWrite_of_reaches rowOf_batFlush hreach rfl, and_ofNat_full, flushEffect_of_flush]
  · rintro rfl
    rw [exec_batRelease, execBatRelease, rowWrite_of_reaches rowOf_batRelease hreach rfl, and_ofNat_full]
    rfl

end Sys2Proof.Machine
end

section
/-! PROOFS. Media commands (O44): the admission of a sample (R292, R312), what a core does with it from its start to its record (R293 to R295, R298,
R306 to R308), and the end of a tokeniser load (R312). -/

namespace Sys2Proof.Machine
/-! ### Admission (R292, R312) -/

/-- An enabled context with a sample waiting, room for it, a slot and no load of its tokeniser set may admit. -/
theorem mayAdmit_of_room {s : State} {c : Nat} (hen : medEn s c = true) (hwait : sourceWaits s c = true) (hroom : (s.mctx c).samples.length < 64)
    (hslot : slotFree s (medBs s c) = true) (hload : medF s c 3 1 = 5 → s.rf 0 (tokReg Reg.TOK0_STATE (medF s c 24 24)) 1 1 = 0) :
    mayAdmit s c = true := by
  have hidle : (medF s c 3 1 == 5 && s.rf 0 (tokReg Reg.TOK0_STATE (medF s c 24 24)) 1 1 == 1) = false := by
    by_cases htext : medF s c 3 1 = 5
    · simp [hload htext]
    · simp [htext]
  simp [mayAdmit, hen, hwait, hroom, hslot, hidle]

/-- A grant moves its round-robin pointer alone (R39). -/
theorem rrGrant_moves_rr {res w : Nat} {cs : List Nat} {s v : State} (h : rrGrant res cs s = some (w, v)) : ∃ t, v = { s with rr := t } := by
  unfold rrGrant at h
  split at h
  · obtain ⟨-, rfl⟩ := Prod.mk.inj (Option.some.inj h)
    exact ⟨_, rfl⟩
  · cases h

/-- Context `c` may admit before those it contends with, in state `v`: it has no batch stream, or its stream's pointer grants it (R292). -/
abbrev AdmitsIn (s : State) (c : Nat) (v : State) : Prop :=
  medBs s c = 0xFF ∧ v = s ∨ medBs s c ≠ 0xFF ∧ rrGrant (rrAdmit (medBs s c)) (admitRivals s c) s = some (c, v)

theorem AdmitsIn.moves_rr {s v : State} {c : Nat} : AdmitsIn s c v → ∃ t, v = { s with rr := t }
  | .inl ⟨_, hv⟩ => ⟨s.rr, hv⟩
  | .inr ⟨_, hgrant⟩ => rrGrant_moves_rr hgrant

theorem exec_sampleAdmit_of_admitsIn {ctx : Fin 1024} {s v : State} (hmay : mayAdmit s ctx = true) (hv : AdmitsIn s ctx v) :
    exec (.sampleAdmit ctx) s = .next (admitFrom ctx v) := by
  rw [exec_sampleAdmit, execSampleAdmit]
  rcases hv with ⟨hbs, rfl⟩ | ⟨hbs, hgrant⟩
  · simp [hmay, hbs]
  · simp [hmay, hbs, hgrant]

/-- A context whose source is med.submit admits the oldest (R315). -/
theorem admitFrom_of_submit {c : Nat} {s : State} (hsrc : medF s c 6 4 = 0) {u : MSubmit} {r : List MSubmit} (hsub : (s.mctx c).submits = u :: r) :
    admitFrom c s = admitSample (newSample s c u.id u.len (medF s c 3 1) false (.desc u.da) (some (u.a, u.thr, u.seq)))
      (s.setMctx c { s.mctx c with submits := r }) := by
  rw [admitFrom, if_pos hsrc, admitSubmit]
  simp only [hsub]

/-- A context whose source is a ring admits from it while MCLK runs (R294). -/
theorem admitFrom_of_ring {c : Nat} {s : State} (hsrc : medF s c 6 4 ≠ 0) (hon : s.mclk.on = true) : admitFrom c s = admitRing c s := by
  rw [admitFrom, if_neg hsrc, needClock_of_mclk_on _ _ hon]

/-! ### A core takes a sample (R293) -/

theorem exec_decodeStart_of_idle {eng : Fin 5} {s : State} {k : Nat} {m : MSample}
    (hcore : (coresOf eng).find? (fun j => (coreSample s j).isNone) = some k) (hold : oldestSample s eng = some m) (hon : s.mclk.on = true) :
    exec (.decodeStart eng) s = .next (startOn k m s) := by
  rw [exec_decodeStart, execDecodeStart]
  simp only [hcore, hold, needClock_of_mclk_on _ _ hon]

section
variable {core : Fin 72} {s : State} {m : MSample} (hm : coreSample s core = some m)
include hm

/-! ### A header is read and checked (R298) -/

section
variable {head : Nat} {b : List Byte} {s1 : State} (hstage : m.stage = .header) (hread : readHead core head m (coreOn core s) = (.ok b, s1))
include hstage hread

theorem exec_sampleHeaderRead_of_accepted (hcause : headerCause s1 m (headerOf s1 m b) = .none) : exec (.sampleHeaderRead core head) s =
    .next (notePicture m (headerOf s1 m b) (putSample
      { m with stage := .area, hdr := some (headerOf s1 m b), length := areaLength m (headerOf s1 m b) } (keepParams m b s1))) := by
  rw [exec_sampleHeaderRead, execSampleHeaderRead]
  simp only [hm, if_neg (not_not.2 hstage), hread, if_pos hcause]

theorem exec_sampleHeaderRead_of_rejected (hcause : headerCause s1 m (headerOf s1 m b) ≠ .none) : exec (.sampleHeaderRead core head) s =
    .next (advanceSource core m.ctx (markRead m (putSample (rejectSample m (some (headerOf s1 m b))
      { st := (headerCause s1 m (headerOf s1 m b)).status } (headerCause s1 m (headerOf s1 m b)).code) (keepParams m b s1)))) := by
  rw [exec_sampleHeaderRead, execSampleHeaderRead]
  simp only [hm, if_neg (not_not.2 hstage), hread, if_neg hcause]

end

/-! ### An area is reserved (R295) -/

/-- The oldest sample without an area takes the next one of the output ring, once the ring holds it with its record. -/
theorem exec_areaReserve_of_room (hstage : m.stage = .area) (harea : m.area = none)
    (hfirst : ∀ j ∈ (s.mctx m.ctx).samples, j.order < m.order → j.area ≠ none)
    (hroom : outUsed s m.ctx + 192 + m.length ≤ (outRing s m.ctx).2) : exec (.areaReserve core) s =
      .next (putSample { m with area := some (s.mctx m.ctx).head, stage := if m.mt = 1 ∧ m.fail.st = .ok then .buffer else .decode }
        (s.setMctx m.ctx { s.mctx m.ctx with
          head := ((s.mctx m.ctx).head + 128 + m.length) % (outRing s m.ctx).2
          areas := (s.mctx m.ctx).areas ++ [(m.order, ((s.mctx m.ctx).head + 128 + m.length) % (outRing s m.ctx).2, false)] })) := by
  have hgo : ¬ (m.stage ≠ .area ∨ m.area.isSome ∨ (s.mctx m.ctx).samples.any (fun j => decide (j.order < m.order) && j.area.isNone) ∨
      (outRing s m.ctx).2 < outUsed s m.ctx + 128 + m.length + 64) := by
    rintro (h | h | h | h)
    · exact h hstage
    · simp [harea] at h
    · obtain ⟨j, hj, hblocks⟩ := List.any_eq_true.1 h
      simp only [Bool.and_eq_true, decide_eq_true_eq, Option.isNone_iff_eq_none] at hblocks
      exact hfirst j hj hblocks.1 hblocks.2
    · omega
  rw [exec_areaReserve, execAreaReserve]
  simp only [hm, if_neg hgo]

/-! ### A picture takes a frame buffer (R306 to R308) -/

section
variable {h : MedHdr} (refs : List Int) (hstage : m.stage = .buffer) (hhdr : m.hdr = some h)
include hstage hhdr

theorem exec_frameBufferAcquire_of_free {b : Nat × FrameBuf}
    (hfree : (ctxBufs (markRefs m.ctx h.keep (coreOn core s)) m.ctx).find? (fun e => e.2.free) = some b) :
    exec (.frameBufferAcquire core refs) s = .next (putSample
      { m with fb := some b.1, stage := .decode, refCon := usesConcealed (markRefs m.ctx h.keep (coreOn core s)) m.ctx refs }
      (setFb b.1 (fun x => { x with dec := true, poc := h.poc, dirty := false }) (markRefs m.ctx h.keep (coreOn core s)))) := by
  rw [exec_frameBufferAcquire, execFrameBufferAcquire]
  simp only [hm, if_neg (not_not.2 hstage), hhdr, Option.getD_some, hfree]

theorem exec_frameBufferAcquire_of_none
    (hfull : (ctxBufs (markRefs m.ctx h.keep (coreOn core s)) m.ctx).find? (fun e => e.2.free) = none) :
    exec (.frameBufferAcquire core refs) s =
      .next (coreIdle core (putSample { m with core := none } (markRefs m.ctx h.keep (coreOn core s)))) := by
  rw [exec_frameBufferAcquire, execFrameBufferAcquire]
  simp only [hm, if_neg (not_not.2 hstage), hhdr, Option.getD_some, hfull]

end

/-! ### The source is read, the sample decoded (R294, R295) -/

theorem exec_sourceReadDone_of_read {b : List Byte} {s1 : State} (hunread : m.read = false) (hheader : m.stage ≠ .header)
    (hdone : m.stage ≠ .done) (hread : srcRead (coreReq core) m 0 m.len s = (.ok b, s1)) : exec (.sourceReadDone core) s =
      .next (advanceSource core m.ctx (markRead m (putSample { m with read := true, bytes := b } s1))) := by
  rw [exec_sourceReadDone, execSourceReadDone]
  simp only [hm, if_neg (show ¬ (m.read = true ∨ m.stage = .header ∨ m.stage = .done) by simp [hunread, hheader, hdone]), hread]

theorem exec_decodeDone_of_read (d : DecodeIn) (hstage : m.stage = .decode) (hread : m.read = true) (hon : s.mclk.on = true) :
    exec (.decodeDone core d) s = .next (decodeDone core m d s) := by
  rw [exec_decodeDone, execDecodeDone]
  simp only [hm, if_neg (show ¬ (m.stage ≠ .decode ∨ (!m.read) = true) by simp [hstage, hread]), needClock_of_mclk_on _ _ hon]

end

/-! ### The record is shown (R295) -/

theorem exec_outputRecordVisible_of_done {ctx : Fin 1024} {s : State} {m : MSample} {r : List MSample} (hm : (s.mctx ctx).samples = m :: r)
    (hdone : m.stage = .done) : exec (.outputRecordVisible ctx) s = .next (showRecord m s) := by
  rw [exec_outputRecordVisible, execOutputRecordVisible]
  simp only [hm, if_pos hdone]

/-! ### A tokeniser load ends (R312) -/

section
variable {k : Fin 2} {s s1 : State} (hbusy : s.rf 0 (tokReg Reg.TOK0_STATE k) 1 1 = 1) (hidle : setBusy k s = false) (hon : s.mclk.on = true)
include hbusy hidle hon

theorem exec_tokLoadDone_of_loaded {t : TokSet} (hload : loadSet k s = (.ok t, s1)) :
    exec (.tokLoadDone k) s = .next (endLoad k .ok { s1 with toksets := SMap.put s1.toksets k t }) := by
  rw [exec_tokLoadDone, execTokLoadDone]
  simp [hbusy, hidle, needClock_of_mclk_on _ _ hon, hload]

theorem exec_tokLoadDone_of_failed {f : Fail} (hload : loadSet k s = (.error f, s1)) : exec (.tokLoadDone k) s = .next (endLoad k f.st s1) := by
  rw [exec_tokLoadDone, execTokLoadDone]
  simp [hbusy, hidle, needClock_of_mclk_on _ _ hon, hload]

end

/-- Settles O44: each command by the branch that its conditions select. Which of several contexts for one batch stream admits is the model's choice
(log entry 18). -/
theorem mediaCommands : Obligations.MediaCommands := by
  unfold Obligations.MediaCommands
  intro s
  refine ⟨?_, fun eng k m => exec_decodeStart_of_idle, ?_, ?_, ?_, ?_, fun core d m hm => exec_decodeDone_of_read hm d,
    fun ctx m r => exec_outputRecordVisible_of_done,
    fun k hbusy hidle hon => ⟨fun t s1 => exec_tokLoadDone_of_loaded hbusy hidle hon, fun f s1 => exec_tokLoadDone_of_failed hbusy hidle hon⟩⟩
  · rintro ctx c v rfl hen hwait hroom hslot hload hv
    rw [exec_sampleAdmit_of_admitsIn (mayAdmit_of_room hen hwait hroom hslot hload) hv]
    obtain ⟨t, rfl⟩ := AdmitsIn.moves_rr hv
    exact ⟨fun hsrc u r hsub => congrArg _ (admitFrom_of_submit (s := { s with rr := t }) hsrc hsub),
      fun hsrc hon => congrArg _ (admitFrom_of_ring (s := { s with rr := t }) hsrc hon)⟩
  · rintro core head m b h s1 hm hstage hread rfl
    exact ⟨exec_sampleHeaderRead_of_accepted hm hstage hread, exec_sampleHeaderRead_of_rejected hm hstage hread⟩
  · intro core m hm hstage harea hfirst hroom
    exact ⟨_, exec_areaReserve_of_room hm hstage harea hfirst hroom, rfl⟩
  · rintro core refs m h u hm hstage hhdr rfl
    exact ⟨fun b => exec_frameBufferAcquire_of_free hm refs hstage hhdr, exec_frameBufferAcquire_of_none hm refs hstage hhdr⟩
  · intro core m b s1 hm hunread hheader hdone hread
    exact exec_sourceReadDone_of_read hm hunread hheader hdone hread

end Sys2Proof.Machine
end

section
/-! PROOFS. Composer commands (O45): positions are assigned and composed, closed batches offered, and batches flushed whose window has ended
(R320 to R323). -/

namespace Sys2Proof.Machine

section
variable {stream : Fin 64} {s : State}

/-! ### Positions (R320, R322) -/

theorem exec_positionAssign_of_bucket {c : CSample} {r : List CSample} {k : Nat} (hqueue : (s.bst stream).queue = c :: r)
    (hbucket : c.bucket = some k) (hon : s.mclk.on = true) : exec (.positionAssign stream) s =
      .next (drain stream (assignTo stream k c (match openBatch s stream k with
        | some x => if windowOver s stream x then flushBatch stream x s else s
        | none => s))) := by
  rw [exec_positionAssign, execPositionAssign]
  simp only [hqueue, hbucket]
  exact congrArg Host.Outcome.next (needClock_of_mclk_on _ _ hon)

theorem exec_sampleComposeDone_of_waiting {k : Fin 16} {x : Batch}
    (holdest : (s.bst stream).batches.find? (fun j => j.bucket = k.val && !j.wait.isEmpty) = some x) (hon : s.mclk.on = true) :
    exec (.sampleComposeDone stream k) s = .next (composeNext stream x s) := by
  rw [exec_sampleComposeDone, execSampleComposeDone]
  simp only [holdest, needClock_of_mclk_on _ _ hon]

/-! ### Closed batches and flush windows (R321, R323) -/

theorem exec_batchOffer_of_closed {b : Nat} {r : List Nat} (hclosed : (s.bst stream).closed = b :: r) : exec (.batchOffer stream) s =
    .next (afterItems (putBst stream { s.bst stream with
      closed := r, offered := (s.bst stream).offered ++ [((s.bst stream).count, b)], count := (s.bst stream).count + 1 } s)) := by
  rw [exec_batchOffer, execBatchOffer]
  simp only [hclosed]

theorem exec_flushWindowEnd_of_over {k : Fin 16} {x : Batch} (hopen : openBatch s stream k = some x) (hover : windowOver s stream x = true)
    (hon : s.mclk.on = true) : exec (.flushWindowEnd stream k) s = .next (drain stream (flushBatch stream x s)) := by
  rw [exec_flushWindowEnd, execFlushWindowEnd]
  simp only [hopen, hover, if_true, needClock_of_mclk_on _ _ hon]

end

/-- Settles O45: each command by the branch that its conditions select. -/
theorem composerCommands : Obligations.ComposerCommands := by
  unfold Obligations.ComposerCommands
  rintro stream s n rfl
  exact ⟨fun c r k => exec_positionAssign_of_bucket, fun k x => exec_sampleComposeDone_of_waiting, fun b r => exec_batchOffer_of_closed,
    fun k x => exec_flushWindowEnd_of_over⟩

end Sys2Proof.Machine
end

section
/-! PROOFS. Port commands (O46): a port that has trained changes STATE, which raises the LINK cause (R450); where the host has unmasked that cause, its
MSI-X message goes out after the INIT flit of R353, so the flit is not the last output. -/

namespace Sys2Proof.Machine

/-! ### Event causes that signal (R450) -/

/-- An event cause that signals when it is raised: it is clear and unmasked, and the vector of events is delivered at once (R449, R450). -/
structure Evt.Signals (e : Evt) (s : State) : Prop where
  clear : s.rf 0 Reg.HST_EVT_CAUSE e.bit e.bit = 0
  unmasked : s.rf 0 Reg.HST_EVT_MASK e.bit e.bit = 1
  delivered : (s.msixOn.contains (s.rf 0 Reg.HST_EVT_VEC 10 0) && s.bme && !s.d3hot) = true

theorem sendMsix_of_delivered {n : Nat} {s : State} (h : (s.msixOn.contains n && s.bme && !s.d3hot) = true) : sendMsix n s = s.emit (.msix n) :=
  if_pos h

theorem raiseEvt_out_of_signals {e : Evt} {s : State} (h : e.Signals s) : (raiseEvt e s).out = .msix (s.rf 0 Reg.HST_EVT_VEC 10 0) :: s.out := by
  rw [raiseEvt, if_pos ⟨h.clear, h.unmasked⟩, sendMsix_of_delivered (s := s.setRf 0 Reg.HST_EVT_CAUSE e.bit e.bit 1) h.delivered]
  rfl

/-- Whether a cause signals is read from registers of the host interface and from the PCIe function alone. -/
theorem Evt.Signals.setReg {e : Evt} {s : State} (h : e.Signals s) (i : Nat) {off : Nat} (v : W32)
    (hcause : Reg.HST_EVT_CAUSE % 0x4000000 ≠ off % 0x4000000) (hmask : Reg.HST_EVT_MASK % 0x4000000 ≠ off % 0x4000000)
    (hvec : Reg.HST_EVT_VEC % 0x4000000 ≠ off % 0x4000000) : e.Signals (s.setReg i off v) where
  clear := by rw [State.rf_setReg_of_apart _ _ _ _ _ _ hcause, h.clear]
  unmasked := by rw [State.rf_setReg_of_apart _ _ _ _ _ _ hmask, h.unmasked]
  delivered := by
    rw [State.rf_setReg_of_apart _ _ _ _ _ _ hvec]
    exact h.delivered

/-- A port that changes STATE signals LINK, where LINK signals. -/
theorem setPortState_out_of_signals {p st : Nat} {s : State} (hst : portState s p ≠ st) (h : Evt.link.Signals s) :
    (setPortState p st s).out = .msix (s.rf 0 Reg.HST_EVT_VEC 10 0) :: s.out := by
  have hset := h.setReg p (setFld (s.reg p Reg.CWY_PSTATE) 2 0 st) (off := Reg.CWY_PSTATE) (by decide) (by decide) (by decide)
  rw [setPortState, if_neg hst, State.setRf, raiseEvt_out_of_signals hset, State.rf_setReg_of_apart _ _ _ _ _ _ (by decide), State.setReg_out]

/-! ### The exchange of INIT flits (R353) -/

/-- The state in which a port has sent its INIT flit and taken its peer's, before it changes STATE. -/
def initExchanged (p : Nat) (m : BitVec 12) (q : BitVec 4) (creds : List Nat) (rtt : W16) (s : State) : State :=
  modPort p (fun x => { x with cred := (List.range 4).map (fun v => creds.getD v 0), lastRx := s.now })
    (((s.emit (initFlit p s)).setReg p Reg.CWY_PEER (BitVec.ofNat 32 (m.toNat + 65536 * q.toNat))).setReg p Reg.CWY_RTT_NS (rtt.zeroExtend 32))

section
variable (p : Nat) (m : BitVec 12) (q : BitVec 4) (creds : List Nat) (rtt : W16) (s : State)

theorem initExchanged_out : (initExchanged p m q creds rtt s).out = initFlit p s :: s.out := rfl

theorem initExchanged_rf_of_apart {o : Nat} (j hi lo : Nat) (hpeer : o % 0x4000000 ≠ Reg.CWY_PEER % 0x4000000)
    (hrtt : o % 0x4000000 ≠ Reg.CWY_RTT_NS % 0x4000000) : (initExchanged p m q creds rtt s).rf j o hi lo = s.rf j o hi lo := by
  calc (initExchanged p m q creds rtt s).rf j o hi lo
      = (((s.emit (initFlit p s)).setReg p Reg.CWY_PEER (BitVec.ofNat 32 (m.toNat + 65536 * q.toNat))).setReg p Reg.CWY_RTT_NS
          (rtt.zeroExtend 32)).rf j o hi lo := rfl
    _ = (s.emit (initFlit p s)).rf j o hi lo := by rw [State.rf_setReg_of_apart _ _ _ _ _ _ hrtt, State.rf_setReg_of_apart _ _ _ _ _ _ hpeer]
    _ = s.rf j o hi lo := rfl

theorem portState_initExchanged (k : Nat) : portState (initExchanged p m q creds rtt s) k = portState s k :=
  initExchanged_rf_of_apart p m q creds rtt s k 2 0 (by decide) (by decide)

variable {s}

theorem Evt.Signals.initExchanged {e : Evt} (h : e.Signals s) : e.Signals (initExchanged p m q creds rtt s) where
  clear := by rw [initExchanged_rf_of_apart _ _ _ _ _ _ _ _ _ (by decide) (by decide), h.clear]
  unmasked := by rw [initExchanged_rf_of_apart _ _ _ _ _ _ _ _ _ (by decide) (by decide), h.unmasked]
  delivered := by
    rw [initExchanged_rf_of_apart _ _ _ _ _ _ _ _ _ (by decide) (by decide)]
    exact h.delivered

end

theorem exec_portTrained_of_otherModule {s : State} {p : Fin 12} {m : BitVec 12} (q : BitVec 4) (creds : List Nat) (rtt : W16)
    (htrain : portState s p = 1) (hclk : s.rf 0 Reg.CLK_STATUS 9 9 ≠ 0) (hpeer : m.toNat ≠ moduleNum s) :
    exec (.portTrained p m q creds rtt) s = .next (setPortState p 3 (initExchanged p m q creds rtt s)) := by
  rw [exec_portTrained, execPortTrained, if_neg (by omega), if_neg hpeer]
  rfl

/-- Where LINK signals, a port that goes to UP sends the LINK message after its INIT flit (R353, R450). -/
theorem portTrained_out_of_signals {s : State} {p : Fin 12} {m : BitVec 12} (q : BitVec 4) (creds : List Nat) (rtt : W16)
    (htrain : portState s p = 1) (h : Evt.link.Signals s) :
    (setPortState p 3 (initExchanged p m q creds rtt s)).out = .msix (s.rf 0 Reg.HST_EVT_VEC 10 0) :: initFlit p s :: s.out := by
  have hst : portState (initExchanged p m q creds rtt s) p ≠ 3 := by rw [portState_initExchanged, htrain]; decide
  rw [setPortState_out_of_signals hst (h.initExchanged p m q creds rtt), initExchanged_out,
    initExchanged_rf_of_apart _ _ _ _ _ _ _ _ _ (by decide) (by decide)]

/-! ### The counterexample -/

/-- Port 0 trains while CWY_REFCLK is present; the host has unmasked LINK and vector 0, and the function is a bus master. -/
def linkUnmasked : State :=
  { ((State.reset.setRf 0 Reg.CWY_PSTATE 2 0 1).setRf 0 Reg.CLK_STATUS 9 9 1).setRf 0 Reg.HST_EVT_MASK 5 5 1 with msixOn := [0], bme := true }

theorem linkUnmasked_signals : Evt.link.Signals linkUnmasked := ⟨by decide, by decide, by decide⟩

/-- Refutes O46: in `linkUnmasked`, port 0 trains with module 1. The statement gives the INIT flit as the only new output, but the port's change to UP
raises LINK (R450), whose MSI-X message goes out after the flit. -/
theorem not_portCommands : ¬ Obligations.PortCommands := by
  unfold Obligations.PortCommands
  intro h
  have htrain : portState linkUnmasked 0 = 1 := by decide
  have hclk : linkUnmasked.rf 0 Reg.CLK_STATUS 9 9 ≠ 0 := by decide
  have hpeer : (1#12).toNat ≠ moduleNum linkUnmasked := by decide
  obtain ⟨-, htrained, -⟩ := h 0 linkUnmasked 0 rfl
  obtain ⟨v, hv, -, -, hout⟩ := htrained 1 0 [256, 256, 256, 256] 0 htrain hclk
  obtain rfl := Host.Outcome.next.inj ((exec_portTrained_of_otherModule (p := 0) 0 _ 0 htrain hclk hpeer).symm.trans hv)
  have htwo := portTrained_out_of_signals (p := 0) (m := 1) 0 [256, 256, 256, 256] 0 htrain linkUnmasked_signals
  have hlength := congrArg List.length (htwo.symm.trans hout)
  simp only [List.length_cons] at hlength
  omega

end Sys2Proof.Machine
end

section
/-! PROOFS. Collective commands (O47): the running update step that every access to memory leaves, the commands of plans and of messages at a port
(R358 to R361, R368, R369, R378 to R386), and the update steps of Lode (R25, R374 to R381). -/

namespace Sys2Proof.Machine

/-! ### Shared operations leave the running update step -/

theorem foldl_lodeRun {α : Type} {f : State → α → State} (hf : ∀ s x, (f s x).lodeRun = s.lodeRun) (l : List α) (s : State) :
    (l.foldl f s).lodeRun = s.lodeRun := by
  induction l generalizing s with
  | nil => rfl
  | cons x r ih => exact (ih (f s x)).trans (hf s x)

@[simp] theorem State.setRf_lodeRun (s : State) (i o h l n : Nat) : (s.setRf i o h l n).lodeRun = s.lodeRun := rfl

@[simp] theorem State.count_lodeRun (s : State) (i o n : Nat) : (s.count i o n).lodeRun = s.lodeRun := rfl

@[simp] theorem State.setReg64_lodeRun (s : State) (i o n : Nat) : (s.setReg64 i o n).lodeRun = s.lodeRun := rfl

@[simp] theorem State.drawFree_lodeRun (s : State) : s.drawFree.2.lodeRun = s.lodeRun := rfl

@[simp] theorem sendMsix_lodeRun (v : Nat) (s : State) : (sendMsix v s).lodeRun = s.lodeRun := by
  unfold sendMsix
  split <;> rfl

@[simp] theorem raiseEvt_lodeRun (e : Evt) (s : State) : (raiseEvt e s).lodeRun = s.lodeRun := by
  simp only [raiseEvt]
  split <;> simp

@[simp] theorem writeFaultQuiet_lodeRun (r : FaultIn) (s : State) : (writeFaultQuiet r s).2.lodeRun = s.lodeRun := by
  simp only [writeFaultQuiet, faultFlags, dropFault]
  split
  · split <;> split <;> rfl
  · split <;> rfl

@[simp] theorem writeFaultId_lodeRun (r : FaultIn) (s : State) : (writeFaultId r s).2.lodeRun = s.lodeRun := by
  simp only [writeFaultId]
  split <;> simp

@[simp] theorem State.setPll_lodeRun (s : State) (d : ClkDomain) (p : Pll) : (s.setPll d p).lodeRun = s.lodeRun := by
  cases d <;> rfl

@[simp] theorem beginPll_lodeRun (d : ClkDomain) (s : State) : (beginPll d s).lodeRun = s.lodeRun := by
  unfold beginPll
  dsimp only
  split
  · rfl
  · split <;> simp

@[simp] theorem pllStarted_lodeRun (d : ClkDomain) (s : State) : (pllStarted d s).lodeRun = s.lodeRun := by
  simp [pllStarted]

@[simp] theorem pllNotStarted_lodeRun (d : ClkDomain) (s : State) : (pllNotStarted d s).lodeRun = s.lodeRun := by
  have hfailed (t : State) : (pllStartFailed d t).lodeRun = t.lodeRun := by
    simp only [pllStartFailed]
    split <;> simp [writeFault]
  simp only [pllNotStarted]
  split <;> simp [hfailed]

@[simp] theorem noteTimeout_lodeRun (d : ClkDomain) (rid item : Nat) (re : Bool) (s : State) :
    (noteTimeout d rid item re s).2.lodeRun = s.lodeRun := by
  simp [noteTimeout]

/-! ### Physical accesses -/

@[simp] theorem countUe_lodeRun (s : State) (pa : Nat) : (countUe s pa).lodeRun = s.lodeRun := by
  unfold countUe
  split <;> rfl

@[simp] theorem reachArray_lodeRun (c : Ctx) (p : Nat) (s : State) : (reachArray c p s).2.lodeRun = s.lodeRun := by
  unfold reachArray
  split
  · rfl
  · split
    · simp
    · dsimp only
      split <;> simp [arrayUp]

@[simp] theorem unitReach_lodeRun (c : Ctx) (pa n : Nat) (s : State) : (unitReach c pa n s).2.lodeRun = s.lodeRun := by
  unfold unitReach
  split
  · rfl
  · split
    · rfl
    · split
      · exact foldl_lodeRun (fun _ _ => by rfl) _ _
      · rfl
      · exact reachArray_lodeRun ..
      · rfl

@[simp] theorem servedRead_lodeRun (c : Ctx) (pa n : Nat) (s : State) : (servedRead c pa n s).2.lodeRun = s.lodeRun := by
  unfold servedRead
  split
  · rfl
  · split
    · simp
    · split <;> simp

@[simp] theorem physRead_lodeRun (c : Ctx) (pa n : Nat) (s : State) : (physRead c pa n s).2.lodeRun = s.lodeRun := by
  unfold physRead
  grind [unitReach_lodeRun, servedRead_lodeRun]

@[simp] theorem landing_lodeRun (b z pa : Nat) (l : List Byte) (s : State) : (landing b z pa l s).lodeRun = s.lodeRun :=
  foldl_lodeRun (fun t i => by split <;> rfl) _ _

@[simp] theorem freeRuns_lodeRun (l : List (Nat × Nat)) (s : State) : (freeRuns l s).lodeRun = s.lodeRun :=
  foldl_lodeRun (fun _ _ => by exact foldl_lodeRun (fun _ _ => by rfl) _ _) _ _

@[simp] theorem spoilReduced_lodeRun (c : Ctx) (pa n : Nat) (s : State) : (spoilReduced c pa n s).lodeRun = s.lodeRun := by
  unfold spoilReduced
  split
  · rfl
  · exact foldl_lodeRun (fun t e => by dsimp only; split <;> simp) _ _

@[simp] theorem writeScales_lodeRun (pa n : Nat) (sc : Option Nat) (s : State) : (writeScales pa n sc s).lodeRun = s.lodeRun :=
  foldl_lodeRun (fun _ _ => by rfl) _ _

@[simp] theorem unparkRange_lodeRun (pa n : Nat) (s : State) : (unparkRange pa n s).lodeRun = s.lodeRun := by
  unfold unparkRange
  split <;> rfl

@[simp] theorem servedWrite_lodeRun (c : Ctx) (pa : Nat) (l : List Byte) (sc : Option Nat) (s : State) :
    (servedWrite c pa l sc s).2.lodeRun = s.lodeRun := by
  unfold servedWrite
  split
  · rfl
  · split
    · rfl
    · split
      · simp
      · dsimp only
        split <;> split <;> simp [rawWrite, healWhole]

@[simp] theorem physWrite_lodeRun (c : Ctx) (pa : Nat) (l : List Byte) (sc : Option Nat) (s : State) :
    (physWrite c pa l sc s).2.lodeRun = s.lodeRun := by
  unfold physWrite
  grind [unitReach_lodeRun, servedWrite_lodeRun]

/-! ### Accesses at virtual addresses -/

@[simp] theorem walkFrom_lodeRun (c : Ctx) (va k tab : Nat) (s : State) : (walkFrom c va k tab s).2.lodeRun = s.lodeRun := by
  induction k generalizing tab s with
  | zero => rfl
  | succ k ih =>
    have hread (pa : Nat) : (walkRead c pa s).2.lodeRun = s.lodeRun := by
      unfold walkRead
      grind [physRead_lodeRun]
    unfold walkFrom
    grind

@[simp] theorem lookup_lodeRun (c : Ctx) (va : Nat) (s : State) : (lookup c va s).2.lodeRun = s.lodeRun := by
  have hwalk (t : State) : (walkTables c va t).2.lodeRun = t.lodeRun := walkFrom_lodeRun ..
  unfold lookup
  grind [State.drawFree_lodeRun, tlbInsert]

@[simp] theorem translate_lodeRun (c : Ctx) (va : Nat) (need : Perm) (s : State) : (translate c va need s).2.lodeRun = s.lodeRun := by
  unfold translate mmuFault
  grind [lookup_lodeRun, State.count_lodeRun]

@[simp] theorem vRead_lodeRun (c : Ctx) (need : Perm) (va n : Nat) (s : State) : (vRead c need va n s).2.lodeRun = s.lodeRun := by
  have hpages (k : Nat) : ∀ va n s, (vReadAux c need k va n s).2.lodeRun = s.lodeRun := by
    induction k with
    | zero => exact fun _ _ _ => rfl
    | succ k ih =>
      intro va n s
      unfold vReadAux
      grind [translate_lodeRun, physRead_lodeRun]
  exact hpages ..

@[simp] theorem vWrite_lodeRun (c : Ctx) (va : Nat) (l : List Byte) (sc : Option Nat) (s : State) :
    (vWrite c va l sc s).2.lodeRun = s.lodeRun := by
  have hpages (k : Nat) : ∀ va l s, (vWriteAux c sc k va l s).2.lodeRun = s.lodeRun := by
    induction k with
    | zero => exact fun _ _ _ => rfl
    | succ k ih =>
      intro va l s
      unfold vWriteAux
      grind [translate_lodeRun, physWrite_lodeRun]
  exact hpages ..

/-! ### Writes of an update step -/

@[simp] theorem putPieces_lodeRun (l : List (Nat × List Byte)) (s : State) : (putPieces l s).2.lodeRun = s.lodeRun := by
  induction l generalizing s with
  | nil => rfl
  | cons e r ih =>
    unfold putPieces
    grind [vWrite_lodeRun]

@[simp] theorem wakeHeld_lodeRun (k : Nat) (l : List Upd) (s : State) : (wakeHeld k l s).lodeRun = s.lodeRun := by
  induction k generalizing l s with
  | zero => rfl
  | succ k ih =>
    cases l with
    | nil => rfl
    | cons u r =>
      have hentry : (groupEntry lodeReq u.group s).2.lodeRun = s.lodeRun := vRead_lodeRun ..
      unfold wakeHeld
      grind [showHeld, State.setReg_lodeRun, State.setRf_lodeRun]

@[simp] theorem stepUpdated_lodeRun (u : Upd) (s : State) : (stepUpdated u s).lodeRun = s.lodeRun := by
  unfold stepUpdated
  grind [putPlan]

@[simp] theorem countWritten_lodeRun (u : Upd) (s : State) : (countWritten u s).lodeRun = s.lodeRun := by
  unfold countWritten
  grind [wakeHeld_lodeRun, State.setRf_lodeRun, State.setReg_lodeRun, State.setReg64_lodeRun]

@[simp] theorem updDone_lodeRun (u : Upd) (s : State) : (updDone u s).lodeRun = s.lodeRun := by
  simp [updDone, State.count64, showLode]

/-! ### Plans begin and their steps go on (R358, R359, R386) -/

section
variable {s s1 : State} {r : PlanReq} {rest : List PlanReq} {k : Nat} {h : List Byte} {steps : List (List Byte)} {parts : List Nat}
  (hreqs : s.planReqs = r :: rest) (hslot : freeSlotNo s = some k)
  (hload : loadPlan r.va { s with planReqs := rest } = (.ok (h, steps, parts), s1))
include hreqs hslot hload

theorem exec_planStart_of_aborted (habort : leAt h 0 2 ∈ s1.aborts) : exec .planStart s =
    .next (wakePlan (opDone r.a r.t r.seq { st := .planAborted } (drainRx (dropEarly (leAt h 0 2)
      { s1 with aborts := s1.aborts.erase (leAt h 0 2), planEnded := s1.planEnded ++ [leAt h 0 2] })))) := by
  rw [exec_planStart, execPlanStart]
  simp only [hreqs, hslot, hload, if_pos (List.contains_iff_mem.2 habort)]

theorem exec_planStart_of_notAborted (habort : leAt h 0 2 ∉ s1.aborts) : exec .planStart s = .next (beginPlan k r h steps parts s1) := by
  rw [exec_planStart, execPlanStart]
  simp only [hreqs, hslot, hload, if_neg (mt List.contains_iff_mem.1 habort)]

end

section
variable {slot : Fin 64} {s : State} {p : Plan} {i : Nat} (hplan : s.plan? slot = some p)
include hplan

theorem exec_planStepStart_of_found (hi : (List.range p.steps.length).find? (fun j => mayStart p j) = some i) :
    exec (.planStepStart slot) s = .next (startStep slot i p s) := by
  rw [exec_planStepStart, execPlanStepStart]
  simp only [hplan, hi]

theorem exec_planStepComplete_of_found (hi : (List.range p.steps.length).find? (fun j => stepOver s p j) = some i) {s1 : State}
    (hs1 : s1 = showPlan slot (modStep slot i (fun x => { x with ph := .done }) s)) :
    exec (.planStepComplete slot) s = .next (tryComplete slot (s1.setReg64 slot Reg.COL_PROGRESS_TICK_LO s1.tb.toNat)) := by
  subst hs1
  rw [exec_planStepComplete, execPlanStepComplete]
  simp only [hplan, hi]

/-- The window of a wait has ended: the plan ends with PEER_TIMEOUT (R383). -/
theorem exec_peerTimeoutExpiry_of_over {step : Fin 4096} (hready : (p.stAt step).ph = .ready)
    (hover : (p.stAt step).at_ + p.timeout * 25 * (p.stAt step).f ≤ s.now) : exec (.peerTimeoutExpiry slot step) s =
      .next (endPlan slot { fail := { st := .peerTimeout }, mod_ := sSrc (p.step step), step := step } (s.count 0 Reg.COL_TIMEOUTS 1)) := by
  have hnot : ¬ ((p.stAt step).ph ≠ .ready ∨ s.now < (p.stAt step).at_ + p.timeout * 25 * (p.stAt step).f) := by
    rintro (hph | hlt)
    · exact hph hready
    · omega
  rw [exec_peerTimeoutExpiry, execPeerTimeoutExpiry]
  simp only [hplan, if_neg hnot]

end

/-! ### Chunks and fetch replies at a port (R361, R368) -/

section
variable {p : Fin 12} {s : State} {m : CIn} {r : List CIn} (hinbox : (s.cport p).inbox = m :: r)
include hinbox

theorem exec_chunkArrive_of_chunk (hkind : leAt m.data 4 1 = 0) : exec (.chunkArrive p) s = .next (matchChunk p m s) := by
  rw [exec_chunkArrive, execChunkArrive]
  simp only [hinbox, if_pos hkind]

theorem exec_fetchReplyArrive_of_reply (hkind : leAt m.data 4 1 = 1) {k : Nat} {pl : Plan}
    (hfetch : fetchAt m.src (leAt m.data 0 2) (leAt m.data 2 2) (takeChunk p s) = some (k, pl)) :
    exec (.fetchReplyArrive p) s = .next (landFetch k (leAt m.data 2 2) pl m.data (takeChunk p s)) := by
  rw [exec_fetchReplyArrive, execFetchReplyArrive]
  simp only [hinbox, if_neg (not_not.2 hkind), hfetch]

end

/-! ### Control messages at a port (R360) -/

section
variable {p : Fin 12} {s : State} {m : CIn}

section
variable (hctl : ctlOf s p 3 = some m) {s1 : State}
include hctl

/-- A FETCH of a group in place waits while an update writes it; any other is served (R369, R379). -/
theorem exec_fetchRequestReceive_of_entry {e : List Byte} (hentry : groupEntry collReq (leAt m.data 4 2 % 4096) s = (.ok e, s1))
    (hfree : gTwo e = true ∨ beingWritten (leAt m.data 4 2 % 4096) s1 = false) :
    exec (.fetchRequestReceive p) s = .next (serveFetch e m (takeCtl p 3 s1)) := by
  have hserve : ¬ ((!gTwo e) = true ∧ beingWritten (leAt m.data 4 2 % 4096) s1 = true) := by
    rcases hfree with h | h <;> simp [h]
  rw [exec_fetchRequestReceive, execFetchRequestReceive]
  simp only [hctl, hentry, if_neg hserve]

theorem exec_fetchRequestReceive_of_noEntry {f : Fail} (hentry : groupEntry collReq (leAt m.data 4 2 % 4096) s = (.error f, s1)) :
    exec (.fetchRequestReceive p) s = .next (fetchFails m .descriptorInvalid (takeCtl p 3 s1)) := by
  rw [exec_fetchRequestReceive, execFetchRequestReceive]
  simp only [hctl, hentry]

end

theorem exec_fetchFailReceive_of_fetch (hctl : ctlOf s p 5 = some m) {k : Nat} {pl : Plan}
    (hfetch : fetchAt m.src (leAt m.data 2 2) (leAt m.data 22 2) (takeCtl p 5 s) = some (k, pl)) : exec (.fetchFailReceive p) s =
      .next (endPlan k { fail := { st := statusOfCode (leAt m.data 1 1) }, mod_ := m.src, step := leAt m.data 22 2 } (takeCtl p 5 s)) := by
  rw [exec_fetchFailReceive, execFetchFailReceive]
  simp only [hctl, hfetch]

theorem exec_releaseReceive_of_ctl (hctl : ctlOf s p 4 = some m) :
    exec (.releaseReceive p) s = .next (releaseReader (leAt m.data 4 2 % 4096) (leAt m.data 16 4) (takeCtl p 4 s)) := by
  rw [exec_releaseReceive, execReleaseReceive]
  simp only [hctl]

/-- The state in which a module's thermal factor has been taken from its SLOW message (R382, R383). -/
def factorTaken (p : Nat) (m : CIn) (s : State) : State :=
  let s1 := (takeCtl p 2 s).setReg m.src Reg.COL_PEER_FACTOR (BitVec.ofNat 32 (leAt m.data 1 1 % 16))
  { s1 with plans := s1.plans.map (fun e => (e.1, lengthen m.src (leAt m.data 1 1 % 16) e.2)) }

theorem exec_slowReceive_of_ctl (hctl : ctlOf s p 2 = some m) : exec (.slowReceive p) s = .next (factorTaken p m s) := by
  rw [exec_slowReceive, execSlowReceive]
  simp only [hctl]
  rfl

theorem factorTaken_factor (p : Nat) (m : CIn) (s : State) :
    ((factorTaken p m s).reg m.src Reg.COL_PEER_FACTOR).toNat = leAt m.data 1 1 % 16 := by
  have hfactor : (factorTaken p m s).reg m.src Reg.COL_PEER_FACTOR = BitVec.ofNat 32 (leAt m.data 1 1 % 16) :=
    State.reg_setReg_self (takeCtl p 2 s) _ _ _
  rw [hfactor, BitVec.toNat_ofNat]
  omega

theorem factorTaken_mem (p : Nat) (m : CIn) (s : State) : (factorTaken p m s).mem = s.mem := takeCtl_mem p 2 s

/-! ### Aborts (R384, R386) -/

/-- The abort list with one PLAN_ID more: of 256 the oldest leaves (R386). -/
def abortsWith (l : List Nat) (id : Nat) : List Nat := (if l.length < 256 then l else l.drop 1) ++ [id]

theorem length_abortsWith_le (l : List Nat) (id : Nat) : (abortsWith l id).length ≤ max 256 l.length := by
  unfold abortsWith
  split <;> simp <;> omega

section
variable (hctl : ctlOf s p 1 = some m)
include hctl

theorem exec_abortReceive_of_running {k : Nat} (hslot : planSlot (takeCtl p 1 s) (leAt m.data 2 2) = some k) : exec (.abortReceive p) s =
    .next (endPlan k { fail := { st := .planAborted }, mod_ := m.src, tell := false } ((takeCtl p 1 s).count 0 Reg.COL_ABORTS 1)) := by
  rw [exec_abortReceive, execAbortReceive]
  simp only [hctl, hslot]

theorem exec_abortReceive_of_unknown (hslot : planSlot (takeCtl p 1 s) (leAt m.data 2 2) = none)
    (hended : leAt m.data 2 2 ∉ (takeCtl p 1 s).planEnded) (hnew : leAt m.data 2 2 ∉ (takeCtl p 1 s).aborts) :
    exec (.abortReceive p) s = .next { takeCtl p 1 s with aborts := abortsWith (takeCtl p 1 s).aborts (leAt m.data 2 2) } := by
  rw [exec_abortReceive, execAbortReceive]
  simp only [hctl, hslot, List.contains_iff_mem, hended, hnew, or_self, if_false]
  rfl

end

end

theorem exec_slowSend_of_due {s : State} (hdue : s.slowDue = true) :
    exec .slowSend s = .next (sendSlow (s.plans.flatMap (fun e => e.2.parts)) { s with slowDue := false }) :=
  if_pos hdue

/-! ### An update step starts (R374, R376, R379, R380) -/

/-- What the start of an update step takes is a run of that step. -/
theorem takeRun_u {u : Upd} {s s1 : State} {x : LodeRun} (h : takeRun u s = (.ok x, s1)) : x.u = u := by
  unfold takeRun at h
  grind

section
variable {s s1 : State} {u : Upd} {r : List Upd} (hidle : s.lodeRun = none) (hq : s.lodeQ = u :: r)
include hidle hq

theorem exec_lodeUpdateStart_of_failed {f : Fail} (hrun : takeRun u { s with lodeQ := r } = (.error f, s1)) :
    exec .lodeUpdateStart s = .next (updFails u f s1) := by
  rw [exec_lodeUpdateStart, execLodeUpdateStart, if_neg (by simp [hidle]), hq, List.length_cons, startNext]
  simp only [hq, hrun]

variable {x : LodeRun} (hrun : takeRun u { s with lodeQ := r } = (.ok x, s1))
include hrun

theorem exec_lodeUpdateStart_of_free (hfree : updHeld x.ent u.group s1 = false) :
    exec .lodeUpdateStart s = .next (showLode u.group { s1 with lodeRun := some x }) := by
  rw [exec_lodeUpdateStart, execLodeUpdateStart, if_neg (by simp [hidle]), hq, List.length_cons, startNext]
  simp only [hq, hrun, hfree, Bool.false_eq_true, if_false]

theorem exec_lodeUpdateStart_of_held (hheld : updHeld x.ent u.group s1 = true) :
    exec .lodeUpdateStart s = .next (startNext r.length (holdUpd u s1)) := by
  rw [exec_lodeUpdateStart, execLodeUpdateStart, if_neg (by simp [hidle]), hq, List.length_cons, startNext]
  simp only [hq, hrun, hheld, if_true]

end

/-- While an update step runs, LOD_STATUS shows BUSY (R376). -/
theorem showLode_busy (g : Nat) {s : State} {x : LodeRun} (hrun : s.lodeRun = some x) : (showLode g s).rf 0 Reg.LOD_STATUS 0 0 = 1 := by
  rw [showLode, State.setRf, State.rf_setReg_of_apart _ _ _ _ _ _ (by decide), State.rf_setRf_self _ _ _ _ (le_refl 0) (by decide), hrun]
  rfl

/-- While an update step of a group runs, the group shows UPDATING (R376). -/
theorem showLode_updating {s : State} {x : LodeRun} (hrun : s.lodeRun = some x) : (showLode x.u.group s).rf x.u.group Reg.LOD_GSTATE 1 1 = 1 := by
  have hbusy : groupBusy x.u.group s = true := by simp [groupBusy, hrun]
  rw [showLode, State.rf_setRf_self _ _ _ _ (le_refl 1) (by decide), hbusy]
  rfl

/-! ### An update step is written (R25, R374, R381) -/

/-- With no checkpoint list running no write waits (R25). -/
theorem pieceHeld_of_noCkp {s : State} (h : s.ckp = none) (e : Nat × List Byte) : pieceHeld s e = false := by
  simp [pieceHeld, h]

/-- With no checkpoint list running a step makes all its writes and is done (R25, R381). -/
theorem writeRun_of_noCkp {x : LodeRun} {d : LodeData} {s s2 : State} {w : List (Nat × List Byte) × SMap W64}
    (hw : w = lodeWrites x d (s.reg64 0 Reg.LOD_SEED_LO) s.lodeGen) (hckp : s.ckp = none)
    (hput : putPieces w.1 { s with lodeGen := w.2 } = (.ok (), s2)) : writeRun_ x d s = updDone x.u (lodeIdle x.u s2) := by
  subst hw
  have hnone (l : List (Nat × List Byte)) : l.filter (pieceHeld s) = [] := by simp [pieceHeld_of_noCkp hckp]
  have hall (l : List (Nat × List Byte)) : l.filter (fun e => !pieceHeld s e) = l := by simp [pieceHeld_of_noCkp hckp]
  simp only [writeRun_, hall, hnone, hput, if_true]

/-- With no checkpoint list running a step with waiting writes makes them all and is done (R25, R381). -/
theorem flushPart_of_noCkp {p : LodePart} {s s1 : State} (hckp : s.ckp = none)
    (hput : putPieces p.left { s with lodeParts := s.lodeParts.erase p } = (.ok (), s1)) : flushPart p s = updDone p.run.u s1 := by
  have hnone : p.left.filter (pieceHeld s) = [] := by simp [pieceHeld_of_noCkp hckp]
  have hall : p.left.filter (fun e => !pieceHeld s e) = p.left := by simp [pieceHeld_of_noCkp hckp]
  simp only [flushPart, hall, hnone, hput, if_true]

section
variable {s s1 : State} {x : LodeRun} (hparts : s.lodeParts = []) (hrun : s.lodeRun = some x)
include hparts hrun

theorem exec_lodeUpdateWritten_of_read {d : LodeData} (hread : readRun x s = (.ok d, s1)) :
    exec .lodeUpdateWritten s = .next (writeRun_ x d s1) := by
  rw [exec_lodeUpdateWritten, execLodeUpdateWritten]
  simp [hparts, hrun, hread]

theorem exec_lodeUpdateWritten_of_failed {f : Fail} (hread : readRun x s = (.error f, s1)) :
    exec .lodeUpdateWritten s = .next (updFails x.u f (lodeIdle x.u s1)) := by
  rw [exec_lodeUpdateWritten, execLodeUpdateWritten]
  simp [hparts, hrun, hread]

end

/-- The waiting writes of the one step left are made when no checkpoint list runs: making them starts no other step. -/
theorem exec_lodeUpdateWritten_of_waiting {s s1 : State} {p : LodePart} (hparts : s.lodeParts = [p]) (hidle : s.lodeRun = none)
    (hckp : s.ckp = none) (hput : putPieces p.left { s with lodeParts := [] } = (.ok (), s1)) :
    exec .lodeUpdateWritten s = .next (updDone p.run.u s1) := by
  have hflush : flushPart p s = updDone p.run.u s1 := flushPart_of_noCkp hckp (by simpa [hparts] using hput)
  have hstill : (updDone p.run.u s1).lodeRun = none := by
    have hkept := putPieces_lodeRun p.left { s with lodeParts := [] }
    rw [hput] at hkept
    simpa [hidle] using hkept
  rw [exec_lodeUpdateWritten, execLodeUpdateWritten]
  simp only [hparts, List.foldl_cons, List.foldl_nil, hflush, hstill]

/-- Settles O47: each command by the branch that its conditions select. That a received ABORT sends none on is the model's reading (log entry 86), and
so is that a step's program is taken when it starts, its data when it is written (log entry 88). -/
theorem collectiveCommands : Obligations.CollectiveCommands := by
  unfold Obligations.CollectiveCommands
  constructor
  · intro s
    refine ⟨?_, fun slot p i => exec_planStepStart_of_found, fun slot p i s1 hplan hi => exec_planStepComplete_of_found hplan hi, ?_,
      fun p m e s1 hctl => exec_fetchRequestReceive_of_entry hctl, fun p m f s1 hctl => exec_fetchRequestReceive_of_noEntry hctl,
      fun p m k pl hctl => exec_fetchFailReceive_of_fetch hctl, fun p m => exec_releaseReceive_of_ctl, ?_, exec_slowSend_of_due,
      fun slot step p hplan => exec_peerTimeoutExpiry_of_over hplan, fun p m k hctl => exec_abortReceive_of_running hctl, ?_⟩
    · intro r rest k h steps parts s1 hreqs hslot hload
      exact ⟨exec_planStart_of_aborted hreqs hslot hload, exec_planStart_of_notAborted hreqs hslot hload⟩
    · intro p m r hinbox
      exact ⟨exec_chunkArrive_of_chunk hinbox, fun hkind k pl => exec_fetchReplyArrive_of_reply hinbox hkind⟩
    · intro p m hctl
      exact ⟨_, exec_slowReceive_of_ctl hctl, factorTaken_factor p m s, factorTaken_mem p m s⟩
    · intro p m hctl hslot hended hnew
      exact ⟨_, exec_abortReceive_of_unknown hctl hslot hended hnew, by simp [abortsWith], length_abortsWith_le ..⟩
  · intro s
    refine ⟨?_, fun u r f s1 hidle hq => exec_lodeUpdateStart_of_failed hidle hq, ?_,
      fun p hparts hidle hckp s1 => exec_lodeUpdateWritten_of_waiting hparts hidle hckp⟩
    · intro u r x s1 hidle hq hrun
      refine ⟨fun hfree => ⟨_, exec_lodeUpdateStart_of_free hidle hq hrun hfree, rfl, showLode_busy _ rfl, ?_, rfl⟩,
        exec_lodeUpdateStart_of_held hidle hq hrun⟩
      rw [← takeRun_u hrun]
      exact showLode_updating rfl
    · intro hparts x hrun
      refine ⟨fun d s1 hread => ?_, fun f s1 => exec_lodeUpdateWritten_of_failed hparts hrun⟩
      have hexec := exec_lodeUpdateWritten_of_read hparts hrun hread
      exact ⟨hexec, fun w hw hckp s2 hput => hexec.trans (congrArg _ (writeRun_of_noCkp hw hckp hput))⟩

end Sys2Proof.Machine
end

section
/-! PROOFS. Dispatcher and host register rows (O32): what the guards of VER, DSP_CTRL and the control registers of queues let through, and what the
writes then do (R378, R409, R441, R448, R450, R451, R522). -/

namespace Sys2Proof.Machine

/-! ### The rows of the registers -/

theorem rowOf_lodVer : RowOf Reg.LOD_VER verRule := ⟨rfl, rfl, by decide, by decide, rfl, fun _ _ _ => rfl⟩
theorem rowOf_dspCtrl : RowOf Reg.DSP_CTRL dspCtrlRule := ⟨rfl, rfl, by decide, by decide, rfl, fun _ _ _ => rfl⟩
theorem rowOf_sqCtrl : RowOf Reg.SQ_CTRL sqCtrlRule := ⟨rfl, rfl, by decide, by decide, rfl, fun _ _ _ => rfl⟩
theorem rowOf_cqCtrl : RowOf Reg.CQ_CTRL cqCtrlRule := ⟨rfl, rfl, by decide, by decide, rfl, fun _ _ _ => rfl⟩
theorem rowOf_hstEvtMask : RowOf Reg.HST_EVT_MASK evtMaskRule := ⟨rfl, rfl, by decide, by decide, rfl, fun _ _ _ => rfl⟩

/-! ### VER of a Lode group (R378) -/

/-- VER takes a word while no step of its group is held, waits or runs. -/
theorem verGuard_of_free {g : Nat} (old n : W32) {s : State} (hheld : ∀ u ∈ s.lodeHeld, u.group ≠ g) (hq : ∀ u ∈ s.lodeQ, u.group ≠ g)
    (hbusy : groupBusy g s = false) : verRule.guard g old n s = (n, s) :=
  if_neg (by simpa [hbusy] using ⟨hheld, hq⟩)

/-! ### DSP_CTRL (R409, R522) -/

section
variable {i : Nat} {old n : W32} {s : State}

/-- EN = 1 on a dispatcher with work open resumes it: the shares are not checked. -/
theorem dspCtrlGuard_of_resume (h : isEnable s = false) : dspCtrlRule.guard i old n s = (n, s) :=
  if_neg (by simp [h])

/-- EN = 1 takes shares of which at least one array is pinned and no more than are usable. -/
theorem dspCtrlGuard_of_pinned (hmin : 1 ≤ ((List.range 64).map (pinCount s)).foldl (· + ·) 0)
    (hmax : ((List.range 64).map (pinCount s)).foldl (· + ·) 0 ≤ (usable s).length) : dspCtrlRule.guard i old n s = (n, s) :=
  if_neg fun ⟨_, _, _, hbad⟩ => by omega

theorem dspCtrlGuard_of_clear (hn : fld n 0 0 = 0) : dspCtrlRule.guard i old n s = (n, s) :=
  if_neg (by simp [hn])

/-- EN that goes to 1 opens a step, after the shares are set where it enables rather than resumes. -/
theorem dspCtrlEffect_of_set (v : W32) (hold : fld old 0 0 = 0) (hn : fld n 0 0 = 1) :
    dspCtrlRule.effect i old n v s = afterItems (openNext (if isEnable s then enableDsp s else s)) :=
  if_pos ⟨hold, hn⟩

theorem dspCtrlEffect_of_clear (v : W32) (hn : fld n 0 0 = 0) : dspCtrlRule.effect i old n v s = s :=
  if_neg (by simp [hn])

/-! ### The control registers of queues (R441, R448) -/

/-- The control word of an enabled queue may change EN alone. -/
theorem enabledCtrl_of_en (h : withEn old 0 = withEn n 0) : enabledCtrl old n s = (n, s) :=
  if_pos h

/-- SQ_CTRL takes an enabling word of a queue that is well placed and names an enabled completion queue. -/
theorem sqCtrlGuard_of_enable (hold : fld old 0 0 = 0) (hn : fld n 0 0 = 1) (hok : queueOk s (sqSize s i) (fld n 1 1) = true)
    (hcq : cqEn s (fld n 15 8) = true) : sqCtrlRule.guard i old n s = (n, s) := by
  simp [sqCtrlRule, hold, hn, hok, hcq]

theorem sqCtrlGuard_of_disable (hold : fld old 0 0 = 1) (h : withEn old 0 = withEn n 0) : sqCtrlRule.guard i old n s = (n, s) :=
  (if_pos hold).trans (enabledCtrl_of_en h)

/-- An enabled submission queue starts empty, at index 0. -/
def startSq (q : Nat) (s : State) : State :=
  ((s.setSq q { s.sq q with count := 0, stop := false }).setRf q Reg.SQ_HEAD 15 0 0).setRf q Reg.SQ_TAIL 15 0 0

theorem sqCtrlEffect_of_enable (v : W32) (hold : fld old 0 0 = 0) (hn : fld n 0 0 = 1) : sqCtrlRule.effect i old n v s = startSq i s :=
  if_pos ⟨hold, hn⟩

theorem sqCtrlEffect_of_disable (v : W32) (hn : fld n 0 0 = 0) : sqCtrlRule.effect i old n v s = s :=
  if_neg (by simp [hn])

theorem cqCtrlGuard_of_enable (hold : fld old 0 0 = 0) (hok : queueOk s (cqSize s i) (fld n 1 1) = true) :
    cqCtrlRule.guard i old n s = (n, s) := by
  simp [cqCtrlRule, hold, hok]

/-- A completion queue that no enabled submission queue names may be disabled. -/
theorem cqCtrlGuard_of_disable (hold : fld old 0 0 = 1) (hfree : cqNamed s i = false) (h : withEn old 0 = withEn n 0) :
    cqCtrlRule.guard i old n s = (n, s) := by
  simp [cqCtrlRule, hold, hfree, enabledCtrl_of_en h]

theorem cqCtrlEffect_of_enable (v : W32) (hold : fld old 0 0 = 0) (hn : fld n 0 0 = 1) : cqCtrlRule.effect i old n v s = startCq i s :=
  if_pos ⟨hold, hn⟩

theorem cqCtrlEffect_of_disable (v : W32) (hn : fld n 0 0 = 0) : cqCtrlRule.effect i old n v s = s :=
  if_neg (by simp [hn])

end

section
variable (q : Nat) (s : State)

theorem startSq_head : (startSq q s).rf q Reg.SQ_HEAD 15 0 = 0 := by
  rw [startSq, State.setRf, State.rf_setReg_of_apart _ _ _ _ _ _ (by decide)]
  exact State.rf_setRf_self _ _ _ _ (by decide) (by decide)

theorem startSq_tail : (startSq q s).rf q Reg.SQ_TAIL 15 0 = 0 :=
  State.rf_setRf_self _ _ _ _ (by decide) (by decide)

/-- The start of a submission queue leaves its control register. -/
theorem startSq_ctrl (hi lo : Nat) : (startSq q s).rf q Reg.SQ_CTRL hi lo = s.rf q Reg.SQ_CTRL hi lo := by
  rw [startSq, State.setRf, State.rf_setReg_of_apart _ _ _ _ _ _ (by decide), State.setRf, State.rf_setReg_of_apart _ _ _ _ _ _ (by decide)]
  rfl

end

/-- A written register shows its new word, those of the journal aside. -/
theorem stored_reg_self {off : Nat} (h : JournalKeeps off) (p : Port) (val : W32) (rid : Nat) (r : RegDef) (i m : Nat) (n : W32) (s : State) :
    (stored ⟨p, off, val, rid⟩ r i m n s).reg i off = n := by
  rw [stored, journalWrite_reg h, State.reg_setReg_self]

/-! ### HST_RESET (R451) -/

/-- A write of HST_RESET.WARM in its turn is a warm trigger with the check of the saved state that the command carries. -/
theorem portWrite_hstReset_of_reaches {val : W32} {rid : W16} {r : RegDef} {i : Nat} {s : State} (chk : WarmCheck)
    (h : Reaches ⟨.pcie, Reg.HST_RESET, setFld val 0 0 1, rid.toNat⟩ r i (2 ^ 32 - 1) s) :
    portWrite (hstResetRule chk) ⟨.pcie, Reg.HST_RESET, setFld val 0 0 1, rid.toNat⟩ s =
      warmTrigger 3 chk (stored ⟨.pcie, Reg.HST_RESET, setFld val 0 0 1, rid.toNat⟩ r i (2 ^ 32 - 1)
        (newWord ⟨.pcie, Reg.HST_RESET, setFld val 0 0 1, rid.toNat⟩ r i (2 ^ 32 - 1) s) s) := by
  obtain ⟨hadm, -, hidle, -⟩ := h
  have hmlock : Reg.HST_RESET ≠ Reg.HST_MLOCK := by decide
  rw [portWrite, portTurn_of_idle _ hidle, writeReg]
  simp only [hadm, and_ofNat_full, mlockEvent, hmlock, false_and, if_false]
  exact if_pos (fld_setFld_bit_zero val)

/-- Settles O32: each write reaches its row's rule, whose guard lets the word through, and leaves `stored` under the rule's effect. -/
theorem dispatcherAndHostRegisterRows : Obligations.DispatcherAndHostRegisterRows := by
  unfold Obligations.DispatcherAndHostRegisterRows
  rintro p val rid s r i m a n rfl hreach rfl
  refine ⟨?_, ?_, ?_, ?_, ?_, ?_, ?_, ?_, ?_, ?_⟩
  · rintro rfl hheld hq hbusy
    rw [exec_verWrite, execVerWrite, rowWrite_of_reaches rowOf_lodVer hreach (verGuard_of_free _ _ hheld hq hbusy)]
    rfl
  · rintro rfl hold hn hopen hstill
    rw [exec_dispatcherEnable, execDispatcherEnable, rowWrite_of_reaches rowOf_dspCtrl hreach (dspCtrlGuard_of_resume hopen),
      dspCtrlEffect_of_set _ hold hn, hstill]
    rfl
  · rintro rfl hold hn - hstill hmin hmax
    rw [exec_dispatcherEnable, execDispatcherEnable, rowWrite_of_reaches rowOf_dspCtrl hreach (dspCtrlGuard_of_pinned hmin hmax),
      dspCtrlEffect_of_set _ hold hn, hstill]
    rfl
  · rintro rfl hn
    rw [exec_dispatcherDisable, execDispatcherDisable, rowWrite_of_reaches rowOf_dspCtrl hreach (dspCtrlGuard_of_clear hn),
      dspCtrlEffect_of_clear _ hn]
  · rintro rfl hold hn hok hcq
    rw [exec_sqEnable, execSqEnable, rowWrite_of_reaches rowOf_sqCtrl hreach (sqCtrlGuard_of_enable hold hn hok hcq),
      sqCtrlEffect_of_enable _ hold hn]
    refine ⟨_, rfl, startSq_head .., startSq_tail .., ?_⟩
    rw [startSq_ctrl, State.rf, stored_reg_self (by decide), hn]
  · rintro rfl hold hn hen
    rw [exec_sqDisable, execSqDisable, rowWrite_of_reaches rowOf_sqCtrl hreach (sqCtrlGuard_of_disable hold hen), sqCtrlEffect_of_disable _ hn]
  · rintro rfl hold hn hok
    rw [exec_cqEnable, execCqEnable, rowWrite_of_reaches rowOf_cqCtrl hreach (cqCtrlGuard_of_enable hold hok), cqCtrlEffect_of_enable _ hold hn]
  · rintro rfl hold hn hfree hen
    rw [exec_cqDisable, execCqDisable, rowWrite_of_reaches rowOf_cqCtrl hreach (cqCtrlGuard_of_disable hold hfree hen),
      cqCtrlEffect_of_disable _ hn]
  · rintro rfl
    rw [exec_evtMaskWrite, execEvtMaskWrite, rowWrite_of_reaches rowOf_hstEvtMask hreach rfl]
    rfl
  · rintro chk rfl
    exact congrArg _ (portWrite_hstReset_of_reaches chk hreach)

end Sys2Proof.Machine
end

section
/-! PROOFS. Collective and media instructions (O34): their issue with a token of unit 8 or 9 (R306, R314, R315, R358, R387, R388). -/

namespace Sys2Proof.Machine

@[simp] theorem Thread.setS_item (x : Thread) (r : Nat) (v : W64) : (x.setS r v).item = x.item := by
  unfold Thread.setS
  split <;> rfl

@[simp] theorem Thread.withToken_item (x : Thread) (w unit : Nat) : (x.withToken w unit).item = x.item := by
  simp [Thread.withToken, Thread.newTok]

/-- A thread that takes its token at the issue of an instruction and goes on is stored once, after the instruction (R157, R169). -/
theorem advance_setTh_withToken {u : State} {a : Fin 96} {t : Fin 64} {w unit : Nat} (hpc : (u.th a t).pc + iLen w < psWords) :
    advance a t w (u.setTh a t ((u.th a t).withToken w unit)) = u.setTh a t (((u.th a t).withToken w unit).after w) := by
  have htok := (u.th a t).withToken_toks_ne_nil w unit
  rw [advance_eq _ _ _ _ (by simpa using hpc), State.th_setTh_self]
  exact State.setTh_setTh _ _ _ (Thread.ne_free_of_toks htok) (Thread.ne_free_of_toks htok)

section
variable {s u : State} {a : Fin 96} {t : Fin 64} {w ext : Nat} (hiss : Issues s a t w ext u) (hroom : windowFull (u.th a t) = false)
include hiss hroom

/-- A coll instruction takes a token of unit 8; coll.plan also needs room among the plans (R358, R387). -/
theorem collIssue_of_issues {func : Nat} (body : Nat → Nat → Nat → W64 → W64 → State → State) (hc : iCls w = 0xD) (hf : iFunc w = func)
    (hplans : func = 0 → u.plans.length + u.planReqs.length < 64) : collIssue func body a t s =
      advance a t w (body a t (nextSeq (u.th a t).seq) ((u.th a t).sreg (iRa w)) ((u.th a t).sreg (iRb w))
        (u.setTh a t ((u.th a t).withToken w 8))) := by
  have hgo : ¬ (func = 0 ∧ 64 ≤ u.plans.length + u.planReqs.length) := by
    rintro ⟨hzero, hfull⟩
    have := hplans hzero
    omega
  rw [collIssue, issue_eq_of_fields hiss hc hf, if_neg hgo, issueAsync_eq _ _ _ _ _ _ hroom]

/-- A med instruction takes a token of unit 9 while fewer than 64 are in flight on its array (R314, R315). -/
theorem medIssue_of_issues {func : Nat} (hc : iCls w = 0xE) (hf : iFunc w = func) (hbusy : unitBusy u a 9 < 64) :
    medIssue func a t s = advance a t w (
      if func = 0 then medSubmit a t (nextSeq (u.th a t).seq) (iImm w % 1024) (if iLong w then ext % 2 ^ 32 else nextSeq (u.th a t).seq)
        ((u.th a t).dreg (iRa w % 16)) (u.setTh a t ((u.th a t).withToken w 9))
      else if func = 1 then opOk a t (nextSeq (u.th a t).seq)
        (releaseFb (((u.th a t).sreg (iRa w)).toNat % 1024) (u.setTh a t ((u.th a t).withToken w 9)))
      else medAdvance a t (nextSeq (u.th a t).seq) (iImm w % 1024) ((u.th a t).sreg (iRa w)) (u.setTh a t ((u.th a t).withToken w 9))) := by
  rw [medIssue, issue_eq_of_fields hiss hc hf]
  dsimp only
  rw [if_neg (by omega), issueAsync_eq _ _ _ _ _ _ hroom]

/-- coll.plan joins the plans that wait to start (R358). -/
theorem exec_collPlan_of_issues (hc : iCls w = 0xD) (hf : iFunc w = 0x0) (hplans : u.plans.length + u.planReqs.length < 64) :
    exec (.collPlan a t) s = .next (State.setTh
      { u with planReqs := u.planReqs ++ [⟨a, t, nextSeq (u.th a t).seq, ((u.th a t).sreg (iRa w)).toNat, (u.th a t).item⟩] } a t
      (((u.th a t).withToken w 8).after w)) := by
  have hnext := pc_lt_of_issues hiss
  have hpc (l : List PlanReq) : (State.th { u with planReqs := l } a t).pc + iLen w < psWords := hnext
  have hapart (l : List PlanReq) (x : Thread) : { u.setTh a t x with planReqs := l } = State.setTh { u with planReqs := l } a t x := rfl
  rw [exec_collPlan, execCollPlan, collIssue_of_issues hiss hroom _ hc hf (fun _ => hplans), State.th_setTh_self, Thread.withToken_item,
    State.setTh_planReqs, hapart]
  exact congrArg Host.Outcome.next (advance_setTh_withToken (hpc _))

section
variable {v : State} (hc : iCls w = 0xD) (hv : v = u.setTh a t ((u.th a t).withToken w 8)) {k : Nat} {p : Plan}
  (hgather : gatherAt (((u.th a t).sreg (iRa w)).toNat % 65536) ((u.th a t).sreg (iRb w)).toNat v = some (k, p))
  (hlanded : (p.stAt ((u.th a t).sreg (iRb w)).toNat).landed = true)
include hc hv hgather hlanded

/-- coll.slot on a landed slot completes at once (R387, R388). -/
theorem exec_collSlot_of_landed (hf : iFunc w = 0x1) :
    exec (.collSlot a t) s = .next (advance a t w (opOk a t (nextSeq (u.th a t).seq) v)) := by
  subst hv
  rw [exec_collSlot, execCollSlot, collIssue_of_issues hiss hroom _ hc hf (by simp)]
  simp only [hgather, hlanded, if_true]

/-- coll.done on a landed slot marks its fetch and completes at once (R369, R387). -/
theorem exec_collDone_of_landed (hf : iFunc w = 0x2) (hmarked : (p.stAt ((u.th a t).sreg (iRb w)).toNat).marked = false) :
    exec (.collDone a t) s =
      .next (advance a t w (opOk a t (nextSeq (u.th a t).seq) (markFetch k p ((u.th a t).sreg (iRb w)).toNat v))) := by
  subst hv
  rw [exec_collDone, execCollDone, collIssue_of_issues hiss hroom _ hc hf (by simp)]
  simp [hgather, hlanded, hmarked]

end

end

/-- Settles O34: `issue` runs the instruction's body, which takes the token by `collIssue_of_issues` or `medIssue_of_issues`. -/
theorem collectiveAndMediaInstructions : Obligations.CollectiveAndMediaInstructions := by
  unfold Obligations.CollectiveAndMediaInstructions
  rintro a t s u v w ext q x hiss rfl hroom rfl
  refine ⟨exec_collPlan_of_issues hiss hroom, fun hc hv k p hgather hlanded => ?_, ?_⟩
  · exact ⟨exec_collSlot_of_landed hiss hroom hc hv hgather hlanded, exec_collDone_of_landed hiss hroom hc hv hgather hlanded⟩
  · rintro hc hbusy rfl
    refine ⟨fun hf => ?_, fun hf => ?_, fun hf => ?_⟩
    · rw [exec_medSubmit, execMedSubmit, medIssue_of_issues hiss hroom hc hf hbusy, if_pos rfl]
    · rw [exec_medRelease, execMedRelease, medIssue_of_issues hiss hroom hc hf hbusy, if_neg (by decide), if_pos rfl]
    · rw [exec_medAdvance, execMedAdvance, medIssue_of_issues hiss hroom hc hf hbusy, if_neg (by decide), if_neg (by decide)]

end Sys2Proof.Machine
end

section
/-! PROOFS. Registers of the Peat domain (O33): what the guards and effects of the power, fault-queue and journal registers do with a write, and the
acceptance of a time set (R412, R414, R427, R480, R485, R486). -/

namespace Sys2Proof.Machine

/-! ### A write in the turn of its port, silent rules included (R481) -/

/-- A write that its rule's guard lets through stores the guard's word and has the rule's effect; a silent rule journals nothing. -/
theorem portWrite_of_woEntry {p : Port} {off i m : Nat} {val : W32} {rid : W16} {r : RegDef} {s : State} {w : WriteRule} {n : W32}
    (hmlock : off ≠ Reg.HST_MLOCK) (h : Reaches ⟨p, off, val, rid.toNat⟩ r i m s)
    (hg : w.guard i (s.reg i off) (newWord ⟨p, off, val, rid.toNat⟩ r i m s) s = (n, s)) (hwo : w.woEntry i val s = true) :
    portWrite w ⟨p, off, val, rid.toNat⟩ s = w.effect i (s.reg i off) n (val &&& BitVec.ofNat 32 m)
      (if w.silent = true then s.setReg i off n else stored ⟨p, off, val, rid.toNat⟩ r i m n s) := by
  obtain ⟨hadm, -, hidle, -⟩ := h
  unfold newWord at hg
  rw [portWrite, portTurn_of_idle _ hidle]
  simp only [writeReg, hadm, hg, hwo, if_true, mlockEvent, hmlock, false_and, if_false]
  rfl

/-! ### Limits (R414) -/

theorem rangeGuard_of_inside {lo hi i : Nat} (old : W32) {n : W32} (s : State) (hlo : lo ≤ n.toNat) (hhi : n.toNat ≤ hi) :
    (rangeRule lo hi).guard i old n s = (n, s) :=
  if_pos ⟨hlo, hhi⟩

/-- A limit inside its range is stored. -/
theorem portWrite_rangeRule_of_inside {lo hi off : Nat} (hmlock : off ≠ Reg.HST_MLOCK) {p : Port} {i m : Nat} {val : W32} {rid : W16} {r : RegDef}
    {s : State} (h : Reaches ⟨p, off, val, rid.toNat⟩ r i m s) (hlo : lo ≤ (newWord ⟨p, off, val, rid.toNat⟩ r i m s).toNat)
    (hhi : (newWord ⟨p, off, val, rid.toNat⟩ r i m s).toNat ≤ hi) : portWrite (rangeRule lo hi) ⟨p, off, val, rid.toNat⟩ s =
      stored ⟨p, off, val, rid.toNat⟩ r i m (newWord ⟨p, off, val, rid.toNat⟩ r i m s) s :=
  portWrite_of_woEntry hmlock h (rangeGuard_of_inside _ s hlo hhi) rfl

/-! ### Arrays off and on (R412) -/

theorem fld_two_bits (v : W32) : fld v 1 0 = fld v 0 0 + 2 * fld v 1 1 := by
  simp only [fld, bits, Nat.shiftRight_eq_div_pow]
  omega

/-- OFF written alone. -/
theorem fld_off_alone {val : W32} (h : fld val 1 1 = 0) : fld (setFld val 0 0 1) 1 0 = 1 := by
  rw [fld_two_bits, fld_setFld_bit_zero, fld_setFld_of_apart val 1 (le_refl 0) (by decide) (by decide), h]

/-- ON written alone. -/
theorem fld_on_alone {val : W32} (h : fld val 0 0 = 0) : fld (setFld val 1 1 1) 1 0 = 2 := by
  rw [fld_two_bits, fld_setFld_self val 1 (le_refl 1) (by decide), fld_setFld_of_apart val 1 (le_refl 1) (by decide) (by decide), h]
  decide

section
variable {v : W32} {s : State} {l ph : Nat} (hl : l = s.rf 0 Reg.PWR_OFF_IDX 6 0) (hmax : l ≤ 95) (hph : physOf s l = some ph)
include hl hmax hph

/-- OFF for an array that is not OFF and holds no item is carried out. -/
theorem offCmd_of_off (hv : fld v 1 0 = 1) (hon : s.pst ph ≠ .off) (hfree : arrHeld s l = false) : offCmd v s = .off l ph := by
  subst hl
  simp [offCmd, hv, hph, hon, hfree, Nat.not_lt.2 hmax]

/-- ON for an OFF array is carried out. -/
theorem offCmd_of_on (hv : fld v 1 0 = 2) (hoff : s.pst ph = .off) : offCmd v s = .on ph := by
  subst hl
  simp [offCmd, hv, hph, hoff, Nat.not_lt.2 hmax]

end

theorem pst_arrayOff (a p : Nat) (s : State) : (arrayOff a p s).pst p = .off :=
  State.pst_of_put (s := clearArray a (failSramWait p (zeroRange (windowOf p) 0x2000000 s))) rfl

theorem pst_arrayOn (p : Nat) (s : State) : (arrayOn p s).pst p = .idle := State.pst_of_put (s := s) rfl

/-- The write of PWR_OFF_CTRL leaves everything that decides its command. -/
theorem offCmd_stored (v : W32) (p : Port) (val : W32) (rid : Nat) (r : RegDef) (i m : Nat) (n : W32) (s : State) :
    offCmd v (stored ⟨p, Reg.PWR_OFF_CTRL, val, rid⟩ r i m n s) = offCmd v s := by
  have hidx := stored_rf (o := Reg.PWR_OFF_IDX) (off := Reg.PWR_OFF_CTRL) (by decide) (by decide) p val rid r i m n s 0 6 0
  obtain ⟨_, _, _, _, hst⟩ := journalApart_stored ⟨p, Reg.PWR_OFF_CTRL, val, rid⟩ r i m n s
  unfold offCmd
  rw [hidx, hst]
  rfl

/-- A write of PWR_OFF_CTRL that acts runs its command on the state that the write leaves. -/
theorem portWrite_pwrOffRule_of_acts {p : Port} {i : Nat} {val : W32} {rid : W16} {r : RegDef} {s : State}
    (h : Reaches ⟨p, Reg.PWR_OFF_CTRL, val, rid.toNat⟩ r i (2 ^ 32 - 1) s) {c : OffCmd} (hc : offCmd val s = c) (hacts : c.acts = true) :
    portWrite pwrOffRule ⟨p, Reg.PWR_OFF_CTRL, val, rid.toNat⟩ s = runOffCmd c (stored ⟨p, Reg.PWR_OFF_CTRL, val, rid.toNat⟩ r i (2 ^ 32 - 1)
      (newWord ⟨p, Reg.PWR_OFF_CTRL, val, rid.toNat⟩ r i (2 ^ 32 - 1) s) s) := by
  subst hc
  rw [portWrite_of_woEntry (by decide) h rfl hacts, and_ofNat_full]
  exact congrArg (runOffCmd · _) (offCmd_stored ..)

/-! ### The fault queue and the journal (R480, R486) -/

theorem headSeqGuard_of_inside {i : Nat} (old : W32) {n : W32} {s : State} (hlo : s.faults.head < n.toNat) (hhi : n.toNat ≤ s.faults.next) :
    headSeqRule.guard i old n s = (n, s) :=
  if_pos ⟨hlo, hhi⟩

/-- JRN_CTRL takes any word while the spill ring has slots. -/
theorem jrnCtrlGuard_of_slots {i : Nat} (old n : W32) {s : State} (h : spillSlots s ≠ 0) : jrnCtrlRule.guard i old n s = (n, s) :=
  if_neg fun ⟨_, _, hnone⟩ => h hnone

/-- The spill starts with every entry held unspilled and an empty spill ring. -/
def startSpill (s : State) : State :=
  ({ s with jrn := { s.jrn with unspilled := s.jrn.ring.length } }.setReg 0 Reg.JRN_SPILL_WR 0).setReg 0 Reg.JRN_SPILL_RD 0

theorem jrnCtrlEffect_of_enable {i : Nat} {old n : W32} (v : W32) (s : State) (hold : fld old 0 0 = 0) (hn : fld n 0 0 = 1) :
    jrnCtrlRule.effect i old n v s = startSpill s :=
  if_pos ⟨hold, hn⟩

theorem startSpill_wr (s : State) : (startSpill s).reg 0 Reg.JRN_SPILL_WR = 0 := by
  rw [startSpill, State.reg_setReg_of_ne _ _ (by decide), State.reg_setReg_self]

theorem startSpill_rd (s : State) : (startSpill s).reg 0 Reg.JRN_SPILL_RD = 0 := State.reg_setReg_self ..

theorem spillRdGuard_of_inside {i : Nat} (old : W32) {n : W32} {s : State} (h : fld n 23 0 < spillSlots s) :
    spillRdRule.guard i old n s = (n, s) :=
  if_pos h

/-! ### The time base is set (R427) -/

section
variable (a : RegAcc) (s : State)

/-- Dropping a pending half touches the halves held for the ports alone. -/
theorem usePending_eq_halves : ∃ x y, usePending a s = { s with halfPcie := x, halfMgmt := y } := by
  unfold usePending
  split
  · split
    · cases a.port <;> exact ⟨_, _, rfl⟩
    · exact ⟨_, _, rfl⟩
  · exact ⟨_, _, rfl⟩

@[simp] theorem usePending_rf (i off hi lo : Nat) : (usePending a s).rf i off hi lo = s.rf i off hi lo := by
  obtain ⟨_, _, hhalves⟩ := usePending_eq_halves a s
  rw [hhalves]
  rfl

end

section
variable {a : RegAcc} {r : RegDef} {i m : Nat} {s : State}

/-- With the dispatcher disabled a time set is journaled and waits for the next tick. -/
theorem tbSet_of_disabled (h : admitWrite a s = .yes r i m s) (hen : s.rf 0 Reg.DSP_CTRL 0 0 = 0) : ∃ t, JournalApart (usePending a s) t ∧
    tbSet a s = { t with tbJump := some (BitVec.ofNat 64 ((joinedLo a i s).toNat + 2 ^ 32 * a.val.toNat)) } := by
  simp only [tbSet, h, usePending_rf, hen, Nat.zero_ne_one, if_false]
  exact ⟨_, journalApart_jrnAppend _ _, rfl⟩

/-- With the dispatcher enabled a time set is refused with its error flag. -/
theorem tbSet_of_enabled (h : admitWrite a s = .yes r i m s) (hen : s.rf 0 Reg.DSP_CTRL 0 0 = 1) :
    tbSet a s = (usePending a s).setRf 0 Reg.CLK_STATUS 16 16 1 := by
  simp only [tbSet, h, usePending_rf, hen, if_true]

end

theorem rowWrite_tbSet_of_reaches {p : Port} {i m : Nat} {val : W32} {rid : W16} {r : RegDef} {s : State}
    (h : Reaches ⟨p, Reg.CLK_TB_SET_HI, val, rid.toNat⟩ r i m s) :
    rowWrite p Reg.CLK_TB_SET_HI val rid s = tbSet ⟨p, Reg.CLK_TB_SET_HI, val, rid.toNat⟩ s := by
  obtain ⟨-, hclk, hidle, -⟩ := h
  rw [rowWrite, busWrite_eq_writeAny hidle, writeAny_eq_writeNow hclk, writeNow, if_pos rfl]

/-- Settles O33: each write reaches its register's rule, whose guard lets the word through; a time set asks DSP_CTRL.EN. -/
theorem peatDomainRegisterRows : Obligations.PeatDomainRegisterRows := by
  unfold Obligations.PeatDomainRegisterRows
  rintro p val rid s r i m a n hreach rfl
  refine ⟨?_, ?_, ?_, ?_, ?_, ?_, ?_, ?_, ?_, ?_, ?_⟩
  · rintro rfl hlo hhi
    exact congrArg Host.Outcome.next (portWrite_rangeRule_of_inside (by decide) hreach hlo hhi)
  · rintro rfl hlo hhi
    exact congrArg Host.Outcome.next (portWrite_rangeRule_of_inside (by decide) hreach hlo hhi)
  · rintro rfl hhi
    exact congrArg Host.Outcome.next (portWrite_rangeRule_of_inside (by decide) hreach (Nat.zero_le _) hhi)
  · rintro l ph rfl rfl hon hl hmax hph hrun hfree
    rw [exec_pwrOff, execPwrOff,
      portWrite_pwrOffRule_of_acts hreach (offCmd_of_off hl hmax hph (fld_off_alone hon) hrun hfree) rfl]
    exact ⟨_, rfl, pst_arrayOff ..⟩
  · rintro l ph rfl rfl hoff hl hmax hph hpst
    rw [exec_pwrOn, execPwrOn, portWrite_pwrOffRule_of_acts hreach (offCmd_of_on hl hmax hph (fld_on_alone hoff) hpst) rfl]
    refine ⟨_, rfl, ?_⟩
    rw [runOffCmd, pst_arrayOn]
    decide
  · rintro rfl hlo hhi
    rw [exec_fltHeadSeqWrite, execFltHeadSeqWrite,
      portWrite_of_woEntry (by decide) hreach (headSeqGuard_of_inside _ hlo hhi) rfl]
    exact ⟨_, rfl, rfl, rfl, rfl, rfl⟩
  · rintro ev rfl
    exact congrArg Host.Outcome.next (portWrite_of_woEntry (w := jrnRdRule ev) (by decide) hreach rfl rfl)
  · rintro rfl hold hn hslots
    rw [exec_spillEnable, execSpillEnable, portWrite_of_woEntry (by decide) hreach (jrnCtrlGuard_of_slots _ _ hslots) rfl,
      jrnCtrlEffect_of_enable _ _ hold hn]
    exact ⟨_, rfl, rfl, startSpill_wr _, startSpill_rd _⟩
  · rintro rfl hin
    exact congrArg Host.Outcome.next (portWrite_of_woEntry (by decide) hreach (spillRdGuard_of_inside _ hin) rfl)
  · rintro rfl hen
    obtain ⟨_, ⟨_, _, _, _, rfl⟩, ht⟩ := tbSet_of_disabled hreach.1 hen
    obtain ⟨_, _, hhalves⟩ := usePending_eq_halves ⟨p, Reg.CLK_TB_SET_HI, val, rid.toNat⟩ s
    rw [exec_tbSetWrite, execTbSetWrite, rowWrite_tbSet_of_reaches hreach, ht, hhalves]
    exact ⟨_, rfl, rfl, rfl, rfl⟩
  · rintro rfl hen
    obtain ⟨_, _, hhalves⟩ := usePending_eq_halves ⟨p, Reg.CLK_TB_SET_HI, val, rid.toNat⟩ s
    rw [exec_tbSetWrite, execTbSetWrite, rowWrite_tbSet_of_reaches hreach, tbSet_of_enabled hreach.1 hen, hhalves]
    exact ⟨_, rfl, rfl, State.rf_setRf_self _ _ _ _ (by decide) (by decide)⟩

end Sys2Proof.Machine
end

section
/-! PROOFS. Dispatcher commands (O51): an item is taken, started, bound, loaded, completed or replayed, and a step ends, each where its condition holds
(R391, R394, R397 to R404, R472, R473). -/

namespace Sys2Proof.Machine

/-- An enabled dispatcher takes the oldest WORK entry that may start (R391). -/
theorem exec_workEntry_of_startable {q : Fin 256} {k : Nat} {e : HEntry} {s : State} (hen : s.rf 0 Reg.DSP_CTRL 0 0 = 1)
    (hk : startable (s.sq q) 1 = some k) (he : (s.sq q).ents[k]? = some e) :
    exec (.workEntry q) s = .next (takeItem (Item.fresh (itemId q e.idx) e.raw) (modEntry q k HEntry.start s)) := by
  have hdsp : dspEn s = true := by simp [dspEn, hen]
  rw [exec_workEntry, execWorkEntry]
  simp [hdsp, hk, he]

section
variable {id : W64} {i : Item} {s : State} (hi : s.item? id.toNat = some i)
include hi

/-! ### Start (R393, R399 to R402) -/

section
variable (hmay : itemMayStart s i = true)
include hmay

/-- A join of the evaluation kind completes at once. -/
theorem exec_itemStart_of_join (hjoin : i.nthr = 0) : exec (.itemStart id) s = .next (finishItem i s) := by
  simp [execItemStart, hi, hmay, hjoin]

/-- Placement on a retired or OFF array completes the item. -/
theorem exec_itemStart_of_placeFail {st : Status} (hthr : i.nthr ≠ 0) (hfail : placeFail s i = some st) :
    exec (.itemStart id) s = .next (afterItems (endItem i.id st s)) := by
  simp [execItemStart, hi, hmay, hthr, hfail]

/-- With a place and its batch an attempt begins. -/
theorem exec_itemStart_of_placed {a : Nat} {b : Bool} {batch : Option (Nat × Nat)} (hthr : i.nthr ≠ 0) (hfail : placeFail s i = none)
    (hplace : placeItem s i = some (a, b)) (hbatch : startBatch s i = some batch) :
    exec (.itemStart id) s = .next (beginAttempt i a b batch s) := by
  simp [execItemStart, hi, hmay, hthr, hfail, hplace, hbatch]

end

/-! ### Binding and load (R141, R394) -/

section
variable {p : Nat} (hp : physOf s i.arr = some p) (hrun : s.pst p = .run)
include hp hrun

theorem exec_tableBindDone_of_run (hbind : i.phase = .bind) : exec (.tableBindDone id) s = .next (bindItem i i.arr p s) := by
  simp [execTableBindDone, hi, hp, hrun, hbind]

/-- With the array in RUN, HBM ready and the item's threads FREE, the load of its image decides. -/
theorem exec_imageLoadDone_of_ready (hload : i.phase = .load) (hmem : s.rf 0 Reg.MEM_STATUS 1 1 = 1)
    (hfree : ∀ k ∈ i.threads, (s.th i.arr k).st = .free) : exec (.imageLoadDone id) s =
      .next (match loadImage i p s with
        | (.ok _, s1) => startThreads i s1
        | (.error f, s1) => startFail i.id f false (writeFault (imageRecord p f.va i.id f) s1)) := by
  have hall : i.threads.all (fun k => (s.th i.arr k).st == .free) = true := by simpa using hfree
  simp only [exec_imageLoadDone, execImageLoadDone, hi, hp, hload, hrun, hmem, hall]
  rcases loadImage i p s with ⟨_ | _, _⟩ <;> rfl

end

/-! ### End and replay (R177, R472, R473) -/

/-- With all its threads DONE an item waits for its replay where it has one, and completes where not. -/
theorem exec_workItemComplete_of_done (hrun : i.phase = .run) (hdone : threadsDone s i = true) : exec (.workItemComplete id) s =
    .next (if i.willReplay s = true then (endAttempt i s).modItem i.id (fun j => { j with phase := .replay })
      else finishItem i (endAttempt i s)) := by
  simp only [exec_workItemComplete, execWorkItemComplete, hi, hrun, hdone]
  cases i.willReplay s <;> rfl

section
variable (hreplay : i.phase = .replay)
include hreplay

/-- On a logical array retired since, the replay fails with INTERNAL. -/
theorem exec_replayStart_of_retired (hp : physOf s i.arr = none) : exec (.replayStart id) s =
    .next (finishItem { i with fail := mkFail .internal 0 } (s.modItem i.id (fun j => { j with fail := mkFail .internal 0 }))) := by
  simp [execReplayStart, hi, hreplay, hp]

/-- With room on its array the replay begins there, counted. -/
theorem exec_replayStart_of_room {p : Nat} (hp : physOf s i.arr = some p) (hroom : i.nthr ≤ freeThreads s i.arr)
    (hclash : imageClash s i.arr i = false) : exec (.replayStart id) s = .next (beginAttempt i i.arr false i.batch
      ((s.modItem i.id (fun j => { j with replays := j.replays + 1 })).count 0 Reg.FLT_REPLAYS 1)) := by
  simp [execReplayStart, hi, hreplay, hp, hroom, hclash]

end

end

/-! ### The step ends (R398) -/

theorem exec_stepBoundary_of_atBoundary {n : Nat} {s : State} (hopen : s.openStep = some n) (hat : atBoundary s n = true) :
    exec .stepBoundary s = .next (recordBoundary n s) := by
  simp [execStepBoundary, hopen, hat]

/-- Settles O51: each command finds the item in the phase that it acts on. -/
theorem dispatcherCommands : Obligations.DispatcherCommands := by
  unfold Obligations.DispatcherCommands
  intro s
  refine ⟨fun q k e => exec_workEntry_of_startable, fun id i hi => ⟨fun hmay => ?start, fun p hp hrun => ?prepare, fun hrun hdone => ?complete,
    fun hreplay => ?replay⟩, fun n => exec_stepBoundary_of_atBoundary, rfl⟩
  case start =>
    exact ⟨exec_itemStart_of_join hi hmay, fun st => exec_itemStart_of_placeFail hi hmay, fun a b batch => exec_itemStart_of_placed hi hmay⟩
  case prepare =>
    refine ⟨exec_tableBindDone_of_run hi hp hrun, fun hload hmem hfree => ?_⟩
    rw [exec_imageLoadDone_of_ready hi hp hrun hload hmem hfree]
    exact ⟨fun s1 himg => by rw [himg], fun f s1 himg => by rw [himg]⟩
  case complete =>
    rw [exec_workItemComplete_of_done hi hrun hdone]
    exact ⟨fun hnot => by rw [hnot, if_neg Bool.false_ne_true], fun hwill => by rw [if_pos hwill]⟩
  case replay =>
    exact ⟨exec_replayStart_of_retired hi hreplay, fun p => exec_replayStart_of_room hi hreplay⟩

end Sys2Proof.Machine
end

section
/-! PROOFS. One tick of the Peat domain: what it does to elapsed time and the time base (O35, R11, R425 to R427). -/

namespace Sys2Proof.Machine

/-! ### Folds that keep a part of the state -/

/-- What every step of a fold keeps, the fold keeps. -/
theorem foldl_keeps {α β : Type} (g : State → β) {f : State → α → State} (hf : ∀ s x, g (f s x) = g s) (l : List α) (s : State) :
    g (l.foldl f s) = g s :=
  List.foldlRecOn l f (motive := fun t => g t = g s) rfl fun t ht x _ => (hf t x).trans ht

/-! ### One tick (R425 to R427) -/

/-- What the passing of time reads and moves: elapsed time, the time base with its jump, the stages of a start, and the host accesses that wait. -/
def State.timing (s : State) : Nat × W64 × Option W64 × UpState × List WaitAcc := (s.now, s.tb, s.tbJump, s.up, s.busHeld)

theorem timing_chargeArray (a : Nat) (s : State) : (chargeArray a s).timing = s.timing := by
  unfold chargeArray
  split
  · rfl
  · split
    · rfl
    · refine foldl_keeps State.timing ?_ _ _
      exact fun _ _ => rfl

theorem timing_chargeTick (s : State) : (chargeTick s).timing = s.timing := foldl_keeps State.timing (fun t a => timing_chargeArray a t) _ s

theorem timing_countCores (s : State) : (countCores s).timing = s.timing := by
  unfold countCores
  split
  · rfl
  · refine foldl_keeps State.timing ?_ _ _
    exact fun t u => by split <;> rfl

theorem timing_countHolds (s : State) : (countHolds s).timing = s.timing := by
  refine foldl_keeps State.timing ?_ _ _
  exact fun t e => by split <;> rfl

theorem timing_countThrottle (s : State) : (countThrottle s).timing = s.timing := by
  unfold countThrottle
  split <;> rfl

/-- What `advanceTime` makes of the time: elapsed time goes on, and while the Peat domain is up the time base takes its jump or the next value. -/
theorem timing_advanceTime (s : State) : (advanceTime s).timing =
    (s.now + 1, if s.up.peat then s.tbJump.getD (s.tb + 1) else s.tb, if s.up.peat then none else s.tbJump, s.up, s.busHeld) := by
  unfold advanceTime
  cases hp : s.up.peat with
  | false => rfl
  | true =>
    cases hj : s.tbJump with
    | none => simp [State.timing]
    | some v => simp [State.timing]

theorem timing_advanceTime_congr {s t : State} (h : t.timing = s.timing) : (advanceTime t).timing = (advanceTime s).timing := by
  simp only [State.timing, Prod.mk.injEq] at h
  obtain ⟨hnow, htb, hjump, hup, hheld⟩ := h
  simp only [timing_advanceTime, hnow, htb, hjump, hup, hheld]

theorem timing_noteActivity (s : State) : (noteActivity s).timing = s.timing := rfl

theorem busHeld_of_timing {s t : State} (h : t.timing = s.timing) : t.busHeld = s.busHeld := congrArg (fun x => x.2.2.2.2) h

/-- While no host access waits, a tick moves the time as `advanceTime` does; the counters it advances stand apart from the time. -/
theorem timing_tick {s : State} (h : s.busHeld = []) : (tick s).timing = (advanceTime s).timing := by
  unfold tick
  split
  · have htime : (noteActivity (countThrottle (countHolds (countCores (advanceTime (chargeTick s)))))).timing = (advanceTime s).timing := by
      rw [timing_noteActivity, timing_countThrottle, timing_countHolds, timing_countCores, timing_advanceTime_congr (timing_chargeTick s)]
    have hheld : (advanceTime s).busHeld = s.busHeld := congrArg (fun x => x.2.2.2.2) (timing_advanceTime s)
    rw [drainBus_of_none ((busHeld_of_timing htime).trans (hheld.trans h)), htime]
  · rfl

/-- Settles O35: an empty queue is a tick by the definition of `step`; what a tick does to the time is `timing_tick`. -/
theorem tickAdvancesTheTimeBase : Obligations.TickAdvancesTheTimeBase := by
  unfold Obligations.TickAdvancesTheTimeBase
  intro s
  have htick (h : s.busHeld = []) := (timing_tick h).trans (timing_advanceTime s)
  simp only [State.timing, Prod.mk.injEq] at htick
  refine ⟨fun hp => by simp only [step, hp], fun hheld => ?_, fun hheld hpeat j hj => ?_⟩
  · obtain ⟨hnow, htb, -⟩ := htick hheld
    exact ⟨hnow, htb⟩
  · obtain ⟨hnow, htb, hjump, -⟩ := htick hheld
    rw [if_pos hpeat] at htb hjump
    exact ⟨_, by rw [exec_timeBaseJump, execTimeBaseJump, hj]; rfl, by rw [htb, hj]; rfl, hjump, hnow⟩

end Sys2Proof.Machine
end

section
/-! PROOFS. Writes that the register bus takes whole, drops or refuses: plain registers (O26, R431, R481, R520) and the rights of the ports (O27, R437 to
R440). -/

namespace Sys2Proof.Machine

/-! ### What raising an event cause touches (R450) -/

/-- Raising an event cause touches registers, outputs and pending vectors alone. -/
theorem raiseEvt_eq (e : Evt) (s : State) : ∃ g o p, raiseEvt e s = { s with regs := g, out := o, msixPend := p } := by
  unfold raiseEvt sendMsix
  dsimp only
  split
  · split <;> exact ⟨_, _, _, rfl⟩
  · exact ⟨_, _, _, rfl⟩

@[simp] theorem raiseEvt_jrn (e : Evt) (s : State) : (raiseEvt e s).jrn = s.jrn := by
  obtain ⟨_, _, _, h⟩ := raiseEvt_eq e s
  rw [h]

/-- Of the registers, raising an event cause touches HST_EVT_CAUSE alone. -/
theorem raiseEvt_reg_of_apart (e : Evt) (s : State) (j : Nat) {o : Nat} (h : o % 0x4000000 ≠ Reg.HST_EVT_CAUSE % 0x4000000) :
    (raiseEvt e s).reg j o = s.reg j o := by
  have hset (x : Nat) : (s.setRf 0 Reg.HST_EVT_CAUSE e.bit e.bit x).reg j o = s.reg j o :=
    State.reg_setReg_of_ne _ _ (regKey_ne_of_apart _ _ h)
  unfold raiseEvt
  dsimp only
  split
  · rw [sendMsix_reg, hset]
  · exact hset 1

/-! ### Writes of BAR0 (R431) -/

section
variable {s : State} (hcfg : s.up.cfgReady = true) (hlink : s.linkUp = true)
include hcfg hlink

theorem bar0Write_of_whole (k : State → State) : bar0Write true false k s = k s := by simp [bar0Write, hcfg, hlink]

theorem bar0Write_of_part (k : State → State) : bar0Write false false k s = s.setRf 0 Reg.HST_STATUS 2 2 1 := by
  simp [bar0Write, hcfg, hlink]

theorem bar0Write_of_poison (whole : Bool) (k : State → State) : bar0Write whole true k s = (s.setRf 0 Reg.HST_STATUS 4 4 1).emit .aer := by
  simp [bar0Write, hcfg, hlink]

end

/-- REGISTER_WRITE of the PCIe port is a write of BAR0. -/
theorem exec_registerWrite_of_pcie {a : RegAcc} (h : a.port = .pcie) (whole poison : Bool) (s : State) :
    exec (.registerWrite a whole poison) s = .next (bar0Write whole poison (busWrite a) s) := by
  rw [exec_registerWrite, execRegisterWrite, h]

/-! ### Plain registers (R7, R481, R520) -/

/-- The PCIe port writes no HST_MLOCK (R437). -/
theorem notMlock_of_admitWrite_pcie {a : RegAcc} {r : RegDef} {i m : Nat} {s t : State} (h : admitWrite a s = .yes r i m t) (hp : a.port = .pcie) :
    a.off ≠ Reg.HST_MLOCK := by
  intro hoff
  have hforbid : pcieForbidden a.off = true := by rw [hoff]; rfl
  unfold admitWrite portRights at h
  simp only [hp, hforbid, if_true] at h
  split at h
  · exact absurd h nofun
  · split at h
    · exact absurd h nofun
    · split at h <;> exact absurd h nofun

/-- A write under no rule of its own stores the word that the access codes of its fields give, and journals it. -/
theorem writeReg_plain_of_reaches {a : RegAcc} {r : RegDef} {i m : Nat} {s : State} (h : Reaches a r i m s) (hm : a.off ≠ Reg.HST_MLOCK) :
    writeReg .plain a s = stored a r i m (newWord a r i m s) s := by
  obtain ⟨hadm, -⟩ := h
  simp only [writeReg, hadm, mlockEvent, hm, false_and, if_false]
  rfl

/-- A write of a whole register reaches its rule through the bus. -/
theorem busWrite_of_single {a : RegAcc} {r : RegDef} {i m : Nat} {s : State} (h : Reaches a r i m s) (hsingle : r.pair = .single)
    (hfc : a.off ≠ Reg.MEM_FCLASS_DATA) (htb : a.off ≠ Reg.CLK_TB_SET_HI) : busWrite a s = writeReg (ruleAt a.off) a s := by
  obtain ⟨hadm, hclk, hidle, -⟩ := h
  rw [busWrite_eq_writeAny hidle, writeAny_eq_writeNow hclk]
  simp only [writeNow, if_neg htb, if_neg hfc, regDef?_of_admitWrite hadm, hsingle]

/-- Settles O26: a whole clean write reaches the plain rule, a partial or a poisoned one ends at the port. -/
theorem plainRegisterWrites : Obligations.PlainRegisterWrites := by
  unfold Obligations.PlainRegisterWrites
  intro a r i m s hreach hport hsingle hplain hfc htb hcfg hlink
  simp only [exec_registerWrite_of_pcie hport]
  refine ⟨?_, by rw [bar0Write_of_part hcfg hlink], by rw [bar0Write_of_poison hcfg hlink]⟩
  rw [bar0Write_of_whole hcfg hlink, busWrite_of_single hreach hsingle hfc htb, hplain,
    writeReg_plain_of_reaches hreach (notMlock_of_admitWrite_pcie hreach.1 hport)]

/-! ### Refused writes (R437 to R440) -/

/-- A write to a register that is there, selected and open is decided by the rights of its port. -/
theorem admitWrite_eq_portRights {a : RegAcc} {r : RegDef} {i : Nat} {s : State} (hal : a.off % 4 = 0) (hopen : busOpen a.port a.off s = true)
    (hdef : regDef? a.off = some r) (hinst : instOfReg r a.port s = some i) (habs : absentUnit a.off s = false) :
    admitWrite a s = portRights a r i s := by
  simp [admitWrite, hal, hopen, habs, hdef, hinst]

theorem portRights_of_mgmt {a : RegAcc} {r : RegDef} {i : Nat} {s : State} (hp : a.port = .mgmt) (hmask : mgmtMask r = 0) :
    portRights a r i s = .no (refuseWrite a s) := by
  simp [portRights, hp, hmask]

theorem portRights_of_forbidden {a : RegAcc} {r : RegDef} {i : Nat} {s : State} (hp : a.port = .pcie) (hforbid : pcieForbidden a.off = true) :
    portRights a r i s = .no (refuseWrite a s) := by
  simp [portRights, hp, hforbid]

theorem portRights_of_locked {a : RegAcc} {r : RegDef} {i : Nat} {s : State} (hp : a.port = .pcie) (hlock : mLocked a.off s = true)
    (hsel : r.inst ≠ .chsel) (haim : w1cMask r = 0 ∨ aimsBeyondW1c a r i s = true) : portRights a r i s = .no (refuseWrite a s) := by
  simp [portRights, hp, hlock, hsel, haim]

/-- Registers that a refused write leaves: all but those that report it, and HST_EVT_CAUSE (R440, R450). -/
theorem refuseWrite_reg_of_apart (a : RegAcc) (s : State) (j : Nat) {o : Nat} (hcount : o % 0x4000000 ≠ Reg.HST_REFUSED % 0x4000000)
    (hlast : o % 0x4000000 ≠ Reg.HST_LAST_REFUSED % 0x4000000) (hstatus : o % 0x4000000 ≠ Reg.HST_STATUS % 0x4000000)
    (hcause : o % 0x4000000 ≠ Reg.HST_EVT_CAUSE % 0x4000000) : (refuseWrite a s).reg j o = s.reg j o := by
  rw [refuseWrite, raiseEvt_reg_of_apart _ _ _ hcause, State.setRf, State.reg_setReg_of_ne _ _ (regKey_ne_of_apart _ _ hstatus),
    State.reg_setReg_of_ne _ _ (regKey_ne_of_apart _ _ hlast), State.count, State.reg_setReg_of_ne _ _ (regKey_ne_of_apart _ _ hcount)]

theorem refuseWrite_refused (a : RegAcc) (s : State) : (refuseWrite a s).reg 0 Reg.HST_REFUSED = satAdd32 (s.reg 0 Reg.HST_REFUSED) 1 := by
  rw [refuseWrite, raiseEvt_reg_of_apart _ _ _ (by decide), State.setRf, State.reg_setReg_of_ne _ _ (regKey_ne_of_apart _ _ (by decide)),
    State.reg_setReg_of_ne _ _ (regKey_ne_of_apart _ _ (by decide)), State.count, State.reg_setReg_self]

theorem refuseWrite_lastRefused (a : RegAcc) (s : State) :
    (refuseWrite a s).reg 0 Reg.HST_LAST_REFUSED = BitVec.ofNat 32 (a.off % 2 ^ 26 + 2 ^ 31 * portIdx a.port) := by
  rw [refuseWrite, raiseEvt_reg_of_apart _ _ _ (by decide), State.setRf, State.reg_setReg_of_ne _ _ (regKey_ne_of_apart _ _ (by decide)),
    State.reg_setReg_self]

theorem refuseWrite_status (a : RegAcc) (s : State) : (refuseWrite a s).rf 0 Reg.HST_STATUS 3 3 = 1 := by
  rw [refuseWrite, State.rf, raiseEvt_reg_of_apart _ _ _ (by decide)]
  exact State.rf_setRf_self _ _ _ _ (by decide) (by decide)

@[simp] theorem refuseWrite_jrn (a : RegAcc) (s : State) : (refuseWrite a s).jrn = s.jrn := raiseEvt_jrn ..

/-- Settles O27: the rights of the port refuse each of the writes named, and a refused write touches only the registers that report it. -/
theorem refusedWritesAreCountedAndChangeNothing : Obligations.RefusedWritesAreCountedAndChangeNothing := by
  unfold Obligations.RefusedWritesAreCountedAndChangeNothing
  refine ⟨fun a r i s hal hopen hdef hinst habs hrights => ?rights, fun a s w hno => ?effect⟩
  case rights =>
    rw [admitWrite_eq_portRights hal hopen hdef hinst habs]
    rcases hrights with ⟨hp, hmask⟩ | ⟨hp, hforbid | ⟨hlock, hsel, haim⟩⟩
    · exact portRights_of_mgmt hp hmask
    · exact portRights_of_forbidden hp hforbid
    · exact portRights_of_locked hp hlock hsel haim
  case effect =>
    refine ⟨by simp only [writeReg, hno], refuseWrite_refused a s, refuseWrite_lastRefused a s, refuseWrite_status a s, refuseWrite_jrn a s,
      refuseWrite_mem a s, fun i off hcount hlast hstatus hcause hlt => ?_⟩
    have hlt : off < 0x4000000 := hlt
    have apart {o : Nat} (ho : o < 0x4000000) (h : off ≠ o) : off % 0x4000000 ≠ o % 0x4000000 := by
      rwa [Nat.mod_eq_of_lt hlt, Nat.mod_eq_of_lt ho]
    exact refuseWrite_reg_of_apart a s i (apart (by decide) hcount) (apart (by decide) hlast) (apart (by decide) hstatus) (apart (by decide) hcause)

end Sys2Proof.Machine
end

section
/-! PROOFS. What fault records leave of the state (R477, R479), and clocks that start and stop (O36, R415 to R419). -/

namespace Sys2Proof.Machine

/-! ### What a fault record touches (R468, R477, R479) -/

/-- The second state differs from the first at most in what a fault record touches: registers, outputs, pending vectors and the fault unit. -/
def RecordApart (s t : State) : Prop := ∃ g o p f, t = { s with regs := g, out := o, msixPend := p, faults := f }

theorem RecordApart.trans {s t u : State} (hst : RecordApart s t) (htu : RecordApart t u) : RecordApart s u := by
  obtain ⟨_, _, _, _, rfl⟩ := hst
  obtain ⟨g, o, p, f, rfl⟩ := htu
  exact ⟨g, o, p, f, rfl⟩

theorem recordApart_raiseEvt (e : Evt) (s : State) : RecordApart s (raiseEvt e s) := by
  obtain ⟨g, o, p, h⟩ := raiseEvt_eq e s
  exact ⟨g, o, p, s.faults, h⟩

theorem recordApart_faultFlags (r : FaultIn) (o : Bool) (s : State) : RecordApart s (faultFlags r o s) := by
  unfold faultFlags
  dsimp only
  split <;> split <;> exact ⟨_, _, _, _, rfl⟩

theorem recordApart_writeFaultQuiet (r : FaultIn) (s : State) : RecordApart s (writeFaultQuiet r s).2 := by
  unfold writeFaultQuiet
  dsimp only
  split
  · exact .trans ⟨_, _, _, _, rfl⟩ (recordApart_faultFlags ..)
  · unfold dropFault
    dsimp only
    split <;> exact ⟨_, _, _, _, rfl⟩

theorem recordApart_writeFaultId (r : FaultIn) (s : State) : RecordApart s (writeFaultId r s).2 := by
  unfold writeFaultId
  dsimp only
  split
  · exact (recordApart_writeFaultQuiet r s).trans (recordApart_raiseEvt _ _)
  · exact recordApart_writeFaultQuiet r s

theorem recordApart_writeFault (r : FaultIn) (s : State) : RecordApart s (writeFault r s) := recordApart_writeFaultId r s

/-- Registers apart from the counters and flags of the fault unit and from HST_EVT_CAUSE. -/
abbrev RecordKeeps (o : Nat) : Prop :=
  o % 0x4000000 ≠ Reg.FLT_STATUS % 0x4000000 ∧ o % 0x4000000 ≠ Reg.FLT_DROP_REPORTED % 0x4000000 ∧
    o % 0x4000000 ≠ Reg.FLT_DROP_MASKED % 0x4000000 ∧ o % 0x4000000 ≠ Reg.HST_EVT_CAUSE % 0x4000000

theorem State.reg_setRf_of_apart (s : State) (i j hi lo x : Nat) {off o : Nat} (h : o % 0x4000000 ≠ off % 0x4000000) :
    (s.setRf i off hi lo x).reg j o = s.reg j o := by
  rw [State.setRf, State.reg_setReg_of_ne _ _ (regKey_ne_of_apart i j h)]

section
variable {o : Nat} (h : RecordKeeps o)
include h

theorem faultFlags_reg (r : FaultIn) (b : Bool) (s : State) (j : Nat) : (faultFlags r b s).reg j o = s.reg j o := by
  unfold faultFlags
  dsimp only
  split <;> split <;> simp only [State.reg_setRf_of_apart _ _ _ _ _ _ h.1]

theorem dropFault_reg (r : FaultIn) (s : State) (j : Nat) : (dropFault r s).reg j o = s.reg j o := by
  obtain ⟨hstatus, hreported, hmasked, -⟩ := h
  unfold dropFault
  dsimp only
  split
  · rw [State.reg_setRf_of_apart _ _ _ _ _ _ hstatus, State.reg_count_of_apart _ _ _ _ hreported, State.reg_setRf_of_apart _ _ _ _ _ _ hstatus]
  · rw [State.reg_count_of_apart _ _ _ _ hmasked, State.reg_setRf_of_apart _ _ _ _ _ _ hstatus]

theorem writeFaultQuiet_reg (r : FaultIn) (s : State) (j : Nat) : (writeFaultQuiet r s).2.reg j o = s.reg j o := by
  unfold writeFaultQuiet
  dsimp only
  split
  · exact faultFlags_reg h ..
  · exact dropFault_reg h ..

theorem writeFaultId_reg (r : FaultIn) (s : State) (j : Nat) : (writeFaultId r s).2.reg j o = s.reg j o := by
  unfold writeFaultId
  dsimp only
  split
  · rw [raiseEvt_reg_of_apart _ _ _ h.2.2.2, writeFaultQuiet_reg h]
  · exact writeFaultQuiet_reg h r s j

theorem writeFault_reg (r : FaultIn) (s : State) (j : Nat) : (writeFault r s).reg j o = s.reg j o := writeFaultId_reg h r s j

end

@[simp] theorem faultFlags_faults (r : FaultIn) (b : Bool) (s : State) : (faultFlags r b s).faults = s.faults := by
  unfold faultFlags
  dsimp only
  split <;> split <;> rfl

@[simp] theorem raiseEvt_faults (e : Evt) (s : State) : (raiseEvt e s).faults = s.faults := by
  obtain ⟨_, _, _, h⟩ := raiseEvt_eq e s
  rw [h]

theorem pushMark_queue (f : FaultUnit) (r : FaultIn) (now : Nat) : (pushMark f r now).queue = f.queue := by
  unfold pushMark
  dsimp only
  split
  · rfl
  · split
    · split <;> rfl
    · rfl

/-- A record that finds room enters the queue at its end (R479). -/
theorem writeFault_queue_of_room {r : FaultIn} {s : State} (h : s.faults.queue.length < faultRoom r.disp) :
    ∃ q, (writeFault r s).faults.queue = s.faults.queue ++ [q] ∧ q.cls = r.cls := by
  have hquiet : ∃ q, (writeFaultQuiet r s).2.faults.queue = s.faults.queue ++ [q] ∧ q.cls = r.cls := by
    unfold writeFaultQuiet
    simp only [if_pos h, faultFlags_faults, pushMark_queue]
    exact ⟨_, rfl, rfl⟩
  have hid : (writeFault r s).faults = (writeFaultQuiet r s).2.faults := by
    simp only [writeFault, writeFaultId]
    split
    · exact raiseEvt_faults ..
    · rfl
  rwa [hid]

/-! ### PLLs (R415, R418, R419) -/

theorem exec_pllLock_of_inside {d : ClkDomain} {n : Nat} {s : State} (hstart : (s.pll d).starting = some n) (hin : s.now < n + 500) :
    exec (.pllLock d) s = .next (lockPll d s) := by
  rw [exec_pllLock, execPllLock, hstart]
  exact if_pos hin

/-- The state in which a PLL has locked and the accesses it lets go have not run yet (R418, R419). -/
def lockedPll (d : ClkDomain) (s : State) : State :=
  let s1 := s.setPll d ⟨true, none, 0, (s.pll d).failed && s.up.boot.isNone⟩
  { s1 with
    clkWait := s1.clkWait.filter (fun w => !(w.1 = d && decide (s.now < w.2.1 + clkWindow)))
    pw := if d = .mclk then { s1.pw with mclkIdle := s.now } else if d = .aclk then { s1.pw with aclkIdle := s.now } else s1.pw }

theorem lockPll_eq (d : ClkDomain) (s : State) :
    lockPll d s = drainBus ((openWaits d s).foldl (fun t w => resumeWait w t) (lockedPll d s)) := rfl

theorem lockPll_of_noWaits {d : ClkDomain} {s : State} (hwait : s.clkWait = []) (hheld : s.busHeld = []) : lockPll d s = lockedPll d s := by
  have hgo : openWaits d s = [] := by simp [openWaits, hwait]
  have hbus : (lockedPll d s).busHeld = [] := by cases d <;> exact hheld
  rw [lockPll_eq, hgo, List.foldl_nil, drainBus_of_none hbus]

theorem lockedPll_pll {d : ClkDomain} (s : State) (hphy : d ≠ .phy) :
    (lockedPll d s).pll d = ⟨true, none, 0, (s.pll d).failed && s.up.boot.isNone⟩ := by
  cases d with
  | aclk | mclk | fclk => rfl
  | phy => exact absurd rfl hphy

theorem exec_clkStartTimeout_of_over {d : ClkDomain} {n : Nat} {s : State} (hstart : (s.pll d).starting = some n) (hover : n + 500 ≤ s.now) :
    exec (.clkStartTimeout d) s = .next (drainBus (bootPll d (clockTimeout d s))) := by
  rw [exec_clkStartTimeout, execClkStartTimeout, hstart]
  exact if_neg (Nat.not_lt.2 hover)

theorem exec_aclkPllStop_of_idle {s : State} (hon : s.aclk.on = true) (hrun : ∀ e ∈ s.pstate, e.2 ≠ .run) (hwake : s.waking = [])
    (hticks : s.rf 0 Reg.PWR_PLL_OFF_TICKS 23 0 ≠ 0) (hidle : s.pw.aclkIdle + s.rf 0 Reg.PWR_PLL_OFF_TICKS 23 0 ≤ s.now) :
    exec .aclkPllStop s = .next (s.setPll .aclk { s.aclk with on := false }) := by
  have hnone : anyRun s = false := by simpa [anyRun] using hrun
  rw [exec_aclkPllStop, execAclkPllStop, if_neg (by simp [hon, hnone, hwake, hticks, hidle])]

theorem exec_mclkPllStop_of_idle {s : State} (hon : s.mclk.on = true) (hnow : mclkIdleNow s = true)
    (hticks : s.rf 0 Reg.CLK_MCLK_PLL_OFF_TICKS 23 0 ≠ 0) (hidle : s.pw.mclkIdle + s.rf 0 Reg.CLK_MCLK_PLL_OFF_TICKS 23 0 ≤ s.now)
    (hwait : ∀ w ∈ s.clkWait, w.1 ≠ .mclk) : exec .mclkPllStop s = .next (s.setPll .mclk { s.mclk with on := false }) := by
  have hnone : s.clkWait.any (·.1 = .mclk) = false := by simpa using fun d n w hw => hwait (d, n, w) hw
  rw [exec_mclkPllStop, execMclkPllStop, if_neg (by simp only [hon, hnow, hnone, hticks]; simp [hidle])]

/-! ### Gates and reference clocks (R22, R415, R417) -/

theorem exec_unitClockStop_of_idle {k : Fin 256} {s : State} (h : unitIdle s k = true) :
    exec (.unitClockStop k) s = .next { s with pw := { s.pw with gates := setIns s.pw.gates k.val } } := by
  rw [exec_unitClockStop, execUnitClockStop, if_pos h]

theorem exec_refclkLoss_of_present {cwy : Bool} {s : State} (hpeat : s.up.peat = true)
    (hok : s.rf 0 Reg.CLK_STATUS (if cwy then 9 else 8) (if cwy then 9 else 8) = 1) : exec (.refclkLoss cwy) s =
      .next (let s1 := refLost (if cwy then 7 else 6) (s.setRf 0 Reg.CLK_STATUS (if cwy then 9 else 8) (if cwy then 9 else 8) 0)
        if cwy then cwyDown s1 else { s1 with linkUp := false }) := by
  rw [exec_refclkLoss, execRefclkLoss]
  exact if_neg (by simp [hpeat, hok])

theorem refLost_reg {o : Nat} (h : RecordKeeps o) (dom : Nat) (s : State) (j : Nat) : (refLost dom s).reg j o = s.reg j o := writeFault_reg h ..

theorem exec_refclkReturn_of_up (cwy : Bool) {s : State} (hpeat : s.up.peat = true) :
    exec (.refclkReturn cwy) s = .next (s.setRf 0 Reg.CLK_STATUS (if cwy then 9 else 8) (if cwy then 9 else 8) 1) := by
  rw [exec_refclkReturn, execRefclkReturn, if_neg (by simp [hpeat])]

/-- Settles O36: each command finds its clock in the state that it acts on. -/
theorem clockStartsAndStops : Obligations.ClockStartsAndStops := by
  unfold Obligations.ClockStartsAndStops
  intro s
  refine ⟨fun d n => exec_pllLock_of_inside, fun d n hphy hstart hin hwait hheld => ?lock, fun d n => exec_clkStartTimeout_of_over,
    fun hon hrun hwake hticks hidle => ⟨_, exec_aclkPllStop_of_idle hon hrun hwake hticks hidle, rfl, rfl, rfl⟩,
    fun hon hnow hticks hidle hwait => ⟨_, exec_mclkPllStop_of_idle hon hnow hticks hidle hwait, rfl, rfl, rfl⟩,
    fun k h => ⟨_, exec_unitClockStop_of_idle h, mem_setIns_self .., rfl⟩, fun hpeat hok hroom => ?pcieLost,
    fun hpeat hok => exec_refclkLoss_of_present (cwy := true) hpeat hok, fun hpeat c => ⟨_, exec_refclkReturn_of_up c hpeat, ?returned⟩⟩
  case lock =>
    have hpll := lockedPll_pll s hphy
    exact ⟨_, by rw [exec_pllLock_of_inside hstart hin, lockPll_of_noWaits hwait hheld], by rw [hpll], by rw [hpll], by rw [hpll]⟩
  case pcieLost =>
    obtain ⟨q, hqueue, hcls⟩ := writeFault_queue_of_room (s := s.setRf 0 Reg.CLK_STATUS 8 8 0)
      (r := { cls := .refLost, status := .ok, disp := .reported, body := leBytes 1 6 }) hroom
    refine ⟨_, q, exec_refclkLoss_of_present (cwy := false) hpeat hok, rfl, ?_, hqueue, hcls⟩
    exact (congrArg (fld · 8 8) (refLost_reg (by decide) 6 _ 0)).trans (State.rf_setRf_self _ _ _ _ (by decide) (by decide))
  case returned =>
    cases c with
    | true | false => exact State.rf_setRf_self _ _ _ _ (by decide) (by decide)

end Sys2Proof.Machine
end

section
/-! PROOFS. Entries of the submission queues and the doorbells (O48, R441 to R445). -/

namespace Sys2Proof.Machine

/-- A field that is written leaves every field of a register at another offset. -/
theorem State.rf_setRf_of_other (s : State) (i j hi lo x : Nat) {off o : Nat} (h l : Nat) (apart : o % 0x4000000 ≠ off % 0x4000000) :
    (s.setRf i off hi lo x).rf j o h l = s.rf j o h l :=
  congrArg (fld · h l) (State.reg_setRf_of_apart s i j hi lo x apart)

/-! ### Entries (R441, R443 to R445) -/

section
variable {s s1 : State} {q : Nat} (hroom : s.rf 0 Reg.HST_INFLIGHT 16 0 < 65536)
  (hgrant : rrGrant rrSq ((List.range 256).filter (mayTake s)) s = some (q, s1))
include hroom hgrant

theorem exec_submissionTake_of_read {e : Option (List Byte)} {raw : List Byte} {s2 : State} (hread : readEntry q e s1 = (.ok raw, s2)) :
    exec (.submissionTake e) s = .next (takeEntry q raw s2) := by
  rw [exec_submissionTake, execSubmissionTake, takeNext, if_neg (by omega)]
  simp only [hgrant, hread]

theorem exec_submissionTake_of_unread {e : Option (List Byte)} {f : Fail} {s2 : State} (hread : readEntry q e s1 = (.error f, s2)) :
    exec (.submissionTake e) s = .next (fetchError q f s2) := by
  rw [exec_submissionTake, execSubmissionTake, takeNext, if_neg (by omega)]
  simp only [hgrant, hread]

end

theorem upstream_of_master {s : State} (hbme : s.bme = true) (hd0 : s.d3hot = false) : upstream s = true := by simp [upstream, hbme, hd0]

section
variable {s : State} {q : Fin 256} {k : Nat}

theorem exec_nopEntry_of_startable (hk : startable (s.sq q) 0 = some k) : exec (.nopEntry q) s = .next (modEntry q k (HEntry.done .ok) s) := by
  simp only [exec_nopEntry, execNopEntry, hk]

theorem exec_barrierEntry_of_done (hk : startable (s.sq q) 3 = some k) (hdone : ∀ e ∈ (s.sq q).ents.take k, e.st ≠ none) :
    exec (.barrierEntry q) s = .next (modEntry q k (HEntry.done .ok) s) := by
  have hall : ((s.sq q).ents.take k).all (fun e => e.st.isSome) = true := by
    simpa only [List.all_eq_true, Option.isSome_iff_ne_none] using hdone
  simp only [exec_barrierEntry, execBarrierEntry, hk, hall, if_true]

variable {e : HEntry}

section
variable (hk : startable (s.sq q) 2 = some k) (he : (s.sq q).ents[k]? = some e)
include hk he

theorem exec_copyEntry_of_illegal (hbad : copyOk e.raw = false) :
    exec (.copyEntry q) s = .next (modEntry q k (HEntry.done .descriptorInvalid) s) := by
  simp [execCopyEntry, hk, he, hbad]

theorem exec_copyEntry_of_legal (hok : copyOk e.raw = true) (hup : upstream s = true) :
    exec (.copyEntry q) s = .next (modEntry q k HEntry.start s) := by
  simp [execCopyEntry, hk, he, hok, hup]

end

section
variable (hk : (s.sq q).ents.findIdx? (fun x => x.started && x.st.isNone && leAt x.raw 0 1 == 2) = some k) (he : (s.sq q).ents[k]? = some e)
  (hbme : s.bme = true) {data : List Byte} {good : Bool} {s1 : State}
include hk he hbme

theorem exec_copyComplete_of_moved (hrun : copyRun e.raw data good s = (.ok (), s1)) :
    exec (.copyComplete q data good) s = .next (modEntry q k (HEntry.done .ok) s1) := by
  simp [execCopyComplete, hk, he, hbme, hrun]

theorem exec_copyComplete_of_failed {f : Fail} (hrun : copyRun e.raw data good s = (.error f, s1)) :
    exec (.copyComplete q data good) s = .next (modEntry q k (HEntry.done f.st)
      (writeFault (hostRecord q (leAt e.raw 4 2) e.idx (leAt e.raw 8 8) 0 f) s1)) := by
  simp [execCopyComplete, hk, he, hbme, hrun]

end
end

/-! ### Doorbells (R442) -/

section
variable {s : State} (hcfg : s.up.cfgReady = true) (hlink : s.linkUp = true) (hidle : hostBusy s = false) (q : Fin 256) (v : W32)
include hcfg hlink hidle

theorem exec_sqTailDoorbell_of_idle : exec (.sqTailDoorbell q v true false) s = .next (tailDoorbell q v.toNat s) := by
  rw [exec_sqTailDoorbell, execSqTailDoorbell, bar0Write_of_whole hcfg hlink, hostTurn_eq_of_idle _ _ hidle]

theorem exec_cqHeadDoorbell_of_idle : exec (.cqHeadDoorbell q v true false) s = .next (headDoorbell q v.toNat s) := by
  rw [exec_cqHeadDoorbell, execCqHeadDoorbell, bar0Write_of_whole hcfg hlink, hostTurn_eq_of_idle _ _ hidle]

end

section
variable {s : State} {q v : Nat}

theorem tailDoorbell_of_inside (hen : s.rf q Reg.SQ_CTRL 0 0 = 1) (hv : v < s.rf q Reg.SQ_SIZE 16 0) :
    tailDoorbell q v s = s.setRf q Reg.SQ_TAIL 15 0 v :=
  if_pos ⟨beq_iff_eq.2 hen, hv⟩

theorem headDoorbell_of_inside (hen : s.rf q Reg.CQ_CTRL 0 0 = 1) (hv : v < s.rf q Reg.CQ_SIZE 16 0) :
    headDoorbell q v s = s.setRf q Reg.CQ_HEAD 15 0 v :=
  if_pos ⟨beq_iff_eq.2 hen, hv⟩

theorem tailDoorbell_of_outside (h : s.rf q Reg.SQ_CTRL 0 0 = 0 ∨ s.rf q Reg.SQ_SIZE 16 0 ≤ v) : tailDoorbell q v s = doorbellErr q s := by
  refine if_neg fun ⟨hen, hv⟩ => ?_
  rw [sqEn, beq_iff_eq] at hen
  rw [sqSize] at hv
  omega

theorem headDoorbell_of_outside (h : s.rf q Reg.CQ_CTRL 0 0 = 0 ∨ s.rf q Reg.CQ_SIZE 16 0 ≤ v) : headDoorbell q v s = doorbellErr q s := by
  refine if_neg fun ⟨hen, hv⟩ => ?_
  rw [cqEn, beq_iff_eq] at hen
  rw [cqSize] at hv
  omega

theorem doorbellErr_flag (q : Nat) (s : State) : (doorbellErr q s).rf 0 Reg.HST_STATUS 0 0 = 1 := by
  rw [doorbellErr, State.rf_setRf_of_other _ _ _ _ _ _ _ _ (by decide), State.rf_setRf_self _ _ _ _ (by decide) (by decide)]
  rfl

theorem doorbellErr_queue (q : Fin 256) (s : State) : (doorbellErr q s).rf 0 Reg.HST_DB_ERR_Q 7 0 = q := by
  rw [doorbellErr, State.rf_setRf_self _ _ _ _ (by decide) (by decide)]
  exact Nat.mod_eq_of_lt q.isLt

theorem doorbellErr_rf {o : Nat} (hstatus : o % 0x4000000 ≠ Reg.HST_STATUS % 0x4000000) (hqueue : o % 0x4000000 ≠ Reg.HST_DB_ERR_Q % 0x4000000)
    (q j hi lo : Nat) (s : State) : (doorbellErr q s).rf j o hi lo = s.rf j o hi lo := by
  rw [doorbellErr, State.rf_setRf_of_other _ _ _ _ _ _ _ _ hqueue, State.rf_setRf_of_other _ _ _ _ _ _ _ _ hstatus]

end

/-- Settles O48: each command finds the entry that it acts on, and a doorbell is inside its queue or not. -/
theorem hostQueueEntries : Obligations.HostQueueEntries := by
  unfold Obligations.HostQueueEntries
  intro s
  refine ⟨fun e q s1 raw s2 hroom hgrant => exec_submissionTake_of_read hroom hgrant,
    fun e q s1 f s2 hroom hgrant => exec_submissionTake_of_unread hroom hgrant,
    fun q k => exec_nopEntry_of_startable,
    fun q k e hk he => ⟨exec_copyEntry_of_illegal hk he, fun hok hbme hd0 => exec_copyEntry_of_legal hk he hok (upstream_of_master hbme hd0)⟩,
    fun q k e data good hk he hbme => ⟨fun s1 => exec_copyComplete_of_moved hk he hbme, fun f s1 => exec_copyComplete_of_failed hk he hbme⟩,
    fun q k => exec_barrierEntry_of_done, fun q v hcfg hlink hidle => ?doorbells⟩
  case doorbells =>
    rw [exec_sqTailDoorbell_of_idle hcfg hlink hidle, exec_cqHeadDoorbell_of_idle hcfg hlink hidle]
    refine ⟨fun hen hv => by rw [tailDoorbell_of_inside hen hv], fun hen hv => by rw [headDoorbell_of_inside hen hv],
      fun h => ⟨_, by rw [tailDoorbell_of_outside h], doorbellErr_flag .., doorbellErr_queue .., ?_⟩,
      fun h => ⟨_, by rw [headDoorbell_of_outside h], doorbellErr_flag .., doorbellErr_queue .., ?_⟩⟩
    · exact doorbellErr_rf (by decide) (by decide) ..
    · exact doorbellErr_rf (by decide) (by decide) ..

end Sys2Proof.Machine
end

section
/-! PROOFS. Completions, interrupts and device power states (O49, R432, R446 to R449). -/

namespace Sys2Proof.Machine

/-! ### Completions (R446 to R449) -/

section
variable {s s1 : State} {q : Fin 256} {good : Bool} {e : HEntry} {r : List HEntry} {st : Status} (hents : (s.sq q).ents = e :: r) (hst : e.st = some st)
  (hopen : cqOpen s e.cq = true)
include hents hst hopen

theorem exec_completionWrite_of_written (hput : putCompl e.cq (complBytes q e.cq e st s) good s = (.ok (), s1)) :
    exec (.completionWrite q good) s = .next (coalesce e.cq (advanceTail e.cq (dropEntry q e.cq s1))) := by
  simp [execCompletionWrite, hents, hst, hopen, hput]

theorem exec_completionWrite_of_failed {f : Fail} (hput : putCompl e.cq (complBytes q e.cq e st s) good s = (.error f, s1)) :
    exec (.completionWrite q good) s = .next (writeError q e.cq e f s1) := by
  simp [execCompletionWrite, hents, hst, hopen, hput]

end

theorem exec_coalesceWindowEnd_of_over {s : State} {q : Fin 256} (hn : (s.cq q).coalN ≠ 0) (hw : s.rf q Reg.CQ_COAL 31 16 ≠ 0)
    (hover : (s.cq q).coalAt + 25 * s.rf q Reg.CQ_COAL 31 16 ≤ s.now) : exec (.coalesceWindowEnd q) s = .next (signalCq q s) := by
  rw [exec_coalesceWindowEnd, execCoalesceWindowEnd]
  exact if_neg (by simp [hn, hw, hover])

/-! ### Pending vectors (R449, R432) -/

/-- Delivering pending vectors touches outputs and the pending vectors alone. -/
theorem deliverPending_eq (s : State) : ∃ o p, deliverPending s = { s with out := o, msixPend := p } := by
  have hemit (l : List Nat) (t : State) : ∃ o, l.foldl (fun t v => t.emit (.msix v)) t = { t with out := o } := by
    induction l generalizing t with
    | nil => exact ⟨_, rfl⟩
    | cons v l ih => exact ih _
  unfold deliverPending
  split
  · exact ⟨_, _, rfl⟩
  · obtain ⟨o, h⟩ := hemit (s.msixPend.filter (fun v => s.msixOn.contains v)) { s with msixPend := s.msixPend.filter (fun v => !s.msixOn.contains v) }
    exact ⟨o, _, h⟩

/-- With requests going upstream, no unmasked vector stays pending. -/
theorem not_mem_deliverPending_of_unmasked {s : State} {v : Nat} (h : upstream s = true) (hon : v ∈ s.msixOn) :
    v ∉ (deliverPending s).msixPend := by
  have hpend : (deliverPending s).msixPend = s.msixPend.filter (fun v => !s.msixOn.contains v) := by
    simp only [deliverPending, h, Bool.not_true, Bool.false_eq_true, if_false]
    refine foldl_keeps State.msixPend ?_ _ _
    exact fun _ _ => rfl
  rw [hpend]
  simp [hon]

section
variable {s : State} (hcfg : s.up.cfgReady = true)
include hcfg

theorem exec_msixUnmask_of_ready (vec : Fin 2048) :
    exec (.msixUnmask vec) s = .next (deliverPending { s with msixOn := setIns s.msixOn vec }) := by
  rw [exec_msixUnmask, execMsixUnmask, if_neg (by simp [hcfg])]

theorem exec_busMasterEnableChange_of_ready (on : Bool) : exec (.busMasterEnableChange on) s = .next (deliverPending { s with bme := on }) := by
  rw [exec_busMasterEnableChange, execBusMasterEnableChange, if_neg (by simp [hcfg])]

theorem exec_d3hotEntry_of_ready : exec .d3hotEntry s = .next { s with d3hot := true } := by
  rw [exec_d3hotEntry, execD3hotEntry, if_neg (by simp [hcfg])]

end

/-- Settles O49: each command finds its conditions, and delivering what is pending keeps the rest of the state. -/
theorem completionsAndInterrupts : Obligations.CompletionsAndInterrupts := by
  unfold Obligations.CompletionsAndInterrupts
  intro s
  refine ⟨fun q good e r st hents hst hopen => ⟨fun s1 => exec_completionWrite_of_written hents hst hopen,
      fun f s1 => exec_completionWrite_of_failed hents hst hopen⟩,
    fun q hn hw hover => ⟨_, exec_coalesceWindowEnd_of_over hn hw hover, rfl⟩,
    fun hcfg => ⟨exec_msixUnmask_of_ready hcfg, fun vec hbme hd0 => ⟨_, exec_msixUnmask_of_ready hcfg vec, ?unmasked⟩,
      fun on => ⟨_, exec_busMasterEnableChange_of_ready hcfg on, ?mastering⟩, exec_d3hotEntry_of_ready hcfg⟩, ⟨_, rfl, ?returned⟩⟩
  case unmasked =>
    constructor
    · obtain ⟨o, p, h⟩ := deliverPending_eq { s with msixOn := setIns s.msixOn vec }
      rw [h]
      exact mem_setIns_self ..
    · exact not_mem_deliverPending_of_unmasked (upstream_of_master hbme hd0) (mem_setIns_self ..)
  case mastering =>
    obtain ⟨o, p, h⟩ := deliverPending_eq { s with bme := on }
    rw [h]
    exact ⟨rfl, rfl, rfl⟩
  case returned =>
    obtain ⟨o, p, h⟩ := deliverPending_eq { s with d3hot := false }
    rw [h]
    exact ⟨rfl, rfl, rfl⟩

end Sys2Proof.Machine
end

section
/-! PROOFS. The PCIe link, configuration requests and the device window (O50, R428 to R434, R456). -/

namespace Sys2Proof.Machine

/-! ### The link (R428, R429) -/

/-- A field of a word given by its number. -/
theorem fld_ofNat {n : Nat} (h32 : n < 2 ^ 32) (hi lo : Nat) : fld (BitVec.ofNat 32 n) hi lo = n / 2 ^ lo % 2 ^ (hi + 1 - lo) := by
  rw [fld, bits, BitVec.toNat_ofNat, Nat.mod_eq_of_lt h32, Nat.shiftRight_eq_div_pow]

/-- The word of HST_LINK for a rate, a width and a flit mode. -/
def linkWord (rate width : Nat) (flit : Bool) : W32 := BitVec.ofNat 32 (rate + 2 ^ 4 * width + 2 ^ 9 * b2n flit)

section
variable (rate : Fin 8) (width : Fin 32) (flit : Bool)

theorem linkWord_fld (hi lo : Nat) :
    fld (linkWord rate width flit) hi lo = (rate + 2 ^ 4 * width + 2 ^ 9 * b2n flit) / 2 ^ lo % 2 ^ (hi + 1 - lo) := by
  refine fld_ofNat ?_ hi lo
  have hflit : b2n flit ≤ 1 := by cases flit <;> decide
  omega

theorem linkWord_rate : fld (linkWord rate width flit) 3 0 = rate := by
  rw [linkWord_fld]
  omega

theorem linkWord_width : fld (linkWord rate width flit) 8 4 = width := by
  rw [linkWord_fld]
  omega

theorem linkWord_flit : fld (linkWord rate width flit) 9 9 = 1 ↔ flit = true := by
  rw [linkWord_fld]
  cases flit with
  | true | false =>
    simp only [b2n, Bool.false_eq_true, if_true, if_false, iff_true, iff_false]
    omega

end

theorem exec_pcieLinkUp_of_ready {s : State} {rate : Fin 8} {width : Fin 32} {flit : Bool}
    (hrate : rate.val = 4 ∨ rate.val = 5 ∨ rate.val = 6 ∧ flit = true) (hwidth : width.val = 4 ∨ width.val = 8 ∨ width.val = 16)
    (hpeat : s.up.peat = true) (hsafe : s.up.safe = false) (hperst : s.up.perst = false) (hclk : s.rf 0 Reg.CLK_STATUS 8 8 = 1)
    (hdown : s.linkUp = false) :
    exec (.pcieLinkUp rate width flit) s = .next ({ s with linkUp := true }.setReg 0 Reg.HST_LINK (linkWord rate width flit)) := by
  have hfits : ((rate.val == 4 || rate.val == 5 || (rate.val == 6 && flit)) && (width.val == 4 || width.val == 8 || width.val == 16)) = true := by
    simpa [or_assoc] using ⟨hrate, hwidth⟩
  rw [exec_pcieLinkUp, execPcieLinkUp]
  exact if_pos (by simp [hpeat, hsafe, hperst, hclk, hdown, hfits])

/-! ### Configuration requests (R433, R456) -/

theorem exec_configRequest_of_unready {s : State} (hlink : s.linkUp = true) (hcfg : s.up.cfgReady = false) (off : Fin 4096) :
    exec (.configRequest off) s = .next (s.emit (.config none)) := by
  simp [execConfigRequest, hlink, hcfg]

theorem exec_configRequest_of_ready {s : State} (hlink : s.linkUp = true) (hcfg : s.up.cfgReady = true) (off : Fin 4096) :
    exec (.configRequest off) s = .next ((configWord off s).2.emit (.config (some (configWord off s).1))) := by
  simp [execConfigRequest, hlink, hcfg]

theorem configWord_state (off : Nat) (s : State) : (configWord off s).2 = s.drawFree.2 := rfl

/-- Offset 0 holds the identity of the device (R433). -/
theorem configWord_identity {off : Nat} (h : off / 4 = 0) (s : State) : (configWord off s).1.toNat = Config.vendorId.toNat + 2 ^ 16 * 0x0960 := by
  have hw : (configWord off s).1 = BitVec.ofNat 32 (Config.vendorId.toNat + 2 ^ 16 * 0x0960) := by simp only [configWord, h]
  rw [hw, BitVec.toNat_ofNat]
  have hlt := Config.vendorId.isLt
  omega

/-- Offset 8 holds the stepping under the class code (R433). -/
theorem configWord_stepping {off : Nat} (h : off / 4 = 2) (s : State) :
    (configWord off s).1.toNat = s.rf 0 Reg.GLB_STEPPING 7 0 + 2 ^ 8 * 0x120000 := by
  have hw : (configWord off s).1 = BitVec.ofNat 32 (s.rf 0 Reg.GLB_STEPPING 7 0 + 2 ^ 8 * 0x120000) := by simp only [configWord, h]
  rw [hw, BitVec.toNat_ofNat]
  have hlt : s.rf 0 Reg.GLB_STEPPING 7 0 < 2 ^ (7 + 1 - 0) := fld_lt ..
  omega

/-! ### The device window (R431, R434) -/

section
variable {s : State} (hlink : s.linkUp = true) (hcfg : s.up.cfgReady = true) (off : Fin 68719476736)
include hlink hcfg

theorem exec_bar2Read_of_idle (hidle : hostBusy s = false) (len : Fin 4097) : exec (.bar2Read off len) s =
    .next (windowAct { rid := hostRid, pa := s.reg64 0 Reg.HST_WIN_BASE_LO + off, len := len, wdata := none } s) := by
  simp [execBar2Read, hlink, hcfg, hostTurn_eq_of_idle _ _ hidle, windowPa]

variable {d : List Byte} (hd : d.length ≤ 4096)
include hd

theorem exec_bar2Write_of_idle (hidle : hostBusy s = false) : exec (.bar2Write off d false) s =
    .next (windowAct { rid := hostRid, pa := s.reg64 0 Reg.HST_WIN_BASE_LO + off, len := d.length, wdata := some d } s) := by
  simp [execBar2Write, hlink, hcfg, hd, hostTurn_eq_of_idle _ _ hidle, windowPa]

theorem exec_bar2Write_of_poison : exec (.bar2Write off d true) s = .next ((s.setRf 0 Reg.HST_STATUS 4 4 1).emit .aer) := by
  simp [execBar2Write, hlink, hcfg, hd]

end

/-- Settles O50: each access finds the link and the domain as it wants them. -/
theorem pcieLinkAndWindow : Obligations.PcieLinkAndWindow := by
  unfold Obligations.PcieLinkAndWindow
  intro s
  refine ⟨fun rate width flit hrate hwidth hpeat hsafe hperst hclk hdown =>
      ⟨_, exec_pcieLinkUp_of_ready hrate hwidth hpeat hsafe hperst hclk hdown, rfl, ?rate, ?width, ?flit⟩,
    fun hlink => ⟨fun off hcfg => ⟨_, exec_configRequest_of_unready hlink hcfg _, rfl, rfl⟩,
      fun off hcfg => ⟨_, _, exec_configRequest_of_ready hlink hcfg off, rfl, rfl, fun h => configWord_identity h s, fun h => configWord_stepping h s⟩⟩,
    fun hlink hcfg => ⟨fun off len hidle => exec_bar2Read_of_idle hlink hcfg off hidle len,
      fun off d hd hidle => exec_bar2Write_of_idle hlink hcfg off hd hidle,
      fun off d hd => ⟨_, exec_bar2Write_of_poison hlink hcfg off hd, State.rf_setRf_self _ _ _ _ (by decide) (by decide), rfl, rfl⟩⟩⟩
  case rate =>
    rw [State.rf, State.reg_setReg_self, linkWord_rate]
  case width =>
    rw [State.rf, State.reg_setReg_self, linkWord_width]
  case flit =>
    rw [State.rf, State.reg_setReg_self, linkWord_flit]

end Sys2Proof.Machine
end

section
/-! PROOFS. Power pins: power up, trips and PERST# (O52, R451, R452, R504 to R509, R512, R516, R517). -/

namespace Sys2Proof.Machine

/-! ### Power up (R451, R452) -/

theorem State.reg_setReg64_of_apart (s : State) (i j v : Nat) {off o : Nat} (hlo : o % 0x4000000 ≠ off % 0x4000000)
    (hhi : o % 0x4000000 ≠ (off + 4) % 0x4000000) : (s.setReg64 i off v).reg j o = s.reg j o := by
  rw [State.setReg64, State.reg_setReg_of_ne _ _ (regKey_ne_of_apart _ _ hhi), State.reg_setReg_of_ne _ _ (regKey_ne_of_apart _ _ hlo)]

@[simp] theorem State.setRf_up (s : State) (i o hi lo x : Nat) : (s.setRf i o hi lo x).up = s.up := rfl

@[simp] theorem State.setReg64_up (s : State) (i o v : Nat) : (s.setReg64 i o v).up = s.up := rfl

@[simp] theorem stampStart_up (kind cause fb retries starts retrain : Nat) (s : State) : (stampStart kind cause fb retries starts retrain s).up = s.up := by
  simp only [stampStart, State.setRf_up, State.setReg_up, State.setReg64_up]

@[simp] theorem armStart_up (s : State) : (armStart s).up = s.up := rfl

@[simp] theorem armStart_rf (s : State) (i o hi lo : Nat) : (armStart s).rf i o hi lo = s.rf i o hi lo := rfl

theorem b2n_le_one (b : Bool) : b2n b ≤ 1 := by cases b <;> decide

/-- A start shows its kind in GLB_START (R451). -/
theorem stampStart_kind {kind cause fb retries : Nat} (starts retrain : Nat) (hkind : kind < 16) (hcause : cause < 16) (hfb : fb < 2 ^ 16) (hretries : retries < 8)
    (s : State) : (stampStart kind cause fb retries starts retrain s).rf 0 Reg.GLB_START 3 0 = kind := by
  have hword : (stampStart kind cause fb retries starts retrain s).reg 0 Reg.GLB_START = BitVec.ofNat 32 (kind + 2 ^ 4 * cause + 2 ^ 8 * retries +
      2 ^ 11 * b2n (kind ≠ 2 && s.up.optMemtest) + 2 ^ 12 * b2n (kind ≠ 2 && s.up.order != 2) + 2 ^ 16 * fb) := by
    rw [stampStart, State.reg_setRf_of_apart _ _ _ _ _ _ (by decide), State.reg_setReg_of_ne _ _ (regKey_ne_of_apart _ _ (by decide)),
      State.reg_setReg_of_ne _ _ (regKey_ne_of_apart _ _ (by decide)), State.reg_setReg64_of_apart _ _ _ _ (by decide) (by decide),
      State.reg_setReg64_of_apart _ _ _ _ (by decide) (by decide), State.reg_setReg_self]
  have htest := b2n_le_one (kind ≠ 2 && s.up.optMemtest)
  have htier := b2n_le_one (kind ≠ 2 && s.up.order != 2)
  rw [State.rf, hword, fld_ofNat (by omega)]
  omega

theorem beginPower_up (s : State) : (beginPower s).up = { bootUp 0 0 0 s with peat := false } := by
  rw [beginPower, armStart_up, stampStart_up]

theorem beginPower_start (s : State) : (beginPower s).rf 0 Reg.GLB_START 3 0 = 0 := by
  rw [beginPower, armStart_rf, stampStart_kind _ _ (by decide) (by decide) (by decide) (by decide)]

/-- Power comes up once every condition of R451 holds. -/
theorem tryPower_of_ready {s : State} (hen : s.up.pwrEn = true) (hgood : s.up.inputGood = true) (hoff : s.up.powered = false) (hlatch : s.up.tripLatch = false)
    (hseen : s.up.tripSeen = false) (hdown : ∀ t, s.up.downAt = some t → t + downTicks ≤ s.now) : tryPower s = beginPower s := by
  refine if_pos ?_
  cases h : s.up.downAt with
  | none => simp [hen, hgood, hoff, hlatch, hseen]
  | some t => simp [hen, hgood, hoff, hlatch, hseen, hdown t h]

/-! ### Power down (R505 to R509, R512) -/

/-- An input outside its range powers a running module down (R504, R507, R508). -/
theorem tripDown_of_powered {s : State} (h : s.up.powered = true) (good : Bool) :
    tripDown good s = { powerOff s with up := { (powerOff s).up with inputGood := good } } := by
  rw [tripDown, if_pos h]

theorem tripDown_powered (good : Bool) (s : State) : (tripDown good s).up.powered = false := by
  cases h : s.up.powered with
  | true =>
    rw [tripDown_of_powered h]
    rfl
  | false =>
    rw [tripDown]
    simp only [h, Bool.false_eq_true, if_false]

theorem tripDown_inputGood (good : Bool) (s : State) : (tripDown good s).up.inputGood = good := rfl

theorem tripDown_input (good : Bool) (s : State) : (tripDown good s).up.inputMv = s.up.inputMv ∧ (tripDown good s).up.bulkMv = s.up.bulkMv := by
  rw [tripDown]
  split <;> exact ⟨rfl, rfl⟩

/-- The commands that a trip without a latch stands for all power a running module down. -/
theorem exec_trip_of_powered {s : State} (hpow : s.up.powered = true) (hen : s.up.pwrEn = true) {c : Instr}
    (hc : c ∈ [.inputLoss, .overvoltageTrip, .overcurrentTrip, .reversePolarity, .refclkAoTrip]) : exec c s = .next (tripDown false s) := by
  simp only [List.mem_cons, List.not_mem_nil, or_false] at hc
  rcases hc with rfl | rfl | rfl | rfl | rfl
  · rfl
  · rfl
  · exact if_pos hpow
  · rfl
  · exact if_pos hen

theorem exec_inputApply_of_rated {mv : Int} (hlo : -100000 ≤ mv) (hhi : mv ≤ 100000) (held : Nat) (s : State) : exec (.inputApply mv held) s =
    .next (if mv < 0 then tripDown false { s with up := { s.up with inputMv := mv, bulkMv := held, bulkAt := s.now } }
      else { s with up := { s.up with inputMv := mv, bulkMv := held, bulkAt := s.now } }) := by
  rw [exec_inputApply, execInputApply, if_neg (by omega)]

theorem exec_pwrEnDeassert_of_powered {s : State} (hen : s.up.pwrEn = true) (hpow : s.up.powered = true) : exec .pwrEnDeassert s =
    .next { powerOff s with up := { (powerOff s).up with pwrEn := false, tripLatch := false, downAt := some s.now } } := by
  simp only [exec_pwrEnDeassert, execPwrEnDeassert, hen, hpow, Bool.not_true, Bool.false_eq_true, if_false, if_true]

theorem exec_thermalTrip_of_hot {s : State} {x : Sensor} {temp : Nat} (hpow : s.up.powered = true) (hhot : tripLevel x ≤ temp) : exec (.thermalTrip x temp) s =
    .next { powerOff s with up := { (powerOff s).up with tripLatch := true, tripSeen := true } } :=
  if_pos ⟨hpow, hhot⟩

/-! ### PERST# (R516, R517) -/

theorem exec_perstAssert_of_high {s : State} (hperst : s.up.perst = false) (chk : WarmCheck) : exec (.perstAssert chk) s =
    .next (if s.up.cfgReady then warmTrigger 5 chk { s with up := { s.up with perst := true }, linkUp := false }
      else { s with up := { s.up with perst := true }, linkUp := false }) := by
  rw [exec_perstAssert, execPerstAssert, if_neg (by simp [hperst])]

/-- Settles O52: power up and power down each are one state, read off at the fields that the statement names. -/
theorem powerPins : Obligations.PowerPins := by
  unfold Obligations.PowerPins
  intro s
  refine ⟨fun temps hen => ?assert, fun hoff hen hlatch hseen hdown => ⟨fun hbad hmv hbulk => ?good, fun hgood => ?restart⟩,
    fun mv held hlo hhi => ⟨_, exec_inputApply_of_rated hlo hhi held s, ?apply⟩, fun mv held h => if_pos h,
    fun c hc hpow hen => ⟨_, exec_trip_of_powered hpow hen hc, ?trip⟩,
    fun hen hpow => ⟨_, exec_pwrEnDeassert_of_powered hen hpow, rfl, rfl, rfl, powerOff_mem s, rfl⟩,
    fun x temp hpow hhot => ⟨_, exec_thermalTrip_of_hot hpow hhot, rfl, rfl, powerOff_mem s⟩,
    fun chk hperst hcfg => by rw [exec_perstAssert_of_high hperst, hcfg]; rfl,
    fun chk hperst hcfg => by rw [exec_perstAssert_of_high hperst, hcfg]; rfl, rfl⟩
  case assert =>
    rw [exec_pwrEnAssert, execPwrEnAssert, if_neg (by simp [hen])]
  case good =>
    have hgo : exec .inputGood s = .next (tryPower { s with up := { s.up with inputGood := true } }) := by
      rw [exec_inputGood, execInputGood]
      exact if_neg (by simp [hbad]; omega)
    have hup : tryPower { s with up := { s.up with inputGood := true } } = beginPower { s with up := { s.up with inputGood := true } } :=
      tryPower_of_ready hen rfl hoff hlatch hseen hdown
    refine ⟨_, hgo.trans (congrArg _ hup), ?_, ?_, beginPower_start _, beginPower_mem _⟩
    · rw [beginPower_up]
      rfl
    · rw [beginPower_up]
      rfl
  case restart =>
    refine ⟨_, by rw [exec_powerDownRestart, execPowerDownRestart, tryPower_of_ready hen hgood hoff hlatch hseen hdown], ?_, beginPower_mem _⟩
    rw [beginPower_up]
    rfl
  case apply =>
    by_cases hneg : mv < 0
    · rw [if_pos hneg]
      obtain ⟨hmv, hbulk⟩ := tripDown_input false { s with up := { s.up with inputMv := mv, bulkMv := held, bulkAt := s.now } }
      exact ⟨hmv, hbulk, fun h => absurd hneg (by omega), fun _ => ⟨tripDown_powered .., tripDown_inputGood ..⟩⟩
    · rw [if_neg hneg]
      exact ⟨rfl, rfl, fun _ => ⟨rfl, rfl⟩, fun h => absurd h hneg⟩
  case trip =>
    rw [tripDown_of_powered hpow]
    exact ⟨rfl, rfl, rfl, rfl, powerOff_mem s, rfl, rfl⟩

end Sys2Proof.Machine
end

section
/-! PROOFS. The stages of a start (O53, R425, R454, R455, R459 to R465) and the memory after reset (O58, R462). -/

namespace Sys2Proof.Machine

/-! ### The start in progress -/

theorem starting_of_boot {s : State} {b : Boot} (hb : s.up.boot = some b) (hf : b.failed = none) : s.starting = some b := by
  simp [State.starting, hb, Option.filter, hf]

theorem starting_modBoot {s : State} {b : Boot} (hb : s.up.boot = some b) (f : Boot → Boot) (hf : (f b).failed = none) :
    (modBoot f s).starting = some (f b) :=
  starting_of_boot (congrArg (Option.map f) hb) hf

@[simp] theorem modBoot_rf (f : Boot → Boot) (s : State) (i o hi lo : Nat) : (modBoot f s).rf i o hi lo = s.rf i o hi lo := rfl

/-! ### What the work of a stage leaves of the start -/

@[simp] theorem raiseEvt_up (e : Evt) (s : State) : (raiseEvt e s).up = s.up := by
  obtain ⟨_, _, _, h⟩ := raiseEvt_eq e s
  rw [h]

@[simp] theorem writeFaultId_up (r : FaultIn) (s : State) : (writeFaultId r s).2.up = s.up := by
  obtain ⟨_, _, _, _, h⟩ := recordApart_writeFaultId r s
  rw [h]

theorem runCopy_up (ty copy : Nat) (s : State) : (runCopy ty copy s).up = s.up := by
  simp only [runCopy]
  split <;> simp

@[simp] theorem deriveAlias_up (b : Boot) (s : State) : (deriveAlias b s).up = s.up := by
  unfold deriveAlias
  split <;> rfl

@[simp] theorem deriveAlias_rf (b : Boot) (s : State) (i o hi lo : Nat) : (deriveAlias b s).rf i o hi lo = s.rf i o hi lo := by
  unfold deriveAlias
  split <;> rfl

/-- What the run of each copy keeps, the first stage keeps. -/
theorem runImages_keeps {β : Type} (g : State → β) (hg : ∀ ty copy u, g (runCopy ty copy u) = g u) {warm : Bool} {s t : State}
    (h : runImages warm s = some t) : g t = g s := by
  refine List.foldlRecOn [1, 2, 3] _ (motive := fun r => ∀ u, r = some u → g u = g s) (fun u hu => by rw [Option.some.inj hu]) ?_ t h
  intro r hr ty _ u hu
  cases r with
  | none => exact absurd hu nofun
  | some v =>
    obtain ⟨copy, -, rfl⟩ := Option.map_eq_some_iff.1 hu
    exact (hg ty copy v).trans (hr v rfl)

/-- Training a stack may save its temperature, and leaves the start in progress. -/
theorem trainStack_boot (s : State) (k t : Nat) : (trainStack s k t).up.boot = s.up.boot := by
  unfold trainStack
  dsimp only
  split <;> split <;> simp

theorem failTest_up (s : State) (p : Nat) : (failTest s p).up = s.up := by
  unfold failTest
  dsimp only
  split
  · rfl
  · simp

/-! ### The stages (R425, R454, R455, R459 to R464) -/

section
variable {s : State} {b : Boot} (hstart : s.starting = some b)
include hstart

theorem exec_peatDomainUp_of_down (hpeat : s.up.peat = false) (strap : Fin 64) : exec (.peatDomainUp strap) s =
    .next ({ s with tb := 0, up := { s.up with peat := true, modId := strap } }.setReg 0 Reg.CWY_MODULE (BitVec.ofNat 32 strap)) := by
  simp only [exec_peatDomainUp, execPeatDomainUp, hstart, hpeat, Bool.false_eq_true, if_false]

section
variable (hkind : b.kind ≠ 2) (hfuses : b.fuses = false) (hpeat : s.up.peat = true)
include hkind hfuses hpeat

theorem exec_fuseLoadDone_of_good : exec (.fuseLoadDone true) s = .next (modBoot (fun x => { x with fuses := true }) (buildMap (setConfig s))) := by
  simp [execFuseLoadDone, hstart, hkind, hfuses, hpeat]

theorem exec_fuseLoadDone_of_bad : exec (.fuseLoadDone false) s = .next (failStart s) := by
  simp [execFuseLoadDone, hstart, hkind, hfuses, hpeat]

end

section
variable (hstage : b.stage1 = false) (hready : b.kind = 2 ∨ b.fuses = true)
include hstage hready

omit hstart in
theorem firstStage_go : ¬(b.stage1 = true ∨ b.kind ≠ 2 ∧ (!b.fuses) = true) := by
  rw [hstage]
  rcases hready with h | h <;> simp [h]

theorem exec_firstStageVerified_of_none (hrun : runImages (b.kind == 2) s = none) : exec .firstStageVerified s = .next (failStart s) := by
  simp only [exec_firstStageVerified, execFirstStageVerified, hstart, if_neg (firstStage_go hstage hready), hrun]

theorem exec_firstStageVerified_of_some {t : State} (hrun : runImages (b.kind == 2) s = some t) : exec .firstStageVerified s =
    .next (modBoot (fun x => { x with stage1 := true })
      (deriveAlias b (t.setRf 0 Reg.GLB_START 10 10 (t.rf 0 Reg.SEC_BOOT (copyBit 1) (copyBit 1))))) := by
  simp only [exec_firstStageVerified, execFirstStageVerified, hstart, if_neg (firstStage_go hstage hready), hrun]

end

theorem exec_managementPortReady_of_stage1 (hstage : b.stage1 = true) :
    exec .managementPortReady s = .next { s with up := { s.up with mgmtReady := true } } := by
  simp only [exec_managementPortReady, execManagementPortReady, hstart, hstage, if_true]

theorem exec_configurationReady_of_stage1 (hstage : b.stage1 = true) (hmgmt : s.up.mgmtReady = true) (hperst : s.up.perst = false)
    (hcfg : s.up.cfgReady = false) (haclk : s.aclk.on = true) (hfclk : s.fclk.on = true) (hmclk : s.mclk.on = true) (pkgs : W32) (ports : Fin 4) :
    exec (.configurationReady pkgs ports) s = .next (completeStart (openConfig b pkgs ports s)) := by
  simp [execConfigurationReady, hstart, hstage, hmgmt, hperst, hcfg, haclk, hfclk, hmclk]

section
variable (htrained : b.trained = false) (hstage : b.stage1 = true) (temps : List Nat) (failed : List (Fin 1024))
include htrained hstage

theorem exec_hbmTrainingDone_of_dead : exec (.hbmTrainingDone temps failed true) s = .next (failStart s) := by
  simp [execHbmTrainingDone, hstart, htrained, hstage]

/-- Training ends with the start as it was but for its own stage (R461). -/
theorem exec_hbmTrainingDone_of_trained : ∃ u : State, exec (.hbmTrainingDone temps failed false) s =
    .next (modBoot (fun x => { x with trained := true }) (u.setRf 0 Reg.MEM_STATUS 0 0 1)) ∧ u.up.boot = s.up.boot := by
  refine ⟨_, by simp only [exec_hbmTrainingDone, execHbmTrainingDone, hstart, htrained, hstage, Bool.not_true, Bool.false_eq_true, or_self, if_false]; rfl, ?_⟩
  refine (foldl_keeps (fun t => t.up.boot) ?_ _ _).trans (foldl_keeps (fun t => t.up.boot) ?_ _ _)
  · intro t p
    split
    · rw [failTest_up]
    · rfl
  · exact fun t k => trainStack_boot ..

end

section
variable (htrained : b.trained = true)
include htrained

theorem exec_memoryTestDone_of_trained (htested : b.tested = false) (hsel : s.rf 0 Reg.GLB_START 11 11 = 1) (failed : List (Fin 1024)) :
    exec (.memoryTestDone failed) s = .next (modBoot (fun x => { x with tested := true }) (failed.foldl (fun t p => failTest t p.val) s)) := by
  simp [execMemoryTestDone, hstart, htrained, htested, testSelected, hsel]

theorem exec_hbmZeroFillDone_of_trained (hfilled : b.filled = false) (htested : s.rf 0 Reg.GLB_START 11 11 ≠ 1 ∨ b.tested = true) (lost : Bool) :
    exec (.hbmZeroFillDone lost) s = .next (completeStart
      (if b.kind = 2 then restoreT2 lost (modBoot (fun x => { x with filled := true }) (s.setRf 0 Reg.MEM_STATUS 1 1 1))
        else modBoot (fun x => { x with filled := true }) (s.setRf 0 Reg.MEM_STATUS 1 1 1))) := by
  have hgo : ¬((!b.trained) = true ∨ b.filled = true ∨ testSelected s = true ∧ (!b.tested) = true) := by
    rcases htested with h | h <;> simp [htrained, hfilled, testSelected, h]
  simp only [exec_hbmZeroFillDone, execHbmZeroFillDone, hstart, if_neg hgo]

end

theorem exec_startTimeout_of_over (hcfg : s.up.cfgReady = false) (hover : b.at_ + startLimit ≤ s.now) : exec .startTimeout s = .next (failStart s) := by
  have hgo : ¬(s.up.cfgReady = true ∨ s.now < b.at_ + startLimit) := by simp [hcfg, hover]
  simp only [exec_startTimeout, execStartTimeout, hstart, if_neg hgo]

end

/-! ### The end of a start (R464, R465) -/

/-- Restoring the second tier leaves configuration ready and the zero-fill flag of HBM. -/
theorem restoreT2_keeps (lost : Bool) (s : State) :
    (restoreT2 lost s).up.cfgReady = s.up.cfgReady ∧ (restoreT2 lost s).rf 0 Reg.MEM_STATUS 1 1 = s.rf 0 Reg.MEM_STATUS 1 1 := by
  unfold restoreT2
  split
  · exact ⟨rfl, rfl⟩
  · split
    · exact ⟨rfl, State.rf_setRf_of_other _ _ _ _ _ _ _ _ (by decide)⟩
    · refine ⟨rfl, ?_⟩
      exact (State.rf_setRf_of_other _ _ _ _ _ _ _ _ (by decide)).trans (State.rf_setRf_of_other _ _ _ _ _ _ _ _ (by decide))

/-- A start with HBM filled completes once configuration is ready (R464). -/
theorem completeStart_of_filled {s : State} (hfill : s.rf 0 Reg.MEM_STATUS 1 1 = 1) : (completeStart s).rf 0 Reg.MEM_STATUS 1 1 = 1 ∧
    (s.up.cfgReady = true → (completeStart s).up.boot = none ∧ (completeStart s).rf 0 Reg.GLB_START 9 8 = 0) := by
  by_cases hcfg : s.up.cfgReady = true
  · rw [completeStart, if_pos ⟨hcfg, hfill⟩]
    refine ⟨(State.rf_setRf_of_other _ _ _ _ _ _ _ _ (by decide)).trans hfill, fun _ => ⟨rfl, ?_⟩⟩
    exact State.rf_setRf_self _ _ _ _ (by decide) (by decide)
  · rw [completeStart, if_neg fun h => hcfg h.1]
    exact ⟨hfill, fun h => absurd h hcfg⟩

/-- Settles O53: each stage finds the start in progress at the stage before it. -/
theorem startSequence : Obligations.StartSequence := by
  unfold Obligations.StartSequence
  intro s b hb hf
  have hstart := starting_of_boot hb hf
  refine ⟨fun strap hpeat => ⟨_, exec_peatDomainUp_of_down hstart hpeat strap, rfl, rfl, rfl, ?module⟩,
    fun hkind hfuses hpeat => ⟨exec_fuseLoadDone_of_good hstart hkind hfuses hpeat, exec_fuseLoadDone_of_bad hstart hkind hfuses hpeat⟩,
    fun hstage hready => ⟨exec_firstStageVerified_of_none hstart hstage hready,
      fun t hrun => ⟨_, exec_firstStageVerified_of_some hstart hstage hready hrun, ?images, ?chosen⟩⟩,
    exec_managementPortReady_of_stage1 hstart,
    fun pkgs ports hstage hmgmt hperst hcfg haclk hfclk hmclk =>
      exec_configurationReady_of_stage1 hstart hstage hmgmt hperst hcfg haclk hfclk hmclk pkgs ports,
    fun htrained hstage => ⟨exec_hbmTrainingDone_of_dead hstart htrained hstage, fun temps failed => ?training⟩,
    fun failed htrained htested hsel => exec_memoryTestDone_of_trained hstart htrained htested hsel failed,
    fun lost htrained hfilled htested => ⟨_, exec_hbmZeroFillDone_of_trained hstart htrained hfilled htested lost, ?filled⟩,
    exec_startTimeout_of_over hstart, fun n => rfl⟩
  case module =>
    rw [State.reg_setReg_self, BitVec.toNat_ofNat]
    omega
  case images =>
    refine starting_modBoot ?_ _ hf
    rw [deriveAlias_up, State.setRf_up, runImages_keeps State.up runCopy_up hrun, hb]
  case chosen =>
    rw [modBoot_rf, deriveAlias_rf, State.rf_setRf_self _ _ _ _ (by decide) (by decide)]
    exact Nat.mod_eq_of_lt (fld_lt ..)
  case training =>
    obtain ⟨u, hexec, hboot⟩ := exec_hbmTrainingDone_of_trained hstart htrained hstage temps failed
    exact ⟨_, hexec, State.rf_setRf_self _ _ _ _ (by decide) (by decide), starting_modBoot (hboot.trans hb) _ hf⟩
  case filled =>
    have hfill : (modBoot (fun x => { x with filled := true }) (s.setRf 0 Reg.MEM_STATUS 1 1 1)).rf 0 Reg.MEM_STATUS 1 1 = 1 :=
      State.rf_setRf_self _ _ _ _ (by decide) (by decide)
    split
    · obtain ⟨hcfg, hkept⟩ := restoreT2_keeps lost (modBoot (fun x => { x with filled := true }) (s.setRf 0 Reg.MEM_STATUS 1 1 1))
      obtain ⟨hstatus, hdone⟩ := completeStart_of_filled (hkept.trans hfill)
      exact ⟨hstatus, fun h => hdone (hcfg.trans h)⟩
    · exact completeStart_of_filled hfill

/-- Settles O58: the memory after reset lists no byte. -/
theorem resetMemoryIsCanonical : Obligations.ResetMemoryIsCanonical := by
  unfold Obligations.ResetMemoryIsCanonical
  rfl

end Sys2Proof.Machine
end

section
/-! PROOFS. Fabric, parity, spilling of the journal, firmware commits, repair of flash copies and the TAP (O54, R470, R486, R494, R495, R503). -/

namespace Sys2Proof.Machine

/-! ### Journal entries of the management port (R481) -/

theorem journalApart_mgmtEntry (eid : Byte) (off old new : Nat) (s : State) : JournalApart s (mgmtEntry eid off old new s) := by
  unfold mgmtEntry
  split
  · exact ⟨_, _, _, _, rfl⟩
  · exact journalApart_jrnAppend ..

@[simp] theorem mgmtEntry_up (eid : Byte) (off old new : Nat) (s : State) : (mgmtEntry eid off old new s).up = s.up := by
  obtain ⟨_, _, _, _, h⟩ := journalApart_mgmtEntry eid off old new s
  rw [h]

@[simp] theorem mgmtEntry_sec (eid : Byte) (off old new : Nat) (s : State) : (mgmtEntry eid off old new s).sec = s.sec := by
  obtain ⟨_, _, _, _, h⟩ := journalApart_mgmtEntry eid off old new s
  rw [h]

theorem mgmtEntry_rf {o : Nat} (h : JournalKeeps o) (eid : Byte) (off old new : Nat) (s : State) (j hi lo : Nat) :
    (mgmtEntry eid off old new s).rf j o hi lo = s.rf j o hi lo := by
  unfold mgmtEntry
  split
  · rfl
  · exact congrArg (fld · hi lo) (jrnAppend_reg h ..)

@[simp] theorem answer_rf (c : NCode) (d : List Byte) (s : State) (i o hi lo : Nat) : (answer c d s).rf i o hi lo = s.rf i o hi lo := rfl

@[simp] theorem answer_up (c : NCode) (d : List Byte) (s : State) : (answer c d s).up = s.up := rfl

@[simp] theorem answer_sec (c : NCode) (d : List Byte) (s : State) : (answer c d s).sec = s.sec := rfl

/-! ### Fabric and parity (R470) -/

theorem exec_fabricPacketResend_of_on {s : State} (hon : unitsOn s = true) : exec .fabricPacketResend s = .next (s.count 0 Reg.FLT_FABRIC_RETRY 1) :=
  if_pos hon

theorem exec_internalParityError_of_on {s s1 : State} {unit : ParityUnit} {q : Nat} (hon : unitsOn s = true)
    (hrec : writeFaultId (parityRecord unit s) s = (q, s1)) : exec (.internalParityError unit) s = .next (failUnit unit q s1) := by
  simp only [exec_internalParityError, execInternalParityError, hon, Bool.not_true, Bool.false_eq_true, if_false, hrec]

/-! ### Spilling (R486) -/

/-- An entry of the journal waits, its ring in memory has a free slot, and the write to that ring can go out. -/
structure SpillsEntry (s : State) (e : JEntry) : Prop where
  peat : s.up.peat = true
  enabled : s.rf 0 Reg.JRN_CTRL 0 0 = 1
  waiting : s.jrn.unspilled ≠ 0
  room : spillHeld s + 1 < spillSlots s
  writable : s.rf 0 Reg.JRN_CTRL 1 1 = 1 ∨ s.bme = true ∧ s.d3hot = false
  entry : s.jrn.ring[s.jrn.unspilled - 1]? = some e

/-- Where the next spilled entry goes (R486). -/
def spillAddr (s : State) : Nat := s.reg64 0 Reg.JRN_SPILL_BASE_LO + 32 * s.rf 0 Reg.JRN_SPILL_WR 23 0

section
variable {s : State} {e : JEntry} (h : SpillsEntry s e)
include h

theorem SpillsEntry.go : ¬((!s.up.peat) = true ∨ s.rf 0 Reg.JRN_CTRL 0 0 = 0 ∨ s.jrn.unspilled = 0 ∨ spillSlots s = 0 ∨ spillHeld s + 1 ≥ spillSlots s ∨
    (s.rf 0 Reg.JRN_CTRL 1 1 = 0 ∧ (!upstream s) = true)) := by
  obtain ⟨hpeat, hen, hwait, hroom, hopen, -⟩ := h
  have hout : ¬(s.rf 0 Reg.JRN_CTRL 1 1 = 0 ∧ (!upstream s) = true) := by
    rintro ⟨hhost, hdown⟩
    rcases hopen with hhbm | ⟨hbme, hd0⟩
    · omega
    · simp [upstream_of_master hbme hd0] at hdown
  simp only [hout, hpeat, hwait, Bool.not_true, Bool.false_eq_true, false_or, or_false]
  omega

variable {good : Bool} {s1 : State}

theorem SpillsEntry.exec_of_put (hput : spillPut (spillAddr s) e.bytes good s = (.ok (), s1)) :
    exec (.journalSpillWrite good) s = .next (spillDone s1) := by
  rw [spillAddr] at hput
  simp only [exec_journalSpillWrite, execJournalSpillWrite, if_neg h.go, h.entry, hput]

theorem SpillsEntry.exec_of_fault {f : Fail} (hput : spillPut (spillAddr s) e.bytes good s = (.error f, s1)) :
    exec (.journalSpillWrite good) s = .next (spillFault (spillAddr s) f s1) := by
  rw [spillAddr] at hput
  simp only [exec_journalSpillWrite, execJournalSpillWrite, if_neg h.go, h.entry, hput, spillAddr]

end

/-! ### Firmware commits and repair (R494, R495) -/

/-- A commit that ends closes the session, and SEC_UPDATE shows no update (R494). -/
theorem endCommit_closes (c : NCode) (eid : Byte) (old : Nat) (s : State) : (endCommit c eid old s).sec.fwCommit = none ∧
    (endCommit c eid old s).sec.fwOpen = none ∧ (endCommit c eid old s).rf 0 Reg.SEC_UPDATE 1 0 = 0 := by
  simp only [endCommit, answer_sec, answer_rf, mgmtEntry_sec]
  refine ⟨rfl, rfl, ?_⟩
  rw [mgmtEntry_rf (by decide), State.rf_setRf_of_apart _ _ _ _ (by decide) (by decide) (by decide)]
  exact State.rf_setRf_self _ _ _ _ (by decide) (by decide)

/-- The end of a commit is the end of its session, copy A being written from copy B. -/
theorem exec_fwCommitDone_of_commit {s : State} {ty eid : Nat} (h : s.sec.fwCommit = some (ty, eid)) :
    ∃ c old, exec .fwCommitDone s = .next (endCommit c (BitVec.ofNat 8 eid) old (s.setFlash ty 0 (s.flashCopy ty 1))) := by
  simp only [exec_fwCommitDone, execFwCommitDone, h]
  exact ⟨_, _, rfl⟩

theorem exec_flashRepairDone_of_repair {s : State} {i : Nat} {r : List Nat} (h : s.sec.repair = i :: r) : exec .flashRepairDone s =
    .next (if r = [] then setUpdate 0 { s with sec := { s.sec with
        flash := s.sec.flash.set i (s.sec.flash.getD (if i % 2 = 0 then i + 1 else i - 1) .blank), repair := r } }
      else { s with sec := { s.sec with flash := s.sec.flash.set i (s.sec.flash.getD (if i % 2 = 0 then i + 1 else i - 1) .blank), repair := r } }) := by
  simp only [exec_flashRepairDone, execFlashRepairDone, h]

/-! ### The TAP (R503) -/

theorem exec_jtagAccess_of_up {s : State} (hpeat : s.up.peat = true) (ins : JtagIns) :
    exec (.jtagAccess ins) s = .next (s.emit (.jtag (jtagAnswer ins s))) :=
  if_pos hpeat

/-- At debug level 0 the TAP bypasses what it does not let through (R503). -/
theorem jtagAnswer_of_locked {s : State} (h : debugLevel s = 0) {ins : JtagIns} (hid : ins ≠ .idcode) : jtagAnswer ins s = .bypass := by
  cases ins with
  | idcode => exact absurd rfl hid
  | bypass => rfl
  | boundary | full | regRead => simp [jtagAnswer, h]

/-- Settles O54: each command finds its conditions; a commit and a repair are followed to their end. -/
theorem journalParityAndRepair : Obligations.JournalParityAndRepair := by
  unfold Obligations.JournalParityAndRepair
  intro s
  refine ⟨exec_fabricPacketResend_of_on, fun unit q s1 => exec_internalParityError_of_on,
    fun good e addr hpeat hen hwait hroom hopen hentry haddr => ?spill, fun ty eid h => ?commit,
    fun i r h => ⟨_, exec_flashRepairDone_of_repair h, ?repair⟩,
    fun hpeat => ⟨exec_jtagAccess_of_up hpeat .idcode, exec_jtagAccess_of_up hpeat .bypass, fun hlock i hi => ?locked, fun hopen => ?scan⟩⟩
  case spill =>
    have hspill : SpillsEntry s e := ⟨hpeat, hen, hwait, hroom, hopen, hentry⟩
    subst haddr
    exact ⟨fun s1 => hspill.exec_of_put, fun f s1 => hspill.exec_of_fault⟩
  case commit =>
    obtain ⟨c, old, hexec⟩ := exec_fwCommitDone_of_commit h
    obtain ⟨hcommit, hopen, hupdate⟩ := endCommit_closes c (BitVec.ofNat 8 eid) old (s.setFlash ty 0 (s.flashCopy ty 1))
    exact ⟨_, hexec, hcommit, hopen, hupdate, by simp⟩
  case repair =>
    split
    case isTrue hr => exact ⟨rfl, rfl, fun _ => State.rf_setRf_self _ _ _ _ (by decide) (by decide)⟩
    case isFalse hr => exact ⟨rfl, rfl, fun h => absurd h hr⟩
  case locked =>
    have hid : i ≠ .idcode := by
      rintro rfl
      simp at hi
    rw [exec_jtagAccess_of_up hpeat, jtagAnswer_of_locked hlock hid]
  case scan =>
    have hlevel : jtagAnswer .full s = .scan 2 := if_pos (Nat.le_of_eq hopen.symm)
    rw [exec_jtagAccess_of_up hpeat, hlevel]

end Sys2Proof.Machine
end

section
/-! PROOFS. Nolivo commands (O55, R493 to R495, R500 to R503). -/

namespace Sys2Proof.Machine

/-- The management port takes a command: the Peat domain and the port are up, nothing is pending, and the module is not in SAFE state (R500). -/
structure TakesCommands (s : State) : Prop where
  peat : s.up.peat = true
  ready : s.up.mgmtReady = true
  idle : portBusy s = false
  normal : s.up.safe = false

section
variable {s : State} (h : TakesCommands s)
include h

theorem TakesCommands.nolivo_eq (safeOk : Bool) (k : State → State) : nolivo safeOk k s = k s := by
  obtain ⟨hpeat, hready, hidle, hnormal⟩ := h
  simp [nolivo, hpeat, hready, hidle, hnormal]

theorem TakesCommands.mgmtWaits_eq_false : mgmtWaits s = false := (Bool.or_eq_false_iff.1 h.idle).2

/-! ### Information, power and resets (R501, R502) -/

theorem TakesCommands.exec_setPower (limit aclk : W32) (eid : Byte) : exec (.setPower limit aclk eid) s =
    .next ((busWrite ⟨.mgmt, Reg.PWR_ACLK_MAX, aclk, eid.toNat⟩ (busWrite ⟨.mgmt, Reg.PWR_LIMIT, limit, eid.toNat⟩ s)).emit
      (.nolivo (if 1500 ≤ limit.toNat ∧ limit.toNat ≤ 3500 ∧ aclk.toNat ≤ 24 then 0 else 2) [])) := by
  rw [Machine.exec_setPower, execSetPower, h.nolivo_eq, setPower, answer]
  by_cases hrange : 1500 ≤ limit.toNat ∧ limit.toNat ≤ 3500 ∧ aclk.toNat ≤ 24
  · obtain ⟨hlo, hhi, haclk⟩ := hrange
    simp [hlo, hhi, haclk, NCode.num]
  · rw [if_neg hrange, if_neg (by simpa [and_assoc] using hrange), NCode.num]

theorem TakesCommands.exec_resetCmd (cold : Byte) (chk : WarmCheck) : exec (.resetCmd cold chk) s = .next (resetCmdMeaning cold chk s) := by
  rw [Machine.exec_resetCmd, execResetCmd]
  simp [h.peat, h.ready, h.mgmtWaits_eq_false]

theorem TakesCommands.exec_bootOptions {opts : Byte} (hopts : opts.toNat < 2) (eid : Byte) : exec (.bootOptions opts eid) s =
    .next (answer .success [] (mgmtEntry eid Reg.SEC_BOOT_OPT (s.rf 0 Reg.SEC_BOOT_OPT 0 0) opts.toNat
      ({ s with up := { s.up with optMemtest := opts == 1 } }.setRf 0 Reg.SEC_BOOT_OPT 0 0 opts.toNat))) := by
  rw [Machine.exec_bootOptions, execBootOptions, h.nolivo_eq, bootOptions, if_neg (by omega)]

/-! ### Firmware (R493 to R495) -/

theorem TakesCommands.exec_fwBegin {ty : Byte} (hlo : 1 ≤ ty.toNat) (hhi : ty.toNat ≤ 3) (hopen : s.sec.fwOpen = none) (hrepair : s.sec.repair = []) :
    exec (.fwBegin ty) s = .next (answer .success [] (setUpdate 1 { s.setFlash ty.toNat 1 .blank with
      sec := { (s.setFlash ty.toNat 1 .blank).sec with fwOpen := some (ty.toNat, 0) } })) := by
  rw [Machine.exec_fwBegin, execFwBegin, h.nolivo_eq, fwBegin, if_neg (by simp [imageType, hlo, hhi]), if_neg (by simp [hopen, hrepair])]

theorem TakesCommands.exec_fwData {off : W32} {data : List Byte} {ty next : Nat} (hopen : s.sec.fwOpen = some (ty, next)) (hoff : off.toNat = next)
    (hdata : data ≠ []) (hlen : data.length ≤ 1024) (hfit : next + data.length ≤ copySize ty) :
    ∃ v, exec (.fwData off data) s = .next v ∧ v.sec.fwOpen = some (ty, next + data.length) ∧ v.out = .nolivo 0 [] :: s.out := by
  have hgo : ¬(off.toNat ≠ next ∨ data = [] ∨ 1024 < data.length ∨ copySize ty < next + data.length) := by
    simp only [hoff, hdata, ne_eq, not_true_eq_false, false_or, not_or, not_lt]
    exact ⟨hlen, hfit⟩
  rw [Machine.exec_fwData, execFwData, h.nolivo_eq]
  simp only [fwData, hopen, if_neg hgo]
  exact ⟨_, rfl, rfl, rfl⟩

section
variable {eid : Byte} {ty next : Nat} (hopen : s.sec.fwOpen = some (ty, next))
include hopen

theorem TakesCommands.exec_fwCommit_of_valid (hfits : copyFits ty (s.flashCopy ty 1) s = true) (hvalid : copyValid ty (s.flashCopy ty 1) s = true) :
    exec (.fwCommit eid) s = .next (setUpdate 2 { s.setFlash ty 0 .blank with
      sec := { (s.setFlash ty 0 .blank).sec with fwOpen := none, fwCommit := some (ty, eid.toNat) } }) := by
  rw [exec_fwCommit, execFwCommit, h.nolivo_eq]
  simp only [fwCommit, hopen, hfits, hvalid, Bool.not_true, Bool.false_eq_true, if_false]

theorem TakesCommands.exec_fwCommit_of_unfit (hfits : copyFits ty (s.flashCopy ty 1) s = false) :
    exec (.fwCommit eid) s = .next (endCommit .verifyFailed eid (s.reg 0 Reg.SEC_UPDATE).toNat s) := by
  rw [exec_fwCommit, execFwCommit, h.nolivo_eq]
  simp only [fwCommit, hopen, hfits, Bool.not_false, if_true]

end

section
variable {ty v : Byte} (hlo : 1 ≤ ty.toNat) (hhi : ty.toNat ≤ 3) (hv : v.toNat ≤ 63) (eid : Byte)
include hlo hhi hv

theorem TakesCommands.exec_svnCommit_of_refused (hok : svnOk ty.toNat v.toNat s = false) : exec (.svnCommit ty v eid) s = .next (s.emit (.nolivo 3 [])) := by
  rw [exec_svnCommit, execSvnCommit, h.nolivo_eq, svnCommit, if_neg (by simp [imageType, hlo, hhi, hv]), if_pos (by simp [hok])]
  rfl

/-- A commit of a security version raises its minimum to it (R495). -/
theorem TakesCommands.exec_svnCommit_of_ok (hok : svnOk ty.toNat v.toNat s = true) : ∃ u, exec (.svnCommit ty v eid) s = .next (answer .success [] u) ∧
    svnMin u ty.toNat = max v.toNat (svnMin s ty.toNat) := by
  rw [exec_svnCommit, execSvnCommit, h.nolivo_eq, svnCommit, if_neg (by simp [imageType, hlo, hhi, hv]), if_neg (by simp [hok])]
  have hmin : svnMin s ty.toNat < 2 ^ (svnLo ty.toNat + 5 + 1 - svnLo ty.toNat) := fld_lt ..
  have hwidth : svnLo ty.toNat + 5 + 1 - svnLo ty.toNat = 6 := by omega
  have hplace : svnLo ty.toNat + 5 < 32 := by
    rw [svnLo]
    omega
  refine ⟨_, rfl, ?_⟩
  rw [svnMin, mgmtEntry_rf (by decide), State.rf_setRf_self _ _ _ _ (by omega) hplace]
  rw [hwidth] at hmin ⊢
  omega

end

section
variable {slot : Byte} (hslot : slot.toNat < 4) (eid : Byte)
include hslot

theorem TakesCommands.exec_keyRevoke_of_refused (hok : revokeOk slot.toNat s = false) : exec (.keyRevoke slot eid) s = .next (s.emit (.nolivo 3 [])) := by
  rw [exec_keyRevoke, execKeyRevoke, h.nolivo_eq, keyRevoke, if_neg (by omega), if_pos (by simp [hok])]
  rfl

theorem TakesCommands.exec_keyRevoke_of_ok (hok : revokeOk slot.toNat s = true) : ∃ u, exec (.keyRevoke slot eid) s = .next (answer .success [] u) ∧
    slotRevoked u slot.toNat = true := by
  rw [exec_keyRevoke, execKeyRevoke, h.nolivo_eq, keyRevoke, if_neg (by omega), if_neg (by simp [hok])]
  refine ⟨_, rfl, ?_⟩
  have hold : s.rf 0 Reg.SEC_BOOT 7 4 < 2 ^ 4 := fld_lt ..
  have hbit : 2 ^ slot.toNat < 2 ^ 4 := Nat.pow_lt_pow_right (by decide) hslot
  rw [slotRevoked, mgmtEntry_rf (by decide), State.rf_setRf_self _ _ _ _ (by decide) (by decide), Nat.mod_eq_of_lt (Nat.or_lt_two_pow hold hbit),
    Nat.and_two_pow]
  simp

end

/-! ### Faults, journal and registers (R500) -/

theorem TakesCommands.exec_faultRead {n : Byte} (hlo : 1 ≤ n.toNat) (hhi : n.toNat ≤ 4) {fseq : W32} {bad : List BitErr} {l : List Byte} {s1 : State}
    (hread : readRecords n.toNat fseq.toNat bad s = (l, s1)) : exec (.faultRead fseq n bad) s = .next (s1.emit (.nolivo 0 l)) := by
  rw [Machine.exec_faultRead, execFaultRead, h.nolivo_eq, faultRead, if_neg (by omega)]
  simp only [hread]
  rfl

theorem TakesCommands.exec_faultAck : exec .faultAck s = .next (answer .success [] (s.setRf 0 Reg.FLT_STATUS 0 0 0)) := by
  rw [Machine.exec_faultAck, execFaultAck, h.nolivo_eq]

theorem TakesCommands.exec_journalRead {n : Byte} (hlo : 1 ≤ n.toNat) (hhi : n.toNat ≤ 8) {seq : W32} (hseq : seq.toNat < 2 ^ 24) {bad : List BitErr}
    {l : List Byte} {s1 : State} (hread : readEntries n.toNat seq.toNat bad s = (l, s1)) :
    exec (.journalRead seq n bad) s = .next (s1.emit (.nolivo 0 l)) := by
  rw [Machine.exec_journalRead, execJournalRead, h.nolivo_eq, journalRead, if_neg (by omega)]
  simp only [hread]
  rfl

theorem TakesCommands.exec_lockCmd {set clear : W32} (hset : set.toNat < 2 ^ 18) (hclear : clear.toNat < 2 ^ 18) (eid : Byte) :
    exec (.lockCmd set clear eid) s =
      .next ((busWrite ⟨.mgmt, Reg.HST_MLOCK, ((s.reg 0 Reg.HST_MLOCK) &&& ~~~clear) ||| set, eid.toNat⟩ s).emit (.nolivo 0 [])) := by
  rw [Machine.exec_lockCmd, execLockCmd, h.nolivo_eq, lockMasks, if_neg (by omega)]
  rfl

section
variable {off : W32} (halign : off.toNat % 4 = 0) (hoff : off.toNat < 2 ^ 26) (hbus : busOpen .mgmt off.toNat s = true)
include halign hoff hbus

omit h hbus in
theorem offsetOk_of_aligned : offsetOk off = true := by
  rw [offsetOk, decide_eq_true hoff, halign]
  rfl

theorem TakesCommands.exec_regRead : exec (.regRead off) s = .next (busRead .mgmt off.toNat s) := by
  rw [Machine.exec_regRead, execRegRead, h.nolivo_eq, regReadCmd, if_neg (by simp [offsetOk_of_aligned halign hoff]), if_neg (by simp [hbus])]

theorem TakesCommands.exec_regWrite (hblock : off.toNat / 2 ^ 20 ≠ 0x10) (val : W32) (eid : Byte) : exec (.regWrite off val eid) s =
    .next ((busWrite ⟨.mgmt, off.toNat, val, eid.toNat⟩ s).emit (.nolivo (writeCode off.toNat val).num [])) := by
  rw [Machine.exec_regWrite, execRegWrite, h.nolivo_eq, regWriteCmd, if_neg (by simp [offsetOk_of_aligned halign hoff]), if_neg (by simp [hbus]),
    if_neg (by rwa [Nat.shiftRight_eq_div_pow])]
  rfl

end

/-! ### Debug access (R503) -/

omit h in
/-- Bytes the model leaves open come in words of eight, and drawing them leaves the rest of the state. -/
theorem openBytes_keeps {β : Type} (g : State → β) (hg : ∀ t : State, g t.drawFree.2 = g t) (n : Nat) : g (openBytes n s).2 = g s := by
  induction n generalizing s with
  | zero => rfl
  | succ n ih => exact ih.trans (hg s)

omit h in
theorem length_openBytes (n : Nat) : (openBytes n s).1.length = 8 * n := by
  induction n generalizing s with
  | zero => rfl
  | succ n ih =>
    rw [openBytes, List.length_append, length_leBytes, ih]
    omega

theorem TakesCommands.exec_debugChallenge : exec .debugChallenge s = .next (answer .success (openBytes 2 s).1
    { (openBytes 2 s).2 with sec := { (openBytes 2 s).2.sec with dbgNonce := some (openBytes 2 s).1 } }) := by
  rw [Machine.exec_debugChallenge, execDebugChallenge, h.nolivo_eq]
  rfl

section
variable {t : List Byte} (hshape : tokenShape t = true)
include hshape

omit h in
/-- The level of a token is 1 or 2, so it fits its field. -/
theorem leAt_level_lt : leAt t 4 1 < 4 := by
  simp only [tokenShape, Bool.and_eq_true, Bool.or_eq_true, beq_iff_eq] at hshape
  obtain ⟨⟨⟨-, hlevel⟩, -⟩, -⟩ := hshape
  omega

theorem TakesCommands.exec_debugUnlock_of_match (hmatch : tokenMatches t s = true) : exec (.debugUnlock t) s = .next (answer .success []
    (({ s with sec := { s.sec with dbgNonce := none } }.setRf 0 Reg.SEC_DBG 1 0 (leAt t 4 1)).setRf 0 Reg.SEC_DBG 2 2 (leAt t 5 1))) := by
  rw [exec_debugUnlock, execDebugUnlock, h.nolivo_eq, debugUnlock]
  simp only [hshape, hmatch, Bool.not_true, Bool.false_eq_true, if_false]

theorem TakesCommands.exec_debugUnlock_of_mismatch (hmatch : tokenMatches t s = false) : exec (.debugUnlock t) s =
    .next (answer .refused [] { s with sec := { s.sec with dbgNonce := none } }) := by
  rw [exec_debugUnlock, execDebugUnlock, h.nolivo_eq, debugUnlock]
  simp only [hshape, hmatch, Bool.not_true, Bool.not_false, Bool.false_eq_true, if_false, if_true]

end

theorem TakesCommands.exec_debugLock : exec .debugLock s = .next (answer .success [] (s.setRf 0 Reg.SEC_DBG 1 0 0)) := by
  rw [Machine.exec_debugLock, execDebugLock, h.nolivo_eq]

end

/-- Settles O55: with the port taking commands, each command is its meaning, followed to the fields that the statement names. -/
theorem nolivoCommands : Obligations.NolivoCommands := by
  unfold Obligations.NolivoCommands
  intro s hpeat hready hidle hnormal
  have h : TakesCommands s := ⟨hpeat, hready, hidle, hnormal⟩
  refine ⟨?info, ?telemetry, fun limit aclk eid u hu => hu ▸ h.exec_setPower limit aclk eid,
    fun chk => ⟨h.exec_resetCmd 0 chk, h.exec_resetCmd 1 chk⟩,
    fun opts eid hopts => ⟨_, h.exec_bootOptions hopts eid, ?optMemtest, ?bootOpt, rfl⟩,
    fun ty hlo hhi hopen hrepair => ⟨_, h.exec_fwBegin hlo hhi hopen hrepair, rfl, State.rf_setRf_self _ _ _ _ (by decide) (by decide), rfl⟩,
    fun off data ty next hopen hoff hdata hlen hfit => h.exec_fwData hopen hoff hdata hlen hfit,
    fun eid ty next hopen => ⟨fun hfits hvalid => ⟨_, h.exec_fwCommit_of_valid hopen hfits hvalid, rfl,
      State.rf_setRf_self _ _ _ _ (by decide) (by decide), rfl⟩, h.exec_fwCommit_of_unfit hopen⟩,
    fun ty v eid hlo hhi hv => ⟨h.exec_svnCommit_of_refused hlo hhi hv eid, fun hok => ?svn⟩,
    fun slot eid hslot => ⟨h.exec_keyRevoke_of_refused hslot eid, fun hok => ?key⟩,
    fun fseq n bad l s1 hlo hhi => h.exec_faultRead hlo hhi,
    ⟨_, h.exec_faultAck, State.rf_setRf_self _ _ _ _ (by decide) (by decide), rfl, rfl⟩,
    fun seq n bad l s1 hlo hhi hseq => h.exec_journalRead hlo hhi hseq,
    fun set clear eid hset hclear => ⟨_, h.exec_lockCmd hset hclear eid, rfl⟩,
    fun off halign hoff hbus => h.exec_regRead halign hoff hbus,
    fun off val eid halign hoff hbus hblock => h.exec_regWrite halign hoff hbus hblock val eid,
    ⟨_, _, h.exec_debugChallenge, rfl, length_openBytes 2, ?challenge⟩, fun t hshape => ?unlock,
    ⟨_, h.exec_debugLock, State.rf_setRf_self _ _ _ _ (by decide) (by decide), rfl, rfl⟩⟩
  case info | telemetry => exact congrArg Host.Outcome.next (h.nolivo_eq true _)
  case optMemtest => rw [answer_up, mgmtEntry_up, State.setRf_up]
  case bootOpt =>
    rw [answer_rf, mgmtEntry_rf (by decide), State.rf_setRf_self _ _ _ _ (by decide) (by decide)]
    exact Nat.mod_eq_of_lt hopts
  case svn =>
    obtain ⟨u, hexec, hmin⟩ := h.exec_svnCommit_of_ok hlo hhi hv eid hok
    exact ⟨_, hexec, (Nat.le_max_left ..).trans_eq hmin.symm, (Nat.le_max_right ..).trans_eq hmin.symm, rfl⟩
  case key =>
    obtain ⟨u, hexec, hrevoked⟩ := h.exec_keyRevoke_of_ok hslot eid hok
    exact ⟨_, hexec, hrevoked, rfl⟩
  case challenge => exact congrArg (List.cons (.nolivo 0 (openBytes 2 s).1)) (openBytes_keeps State.out (fun _ => rfl) 2)
  case unlock =>
    cases hmatch : tokenMatches t s with
    | true =>
      refine ⟨_, h.exec_debugUnlock_of_match hshape hmatch, rfl, ?_, rfl⟩
      rw [answer_rf, State.rf_setRf_of_apart _ _ _ _ (by decide) (by decide) (by decide), State.rf_setRf_self _ _ _ _ (by decide) (by decide)]
      exact Nat.mod_eq_of_lt (leAt_level_lt hshape)
    | false => exact ⟨_, h.exec_debugUnlock_of_mismatch hshape hmatch, rfl, rfl, rfl⟩

end Sys2Proof.Machine
end

section
/-! PROOFS. The SPDM responder (O56, R496 to R499). -/

namespace Sys2Proof.Machine

section
variable {tr : SpdmPort} {s : State} (hopen : spdmOpen tr s = true) {n : Nat}
include hopen

theorem spdmAt_of_reached (hstage : n ≤ spdmStage tr s) (k : State → State) : spdmAt n tr k s = k s := by
  simp [spdmAt, hopen, hstage]

/-- A request before its stage of the negotiation answers UnexpectedRequest (R497). -/
theorem spdmAt_of_early (hstage : spdmStage tr s < n) (k : State → State) : spdmAt n tr k s = s.emit (.spdm tr (.error 0x04)) := by
  simp [spdmAt, hopen, hstage, spdmAnswer]

end

@[simp] theorem spdmStage_emit (tr : SpdmPort) (o : Out) (s : State) : spdmStage tr (s.emit o) = spdmStage tr s := by cases tr <;> rfl

@[simp] theorem spdmStage_setStage (tr : SpdmPort) (n : Nat) (s : State) : spdmStage tr (setStage tr n s) = n := by cases tr <;> rfl

@[simp] theorem setStage_out (tr : SpdmPort) (n : Nat) (s : State) : (setStage tr n s).out = s.out := by cases tr <;> rfl

/-- The answer of a step of the negotiation leaves its stage reached. -/
theorem spdmStep_answers (tr : SpdmPort) (r : SpdmResp) (n : Nat) (s : State) :
    (spdmAnswer tr r (setStage tr n s)).out = .spdm tr r :: s.out ∧ spdmStage tr (spdmAnswer tr r (setStage tr n s)) = n :=
  ⟨congrArg (List.cons _) (setStage_out tr n s), by rw [spdmAnswer, spdmStage_emit, spdmStage_setStage]⟩

section
variable {tr : SpdmPort} {s : State} (hopen : spdmOpen tr s = true)
include hopen

/-! ### The negotiation (R497) -/

theorem exec_getVersion_of_open : exec (.getVersion tr) s = .next (spdmAnswer tr (.version [0x12]) (setStage tr 1 s)) := by
  rw [exec_getVersion, execGetVersion, spdmAt_of_reached hopen (Nat.zero_le _)]

theorem exec_getCapabilities_of_reached (h : 1 ≤ spdmStage tr s) :
    exec (.getCapabilities tr) s = .next (spdmAnswer tr (.capabilities true true true true 16) (setStage tr 2 s)) := by
  rw [exec_getCapabilities, execGetCapabilities, spdmAt_of_reached hopen h]

theorem exec_negotiateAlgorithms_of_reached (h : 2 ≤ spdmStage tr s) (sm2 sm3 m d : Bool) : exec (.negotiateAlgorithms tr sm2 sm3 m d) s =
    .next (spdmAnswer tr (.algorithms sm2 sm3 m d) (setStage tr (if sm2 && sm3 then 3 else 2) s)) := by
  rw [exec_negotiateAlgorithms, execNegotiateAlgorithms, spdmAt_of_reached hopen h]

/-! ### Certificates, challenges and measurements (R498, R499) -/

section
variable (h : 3 ≤ spdmStage tr s)
include h

theorem exec_getDigests_of_reached : exec (.getDigests tr) s = .next (s.emit (.spdm tr (.digests (chainDigest s)))) := by
  rw [exec_getDigests, execGetDigests, spdmAt_of_reached hopen h, spdmAnswer]

theorem exec_getCertificate_of_reached (off len : W16) :
    exec (.getCertificate tr 0 off len) s = .next (s.emit (.spdm tr (certPart 0 off.toNat len.toNat s))) := by
  rw [exec_getCertificate, execGetCertificate, spdmAt_of_reached hopen h]
  rfl

theorem exec_challenge_of_reached {nonce : List Byte} (hlen : nonce.length = 32) : exec (.challenge tr 0 nonce) s =
    .next (s.emit (.spdm tr (.challengeAuth (chainDigest s) nonce (aliasSig (chainDigest s ++ nonce) s)))) := by
  rw [exec_challenge, execChallenge, spdmAt_of_reached hopen h, if_neg (by simp [hlen]), spdmAnswer]

section
variable {index : Byte} {l : List (Nat × List Byte)} (hnamed : namedMeasurements index.toNat s = some l)
include hnamed

theorem exec_getMeasurements_of_unsigned (nonce : List Byte) :
    exec (.getMeasurements tr index false nonce) s = .next (s.emit (.spdm tr (.measurements l [] []))) := by
  rw [exec_getMeasurements, execGetMeasurements, spdmAt_of_reached hopen h]
  simp only [hnamed, Bool.not_false, if_true, spdmAnswer]

theorem exec_getMeasurements_of_signed {nonce : List Byte} (hlen : nonce.length = 32) : exec (.getMeasurements tr index true nonce) s =
    .next (s.emit (.spdm tr (.measurements l nonce (aliasSig (measBytes l ++ nonce) s)))) := by
  rw [exec_getMeasurements, execGetMeasurements, spdmAt_of_reached hopen h]
  simp only [hnamed, hlen, Bool.not_true, Bool.false_eq_true, if_false, ne_eq, not_true_eq_false, spdmAnswer]

end

theorem exec_getMeasurements_of_unnamed {index : Byte} (hnamed : namedMeasurements index.toNat s = none) (sign : Bool) (nonce : List Byte) :
    exec (.getMeasurements tr index sign nonce) s = .next (s.emit (.spdm tr (.error 0x01))) := by
  rw [exec_getMeasurements, execGetMeasurements, spdmAt_of_reached hopen h]
  simp only [hnamed, spdmAnswer]

end
end

/-- Settles O56: each request is at its stage or before it. -/
theorem spdmResponder : Obligations.SpdmResponder := by
  unfold Obligations.SpdmResponder
  intro tr s hopen
  refine ⟨⟨_, exec_getVersion_of_open hopen, spdmStep_answers ..⟩, fun h => ⟨_, _, exec_getCapabilities_of_reached hopen h, spdmStep_answers ..⟩,
    fun h sm2 sm3 m d => ⟨_, exec_negotiateAlgorithms_of_reached hopen h sm2 sm3 m d, ?negotiated⟩,
    fun h => ⟨exec_getDigests_of_reached hopen h, exec_getCertificate_of_reached hopen h, fun nonce => exec_challenge_of_reached hopen h,
      fun index l hnamed nonce => ⟨exec_getMeasurements_of_unsigned hopen h hnamed nonce, exec_getMeasurements_of_signed hopen h hnamed⟩,
      fun index sign nonce hnamed => exec_getMeasurements_of_unnamed hopen h hnamed sign nonce⟩, fun c n hc hstage => ?early⟩
  case negotiated =>
    obtain ⟨hout, hstage⟩ := spdmStep_answers tr (.algorithms sm2 sm3 m d) (if sm2 && sm3 then 3 else 2) s
    exact ⟨hout, fun hsm2 hsm3 => by rw [hstage, hsm2, hsm3]; rfl⟩
  case early =>
    simp only [List.mem_cons, Prod.mk.injEq, List.not_mem_nil, or_false] at hc
    rcases hc with ⟨rfl, rfl⟩ | ⟨rfl, rfl⟩ | ⟨rfl, rfl⟩
    · rw [exec_getCapabilities, execGetCapabilities, spdmAt_of_early hopen hstage]
    · rw [exec_negotiateAlgorithms, execNegotiateAlgorithms, spdmAt_of_early hopen hstage]
    · rw [exec_getDigests, execGetDigests, spdmAt_of_early hopen hstage]

end Sys2Proof.Machine
end

section
/-! PROOFS. Instruction words (O60): the fields of a word and of an encoded word (R156), and the table of the thread commands, which holds each
CLASS and FUNC once (R159). -/

namespace Sys2Proof.Machine

/-! ### Bit fields as quotients and remainders -/

theorem bits_eq_div_mod (v hi lo : Nat) : bits v hi lo = v / 2 ^ lo % 2 ^ (hi + 1 - lo) := by
  rw [bits, Nat.shiftRight_eq_div_pow]

theorem b2n_bit (v i : Nat) : b2n (bit v i) = v / 2 ^ i % 2 := by
  rw [bit, Nat.testBit_eq_decide_div_mod_eq]
  rcases Nat.mod_two_eq_zero_or_one (v / 2 ^ i) with h | h <;> simp [b2n, h]

theorem b2n_injective : Function.Injective b2n := by decide

theorem b2n_lt_two (b : Bool) : b2n b < 2 := by cases b <;> decide

theorem bit_eq_iff {v i : Nat} {b : Bool} : bit v i = b ↔ v / 2 ^ i % 2 = b2n b := by
  rw [← b2n_bit, b2n_injective.eq_iff]

theorem bit_eq_false_iff {v i : Nat} : bit v i = false ↔ v / 2 ^ i % 2 = 0 := bit_eq_iff

/-! ### The fields of a word and of an encoded word (R156) -/

/-- The fields of a word other than CLASS and FUNC, as `decodeWord` reads them. -/
def fieldsOf (w : Nat) : WordFields := ⟨iPg w, iPn w, iLong w, iRd w, iRa w, iRb w, iImm w⟩

theorem fieldsOf_fits (w : Nat) : (fieldsOf w).fits :=
  ⟨Nat.mod_lt _ (by decide), Nat.mod_lt _ (by decide), Nat.mod_lt _ (by decide), Nat.mod_lt _ (by decide), Nat.mod_lt _ (by decide)⟩

/-- A word with its reserved bits clear is the encoding of its fields. -/
theorem encodeWord_fieldsOf {w : Nat} (hw : w < 2 ^ 64) (h13 : bit w 13 = false) (h29 : bits w 31 29 = 0) :
    encodeWord (iCls w) (iFunc w) (fieldsOf w) = w := by
  rw [bit_eq_false_iff] at h13
  rw [bits_eq_div_mod] at h29
  simp only [encodeWord, fieldsOf, iCls, iFunc, iPg, iPn, iLong, iRd, iRa, iRb, iImm, bits_eq_div_mod, b2n_bit]
  omega

section
variable {c f : Nat} {x : WordFields} (hc : c < 16) (hf : f < 16)
include hf

theorem iFunc_encodeWord : iFunc (encodeWord c f x) = f := by
  simp only [iFunc, bits_eq_div_mod, encodeWord]
  omega

include hc

theorem iCls_encodeWord : iCls (encodeWord c f x) = c := by
  simp only [iCls, bits_eq_div_mod, encodeWord]
  omega

section
variable (hx : x.fits)
include hx

theorem encodeWord_lt : encodeWord c f x < 2 ^ 64 := by
  obtain ⟨hpg, hrd, hra, hrb, himm⟩ := hx
  have hpn := b2n_lt_two x.pn
  have hlong := b2n_lt_two x.long
  unfold encodeWord
  omega

/-- The reserved bits of an encoded word are 0. -/
theorem reserved_encodeWord : bit (encodeWord c f x) 13 = false ∧ bits (encodeWord c f x) 31 29 = 0 := by
  obtain ⟨hpg, hrd, hra, hrb, himm⟩ := hx
  have hpn := b2n_lt_two x.pn
  have hlong := b2n_lt_two x.long
  rw [bit_eq_false_iff, bits_eq_div_mod, encodeWord]
  omega

theorem fieldsOf_encodeWord : fieldsOf (encodeWord c f x) = x := by
  obtain ⟨hpg, hrd, hra, hrb, himm⟩ := hx
  have hpn := b2n_lt_two x.pn
  have hlong := b2n_lt_two x.long
  cases x
  simp only [fieldsOf, WordFields.mk.injEq, iPg, iPn, iLong, iRd, iRa, iRb, iImm, bit_eq_iff, bits_eq_div_mod, encodeWord] at *
  omega

end

end

/-! ### The table of the thread commands (R159) -/

/-- CLASS and FUNC of the rows do not depend on the thread, no two rows share them, and both are 4 bits wide. -/
theorem threadRows_keys (a : Fin 96) (t : Fin 64) :
    ((threadRows a t).map Prod.snd).Nodup ∧ ∀ k ∈ (threadRows a t).map Prod.snd, k.1 < 16 ∧ k.2 < 16 := by
  have hkeys : (threadRows a t).map Prod.snd = (threadRows 0 0).map Prod.snd := rfl
  rw [hkeys]
  decide +kernel

/-- The table finds a row by its CLASS and FUNC. -/
theorem find?_threadRows {a : Fin 96} {t : Fin 64} {e : Instr × Nat × Nat} (he : e ∈ threadRows a t) :
    (threadRows a t).find? (fun r => r.2.1 == e.2.1 && r.2.2 == e.2.2) = some e := by
  have hone {r : Instr × Nat × Nat} (hr : r ∈ threadRows a t) (hk : r.2 = e.2) : r = e :=
    List.inj_on_of_nodup_map (threadRows_keys a t).1 hr he hk
  cases hfind : (threadRows a t).find? (fun r => r.2.1 == e.2.1 && r.2.2 == e.2.2) with
  | none => simpa using List.find?_eq_none.1 hfind e he
  | some r =>
    have hp := List.find?_some hfind
    simp only [Bool.and_eq_true, beq_iff_eq] at hp
    rw [hone (List.mem_of_find?_eq_some hfind) (Prod.ext hp.1 hp.2)]

theorem decodeWord_of_reserved {a : Fin 96} {t : Fin 64} {w : Nat} (h13 : bit w 13 = false) (h29 : bits w 31 29 = 0) :
    decodeWord a t w = ((threadRows a t).find? (fun e => e.2.1 == iCls w && e.2.2 == iFunc w)).map (fun e => (e.1, fieldsOf w)) := by
  simp [decodeWord, h13, h29, fieldsOf]

/-- Decoding the word of a row and its fields gives them back. -/
theorem decodeWord_encodeWord {a : Fin 96} {t : Fin 64} {e : Instr × Nat × Nat} (he : e ∈ threadRows a t) {x : WordFields} (hx : x.fits) :
    decodeWord a t (encodeWord e.2.1 e.2.2 x) = some (e.1, x) := by
  obtain ⟨hc, hf⟩ := (threadRows_keys a t).2 _ (List.mem_map_of_mem he)
  obtain ⟨h13, h29⟩ := reserved_encodeWord hc hf hx
  rw [decodeWord_of_reserved h13 h29, iCls_encodeWord hc hf, iFunc_encodeWord hf, find?_threadRows he, fieldsOf_encodeWord hc hf hx]
  rfl

/-- A word that decodes has its reserved bits clear, and its CLASS and FUNC are a row of the table. -/
theorem row_of_decodeWord {a : Fin 96} {t : Fin 64} {w : Nat} {i : Instr} {x : WordFields} (h : decodeWord a t w = some (i, x)) :
    bit w 13 = false ∧ bits w 31 29 = 0 ∧ x = fieldsOf w ∧ (i, iCls w, iFunc w) ∈ threadRows a t := by
  by_cases hres : bit w 13 = true ∨ bits w 31 29 ≠ 0
  · simp [decodeWord, hres] at h
  · push Not at hres
    obtain ⟨h13, h29⟩ := hres
    replace h13 := Bool.eq_false_of_not_eq_true h13
    rw [decodeWord_of_reserved h13 h29] at h
    obtain ⟨⟨j, c, f⟩, hfind, heq⟩ := Option.map_eq_some_iff.1 h
    have hkey := List.find?_some hfind
    simp only [Bool.and_eq_true, beq_iff_eq] at hkey
    obtain ⟨rfl, rfl⟩ := hkey
    obtain ⟨rfl, rfl⟩ := Prod.mk.inj heq
    exact ⟨h13, h29, rfl, List.mem_of_find?_eq_some hfind⟩

/-- Settles O60: the fields of an encoded word read back, the table holds each CLASS and FUNC once, and a word without reserved bits is the encoding of
its fields. -/
theorem instructionWordsRoundTrip : Obligations.InstructionWordsRoundTrip := by
  unfold Obligations.InstructionWordsRoundTrip
  refine fun a t => ⟨fun e he x hx => ?_, fun w i x hw hdec => ?_⟩
  · obtain ⟨hc, hf⟩ := (threadRows_keys a t).2 _ (List.mem_map_of_mem he)
    exact ⟨encodeWord_lt hc hf hx, decodeWord_encodeWord he hx⟩
  · obtain ⟨h13, h29, rfl, hrow⟩ := row_of_decodeWord hdec
    exact ⟨fieldsOf_fits w, _, _, hrow, encodeWord_fieldsOf hw h13 h29⟩

end Sys2Proof.Machine
end

section
/-! PROOFS. Thread instructions: the thread after its registers are written, the instruction that issues, that its guard holds back (O6) or that is
illegal (O8), and the register files (O4) (R153, R154, R157, R160, R162). -/

namespace Sys2Proof.Machine

/-! ### A thread whose registers are written -/

theorem Thread.ne_free_of_st {x : Thread} (h : x.st ≠ .free) : x ≠ Thread.free := by
  rintro rfl
  exact h rfl

@[simp] theorem Thread.setS_st (x : Thread) (r : Nat) (v : W64) : (x.setS r v).st = x.st := by
  unfold Thread.setS
  split <;> rfl

/-- A thread that is stored and goes on inside the program store is stored once, after the instruction (R157, R163). -/
theorem advance_setTh {a t w : Nat} {x : Thread} (u : State) (hst : x.st ≠ .free) (hpc : x.pc + iLen w < psWords) :
    advance a t w (u.setTh a t x) = u.setTh a t (x.after w) := by
  rw [advance_eq _ _ _ _ (by simpa using hpc), State.th_setTh_self]
  exact State.setTh_setTh _ _ _ (Thread.ne_free_of_st hst) (Thread.ne_free_of_st hst)

section
variable {s u : State} {a : Fin 96} {t : Fin 64} {w ext : Nat} (hiss : Issues s a t w ext u)
include hiss

/-- A thread that issues an instruction is READY, as it stands after the fetch. -/
theorem st_of_issues : (u.th a t).st = .ready := by
  obtain ⟨⟨hready, -, hthr, -, -⟩, -⟩ := hiss
  rwa [State.th_of_thr hthr]

/-- Write sd and go on (R161). -/
theorem writeS_of_issues (v : W64) : writeS a t w v u = u.setTh a t (((u.th a t).setS (iRd w) v).after w) :=
  advance_setTh u (by simp [st_of_issues hiss]) (by simpa using pc_lt_of_issues hiss)

/-- Write pd and go on (R162). -/
theorem writeP_of_issues (v : Bool) :
    writeP a t w v u = u.setTh a t (Thread.after { u.th a t with p := predWrite (u.th a t).p (iRd w % 8) v } w) :=
  advance_setTh u (by simp [st_of_issues hiss]) (pc_lt_of_issues hiss)

theorem advance_of_issues : advance a t w u = u.setTh a t ((u.th a t).after w) := advance_eq _ _ _ _ (pc_lt_of_issues hiss)

end

/-! ### Register files (O4) -/

theorem Thread.sreg_setS (x : Thread) (r k : Nat) (v : W64) :
    (x.setS r v).sreg k = if k = 0 then 0 else if k = r then v else x.sreg k := by
  split_ifs with h0 hr
  · rw [h0, Thread.sreg_zero]
  · rw [hr, Thread.sreg_setS_self x r v (hr ▸ h0)]
  · exact Thread.sreg_setS_of_ne x v hr

theorem getLsbD_predWrite (p : BitVec 8) (v : Bool) {i j : Nat} (hi : i ≠ 0) (hj : j < 8) :
    (predWrite p i v).getLsbD j = if j = i then v else p.getLsbD j := by
  rcases Nat.lt_trichotomy j i with h | rfl | h
  · cases v <;> simp [predWrite, hi, hj, h, h.ne]
  · cases v <;> simp [predWrite, hi, hj]
  · cases v <;> simp [predWrite, hi, hj, h.ne', show ¬ j < i by omega, show j - i ≠ 0 by omega]

theorem predRead_predWrite (p : BitVec 8) (v : Bool) {i j : Nat} (hj : j < 8) :
    predRead (predWrite p i v) j = if j = 0 then true else if j = i then v else predRead p j := by
  by_cases hj0 : j = 0
  · simp [predRead, hj0]
  · by_cases hi : i = 0
    · simp [predWrite, hi, hj0]
    · simp [predRead, hj0, beq_false_of_ne hj0, getLsbD_predWrite p v hi hj]

/-- Settles O4: bit by bit for the predicates, key by key for the scalar registers. -/
theorem predicateAndScalarWritesReachOneRegister : Obligations.PredicateAndScalarWritesReachOneRegister := by
  unfold Obligations.PredicateAndScalarWritesReachOneRegister
  exact ⟨fun p i j v _ hj => predRead_predWrite p v hj, Thread.sreg_setS⟩

/-! ### Every row is an issue of its CLASS and FUNC -/

/-- A command runs the issue of an instruction of a CLASS and FUNC. -/
def IsIssue (a : Fin 96) (t : Fin 64) (i : Instr) (cls func : Nat) : Prop := ∃ body, ∀ s, exec i s = .next (issue cls func body a t s)

theorem exec_of_aluRows {a : Fin 96} {t : Fin 64} {k : Nat} {i : Instr} (h : (aluRows a t)[k]? = some i) (s : State) :
    exec i s = .next (aluReg k a t s) := by
  obtain ⟨hk, rfl⟩ := List.getElem?_eq_some_iff.1 h
  replace hk : k < 15 := hk
  interval_cases k <;> rfl

theorem exec_of_aluImmRows {a : Fin 96} {t : Fin 64} {k : Nat} {i : Instr} (h : (aluImmRows a t)[k]? = some i) (s : State) :
    exec i s = .next (aluImm k a t s) := by
  obtain ⟨hk, rfl⟩ := List.getElem?_eq_some_iff.1 h
  replace hk : k < 15 := hk
  interval_cases k <;> rfl

theorem exec_of_cmpRows {a : Fin 96} {t : Fin 64} {k : Nat} {i : Instr} (h : (cmpRows a t)[k]? = some i) (s : State) :
    exec i s = .next (cmpReg k a t s) := by
  obtain ⟨hk, rfl⟩ := List.getElem?_eq_some_iff.1 h
  replace hk : k < 6 := hk
  interval_cases k <;> rfl

theorem exec_of_cmpImmRows {a : Fin 96} {t : Fin 64} {k : Nat} {i : Instr} (h : (cmpImmRows a t)[k]? = some i) (s : State) :
    exec i s = .next (cmpImm k a t s) := by
  obtain ⟨hk, rfl⟩ := List.getElem?_eq_some_iff.1 h
  replace hk : k < 6 := hk
  interval_cases k <;> rfl

theorem exec_of_loadRows {a : Fin 96} {t : Fin 64} {e : Instr × Nat} (h : e ∈ loadRows a t) (s : State) :
    exec e.1 s = .next (loadIssue e.2 a t s) := by
  simp only [loadRows, List.mem_cons, List.not_mem_nil, or_false] at h
  rcases h with rfl | rfl | rfl | rfl | rfl | rfl | rfl | rfl <;> rfl

theorem exec_of_storeRows {a : Fin 96} {t : Fin 64} {e : Instr × Nat} (h : e ∈ storeRows a t) (s : State) :
    exec e.1 s = .next (storeIssue e.2 a t s) := by
  simp only [storeRows, List.mem_cons, List.not_mem_nil, or_false] at h
  rcases h with rfl | rfl | rfl | rfl | rfl <;> rfl

/-- Rows of one CLASS in FUNC order are issues where the command at each index is. -/
theorem isIssue_of_classRows {a : Fin 96} {t : Fin 64} {cls f : Nat} {l : List Instr} {e : Instr × Nat × Nat} (h : e ∈ classRows cls f l)
    (hrow : ∀ (k : Nat) (i : Instr), l[k]? = some i → IsIssue a t i cls (f + k)) : IsIssue a t e.1 e.2.1 e.2.2 := by
  obtain ⟨⟨i, k⟩, hmem, rfl⟩ := List.mem_map.1 h
  exact hrow k i (List.mem_zipIdx_iff_getElem?.1 hmem)

theorem isIssue_of_controlRows {a : Fin 96} {t : Fin 64} : ∀ e ∈ controlRows a t, IsIssue a t e.1 e.2.1 e.2.2 := by
  simp only [controlRows, List.forall_mem_cons, List.not_mem_nil, false_implies, implies_true, and_true]
  and_intros <;> exact ⟨_, fun _ => rfl⟩

theorem isIssue_of_syncRows {a : Fin 96} {t : Fin 64} : ∀ e ∈ syncRows a t, IsIssue a t e.1 e.2.1 e.2.2 := by
  simp only [syncRows, List.forall_mem_cons, List.not_mem_nil, false_implies, implies_true, and_true]
  and_intros <;> exact ⟨_, fun _ => rfl⟩

theorem isIssue_of_asyncRows {a : Fin 96} {t : Fin 64} : ∀ e ∈ asyncRows a t, IsIssue a t e.1 e.2.1 e.2.2 := by
  simp only [asyncRows, List.forall_mem_cons, List.not_mem_nil, false_implies, implies_true, and_true]
  and_intros <;> exact ⟨_, fun _ => rfl⟩

/-- Every row of the table issues an instruction of its CLASS and FUNC. -/
theorem isIssue_of_threadRows {a : Fin 96} {t : Fin 64} {e : Instr × Nat × Nat} (h : e ∈ threadRows a t) : IsIssue a t e.1 e.2.1 e.2.2 := by
  simp only [threadRows, List.mem_flatten, List.mem_cons, List.not_mem_nil, or_false] at h
  obtain ⟨l, rfl | rfl | rfl | rfl | rfl | rfl | rfl | rfl | rfl | rfl, he⟩ := h
  · exact isIssue_of_classRows he fun k i hk => ⟨_, fun s => by rw [exec_of_aluRows hk, Nat.zero_add]; rfl⟩
  · exact isIssue_of_classRows he fun k i hk => ⟨_, fun s => by rw [exec_of_aluImmRows hk, Nat.zero_add]; rfl⟩
  · exact isIssue_of_classRows he fun k i hk => ⟨_, fun s => by rw [exec_of_cmpRows hk, Nat.zero_add]; rfl⟩
  · exact isIssue_of_classRows he fun k i hk => ⟨_, fun s => exec_of_cmpImmRows hk s⟩
  · exact isIssue_of_controlRows e he
  · obtain ⟨r, hr, rfl⟩ := List.mem_map.1 he
    exact ⟨_, exec_of_loadRows hr⟩
  · obtain ⟨r, hr, rfl⟩ := List.mem_map.1 he
    exact ⟨_, exec_of_storeRows hr⟩
  · exact isIssue_of_classRows he fun k i hk => ⟨_, fun s => by rw [exec_of_atomRows hk, Nat.zero_add]; rfl⟩
  · exact isIssue_of_syncRows e he
  · exact isIssue_of_asyncRows e he

/-! ### A guard that is false (O6), and an illegal word (O8) -/

/-- A false guard only moves the PC past the instruction (R157). -/
theorem issue_of_guard_false {s u : State} {a : Fin 96} {t : Fin 64} {w ext : Nat} (h : Fetches s a t w ext u)
    (hguard : guardHolds (s.th a t).p (iPg w) (iPn w) = false) (body : Nat → Nat → State → State) :
    issue (iCls w) (iFunc w) body a t s = u.setTh a t ((u.th a t).after w) := by
  obtain ⟨hready, hfetch, hthr, hlegal, hpc⟩ := h
  have hfits : ¬ (iLong w = true ∧ psWords ≤ (s.th a t).pc + 1) := by
    rintro ⟨hlong, hend⟩
    simp only [iLen, hlong, if_true] at hpc
    omega
  rw [issue, if_neg (by simp [hready]), hfetch]
  have hgo : (iLong w && decide ((s.th a t).pc + 1 ≥ psWords)) = false := by simpa using hfits
  simp only [hlegal, hgo, hguard, ne_eq, not_true_eq_false, Option.isSome_none, Bool.false_eq_true, or_self, if_false, Bool.not_false, if_true]
  exact advance_eq _ _ _ _ (by rwa [State.th_of_thr hthr])

/-- An instruction in any word of the program store, its last one included, runs its body on the fetched word (R153, R163). -/
theorem issue_of_issuesAnywhere {s u : State} {a : Fin 96} {t : Fin 64} {w ext cls func : Nat} (h : IssuesAnywhere s a t w ext u)
    (hc : iCls w = cls) (hf : iFunc w = func) (body : Nat → Nat → State → State) : issue cls func body a t s = body w ext u := by
  subst hc hf
  obtain ⟨hready, hfetch, -, hlegal, hfits, hguard⟩ := h
  have hgo : (iLong w && decide ((s.th a t).pc + 1 ≥ psWords)) = false := by simpa using hfits
  rw [issue, if_neg (by simp [hready]), hfetch]
  simp [hlegal, hgo, hguard]

/-- An instruction whose fetched word is illegal does nothing in its own row (R160). -/
theorem issue_of_illegal {s u : State} {a : Fin 96} {t : Fin 64} {w ext c : Nat} (hfetch : fetchIns a t s = (.ok (w, ext), u))
    (hillegal : illegalCause w ext = some c) (cls func : Nat) (body : Nat → Nat → State → State) : issue cls func body a t s = s := by
  simp [issue, hfetch, hillegal]

theorem exec_illegalInstruction_of_illegal {s u : State} {a : Fin 96} {t : Fin 64} {w ext c : Nat} (hready : (s.th a t).st = .ready)
    (hfetch : fetchIns a t s = (.ok (w, ext), u)) (hillegal : illegalCause w ext = some c) :
    exec (.illegalInstruction a t) s = .next (progFault a t c u) := by
  rw [exec_illegalInstruction, execIllegalInstruction]
  simp [hready, hfetch, hillegal]

/-- Settles O8: ILLEGAL_INSTRUCTION halts the thread, and the word's own row is an issue, which an illegal word stops. -/
theorem illegalWordHaltsItsThread : Obligations.IllegalWordHaltsItsThread := by
  unfold Obligations.IllegalWordHaltsItsThread
  refine fun a t s u w ext c i hready hfetch hillegal => ⟨exec_illegalInstruction_of_illegal hready hfetch hillegal, fun hrow => ?_⟩
  obtain ⟨body, hbody⟩ := isIssue_of_threadRows hrow
  rw [hbody, issue_of_illegal hfetch hillegal]

/-- The word 0 writes s0, which is no write, and goes on or leaves the program store (R157, R163). -/
theorem exec_add_of_zero {s u : State} {a : Fin 96} {t : Fin 64} {ext : Nat} (h : IssuesAnywhere s a t 0 ext u) :
    exec (.add a t) s = .next (advance a t 0 (u.setTh a t (u.th a t))) := by
  have hrd : iRd 0 = 0 := rfl
  rw [exec_add, execAdd, aluReg, issue_of_issuesAnywhere h (cls := 0) (func := 0) rfl rfl, writeS, hrd, Thread.setS_zero]

/-- Settles O6: every row is an issue, which a false guard lets do nothing but go on. -/
theorem falseGuardOnlyAdvancesThePc : Obligations.FalseGuardOnlyAdvancesThePc := by
  unfold Obligations.FalseGuardOnlyAdvancesThePc
  refine ⟨fun a t s u w ext i hfetch hguard hrow => ?_, fun p g n => rfl, fun w => rfl, fun a t => rfl, fun a t s u ext hready hfetch hthr => ?_⟩
  · obtain ⟨body, hbody⟩ := isIssue_of_threadRows hrow
    rw [hbody, issue_of_guard_false hfetch hguard]
  · have hth : u.th a t = s.th a t := State.th_of_thr hthr a t
    have hlong : iLong 0 = false := rfl
    rw [exec_add_of_zero ⟨hready, hfetch, hthr, rfl, by simp [hlong], rfl⟩, hth]
    constructor
    · intro hpc
      rw [advance_setTh u (by simp [hready]) (show (s.th a t).pc + 1 < psWords by unfold psWords; omega)]
    · intro hpc
      have hleaves : ¬ (0 ≤ (((s.th a t).pc + iLen 0 : Nat) : Int) ∧ (((s.th a t).pc + iLen 0 : Nat) : Int) < psWords) := by
        rw [hpc]
        decide
      rw [advance, State.th_setTh_self, goTo, if_neg hleaves]

end Sys2Proof.Machine
end

section
/-! PROOFS. Scalar arithmetic (O2), comparisons (O3), branches (O5) and the descriptor bases (O12) (R160 to R164). -/

namespace Sys2Proof.Machine

/-! ### Illegal encodings (R160) -/

theorem illegalCause_ne_none_of_func {w : Nat} (ext : Nat) (h : funcOk (iCls w) (iFunc w) = false) : illegalCause w ext ≠ none := by
  simp [illegalCause, h]

theorem illegalCause_ne_none_of_fields {w ext : Nat} (h : fieldsOk w ext = false) : illegalCause w ext ≠ none := by
  unfold illegalCause
  split_ifs <;> simp_all

theorem fieldsOk_of_scalar {w : Nat} (ext : Nat) (hc : iCls w < 8) (h : scalarFieldsOk w = false) : fieldsOk w ext = false := by
  unfold fieldsOk
  generalize iCls w = c at hc
  interval_cases c <;> simp [h]

theorem exec_illegalInstruction_of_ne_none {s u : State} {a : Fin 96} {t : Fin 64} {w ext : Nat} (hready : (s.th a t).st = .ready)
    (hfetch : fetchIns a t s = (.ok (w, ext), u)) (hillegal : illegalCause w ext ≠ none) :
    ∃ c, exec (.illegalInstruction a t) s = .next (progFault a t c u) := by
  obtain ⟨c, hc⟩ := Option.ne_none_iff_exists'.1 hillegal
  exact ⟨c, exec_illegalInstruction_of_illegal hready hfetch hc⟩

/-! ### The arithmetic of R161 (O2) -/

theorem ite_slt_left_eq_ofInt_min (x b : W64) : (if x.slt b then x else b) = BitVec.ofInt 64 (min x.toInt b.toInt) := by
  rw [BitVec.slt_eq_decide]
  rcases lt_or_ge x.toInt b.toInt with h | h
  · simp [h, min_eq_left h.le]
  · simp [h]

theorem ite_slt_right_eq_ofInt_max (x b : W64) : (if x.slt b then b else x) = BitVec.ofInt 64 (max x.toInt b.toInt) := by
  rw [BitVec.slt_eq_decide]
  rcases lt_or_ge x.toInt b.toInt with h | h
  · simp [h, max_eq_right h.le]
  · simp [h]

theorem ite_ult_left_eq_ofNat_min (x b : W64) : (if x.ult b then x else b) = BitVec.ofNat 64 (min x.toNat b.toNat) := by
  rw [BitVec.ult_eq_decide]
  rcases lt_or_ge x.toNat b.toNat with h | h
  · simp [h, min_eq_left h.le]
  · simp [h]

theorem ite_ult_right_eq_ofNat_max (x b : W64) : (if x.ult b then b else x) = BitVec.ofNat 64 (max x.toNat b.toNat) := by
  rw [BitVec.ult_eq_decide]
  rcases lt_or_ge x.toNat b.toNat with h | h
  · simp [h, max_eq_right h.le]
  · simp [h]

/-- The model's operations on words are those of R161 over the integers and the naturals, modulo 2^64. -/
theorem aluOp_eq_specAlu (k : Nat) (x b : W64) : aluOp k x b = specAlu k x b := by
  match k with
  | 0x0 => simp [aluOp, specAlu, BitVec.ofInt_add]
  | 0x1 => simp [aluOp, specAlu, sub_eq_add_neg, BitVec.ofInt_add, BitVec.ofInt_neg]
  | 0x2 => simp [aluOp, specAlu, BitVec.ofNat_and]
  | 0x3 => simp [aluOp, specAlu, BitVec.ofNat_or]
  | 0x4 => simp [aluOp, specAlu, BitVec.ofNat_xor]
  | 0x5 => exact BitVec.eq_of_toNat_eq (by simp [aluOp, specAlu, Nat.shiftLeft_eq])
  | 0x6 =>
    have hlt : x.toNat / 2 ^ (b.toNat % 64) < 2 ^ 64 := (Nat.div_le_self _ _).trans_lt x.isLt
    exact BitVec.eq_of_toNat_eq (by simpa [aluOp, specAlu, Nat.shiftRight_eq_div_pow] using (Nat.mod_eq_of_lt hlt).symm)
  | 0x7 => simp [aluOp, specAlu, BitVec.sshiftRight, Int.shiftRight_eq_div_pow]
  | 0x8 => simp [aluOp, specAlu, BitVec.ofInt_mul]
  | 0x9 | 0xA => rfl
  | 0xB => exact ite_slt_left_eq_ofInt_min x b
  | 0xC => exact ite_slt_right_eq_ofInt_max x b
  | 0xD => exact ite_ult_left_eq_ofNat_min x b
  | _ + 14 => exact ite_ult_right_eq_ofNat_max x b

/-- Settles O2: the rows run `writeS` with `aluOp`, which is the arithmetic of R161; the illegal forms are those that `funcOk` and `fieldsOk` refuse. -/
theorem scalarArithmeticWritesItsResult : Obligations.ScalarArithmeticWritesItsResult := by
  unfold Obligations.ScalarArithmeticWritesItsResult
  constructor
  · rintro a t s u w ext k i hiss rfl
    refine ⟨fun hrow hc => ?_, fun hrow hc => ?_⟩
    · rw [exec_of_aluRows hrow, aluReg, issue_eq_of_fields hiss hc rfl, writeS_of_issues hiss, aluOp_eq_specAlu, bReg]
    · rw [exec_of_aluImmRows hrow, aluImm, issue_eq_of_fields hiss hc rfl, writeS_of_issues hiss, aluOp_eq_specAlu]
      rfl
  · intro a t s u w ext hready hfetch hill
    refine exec_illegalInstruction_of_ne_none hready hfetch ?_
    obtain ⟨hc, himm⟩ | ⟨hc, hrb⟩ | ⟨hc, hf⟩ := hill
    · exact illegalCause_ne_none_of_fields (fieldsOk_of_scalar ext (by omega) (by simp [scalarFieldsOk, hc, himm]))
    · exact illegalCause_ne_none_of_fields (fieldsOk_of_scalar ext (by omega) (by simp [scalarFieldsOk, hc, hrb]))
    · refine illegalCause_ne_none_of_func ext ?_
      rcases hc with hc | hc <;> rw [hc, hf] <;> rfl

/-! ### The comparisons of R162 (O3) -/

/-- The model's comparison of words is that of R162 over the integers and the naturals. -/
theorem cmpTest_iff_specCmp (k : Nat) (x b : W64) : cmpTest k x b = true ↔ specCmp k x b := by
  match k with
  | 0 => simp [cmpTest, specCmp, BitVec.toNat_inj]
  | 1 => simp [cmpTest, specCmp, BitVec.toNat_inj]
  | 2 => simp [cmpTest, specCmp, BitVec.slt_eq_decide]
  | 3 => simp [cmpTest, specCmp, BitVec.ult_eq_decide]
  | 4 => simp [cmpTest, specCmp, BitVec.slt_eq_decide]
  | _ + 5 => simp [cmpTest, specCmp, BitVec.ult_eq_decide]

theorem cmpTest_of_specCmp {k : Nat} {x b : W64} {v : Bool} (h : v = true ↔ specCmp k x b) : cmpTest k x b = v :=
  Bool.eq_iff_iff.2 ((cmpTest_iff_specCmp k x b).trans h.symm)

/-- What class 0x2 may not hold: a destination above p7, a reserved FUNC, and for plog a source above p7 or a wide table. -/
theorem illegalCause_ne_none_of_cmp {w ext : Nat} (hc : iCls w = 0x2)
    (h : 8 ≤ iRd w ∨ iFunc w = 0x6 ∨ iFunc w = 0x7 ∨ iFunc w = 0xF ∨ iFunc w = 0xE ∧ (8 ≤ iRa w ∨ 8 ≤ iRb w ∨ 16 ≤ iImm w)) :
    illegalCause w ext ≠ none := by
  have hfields (hbad : scalarFieldsOk w = false) : illegalCause w ext ≠ none :=
    illegalCause_ne_none_of_fields (fieldsOk_of_scalar ext (by omega) hbad)
  rcases h with h | h | h | h | ⟨hf, h⟩
  · refine hfields ?_
    rw [scalarFieldsOk, hc]
    split <;> simp_all
  · exact illegalCause_ne_none_of_func ext (by rw [hc, h]; rfl)
  · exact illegalCause_ne_none_of_func ext (by rw [hc, h]; rfl)
  · exact illegalCause_ne_none_of_func ext (by rw [hc, h]; rfl)
  · refine hfields ?_
    simp only [scalarFieldsOk, hc, hf, Bool.and_eq_false_iff, decide_eq_false_iff_not]
    omega

/-- Settles O3: the rows run `writeP` with `cmpTest` or `plogTest`. -/
theorem comparisonsWriteOnePredicate : Obligations.ComparisonsWriteOnePredicate := by
  unfold Obligations.ComparisonsWriteOnePredicate
  constructor
  · intro a t s u w ext hiss hc
    refine ⟨fun k i v hrow hf hv => ?_, fun k i v hrow hf hv => ?_, fun v hf hv => ?_⟩
    · rw [exec_of_cmpRows hrow, cmpReg, issue_eq_of_fields hiss hc hf, writeP_of_issues hiss, cmpTest_of_specCmp hv]
    · rw [exec_of_cmpImmRows hrow, cmpImm, issue_eq_of_fields hiss hc hf, writeP_of_issues hiss, iImmS, cmpTest_of_specCmp hv]
    · rw [exec_plog, execPlog, issue_eq_of_fields hiss hc hf, writeP_of_issues hiss, hv, plogTest]
      cases predRead (u.th a t).p (iRa w % 8) <;> cases predRead (u.th a t).p (iRb w % 8) <;> rfl
  · exact fun a t s u w ext hready hfetch hc hill => exec_illegalInstruction_of_ne_none hready hfetch (illegalCause_ne_none_of_cmp hc hill)

/-! ### Branches (O5) -/

theorem goTo_of_inside {a t : Nat} {pc : Int} (s : State) (h0 : 0 ≤ pc) (h : pc < 131072) :
    goTo a t pc s = s.setTh a t { s.th a t with pc := pc.toNat } := if_pos ⟨h0, h⟩

theorem goTo_of_outside {a t : Nat} {pc : Int} (s : State) (h : pc < 0 ∨ 131072 ≤ pc) : goTo a t pc s = progFault a t 0x04 s :=
  if_neg fun hin => by
    obtain ⟨h0, h1⟩ := hin
    replace h1 : pc < 131072 := h1
    omega

theorem inStore_of_inside {pc : Int} (h0 : 0 ≤ pc) (h : pc < 131072) : inStore pc = true := by
  have h1 : pc < psWords := h
  simp [inStore, h0, h1]

theorem inStore_of_outside {pc : Int} (h : pc < 0 ∨ 131072 ≤ pc) : inStore pc = false := by
  have h1 : ¬ (0 ≤ pc ∧ pc < psWords) := fun hin => by
    obtain ⟨h0, h1⟩ := hin
    replace h1 : pc < 131072 := h1
    omega
  simpa [inStore] using h1

/-- A thread that is stored and goes on at an address inside the program store is stored once, at that address (R163). -/
theorem goTo_setTh {a t : Nat} {x : Thread} {pc : Int} (u : State) (hst : x.st ≠ .free) (h0 : 0 ≤ pc) (h : pc < 131072) :
    goTo a t pc (u.setTh a t x) = u.setTh a t { x with pc := pc.toNat } := by
  rw [goTo_of_inside _ h0 h, State.th_setTh_self]
  exact State.setTh_setTh _ _ _ (Thread.ne_free_of_st hst) (Thread.ne_free_of_st hst)

theorem brTarget_eq (x : Thread) (w : Nat) : brTarget x w = (x.pc : Int) + (BitVec.ofNat 32 (iImm w)).toInt := by
  rw [brTarget, iImmS, BitVec.toInt_signExtend_of_le (by decide)]

theorem callTo_of_inside {a t w : Nat} {pc : Int} {u : State} (hst : (u.th a t).st ≠ .free) (h0 : 0 ≤ pc) (h : pc < 131072) :
    callTo a t w pc u = u.setTh a t { (u.th a t).setS (iRd w) (BitVec.ofNat 64 ((u.th a t).pc + 1)) with pc := pc.toNat } := by
  rw [callTo, inStore_of_inside h0 h, if_pos rfl, goTo_setTh u (by simpa using hst) h0 h, retAddr]

theorem callTo_of_outside {a t : Nat} {pc : Int} (w : Nat) (u : State) (h : pc < 0 ∨ 131072 ≤ pc) :
    callTo a t w pc u = progFault a t 0x04 u := by
  rw [callTo, inStore_of_outside h, if_neg (by decide), goTo_of_outside u h]

section
variable {a t w : Nat} {u : State}

theorem bnzDec_of_taken (hst : (u.th a t).st ≠ .free) (hcnt : (u.th a t).sreg (iRa w) ≠ 1) (h0 : 0 ≤ brTarget (u.th a t) w)
    (h : brTarget (u.th a t) w < 131072) : bnzDec a t w u =
      u.setTh a t { (u.th a t).setS (iRa w) ((u.th a t).sreg (iRa w) - 1) with pc := (brTarget (u.th a t) w).toNat } := by
  rw [bnzDec, if_neg (sub_ne_zero.2 hcnt), if_pos (inStore_of_inside h0 h), goTo_setTh u (by simpa using hst) h0 h]

theorem bnzDec_of_outside (hcnt : (u.th a t).sreg (iRa w) ≠ 1) (h : brTarget (u.th a t) w < 0 ∨ 131072 ≤ brTarget (u.th a t) w) :
    bnzDec a t w u = progFault a t 0x04 u := by
  rw [bnzDec, if_neg (sub_ne_zero.2 hcnt), inStore_of_outside h, if_neg (by decide), goTo_of_outside u h]

theorem bnzDec_of_last (hst : (u.th a t).st ≠ .free) (hcnt : (u.th a t).sreg (iRa w) = 1) (hpc : (u.th a t).pc + iLen w < psWords) :
    bnzDec a t w u = u.setTh a t (((u.th a t).setS (iRa w) 0).after w) := by
  rw [bnzDec, hcnt, sub_self, if_pos rfl, advance_setTh u (by simpa using hst) (by simpa using hpc)]

end

/-- Settles O5: the rows run `goTo`, `callTo` and `bnzDec`, each to a target inside the store or to the fault. -/
theorem branchesGoToTheirTargetOrHalt : Obligations.BranchesGoToTheirTargetOrHalt := by
  unfold Obligations.BranchesGoToTheirTargetOrHalt
  constructor
  · rintro a t s u w ext x rel reg hiss hc rfl hrel rfl
    rw [← brTarget_eq] at hrel
    subst hrel
    have hst : (u.th a t).st ≠ .free := by
      obtain ⟨hready, -, hthr, -⟩ := hiss
      simp [State.th_of_thr hthr, hready]
    have hreg : 0 ≤ (((u.th a t).sreg (iRa w)).toNat : Int) := by omega
    refine ⟨fun hf h0 h => ?_, fun hf h0 h => ?_, fun hf h => ?_, fun hf h => ?_, fun hf hcnt h0 h => ?_, fun hf hcnt hpc => ?_⟩
    · rw [exec_br, execBr, issue_of_issuesAnywhere hiss hc hf, goTo_of_inside u h0 h]
    · rw [exec_call, execCall, issue_of_issuesAnywhere hiss hc hf, callTo_of_inside hst h0 h]
    · rw [exec_jr, execJr, issue_of_issuesAnywhere hiss hc hf, goTo_of_inside u hreg h]
    · rw [exec_callr, execCallr, issue_of_issuesAnywhere hiss hc hf, callTo_of_inside hst hreg h]
    · rw [exec_bnzDec, execBnzDec, issue_of_issuesAnywhere hiss hc hf, bnzDec_of_taken hst hcnt h0 h]
    · rw [exec_bnzDec, execBnzDec, issue_of_issuesAnywhere hiss hc hf, bnzDec_of_last hst hcnt hpc]
  · intro a t s u w ext rel hiss hc hrel hout
    rw [← brTarget_eq] at hrel
    subst hrel
    refine ⟨fun hf => ?_, fun hf => ?_, fun hf hcnt => ?_, fun hf h => ?_, fun hf h => ?_⟩
    · rw [exec_br, execBr, issue_of_issuesAnywhere hiss hc hf, goTo_of_outside u hout]
    · rw [exec_call, execCall, issue_of_issuesAnywhere hiss hc hf, callTo_of_outside w u hout]
    · rw [exec_bnzDec, execBnzDec, issue_of_issuesAnywhere hiss hc hf, bnzDec_of_outside hcnt hout]
    · rw [exec_jr, execJr, issue_of_issuesAnywhere hiss hc hf, goTo_of_outside u (.inr (by exact_mod_cast h))]
    · rw [exec_callr, execCallr, issue_of_issuesAnywhere hiss hc hf, callTo_of_outside w u (.inr (by exact_mod_cast h))]

/-! ### Descriptor bases (O12) -/

/-- The base field replaced: the upper bits stay, the low 48 are the new value's (R183). -/
theorem putBits_base (d v : Nat) : putBits d 47 0 v = d / 2 ^ 48 * 2 ^ 48 + v % 2 ^ 48 := by
  have hlt : v % 2 ^ 48 < 2 ^ 48 := Nat.mod_lt _ (by decide)
  rw [mul_comm, Nat.two_pow_add_eq_or_of_lt hlt, mul_comm]
  simp [putBits, Nat.shiftRight_eq_div_pow, Nat.shiftLeft_eq, Nat.mod_one]

theorem bits_base (d : Nat) : bits d 47 0 = d % 2 ^ 48 := by simp [bits]

@[simp] theorem Thread.setD_st (x : Thread) (r : Nat) (v : BitVec 512) : (x.setD r v).st = x.st := rfl

@[simp] theorem Thread.setD_pc (x : Thread) (r : Nat) (v : BitVec 512) : (x.setD r v).pc = x.pc := rfl

theorem setBase_eq (d : BitVec 512) (v : Nat) : setBase d v = BitVec.ofNat 512 (d.toNat / 2 ^ 48 * 2 ^ 48 + v % 2 ^ 48) := by
  rw [setBase, putBits_base]

/-- dset.base and dadd.base leave the thread after its instruction with the base field of dn replaced (R164). -/
theorem writeBase_of_issues {s u : State} {a : Fin 96} {t : Fin 64} {w ext : Nat} (hiss : Issues s a t w ext u) (f : Nat → W64 → Nat) :
    writeBase a t w f u = u.setTh a t (((u.th a t).setD (iRd w) (setBase ((u.th a t).dreg (iRd w))
      (f (bits ((u.th a t).dreg (iRd w)).toNat 47 0) ((u.th a t).sreg (iRa w))))).after w) := by
  unfold writeBase
  exact advance_setTh u (by simp [st_of_issues hiss]) (by simpa using pc_lt_of_issues hiss)

/-- Settles O12: both rows run `writeBase`, with sa or with the sum of R164. -/
theorem descriptorBaseInstructions : Obligations.DescriptorBaseInstructions := by
  unfold Obligations.DescriptorBaseInstructions
  rintro a t s u w ext d v hiss hc rfl rfl
  refine ⟨fun hf => ?_, fun hf => ?_⟩
  · rw [exec_dsetBase, execDsetBase, issue_eq_of_fields hiss hc hf, writeBase_of_issues hiss, setBase_eq]
  · rw [exec_daddBase, execDaddBase, issue_eq_of_fields hiss hc hf, writeBase_of_issues hiss, setBase_eq, bits_base]

end Sys2Proof.Machine
end

section
/-! PROOFS. The control instructions (O7), the record of a thread that halts (O9), and the halts of an item's threads and of the watchdogs (O23) (R151,
R155, R177 to R180, R182). -/

namespace Sys2Proof.Machine

/-! ### A thread that stops issuing (R115, R151, R174, R177) -/

/-- A thread in DRAIN or DONE that waits for nothing. -/
def Thread.drained (x : Thread) : Thread := { x with st := drainState x, wait := .none }

theorem Thread.pending_eq_zero_iff (x : Thread) : x.pending = 0 ↔ ∀ k ∈ x.toks, k.fin ≠ none := by
  simp [Thread.pending]

theorem drainState_eq (x : Thread) : drainState x = if x.toks.any (fun k => k.fin.isNone) then .drain else .done := by
  by_cases h : x.pending = 0
  · have hall := x.pending_eq_zero_iff.1 h
    have hany : x.toks.any (fun k => k.fin.isNone) = false := by simpa [Option.isSome_iff_ne_none] using hall
    rw [drainState, if_pos h, hany, if_neg (by decide)]
  · have hany : x.toks.any (fun k => k.fin.isNone) = true := by
      simpa [x.pending_eq_zero_iff] using h
    rw [drainState, if_neg h, hany, if_pos rfl]

theorem drainState_eq_or (x : Thread) : drainState x = .drain ∨ drainState x = .done := by
  unfold drainState
  split
  · exact .inr rfl
  · exact .inl rfl

section
variable (a t rid id : Nat) (f : Fail) (s : State)

@[simp] theorem dropResult_thr : (dropResult rid s).thr = s.thr := rfl
@[simp] theorem dropResult_grid : (dropResult rid s).grid = s.grid := rfl
@[simp] theorem dropResult_regs : (dropResult rid s).regs = s.regs := rfl
@[simp] theorem dropResult_faults : (dropResult rid s).faults = s.faults := rfl
@[simp] theorem dropResult_bars : (dropResult rid s).bars = s.bars := rfl
@[simp] theorem withdrawSem_thr : (withdrawSem rid s).thr = s.thr := rfl
@[simp] theorem withdrawSem_grid : (withdrawSem rid s).grid = s.grid := rfl
@[simp] theorem withdrawSem_regs : (withdrawSem rid s).regs = s.regs := rfl
@[simp] theorem withdrawSem_faults : (withdrawSem rid s).faults = s.faults := rfl
@[simp] theorem withdrawSem_bars : (withdrawSem rid s).bars = s.bars := rfl
@[simp] theorem releaseParts_thr : (releaseParts a t s).thr = s.thr := rfl
@[simp] theorem releaseParts_regs : (releaseParts a t s).regs = s.regs := rfl
@[simp] theorem releaseParts_faults : (releaseParts a t s).faults = s.faults := rfl
@[simp] theorem releaseParts_bars : (releaseParts a t s).bars = s.bars := rfl
@[simp] theorem itemFail_thr : (itemFail id f s).thr = s.thr := rfl
@[simp] theorem itemFail_faults : (itemFail id f s).faults = s.faults := rfl
@[simp] theorem itemFail_bars : (itemFail id f s).bars = s.bars := rfl
@[simp] theorem noteHalt_thr : (noteHalt id s).thr = s.thr := rfl
@[simp] theorem noteHalt_faults : (noteHalt id s).faults = s.faults := rfl
@[simp] theorem noteHalt_bars : (noteHalt id s).bars = s.bars := rfl

theorem gr_releaseParts_own : ((releaseParts a t s).gr a).own = (s.gr a).own.filter (fun e => e.2 ≠ t) := by simp [releaseParts]

theorem toDrain_thr : (toDrain a t s).thr = (s.setTh a t (s.th a t).drained).thr := by
  simp only [toDrain, dropResult_thr, withdrawSem_thr, releaseParts_thr]
  rfl

@[simp] theorem toDrain_regs : (toDrain a t s).regs = s.regs := by simp [toDrain]
@[simp] theorem toDrain_faults : (toDrain a t s).faults = s.faults := by simp [toDrain]
@[simp] theorem toDrain_bars : (toDrain a t s).bars = s.bars := by simp [toDrain]

@[simp] theorem gr_toDrain_own : ((toDrain a t s).gr a).own = (s.gr a).own.filter (fun e => e.2 ≠ t) := by
  have hgr (u : State) (r q : Nat) : (dropResult r (withdrawSem q u)).gr a = u.gr a := by simp [State.gr]
  simp only [toDrain, hgr, gr_releaseParts_own, State.gr_setTh]

@[simp] theorem th_toDrain_self : (toDrain a t s).th a t = (s.th a t).drained := by
  rw [State.th_of_thr (toDrain_thr a t s), State.th_setTh_self]

end

theorem th_toDrain_of_ne {a t j k : Nat} (s : State) (h : 64 * j + k ≠ 64 * a + t) : (toDrain a t s).th j k = s.th j k := by
  rw [State.th_of_thr (toDrain_thr a t s), State.th_setTh_of_ne _ _ h]

/-- Settles O7: nop only advances, sget writes sd, trap halts with its code, and halt is `toDrain`. -/
theorem controlInstructionsNopSgetTrapHalt : Obligations.ControlInstructionsNopSgetTrapHalt := by
  unfold Obligations.ControlInstructionsNopSgetTrapHalt
  intro a t s u w ext hiss hc
  refine ⟨fun hf => ?_, fun hf => ?_, fun hf => ?_, fun hf => ⟨toDrain a t u, ?_, ?_, ?_, ?_, ?_⟩⟩
  · rw [exec_nop, execNop, issue_eq_of_fields hiss hc hf, advance_of_issues hiss]
  · rw [exec_sget, execSget, issue_eq_of_fields hiss hc hf, writeS_of_issues hiss]
  · rw [exec_trap, execTrap, issue_eq_of_fields hiss hc hf]
  · rw [exec_halt, execHalt, issue_eq_of_fields hiss hc hf]
  · rw [th_toDrain_self, Thread.drained, drainState_eq]
  · rw [th_toDrain_self, Thread.drained]
  · intro e he
    rw [gr_toDrain_own] at he
    simpa using (List.mem_filter.1 he).2
  · exact ⟨toDrain_mem .., toDrain_regs .., toDrain_faults ..⟩

/-! ### The record of a halt (O9) -/

/-- The record that a fault unit with room takes from what a unit hands it (R477). -/
def recordOf (r : FaultIn) (s : State) : FaultRec :=
  ⟨s.faults.next, r.cls, r.status, r.disp, recOutside s.faults r s.now, r.replay, s.tb, r.req, r.unit, r.root, r.pa, slice r.body 0 32⟩

/-- A fault unit with room for the disposition takes the record at the end of its queue (R477, R479). -/
theorem writeFaultId_queue {r : FaultIn} {s : State} (hroom : s.faults.queue.length < faultRoom r.disp) :
    (writeFaultId r s).2.faults.queue = s.faults.queue ++ [recordOf r s] := by
  have hquiet : (writeFaultQuiet r s).2.faults.queue = s.faults.queue ++ [recordOf r s] := by
    rw [writeFaultQuiet, if_pos hroom]
    simp only [faultFlags_faults, pushMark_queue]
    rfl
  unfold writeFaultId
  dsimp only
  split
  · rw [raiseEvt_faults, hquiet]
  · exact hquiet

/-- A record leaves every field but registers, outputs, pending vectors and the fault unit. -/
theorem writeFaultId_thr (r : FaultIn) (s : State) : (writeFaultId r s).2.thr = s.thr := by
  obtain ⟨_, _, _, _, h⟩ := recordApart_writeFaultId r s
  rw [h]

theorem writeFaultId_bars (r : FaultIn) (s : State) : (writeFaultId r s).2.bars = s.bars := by
  obtain ⟨_, _, _, _, h⟩ := recordApart_writeFaultId r s
  rw [h]

/-- Halts of a thread that a fault has halted, or that is FREE or DONE, do nothing. -/
abbrev Thread.pastFault (x : Thread) : Prop := x.faulted ∨ x.st = .free ∨ x.st = .done

theorem haltThread_of_pastFault {a t : Nat} {s : State} (h : Halt) (hpast : (s.th a t).pastFault) : haltThread a t h s = s := if_pos hpast

/-- The state in which a fault has halted a thread and its record is written: what `toDrain` then takes over. -/
def faultNoted (a t : Nat) (h : Halt) (s : State) : State :=
  noteHalt (s.th a t).item (itemFail (s.th a t).item
    { h.fail with root := if h.fail.root = 0 then (writeFaultId (haltRecord a t h s) s).1 else h.fail.root }
    ((writeFaultId (haltRecord a t h s) s).2.setTh a t { s.th a t with faulted := true }))

theorem haltThread_of_running {a t : Nat} {s : State} (h : Halt) (hrun : ¬ (s.th a t).pastFault) :
    haltThread a t h s = toDrain a t (faultNoted a t h s) := if_neg hrun

theorem faultNoted_thr (a t : Nat) (h : Halt) (s : State) : (faultNoted a t h s).thr = (s.setTh a t { s.th a t with faulted := true }).thr := by
  simp only [faultNoted, noteHalt_thr, itemFail_thr, State.setTh, writeFaultId_thr]

/-- The thread that a fault halts is DRAIN or DONE and marked as halted by a fault (R178). -/
theorem th_haltThread_self {a t : Nat} {s : State} (h : Halt) (hrun : ¬ (s.th a t).pastFault) :
    (haltThread a t h s).th a t = Thread.drained { s.th a t with faulted := true } := by
  rw [haltThread_of_running h hrun, th_toDrain_self, State.th_of_thr (faultNoted_thr a t h s), State.th_setTh_self]

/-- A halt leaves every other thread. -/
theorem th_haltThread_of_ne {a t j k : Nat} (h : Halt) (s : State) (hne : 64 * j + k ≠ 64 * a + t) : (haltThread a t h s).th j k = s.th j k := by
  by_cases hrun : (s.th a t).pastFault
  · rw [haltThread_of_pastFault h hrun]
  · rw [haltThread_of_running h hrun, th_toDrain_of_ne _ hne, State.th_of_thr (faultNoted_thr a t h s), State.th_setTh_of_ne _ _ hne]

theorem faults_haltThread {a t : Nat} {s : State} (h : Halt) (hrun : ¬ (s.th a t).pastFault) :
    (haltThread a t h s).faults = (writeFaultId (haltRecord a t h s) s).2.faults := by
  simp [haltThread_of_running h hrun, faultNoted]

@[simp] theorem haltThread_bars (a t : Nat) (h : Halt) (s : State) : (haltThread a t h s).bars = s.bars := by
  by_cases hrun : (s.th a t).pastFault
  · rw [haltThread_of_pastFault h hrun]
  · simp [haltThread_of_running h hrun, faultNoted, writeFaultId_bars]

theorem slice_append_self (l r : List Byte) : slice (l ++ r) 0 l.length = l := by simp [slice]

/-- A slice that is long enough begins with the bytes that the list begins with. -/
theorem exists_slice_append {l : List Byte} {n : Nat} (r : List Byte) (h : l.length ≤ n) : ∃ r', slice (l ++ r) 0 n = l ++ r' := by
  rw [slice, List.drop_zero, List.take_append, List.take_of_length_le h, List.append_assoc]
  exact ⟨_, rfl⟩

/-- The first bytes of a thread record's body are its PC (R182). -/
theorem slice_haltBody (x : Thread) (h : Halt) : slice (slice (haltBody x h) 0 32) 0 4 = leBytes 4 x.pc := by
  have hlen : (leBytes 4 x.pc).length = 4 := length_leBytes 4 x.pc
  simp only [haltBody, List.append_assoc]
  obtain ⟨r, hr⟩ := exists_slice_append (n := 32) _ (hlen.trans_le (by decide))
  rw [hr]
  exact hlen ▸ slice_append_self _ r

/-- Settles O9: a thread that issues or waits is halted once, by `haltThread_of_running`; its fault unit has room for a REPORTED record. -/
theorem threadHaltWritesOneRecord : Obligations.ThreadHaltWritesOneRecord := by
  unfold Obligations.ThreadHaltWritesOneRecord
  intro a t c u hst hfault hroom
  have hrun : ¬ (u.th a t).pastFault := by rcases hst with hst | hst <;> simp [Thread.pastFault, hst, hfault]
  have hself := th_haltThread_self (a := a.val) (t := t.val) { fail := { st := .programFault }, cause := c } hrun
  refine ⟨recordOf (haltRecord a t { fail := { st := .programFault }, cause := c } u) u, _, rfl, ?_, rfl, rfl, rfl, rfl, rfl, rfl,
    slice_haltBody .., ?_, ?_, ?_⟩
  · rw [progFault, faults_haltThread _ hrun]
    exact writeFaultId_queue hroom
  · rw [progFault, hself]
    rfl
  · rw [progFault, hself]
    exact drainState_eq_or _
  · refine haltThread_of_pastFault _ (.inl ?_)
    rw [progFault, hself]
    rfl

/-! ### The halt of an item's other threads, and the watchdogs (O23) -/

/-- A thread that neither issues nor waits. -/
abbrev Thread.stopped (x : Thread) : Prop := x.st ≠ .ready ∧ x.st ≠ .wait

theorem Thread.drained_stopped (x : Thread) : x.drained.stopped := by
  rcases drainState_eq_or x with h | h <;> simp [Thread.stopped, Thread.drained, h]

/-- The thread at a key stops when its item halts (R179). -/
theorem stopped_haltSibling_self {id k : Nat} {s : State} (hid : (s.th (k / 64) (k % 64)).item = id) :
    ((haltSibling id k s).th (k / 64) (k % 64)).stopped := by
  unfold haltSibling
  dsimp only
  split
  · rw [th_toDrain_self]
    exact Thread.drained_stopped _
  · next h => exact not_or.1 fun hst => h ⟨hid, hst⟩

theorem haltSibling_of_stopped {id k : Nat} {s : State} (h : (s.th (k / 64) (k % 64)).stopped) : haltSibling id k s = s :=
  if_neg fun hruns => hruns.2.elim h.1 h.2

theorem th_haltSibling_of_ne {id k a t : Nat} (s : State) (h : 64 * a + t ≠ k) : (haltSibling id k s).th a t = s.th a t := by
  have hk : 64 * a + t ≠ 64 * (k / 64) + k % 64 := by omega
  unfold haltSibling
  dsimp only
  split
  · rw [th_toDrain_of_ne _ hk, State.th_setTh_of_ne _ _ hk]
  · rfl

/-- After the halts of a list of keys every thread of the item on the list has stopped, and so has every one that had stopped before. -/
theorem stopped_foldl_haltSibling {id a t : Nat} (ht : t < 64) (l : List Nat) :
    ∀ s : State, (64 * a + t ∈ l ∧ (s.th a t).item = id ∨ (s.th a t).stopped) →
      ((l.foldl (fun u k => haltSibling id k u) s).th a t).stopped := by
  induction l with
  | nil => intro s h; simpa using h
  | cons k l ih =>
    intro s h
    rw [List.foldl_cons]
    refine ih _ ?_
    by_cases hk : 64 * a + t = k
    · obtain ⟨rfl, rfl⟩ : a = k / 64 ∧ t = k % 64 := by omega
      rcases h with ⟨-, hid⟩ | hstop
      · exact .inr (stopped_haltSibling_self hid)
      · exact .inr (by rwa [haltSibling_of_stopped hstop])
    · rw [th_haltSibling_of_ne s hk]
      exact h.imp_left fun hl => ⟨(List.mem_cons.1 hl.1).resolve_left hk, hl.2⟩

theorem SMap.get?_eq_none_of_not_mem {α : Type} {m : SMap α} {k : Nat} (h : k ∉ m.map (·.1)) : SMap.get? m k = none := by
  induction m with
  | nil => rfl
  | cons e r ih =>
    simp only [List.map_cons, List.mem_cons, not_or] at h
    rw [SMap.get?, if_neg (Ne.symm h.1), ih h.2]

/-- A thread that issues or waits is listed. -/
theorem stopped_of_not_listed {a t : Nat} {s : State} (h : 64 * a + t ∉ s.thr.map (·.1)) : (s.th a t).stopped := by
  have hfree : s.th a t = Thread.free := by rw [State.th, SMap.getD, SMap.get?_eq_none_of_not_mem h, Option.getD_none]
  simp [Thread.stopped, hfree, Thread.free]

/-- Settles O23: the halts of the listed threads leave none that runs for the item, and without a halt of the item a watchdog is a halt. -/
theorem itemHaltAndWatchdogs : Obligations.ItemHaltAndWatchdogs := by
  unfold Obligations.ItemHaltAndWatchdogs
  constructor
  · intro item s i hitem hhalt
    refine ⟨(s.thr.map (·.1)).foldl (fun u k => haltSibling i.id k u) s, ?_, fun a t hid => ?_⟩
    · rw [exec_itemThreadsHalt, execItemThreadsHalt, hitem]
      simp [hhalt]
    · have hlisted := Classical.em (64 * a.val + t.val ∈ s.thr.map (·.1))
      exact stopped_foldl_haltSibling t.isLt _ s (hlisted.imp (⟨·, hid⟩) stopped_of_not_listed)
  · intro a t s i hitem hhalt
    have hgo (cause : Nat) : watchdog a t cause i s = haltThread a t { fail := { st := .watchdog }, cause := cause } s := by
      simp [watchdog, hhalt]
    constructor
    · intro hst hlimit
      rw [exec_waitLimitExpiry, execWaitLimitExpiry]
      simp only [hitem, hst, hlimit, and_self, if_true, hgo]
    · intro hst hlimit hrun
      rw [exec_runLimitExpiry, execRunLimitExpiry]
      simp only [hitem]
      rw [if_pos ⟨hst, hlimit, hrun⟩, hgo]

end Sys2Proof.Machine
end

section
/-! PROOFS. Loads (O10) and stores (O11): the address of R164, what a read returns to its thread (R165, R167) and the state that a posted store leaves
(R76, R164, R165, R174). -/

namespace Sys2Proof.Machine

/-! ### The register a load gives (O10) -/

theorem leNat_lt (l : List Byte) : leNat l < 256 ^ l.length := by
  induction l with
  | nil => decide
  | cons b r ih =>
    have hb := b.isLt
    rw [leNat, List.length_cons, pow_succ']
    omega

/-- The value of a word of two's complement, extended to 64 bits. -/
theorem signExtend_ofNat {n v : Nat} (hn : n ≠ 0) (hv : v < 2 ^ n) :
    (BitVec.ofNat n v).signExtend 64 = BitVec.ofInt 64 (if v < 2 ^ (n - 1) then (v : Int) else (v : Int) - 2 ^ n) := by
  have hpow : 2 ^ n = 2 * 2 ^ (n - 1) := by rw [← pow_succ', Nat.sub_add_cancel (Nat.pos_of_ne_zero hn)]
  rw [BitVec.signExtend, BitVec.toInt_eq_toNat_cond, BitVec.toNat_ofNat, Nat.mod_eq_of_lt hv]
  by_cases h : v < 2 ^ (n - 1)
  · rw [if_pos h, if_pos (by omega)]
  · rw [if_neg h, if_neg (by omega)]
    push_cast
    rfl

/-- The functions of class 0x4 that load, with their lengths (R164). -/
theorem accessLen_eq_specLen {k : Nat} (hk : k ≤ 0x6 ∨ k = 0xC) : accessLen k = specLen k := by
  rcases hk with hk | rfl
  · interval_cases k <;> rfl
  · rfl

/-- What a load writes is the register of R164, once as many bytes have returned as it asks for. -/
theorem loadInto_eq_specLoad {k : Nat} (hk : k ≤ 0x6 ∨ k = 0xC) (rd : Nat) {d : List Byte} (hd : d.length = specLen k) (x : Thread) :
    loadInto k rd d x = specLoad k rd d x := by
  have hlt : leNat d < 2 ^ (8 * d.length) := by simpa [pow_mul] using leNat_lt d
  have hext {n : Nat} (hn : n ≠ 0) (hlen : 8 * d.length = n) : (BitVec.ofNat n (leNat d)).signExtend 64 =
      BitVec.ofInt 64 (if leNat d < 2 ^ (8 * d.length - 1) then (leNat d : Int) else (leNat d : Int) - 2 ^ (8 * d.length)) := by
    subst hlen
    exact signExtend_ofNat hn hlt
  rcases hk with hk | rfl
  · obtain hzero | rfl | rfl | rfl : k ≤ 3 ∨ k = 4 ∨ k = 5 ∨ k = 6 := by omega
    · interval_cases k <;> rfl
    · exact congrArg (x.setS rd) (hext (n := 8) (by decide) (by rw [hd]; rfl))
    · exact congrArg (x.setS rd) (hext (n := 16) (by decide) (by rw [hd]; rfl))
    · exact congrArg (x.setS rd) (hext (n := 32) (by decide) (by rw [hd]; rfl))
  · rfl

theorem physRead_length {c : Ctx} {pa n : Nat} {s s1 : State} {d : List Byte} (h : physRead c pa n s = (.ok d, s1)) : d.length = n := by
  unfold physRead servedRead at h
  split at h
  · simp at h
  · split at h
    · simp at h
    · split at h
      · simp at h
      · split at h
        · simp at h
        · simp only [Prod.mk.injEq, Except.ok.injEq] at h
          rw [← h.1, rawRead, List.length_map, List.length_range]

@[simp] theorem loadInto_st (k rd : Nat) (d : List Byte) (x : Thread) : (loadInto k rd d x).st = x.st := by
  unfold loadInto
  dsimp only
  split <;> simp

@[simp] theorem loadInto_pc (k rd : Nat) (d : List Byte) (x : Thread) : (loadInto k rd d x).pc = x.pc := by
  unfold loadInto
  dsimp only
  split <;> simp

/-- A thread that leaves WAIT inside the program store takes its result and goes on after its instruction (R158). -/
theorem resume_eq {a t : Nat} {s : State} (rd : Nat) (v : W64) (hpc : (s.th a t).pc + 1 < psWords) :
    resume a t rd v s = s.setTh a t { (s.th a t).setS rd v with st := .ready, wait := .none, pc := (s.th a t).pc + 1 } := by
  have hin : (((s.th a t).pc + 1 : Nat) : Int) < 131072 := by exact_mod_cast hpc
  unfold resume
  exact goTo_setTh s (by simp) (Int.natCast_nonneg _) hin

/-- The data of a waiting load reach its register, and the thread goes on (R164, R165). -/
theorem finishLoad_of_read {a t k rd va pa : Nat} {s s1 s2 : State} {d : List Byte} (hwait : (s.th a t).st = .wait)
    (hpc : (s.th a t).pc + 1 < psWords) (hpa : checkedPa (thrCtx s a t) va .r (scalarPlace false) (accessLen k) s = (.ok pa, s1))
    (hread : physRead { thrCtx s a t with va := va } pa (accessLen k) s1 = (.ok d, s2)) (hthr : s2.thr = s.thr) :
    finishLoad a t k rd va .none s =
      s2.setTh a t { loadInto k rd d (s.th a t) with st := .ready, wait := .none, pc := (s.th a t).pc + 1 } := by
  have hfree : loadInto k rd d (s.th a t) ≠ Thread.free := Thread.ne_free_of_st (by simp [hwait])
  simp only [finishLoad, hpa, applyBitErr, hread, State.th_of_thr hthr]
  rw [resume_eq 0 0 (by simpa using hpc), State.th_setTh_self, Thread.setS_zero,
    State.setTh_setTh _ _ _ hfree (Thread.ne_free_of_st (by simp)), loadInto_pc]

/-- The old value of a served operation reaches its register, and the thread goes on (R165, R167, R174). -/
theorem finishAtomic_of_served {a t old : Nat} {s : State} {f : Fail} (rd : Nat) (hpc : (s.th a t).pc + 1 < psWords)
    (hserved : SMap.get? s.poolDone (thrReq a t) = some (f, old)) (hok : f.st = .ok) :
    finishAtomic a t rd s = State.setTh { s with poolDone := SMap.del s.poolDone (thrReq a t) } a t
      { (s.th a t).setS rd (BitVec.ofNat 64 old) with st := .ready, wait := .none, pc := (s.th a t).pc + 1 } := by
  simp only [finishAtomic, hserved, hok, if_true]
  exact resume_eq rd _ hpc

/-- Settles O10: a load's issue is `waitFor`, and LOAD_DATA_RETURN finishes the load or the operation that its thread waits for. -/
theorem loadsWaitForTheirDataAndTakeIt : Obligations.LoadsWaitForTheirDataAndTakeIt := by
  unfold Obligations.LoadsWaitForTheirDataAndTakeIt
  constructor
  · intro a t s u w ext k i hiss hc hf hrow
    rw [exec_of_loadRows hrow, loadIssue, issue_eq_of_fields hiss hc hf, waitFor, memAddr, BitVec.toNat_add]
  · intro a t s hwait hpc
    constructor
    · intro s1 s2 k rd va pa d hload hk hpa hread hthr
      have hlen := physRead_length hread
      rw [← accessLen_eq_specLen hk] at hpa hread
      rw [exec_loadDataReturn, execLoadDataReturn, if_neg (by simp [hwait]), hload]
      simp only [finishLoad_of_read hwait hpc hpa hread hthr, loadInto_eq_specLoad hk rd hlen]
    · intro rd old f ev hwaits hserved hok
      rw [exec_loadDataReturn, execLoadDataReturn, if_neg (by simp [hwait])]
      rcases hwaits with hw | hw <;> simp only [hw, finishAtomic_of_served rd hpc hserved hok] <;> rfl

/-! ### The state that a posted store leaves (O11) -/

/-- The bytes of a write in memory, without the errors and with the scales of the code words that it covers whole (R76, R78). -/
def written (b : Nat) (l : List Byte) (s : State) : State :=
  if regionOf b = .hbm then writeScales b l.length none (rawWrite (healWhole b l.length s) b l) else rawWrite (healWhole b l.length s) b l

theorem writeScales_eq (pa n : Nat) (sc : Option Nat) (s : State) : ∃ m, writeScales pa n sc s = { s with scales := m } := by
  unfold writeScales
  refine List.foldlRecOn (motive := fun u : State => ∃ m, u = { s with scales := m }) _ _ ⟨s.scales, rfl⟩ fun u hu w _ => ?_
  obtain ⟨m, rfl⟩ := hu
  exact ⟨_, rfl⟩

/-- A write changes memory, the error marks and the scales, and nothing else. -/
theorem written_eq (b : Nat) (l : List Byte) (s : State) :
    ∃ e m, written b l s = { s with mem := memWrite s.mem b l, bad := e, scales := m } := by
  unfold written
  split
  · obtain ⟨m, h⟩ := writeScales_eq b l.length none (rawWrite (healWhole b l.length s) b l)
    exact ⟨_, m, h⟩
  · exact ⟨_, _, rfl⟩

/-- A write that its memory takes whole, and that no running plan meets (R76, R362). -/
theorem servedWrite_of_taken {c : Ctx} {pa b : Nat} {l : List Byte} {s : State} (hl : l ≠ []) (hb : backing s pa = some b)
    (hrefused : refusedAt s b l.length = none) (hpart : partBad s b l.length = none)
    (hplans : ∀ e ∈ s.plans, ∀ r ∈ e.2.red, metElems b l.length r = none) :
    servedWrite c pa l none s = (.ok (), unparkRange b l.length (written b l s)) := by
  have hspoil : spoilReduced c b l.length (unparkRange b l.length (written b l s)) = unparkRange b l.length (written b l s) := by
    obtain ⟨e, m, h⟩ := written_eq b l s
    refine spoilReduced_eq _ _ _ _ fun p hp r hr => ?_
    rw [unparkRange_plans, h] at hp
    exact hplans p hp r hr
  unfold servedWrite
  simp only [hl, hb, hrefused, hpart, if_false]
  exact congrArg (Prod.mk _) hspoil

@[simp] theorem unparkRange_regs (pa n : Nat) (s : State) : (unparkRange pa n s).regs = s.regs := by unfold unparkRange; split <;> rfl
@[simp] theorem unparkRange_faults (pa n : Nat) (s : State) : (unparkRange pa n s).faults = s.faults := by unfold unparkRange; split <;> rfl
@[simp] theorem unparkRange_grid (pa n : Nat) (s : State) : (unparkRange pa n s).grid = s.grid := by unfold unparkRange; split <;> rfl
@[simp] theorem unparkRange_items (pa n : Nat) (s : State) : (unparkRange pa n s).items = s.items := by unfold unparkRange; split <;> rfl

theorem unparkRange_pool_congr {s u : State} (pa n : Nat) (h : s.pool = u.pool) : (unparkRange pa n s).pool = (unparkRange pa n u).pool := by
  unfold unparkRange
  split
  · exact h
  · simp only [h]

theorem specLen_of_storeRows {a : Fin 96} {t : Fin 64} {e : Instr × Nat} (h : e ∈ storeRows a t) :
    specLen e.2 = accessLen e.2 ∧ 0 < specLen e.2 ∧ (e.2 = 0xD → specLen e.2 = 64) := by
  simp only [storeRows, List.mem_cons, List.not_mem_nil, or_false] at h
  rcases h with rfl | rfl | rfl | rfl | rfl <;> simp [specLen, accessLen]

/-- Settles O11: the store's memory takes the bytes (`servedWrite_of_taken`), a write changes memory alone (`written_eq`), and the thread goes on. -/
theorem storesWriteOnlyTheirBytes : Obligations.StoresWriteOnlyTheirBytes := by
  unfold Obligations.StoresWriteOnlyTheirBytes
  intro a t s u u0 u1 w ext k pa b i data hiss hc hf hrow hpa hreach hthr hb hrefused hpart hplans hdata
  obtain ⟨hlen, hpos, h64⟩ := specLen_of_storeRows hrow
  have hstore : storeData k w (u.th a t) = data := by rw [hdata, storeData, hlen]
  have hdlen : data.length = specLen k := by
    rw [hdata]
    split
    · next hk => rw [length_leBytes, h64 hk]
    · rw [length_leBytes]
  have hne : data ≠ [] := List.ne_nil_of_length_pos (hdlen ▸ hpos)
  obtain ⟨e, m, hw⟩ := written_eq b data u1
  have hwrite : physWrite { thrCtx u a t with va := memAddr (u.th a t) w } pa data none u0 =
      (.ok (), unparkRange b data.length (written b data u1)) := by
    rw [physWrite, if_neg hne, hdlen, hreach, ← hdlen]
    exact servedWrite_of_taken hne hb (by rwa [hdlen]) (by rwa [hdlen]) (by rwa [hdlen])
  obtain ⟨e, m, hw⟩ := written_eq b data u1
  have hv : (unparkRange b data.length (written b data u1)).thr = u.thr := by rw [unparkRange_thr, hw, ← hthr]
  have hth := State.th_of_thr hv a t
  have hexec : exec i s = .next ((unparkRange b data.length (written b data u1)).setTh a t ((u.th a t).after w)) := by
    rw [exec_of_storeRows hrow, storeIssue, issue_eq_of_fields hiss hc hf, storeNow]
    simp only [← hlen, hpa, hstore, hwrite]
    rw [advance_eq _ _ _ _ (by rw [hth]; exact pc_lt_of_issues hiss), hth]
  refine ⟨_, hexec, fun adr => ?_, State.th_setTh_self .., fun j k' hne => ?_, ?_, ?_, ?_, ?_, ?_⟩
  · have hbyte := byte_rawWrite u1 b adr data
    rw [hdlen] at hbyte
    rw [← hbyte, State.byte, State.setTh_mem, unparkRange_mem, hw]
    rfl
  · rw [State.th_setTh_of_ne _ _ hne, State.th_of_thr hv]
  · rw [State.setTh_regs, unparkRange_regs, hw]
  · rw [State.setTh_faults, unparkRange_faults, hw]
  · rw [State.setTh_grid, unparkRange_grid, hw]
  · rw [State.setTh_pool, hdlen, hw]
    exact unparkRange_pool_congr _ _ rfl
  · rw [State.setTh_items, unparkRange_items, hw]

end Sys2Proof.Machine
end

section
/-! PROOFS. Asynchronous instructions: dma (O16), vec and row (O18), red (O19), and the token instructions (O20) (R152, R166, R168, R169, R171, R216,
R224). -/

namespace Sys2Proof.Machine

@[simp] theorem Thread.withToken_st (x : Thread) (w unit : Nat) : (x.withToken w unit).st = x.st := by
  simp [Thread.withToken, Thread.newTok]

/-! ### dma (O16) -/

theorem exec_of_dmaRows {a : Fin 96} {t : Fin 64} {k : Nat} {i : Instr}
    (h : [Instr.dmaCopy a t, .dmaGather a t, .dmaScatter a t, .dmaFill a t, .dmaProg a t][k]? = some i) (s : State) :
    exec i s = .next (dmaIssue k a t s) := by
  obtain ⟨hk, rfl⟩ := List.getElem?_eq_some_iff.1 h
  replace hk : k < 5 := hk
  interval_cases k <;> rfl

theorem setDmaQueue_setTh (a q t : Nat) (l : List DmaOp) (x : Thread) (u : State) :
    setDmaQueue a q l (u.setTh a t x) = (setDmaQueue a q l u).setTh a t x := rfl

/-- Settles O16: with room in the window and in the queue the issue takes a token and puts the transfer at the queue's end. -/
theorem dmaIssueQueuesTheTransfer : Obligations.DmaIssueQueuesTheTransfer := by
  unfold Obligations.DmaIssueQueuesTheTransfer
  rintro a t s u w ext k q x i hiss hc hf hrow rfl hroom rfl hqueue
  rw [exec_of_dmaRows hrow, dmaIssue, issue_eq_of_fields hiss hc hf]
  simp only [ge_iff_le, if_neg (Nat.not_le.2 hqueue), issueAsync_eq _ _ _ _ _ _ hroom, setDmaQueue_setTh]
  exact congrArg _ (advance_setTh _ (by simp [st_of_issues hiss]) (by simpa using pc_lt_of_issues hiss))

/-! ### vec and row (O18) -/

theorem exec_of_vecMapRows {a : Fin 96} {t : Fin 64} {k : Nat} {i : Instr}
    (h : [Instr.vecAlu a t, .vecMath a t, .vecAct a t, .vecDactOut a t, .vecDactIn a t][k]? = some i) (s : State) :
    k ≠ 5 ∧ exec i s = .next (vecIssue k a t s) := by
  obtain ⟨hk, rfl⟩ := List.getElem?_eq_some_iff.1 h
  replace hk : k < 5 := hk
  refine ⟨by omega, ?_⟩
  interval_cases k <;> rfl

theorem exec_of_rowMathRows {a : Fin 96} {t : Fin 64} {k : Nat} {i : Instr}
    (h : [Instr.rowNorm a t, .rowDnorm a t, .rowSoftmax a t, .rowDsoftmax a t][k]? = some i) (s : State) :
    exec i s = .next (rowMath k a t s) := by
  obtain ⟨hk, rfl⟩ := List.getElem?_eq_some_iff.1 h
  replace hk : k < 4 := hk
  interval_cases k <;> rfl

section
variable {s u : State} {a : Fin 96} {t : Fin 64} {w ext func : Nat} (hiss : Issues s a t w ext u) (hroom : windowFull (u.th a t) = false)
  (hf : iFunc w = func)
include hiss hroom hf

/-- A vec instruction takes a token of unit 6 while fewer than 64 are in flight on its array, and runs (R224). -/
theorem vecIssue_of_issues (hc : iCls w = 0xB) (hbusy : unitBusy u a 6 < 64) {v : State} (hv : v = u.setTh a t ((u.th a t).withToken w 6)) :
    vecIssue func a t s = advance a t w (finish a t (nextSeq (u.th a t).seq) (vecWrote a t (nextSeq (u.th a t).seq) (vecOpOf (u.th a t) w ext)
      (if func = 5 then vecRed (thrCtx v a t) a (vecOpOf (u.th a t) w ext) v else vecMap (thrCtx v a t) a (vecOpOf (u.th a t) w ext) v))) := by
  subst hv
  rw [vecIssue, issue_eq_of_fields hiss hc hf]
  simp only [ge_iff_le, if_neg (Nat.not_le.2 hbusy), issueAsync_eq _ _ _ _ _ _ hroom]

/-- A row instruction takes a token of unit 7 while fewer than 64 are in flight on its array, and runs (R224). -/
theorem rowIssue_of_issues (run : Thread → Ctx → Nat → Nat → State → MRes Unit) (hc : iCls w = 0xC) (hbusy : unitBusy u a 7 < 64) {v : State}
    (hv : v = u.setTh a t ((u.th a t).withToken w 7)) :
    rowIssue func run a t s = advance a t w (finish a t (nextSeq (u.th a t).seq) (run (u.th a t) (thrCtx v a t) w ext v)) := by
  subst hv
  rw [rowIssue, issue_eq_of_fields hiss hc hf]
  simp only [ge_iff_le, if_neg (Nat.not_le.2 hbusy), issueAsync_eq _ _ _ _ _ _ hroom]

end

/-- Settles O18: each row runs its operation behind the token that the thread has taken. That it runs in the issue row is the model's reading (log
entry 37). -/
theorem vectorAndRowInstructionsRunTheirOperation : Obligations.VectorAndRowInstructionsRunTheirOperation := by
  unfold Obligations.VectorAndRowInstructionsRunTheirOperation
  rintro a t s u v w ext k q x c i hiss rfl hf hroom rfl
  constructor
  · rintro hc hbusy hv rfl
    refine ⟨fun hrow => ?_, fun hk => ?_⟩
    · obtain ⟨hk, hexec⟩ := exec_of_vecMapRows hrow s
      rw [hexec, vecIssue_of_issues hiss hroom hf hc hbusy hv, if_neg hk]
    · rw [exec_vecRed, execVecRed, vecIssue_of_issues hiss hroom (hf.trans hk) hc hbusy hv, if_pos rfl]
  · rintro hc hbusy hv rfl
    refine ⟨fun hrow => ?_, fun hk => ?_, fun hk => ?_, fun hk => ?_, fun hk => ?_⟩
    · rw [exec_of_rowMathRows hrow, rowMath, rowIssue_of_issues hiss hroom hf _ hc hbusy hv]
    · rw [exec_rowTopk, execRowTopk, rowIssue_of_issues hiss hroom (hf.trans hk) _ hc hbusy hv]
    · rw [exec_rowTag, execRowTag, rowIssue_of_issues hiss hroom (hf.trans hk) _ hc hbusy hv]
    · rw [exec_rowTreset, execRowTreset, rowIssue_of_issues hiss hroom (hf.trans hk) _ hc hbusy hv]
    · rw [exec_rowSpill, execRowSpill, rowIssue_of_issues hiss hroom (hf.trans hk) _ hc hbusy hv]

/-! ### red (O19) -/

/-- red with both addresses admitted and its source read puts its reduction at the target's bank (R168). -/
theorem redStart_of_read {a t q src dst kind ps pd : Nat} {v v1 v2 v3 : State} {d : List Byte}
    (hsrc : checkedPa (thrCtx v a t) src .r (inOwnLocal v a) 256 v = (.ok ps, v1))
    (hdst : checkedPa (thrCtx v a t) dst .rw inPool 256 v1 = (.ok pd, v2))
    (hread : physRead { thrCtx v a t with va := src } ps 256 v2 = (.ok d, v3)) :
    redStart a t q src dst kind v = poolPush ⟨thrReq a t, dst, pd, redOp kind d, q + 1, 0, false⟩ v3 := by
  simp only [redStart, hsrc, hdst, hread]

/-- Settles O19: the issue takes a token, `redStart` puts the reduction at its bank, and the thread goes on. -/
theorem redQueuesItsReduction : Obligations.RedQueuesItsReduction := by
  unfold Obligations.RedQueuesItsReduction
  rintro a t s u v v1 v2 v3 w ext q ps pd x c d hiss hc hf rfl hroom rfl rfl rfl hsrc hdst hread hthr
  have hth (r : PoolReq) : (poolPush r v3).th a t = (u.th a t).withToken w 10 := by
    rw [State.th_of_thr (show (poolPush r v3).thr = v3.thr from rfl), State.th_of_thr hthr, State.th_setTh_self]
  rw [exec_red, execRed, issue_eq_of_fields hiss hc hf]
  simp only [issueAsync_eq _ _ _ _ _ _ hroom, redStart_of_read hsrc hdst hread]
  rw [advance_eq _ _ _ _ (by rw [hth, Thread.withToken_pc]; exact pc_lt_of_issues hiss), hth]
  rfl

/-! ### Token instructions (O20) -/

theorem windowFull_of_mem {x : Thread} {k : Tok} (hk : k ∈ x.toks) (hslot : k.seq % 32 = nextSeq x.seq % 32) (hopen : k.fin = none) :
    windowFull x = true :=
  List.any_eq_true.2 ⟨k, hk, by simp [tokSlot, hslot, hopen]⟩

/-- A token of another number than 0 that has a record has completed when the record shows a status (R171). -/
theorem tokTest_of_found {x : Thread} {v : Nat} {k : Tok} (hv : v ≠ 0) (h : x.toks.find? (fun j => j.seq == v) = some k) :
    tokTest x v = k.fin.isSome := by
  cases hfin : k.fin <;> simp [tokTest, tokState, hv, h, hfin]

/-- A token of another number than 0 without a record has completed when its number has been issued (R171). -/
theorem tokTest_of_not_found {x : Thread} {v : Nat} (hv : v ≠ 0) (h : x.toks.find? (fun j => j.seq == v) = none) :
    tokTest x v = (x.lapped || decide (v ≤ x.seq)) := by
  simp only [tokTest, tokState, hv, h, if_false]
  by_cases hlapped : x.lapped = true <;> by_cases hle : v ≤ x.seq <;> simp [hlapped, hle]

/-- The units that a fence selects: all for a mask of 0, else those whose bit is set (R171). -/
theorem testBit_fenceMask {imm unit : Nat} (hunit : unit < 12) :
    (fenceMask imm).testBit unit = true ↔ imm % 4096 = 0 ∨ imm.testBit unit = true := by
  have hmod : (imm % 4096).testBit unit = imm.testBit unit := by
    rw [show 4096 = 2 ^ 12 from rfl, Nat.testBit_mod_two_pow]
    simp [hunit]
  by_cases h : imm % 4096 = 0
  · have hall : (4095).testBit unit = true := by interval_cases unit <;> rfl
    simp [fenceMask, h, hall]
  · simp [fenceMask, h, hmod]

/-- What sync.fence asks of the window: no open token of a unit that it selects (R171). -/
theorem fence_all_iff {x : Thread} {imm : Nat} : x.toks.all (fun k => k.fin.isSome || !(fenceMask imm).testBit k.unit) = true ↔
    ∀ k ∈ x.toks, k.fin = none → (fenceMask imm).testBit k.unit = false := by
  simp only [List.all_eq_true, Bool.or_eq_true, Bool.not_eq_true', Option.isSome_iff_ne_none, or_iff_not_imp_left, ne_eq, not_not]

section
variable {s u : State} {a : Fin 96} {t : Fin 64} {w ext : Nat} (hiss : Issues s a t w ext u)
include hiss

section
variable (hc : iCls w = 0x6)
include hc

section
variable {v : Nat} (hv : v = ((u.th a t).sreg (iRa w)).toNat % 2 ^ 32) (hf : iFunc w = 0x0)
include hv hf

/-- sync.wait on a token that has completed, or has left the window, gives its status or FAIL (R171). -/
theorem exec_syncWait_of_over {c : Status}
    (hstate : tokState (u.th a t) v = .done c ∨ tokState (u.th a t) v = .old ∧ c = (u.th a t).fail) :
    exec (.syncWait a t) s = .next (u.setTh a t (((u.th a t).setS (iRd w) (BitVec.ofNat 64 c.code)).after w)) := by
  subst hv
  rw [exec_syncWait, execSyncWait, issue_eq_of_fields hiss hc hf, ← writeS_of_issues hiss, writeS]
  rcases hstate with h | ⟨h, rfl⟩ <;> simp only [syncWait, h]

theorem exec_syncWait_of_running (hstate : tokState (u.th a t) v = .running) :
    exec (.syncWait a t) s = .next (u.setTh a t { u.th a t with st := .wait, wait := .tok (iRd w) v, waitAt := u.now }) := by
  subst hv
  rw [exec_syncWait, execSyncWait, issue_eq_of_fields hiss hc hf]
  simp only [syncWait, hstate, waitFor]

theorem exec_syncWait_of_future (hstate : tokState (u.th a t) v = .future) : exec (.syncWait a t) s = .next (progFault a t 0x06 u) := by
  subst hv
  rw [exec_syncWait, execSyncWait, issue_eq_of_fields hiss hc hf]
  simp only [syncWait, hstate]

end

theorem exec_syncTest_of_issues (hf : iFunc w = 0x1) : exec (.syncTest a t) s = .next (u.setTh a t (Thread.after { u.th a t with
    p := predWrite (u.th a t).p (iRd w % 8) (tokTest (u.th a t) (((u.th a t).sreg (iRa w)).toNat % 2 ^ 32)) } w)) := by
  rw [exec_syncTest, execSyncTest, issue_eq_of_fields hiss hc hf, ← writeP_of_issues hiss]
  rfl

/-- sync.waitall goes on with FAIL when no token is open, else waits (R171). -/
theorem exec_syncWaitall_of_issues (hf : iFunc w = 0x2) : exec (.syncWaitall a t) s = .next (
    if (u.th a t).pending = 0 then u.setTh a t (((u.th a t).setS (iRd w) (BitVec.ofNat 64 (u.th a t).fail.code)).after w)
    else u.setTh a t { u.th a t with st := .wait, wait := .all (iRd w), waitAt := u.now }) := by
  rw [exec_syncWaitall, execSyncWaitall, issue_eq_of_fields hiss hc hf, ← writeS_of_issues hiss]
  rfl

/-- sync.fence goes on when no open token is of a unit that it selects, else waits (R171). -/
theorem exec_syncFence_of_issues (hf : iFunc w = 0x3) : exec (.syncFence a t) s = .next (
    if (u.th a t).toks.all (fun k => k.fin.isSome || !(fenceMask (iImm w)).testBit k.unit) then u.setTh a t ((u.th a t).after w)
    else u.setTh a t { u.th a t with st := .wait, wait := .fence (fenceMask (iImm w)), waitAt := u.now }) := by
  rw [exec_syncFence, execSyncFence, issue_eq_of_fields hiss hc hf, ← advance_of_issues hiss]
  rfl

end

/-- Each of red, mv.load and coll.done waits at a full window, its token not taken (R152, R169). -/
theorem exec_async_of_windowFull (hfull : windowFull (u.th a t) = true) :
    (iCls w = 0x5 → iFunc w = 0xC → exec (.red a t) s = .next (waitFor a t (.slot 31) u)) ∧
    (iCls w = 0xA → iFunc w = 0x0 → exec (.mvLoad a t) s = .next (waitFor a t (.slot 31) u)) ∧
    (iCls w = 0xD → iFunc w = 0x2 → exec (.collDone a t) s = .next (waitFor a t (.slot 31) u)) := by
  refine ⟨fun hc hf => ?_, fun hc hf => ?_, fun hc hf => ?_⟩
  · rw [exec_red, execRed, issue_eq_of_fields hiss hc hf]
    simp only [issueAsync_full _ _ _ _ _ _ hfull]
  · rw [exec_mvLoad, execMvLoad, mvIssue, issue_eq_of_fields hiss hc hf]
    simp only [issueAsync_full _ _ _ _ _ _ hfull]
  · rw [exec_collDone, execCollDone, collIssue, issue_eq_of_fields hiss hc hf]
    simp [issueAsync_full _ _ _ _ _ _ hfull]

end

/-- Settles O20: each instruction by its lemma above, its condition put in the words of R171; that sync.fence never waits for unit 11 is the model's
reading (log entry 50). -/
theorem tokenInstructions : Obligations.TokenInstructions := by
  unfold Obligations.TokenInstructions
  constructor
  · rintro a t s u w ext v x hiss hc rfl hv
    refine ⟨fun hf c h => exec_syncWait_of_over hiss hc hv hf (.inl h), fun hf h => exec_syncWait_of_over hiss hc hv hf (.inr ⟨h, rfl⟩),
      exec_syncWait_of_running hiss hc hv, exec_syncWait_of_future hiss hc hv, fun hf => ?_, fun hf h => ?_, fun hf h => ?_, fun hf h hunit => ?_,
      fun hf h => ?_⟩
    · rw [exec_syncTest_of_issues hiss hc hf, ← hv]
      by_cases hzero : v = 0
      · simp [hzero, tokTest, tokState]
      · cases hfind : (u.th a t).toks.find? (fun j => j.seq == v) with
        | none => simp [hzero, tokTest_of_not_found hzero hfind]
        | some k => simp [hzero, tokTest_of_found hzero hfind]
    · rw [exec_syncWaitall_of_issues hiss hc hf, if_pos ((Thread.pending_eq_zero_iff _).2 h)]
    · obtain ⟨k, hk, hopen⟩ := h
      rw [exec_syncWaitall_of_issues hiss hc hf, if_neg fun hzero => (Thread.pending_eq_zero_iff _).1 hzero k hk hopen]
    · rw [exec_syncFence_of_issues hiss hc hf, if_pos (fence_all_iff.2 fun k hk hopen => ?_)]
      obtain ⟨hmask, hbit⟩ := h k hk hopen
      rw [Bool.eq_false_iff, ne_eq, testBit_fenceMask (hunit k hk), hbit]
      simp [hmask]
    · obtain ⟨k, hk, hopen, hunit, hsel⟩ := h
      refine ⟨_, (exec_syncFence_of_issues hiss hc hf).trans (congrArg _ (if_neg fun hall => ?_))⟩
      have hclear := fence_all_iff.1 hall k hk hopen
      rw [(testBit_fenceMask hunit).2 hsel] at hclear
      exact absurd hclear (by decide)
  · rintro a t s u w ext k x hiss rfl hk hslot hopen
    exact exec_async_of_windowFull hiss (windowFull_of_mem hk hslot hopen)

end Sys2Proof.Machine
end

section
/-! PROOFS. Barriers (O21) and the completion of tokens (O22) (R151, R152, R170, R172, R173). -/

namespace Sys2Proof.Machine

/-! ### Arrivals at a barrier (O21) -/

@[simp] theorem progFault_bars (a t c : Nat) (s : State) : (progFault a t c s).bars = s.bars := haltThread_bars ..

theorem th_progFault_of_ne {a t j k : Nat} (c : Nat) (s : State) (h : 64 * j + k ≠ 64 * a + t) : (progFault a t c s).th j k = s.th j k :=
  th_haltThread_of_ne _ s h

@[simp] theorem goTo_bars (a t : Nat) (pc : Int) (s : State) : (goTo a t pc s).bars = s.bars := by
  unfold goTo
  split <;> simp

theorem th_goTo_of_ne {a t j k : Nat} (pc : Int) (s : State) (h : 64 * j + k ≠ 64 * a + t) : (goTo a t pc s).th j k = s.th j k := by
  unfold goTo
  split
  · exact State.th_setTh_of_ne _ _ h
  · exact th_progFault_of_ne _ s h

@[simp] theorem resume_bars (a t rd : Nat) (v : W64) (s : State) : (resume a t rd v s).bars = s.bars := by simp [resume]

theorem th_resume_of_ne {a t j k : Nat} (rd : Nat) (v : W64) (s : State) (h : 64 * j + k ≠ 64 * a + t) :
    (resume a t rd v s).th j k = s.th j k := by
  unfold resume
  rw [th_goTo_of_ne _ _ h, State.th_setTh_of_ne _ _ h]

@[simp] theorem releaseBar_bars (a : Nat) (ts : List Nat) (s : State) : (releaseBar a ts s).bars = s.bars := by
  unfold releaseBar
  refine List.foldlRecOn (motive := fun u : State => u.bars = s.bars) _ _ rfl fun u hu j _ => ?_
  dsimp only
  split
  · split
    · rw [resume_bars, hu]
    · exact hu
  · exact hu

/-- A release leaves the threads of the array that are not on its list. -/
theorem th_releaseBar_of_not_mem {a t : Nat} {ts : List Nat} (s : State) (h : t ∉ ts) : (releaseBar a ts s).th a t = s.th a t := by
  unfold releaseBar
  refine List.foldlRecOn (motive := fun u : State => u.th a t = s.th a t) _ _ rfl fun u hu j hj => ?_
  have hne : 64 * a + t ≠ 64 * a + j := fun heq => h (by rwa [Nat.add_left_cancel heq])
  dsimp only
  split
  · split
    · rw [th_resume_of_ne _ _ _ hne, hu]
    · exact hu
  · exact hu

/-- The last thread on the list of a release, which waits at the barrier, goes on after its instruction. -/
theorem th_releaseBar_last {a t b : Nat} {ts : List Nat} {s : State} (h : t ∉ ts) (hst : (s.th a t).st = .wait) (hwait : (s.th a t).wait = .bar b)
    (hpc : (s.th a t).pc + 1 < psWords) :
    (releaseBar a (ts ++ [t]) s).th a t = { s.th a t with st := .ready, wait := .none, pc := (s.th a t).pc + 1 } := by
  have hth := th_releaseBar_of_not_mem (a := a) s h
  have hlast : releaseBar a (ts ++ [t]) s = releaseBar a [t] (releaseBar a ts s) := by simp [releaseBar]
  have hone : releaseBar a [t] (releaseBar a ts s) = resume a t 0 0 (releaseBar a ts s) := by
    simp only [releaseBar, List.foldl_cons, List.foldl_nil] at hth ⊢
    simp only [hth, hwait, hst, if_true]
  rw [hlast, hone, resume_eq 0 0 (by rwa [hth]), State.th_setTh_self, hth, Thread.setS_zero]

section
variable {a t k n : Nat} {b : Barrier} {s : State}

@[simp] theorem setBar_th (key j i : Nat) (o : Option Barrier) (u : State) : (setBar key o u).th j i = u.th j i := rfl

/-- An arrival below the count waits and is counted (R173). -/
theorem barArrive_of_short (h : b.arrived.length + 1 < n) :
    (barArrive a t k n b s).th a t = { s.th a t with st := .wait, wait := .bar k, waitAt := s.now } ∧
      SMap.get? (barArrive a t k n b s).bars (16 * a + k) = some { b with arrived := b.arrived ++ [t] } := by
  have hshort : ¬ (b.arrived ++ [t]).length ≥ n := by simpa using h
  rw [barArrive, if_neg hshort]
  exact ⟨by rw [setBar_th, waitFor, State.th_setTh_self], SMap.get?_put_self ..⟩

/-- The arrival that makes the count leaves the barrier idle, and its own thread goes on (R173). -/
theorem barArrive_of_last (h : n ≤ b.arrived.length + 1) (ht : t ∉ b.arrived) (hpc : (s.th a t).pc + 1 < psWords) :
    SMap.get? (barArrive a t k n b s).bars (16 * a + k) = none ∧ ((barArrive a t k n b s).th a t).st = .ready ∧
      ((barArrive a t k n b s).th a t).pc = (s.th a t).pc + 1 := by
  have hlast : (b.arrived ++ [t]).length ≥ n := by simpa using h
  have hth : (setBar (16 * a + k) none (waitFor a t (.bar k) s)).th a t = { s.th a t with st := .wait, wait := .bar k, waitAt := s.now } := by
    rw [setBar_th, waitFor, State.th_setTh_self]
  rw [barArrive, if_pos hlast, releaseBar_bars, th_releaseBar_last ht (by rw [hth]) (by rw [hth]) (by rwa [hth]), hth]
  exact ⟨SMap.get?_del_self .., rfl, rfl⟩

end

/-- An arrival with a count in range joins the barrier that its item owns with that count, or begins an idle one (R173). -/
theorem syncBar_of_idle {a t w : Nat} {u : State} (hn : 1 ≤ bits (iImm w) 11 4 ∧ bits (iImm w) 11 4 ≤ 64)
    (hb : SMap.get? u.bars (16 * a + iImm w % 16) = none) : syncBar a t w u =
      barArrive a t (iImm w % 16) (bits (iImm w) 11 4) ⟨(u.th a t).item, bits (iImm w) 11 4, []⟩ u := by
  rw [syncBar, if_neg (by omega), hb]

theorem syncBar_of_owned {a t w : Nat} {u : State} {b : Barrier} (hn : 1 ≤ bits (iImm w) 11 4 ∧ bits (iImm w) 11 4 ≤ 64)
    (hb : SMap.get? u.bars (16 * a + iImm w % 16) = some b) : syncBar a t w u =
      if bits (iImm w) 11 4 ≠ b.count then progFault a t 0x07 u
      else if b.item ≠ (u.th a t).item then progFault a t 0x08 u
      else barArrive a t (iImm w % 16) (bits (iImm w) 11 4) b u := by
  rw [syncBar, if_neg (by omega), hb]

/-- Settles O21: the row runs `syncBar`, which is an arrival (`barArrive_of_short`, `barArrive_of_last`) or a fault. That another count is looked at
before the owner is the model's choice (log entry 167). -/
theorem barrierArrivals : Obligations.BarrierArrivals := by
  unfold Obligations.BarrierArrivals
  rintro a t s u w ext n k x hiss hc hf rfl rfl rfl
  have hexec : exec (.syncBar a t) s = .next (syncBar a t w u) := by rw [exec_syncBar, execSyncBar, issue_eq_of_fields hiss hc hf]
  have hpc : (u.th a t).pc + 1 < psWords := by
    have hlen : 1 ≤ iLen w := by unfold iLen; split <;> decide
    have := pc_lt_of_issues hiss
    omega
  rw [hexec]
  refine ⟨fun h1 h2 hb => ⟨_, rfl, ?_⟩, fun b h1 h2 hb hcnt hid hshort => ⟨_, rfl, ?_⟩, fun h1 hb => ⟨_, rfl, ?_⟩,
    fun b h1 h2 hb hcnt hid hnew hlast => ⟨_, rfl, ?_⟩, fun hn => ?_, fun b h1 h2 hb hcnt => ?_, fun b h1 h2 hb hcnt hid => ?_⟩
  · rw [syncBar_of_idle ⟨by omega, h2⟩ hb]
    exact barArrive_of_short h1
  · obtain ⟨item, count, arrived⟩ := b
    obtain rfl : count = _ := hcnt
    obtain rfl : item = _ := hid
    rw [syncBar_of_owned ⟨h1, h2⟩ hb, if_neg (by simp), if_neg (by simp)]
    exact barArrive_of_short hshort
  · rw [syncBar_of_idle (by omega) hb]
    exact barArrive_of_last (by simp [h1]) (by simp) hpc
  · rw [syncBar_of_owned ⟨h1, h2⟩ hb, if_neg (by simp [hcnt]), if_neg (by simp [hid])]
    exact barArrive_of_last hlast.ge hnew hpc
  · rw [syncBar, if_pos hn]
  · rw [syncBar_of_owned ⟨h1, h2⟩ hb, if_pos (Ne.symm hcnt)]
  · rw [syncBar_of_owned ⟨h1, h2⟩ hb, if_neg (by simp [hcnt]), if_pos hid]

/-! ### Completion (O22) -/

/-- A thread one of whose tokens completes: DONE when it was the last one of a draining thread (R151, R170, R172). -/
def Thread.completed (x : Thread) (seq : Nat) (c : Status) : Thread :=
  if (x.complete seq c).st = .drain ∧ (x.complete seq c).pending = 0 then { x.complete seq c with st := .done } else x.complete seq c

@[simp] theorem Thread.completed_toks (x : Thread) (seq : Nat) (c : Status) :
    (x.completed seq c).toks = x.toks.map (fun j => if j.seq = seq then { j with fin := some c } else j) := by
  unfold Thread.completed
  split <;> rfl

@[simp] theorem Thread.completed_fail (x : Thread) (seq : Nat) (c : Status) :
    (x.completed seq c).fail = if x.fail.completes = true ∧ c.completes = false then c else x.fail := by
  unfold Thread.completed
  split <;> simp [Thread.complete]

theorem Thread.completed_st_of_ready {x : Thread} (seq : Nat) (c : Status) (h : x.st = .ready) : (x.completed seq c).st = .ready := by
  have hst : (x.complete seq c).st = .ready := h
  rw [Thread.completed, if_neg (by simp [hst]), hst]

/-- A draining thread whose open tokens all have the number that completes is DONE (R151). -/
theorem Thread.completed_st_of_drain {x : Thread} {seq : Nat} (c : Status) (h : x.st = .drain) (hlast : ∀ j ∈ x.toks, j.fin = none → j.seq = seq) :
    (x.completed seq c).st = .done := by
  have hpending : (x.complete seq c).pending = 0 := by
    rw [Thread.pending_eq_zero_iff]
    intro k hk
    obtain ⟨j, hj, rfl⟩ := List.mem_map.1 hk
    split
    · simp
    · next hne => exact fun hopen => hne (hlast j hj hopen)
  rw [Thread.completed, if_pos ⟨h, hpending⟩]

/-- A slot that becomes free wakes a waiting thread; every other stays as it is (R152). -/
theorem th_wakeSlot_of_st {a t : Nat} (unit : Nat) {s : State} (h : (s.th a t).st ≠ .wait) : (wakeSlot a unit s).th a t = s.th a t := by
  unfold wakeSlot
  split
  · next j hfind =>
    have hj := List.find?_some hfind
    simp only [decide_eq_true_eq] at hj
    have hne : t ≠ j := fun heq => h (heq ▸ hj.1)
    exact State.th_setTh_of_ne _ _ (by omega)
  · rfl

theorem wakeTok_of_st {a t : Nat} {s : State} (h : (s.th a t).st ≠ .wait) : wakeTok a t s = s := if_pos h

/-- The state in which a token's record, its thread and its item have their status: what waking threads then takes over. -/
def tokNoted (a t : Nat) (k : Tok) (f : Fail) (s : State) : State :=
  if f.st.completes then dropAcc a t k.seq (s.setTh a t ((s.th a t).completed k.seq f.st))
  else itemFail (s.th a t).item f (dropAcc a t k.seq (s.setTh a t ((s.th a t).completed k.seq f.st)))

theorem completeTok_eq (a t : Nat) (k : Tok) (f : Fail) (s : State) : completeTok a t k f s =
    if freesPlace k.unit then wakeSlot a k.unit (wakeTok a t (tokNoted a t k f s)) else wakeTok a t (tokNoted a t k f s) := rfl

@[simp] theorem th_tokNoted_self (a t : Nat) (k : Tok) (f : Fail) (s : State) : (tokNoted a t k f s).th a t = (s.th a t).completed k.seq f.st := by
  unfold tokNoted
  split
  · rw [dropAcc_th, State.th_setTh_self]
  · rw [State.th_of_thr (itemFail_thr ..), dropAcc_th, State.th_setTh_self]

/-- A thread that does not wait is completed and not woken. -/
theorem th_completeTok {a t : Nat} {s : State} (k : Tok) (f : Fail) (h : ((s.th a t).completed k.seq f.st).st ≠ .wait) :
    (completeTok a t k f s).th a t = (s.th a t).completed k.seq f.st := by
  have hst : ((tokNoted a t k f s).th a t).st ≠ .wait := by rwa [th_tokNoted_self]
  rw [completeTok_eq, wakeTok_of_st hst]
  split
  · rw [th_wakeSlot_of_st _ hst, th_tokNoted_self]
  · rw [th_tokNoted_self]

/-- Settles O22: the oldest open token of the unit is the one that completes, by `th_completeTok`, if its work is finished. -/
theorem tokensCompleteInIssueOrder : Obligations.TokensCompleteInIssueOrder := by
  unfold Obligations.TokensCompleteInIssueOrder
  rintro a t unit s k f x rfl hfind
  have hold : oldestOf (s.th a t) unit = some k := hfind
  have hdone (hwork : k.work = some f) : exec (.asyncOpComplete a t unit) s = .next (completeTok a t k f s) := by
    simp only [exec_asyncOpComplete, execAsyncOpComplete, hold, hwork]
  refine ⟨fun hwork => ?_, fun hwork hready _ => ⟨_, hdone hwork, ?_, ?_, completeTok_mem ..⟩, fun hwork hdrain hlast => ⟨_, hdone hwork, ?_⟩⟩
  · simp only [exec_asyncOpComplete, execAsyncOpComplete, hold, hwork]
  · rw [th_completeTok k f (by simp [Thread.completed_st_of_ready _ _ hready]), Thread.completed_toks]
  · rw [th_completeTok k f (by simp [Thread.completed_st_of_ready _ _ hready]), Thread.completed_fail]
  · have hst := Thread.completed_st_of_drain f.st hdrain hlast
    rw [th_completeTok k f (by simp [hst]), hst]

end Sys2Proof.Machine
end
